-- ==== Sys2Proof/Word.lean ====
section
/-!
DEFINITION. The word types of the Jarold JX8 (R2, R31): 64-bit words, and the fields that name registers.
-/

namespace Sys2Proof

/-- A 64-bit word. -/
abbrev W64 := BitVec 64

/-- A byte of memory. -/
abbrev Byte := BitVec 8

/-- A field that names one of g0 to g31. -/
abbrev GReg := BitVec 5

/-- A field that names one of v0 to v15. -/
abbrev VReg := BitVec 4

/-- A field that names one of b0 to b7. -/
abbrev PReg := BitVec 3

/-- A field that names one of m0 to m3, dt0 to dt3 or a0 to a3. -/
abbrev MReg := BitVec 2

end Sys2Proof
end

