-- ==== Sys2Proof/Config.lean ====
section
/-!
DEFINITION. What the spec fixes for this part as numbers, and the free values: values that the spec leaves open
and that nothing in the model can evaluate. Each free value is an opaque constant applied to the counter
`State.free`, so that no two uses share one (log entry 1).
-/

namespace Sys2Proof.Config

/-- A free natural number: which handle, task index, generation, placement, or member of an allowed set the
device chooses (R241, R246, R268, R283, R379). -/
opaque freeNat : Nat → Nat

/-- The bank group that the device chooses for a block of an object (R241): a free value of the allocation and the
block. -/
opaque freePlace : Nat → Nat → Nat

/-- The first generation of an Answer Table way, of a task record (R379), before its range is taken. -/
opaque firstGen : Nat → Nat

/-- The first lnum of a tenant, and the first transfer id of a core (R379), before their ranges are taken. -/
opaque firstId : Nat → Nat

/-- A signature by the device identity over a list of words: R371 names the scheme and leaves the key, and with
it the value, to the device. -/
opaque signature : List W64 → List W64

/-- The identity secret (R371), which never leaves the security block. -/
opaque identitySecret : List Byte

/-- Whether the signature of a flash image verifies (R372, R375): the firmware key is not in the spec. -/
opaque imageSigned : List Byte → Bool

/-- Whether a repair record verifies against the identity key (R372), which is not in the spec. -/
opaque repairSigned : List Byte → Bool

/-- What a repair record says (R372), whose form is not in the spec: cleared `coremask` bits as core addresses, failed TCM
rows as 16 · core + bank, failed scratchpad banks as clusters, and bank groups out of service. -/
opaque repairSays : List Byte → List Nat × List Nat × List Nat × List Nat

/-- The bytes of the repair record to which firmware has appended field repairs (R372), each a kind (0 a TCM row, 1 a TCM
bank, 2 a scratchpad bank, 3 a bank group) and a unit, signed anew. -/
opaque repairWith : List Byte → List (Nat × Nat) → List Byte

/-- The row of its bank that holds the word at an offset of a TCM (R149): the spec does not state how words lie in rows. -/
opaque rowOf : Nat → Nat

/-- Whether a slice that records so many blocks can record so many more (R325): the spec gives it no capacity. -/
opaque sliceRecords : Nat → Nat → Bool

end Sys2Proof.Config
end

