-- ==== Sys2Proof/Machine/SMap.lean ====
section
/-!
DEFINITION. Sparse maps from keys to values: a list of pairs in one canonical form, keys strictly rising and no
value equal to what an unlisted key reads as. Memory and every table of the machine that is mostly empty is held
so, and equal contents are equal data.
-/

namespace Sys2Proof

/-- A sparse map. Read it only through `smGet`. -/
abbrev SMap (α : Type) := List (Nat × α)

namespace Machine

/-- The value at key n; an unlisted key reads as d. -/
def smGet {α : Type} (d : α) : SMap α → Nat → α
  | [], _ => d
  | (k, v) :: t, n => if k = n then v else smGet d t n

/-- The map without key n. -/
def smErase {α : Type} (m : SMap α) (n : Nat) : SMap α := m.filter fun p => p.1 != n

/-- Put key n into a map that does not list it, at its place in the order. -/
def smInsert {α : Type} (n : Nat) (v : α) : SMap α → SMap α
  | [] => [(n, v)]
  | (k, w) :: t => if n < k then (n, v) :: (k, w) :: t else (k, w) :: smInsert n v t

/-- Write value v at key n. Writing what an unlisted key reads as removes the entry. -/
def smSet {α : Type} [DecidableEq α] (d : α) (m : SMap α) (n : Nat) (v : α) : SMap α :=
  if v = d then smErase m n else smInsert n v (smErase m n)

/-- Change the value at key n. -/
def smMod {α : Type} [DecidableEq α] (d : α) (m : SMap α) (n : Nat) (f : α → α) : SMap α :=
  smSet d m n (f (smGet d m n))

/-- The keys listed are strictly rising. -/
def smSorted {α : Type} : SMap α → Bool
  | [] => true
  | [_] => true
  | (k, _) :: (k', v') :: t => decide (k < k') && smSorted ((k', v') :: t)

/-- The canonical form of a sparse map. -/
def smWf {α : Type} [DecidableEq α] (d : α) (m : SMap α) : Bool :=
  smSorted m && m.all fun p => decide (p.2 ≠ d)

end Machine
end Sys2Proof
end

