-- ==== Sys2Proof/Syntax.lean ====
section
/-!
DEFINITION. The instructions of the Jarold JX8 (spec/02_encoding.md, spec/opcode_table.json): one constructor
for each row of the opcode table. The C-words and A-words carry their guard and their fields cut to the exact
widths of the encoding; the rows that no instruction encodes are steps of the device and carry the agent, slot,
packet or host input they are about.
-/

namespace Sys2Proof

/-- What a peer exports for a tenant (R368): a size in bytes, rights (r, w), and the blocks that do not resolve there. -/
structure Export where
  tenant : Nat
  size   : Nat
  rights : BitVec 4
  gone   : List Nat
  deriving DecidableEq, Repr

/-- The guard of one half (R26): a predicate and a negate bit. -/
structure Guard where
  p   : PReg
  neg : Bool
  deriving DecidableEq, Repr

/-- The guard b0 with negate 0: always executes. -/
def Guard.always : Guard := ⟨0, false⟩

/-- The guard b0 with negate 1: never executes (R27). -/
def Guard.never : Guard := ⟨0, true⟩

/-- R27: a half that is not guarded "never". -/
def Guard.runs (g : Guard) : Bool := g != Guard.never

/-- Element types of vector and conversion instructions (R37). -/
inductive ETy where
  | i8 | i16 | i32 | i64 | f16 | bf16 | f32 | f64
  deriving DecidableEq, Repr

/-- R37: types 4 to 7 are floating point. -/
def ETy.isFp : ETy → Bool
  | .f16 | .bf16 | .f32 | .f64 => true
  | .i8 | .i16 | .i32 | .i64 => false

/-- The width of an element type in bits (R37). -/
def ETy.width : ETy → Nat
  | .i8 => 8
  | .i16 | .f16 | .bf16 => 16
  | .i32 | .f32 => 32
  | .i64 | .f64 => 64

/-- Scalar floating-point types, chosen by the bit P (R36). -/
inductive FTy where
  | s | d
  deriving DecidableEq, Repr

/-- The operations of `amo` and `tam` (R35). -/
inductive AtomOp where
  | add | and | or | xor | min | max | minu | maxu | swap
  deriving DecidableEq, Repr

/-- The order field of loads (R33). -/
inductive LdOrd where
  | plain | relaxed | acq
  deriving DecidableEq, Repr

/-- The order field of stores (R33). -/
inductive StOrd where
  | plain | relaxed | rel
  deriving DecidableEq, Repr

/-- The order field of the AMO major (R33). -/
inductive AmOrd where
  | plain | relaxed | acq | rel
  deriving DecidableEq, Repr

/-- The window code of `qpush` and `qpop` (R34): the value of `qwin`, or 0 cycles, or 2^(k-1) cycles. -/
inductive Win where
  | qwin
  | code (k : BitVec 3)
  deriving DecidableEq, Repr

/-- Conditions of `cmp` (R36). -/
inductive CmpCond where
  | eq | ne | lt | ge | ltu | geu
  deriving DecidableEq, Repr

/-- Conditions of `fcmp` (R36). -/
inductive FCond where
  | eq | lt | le | un
  deriving DecidableEq, Repr

/-- Conditions of `vcmp` (R38). -/
inductive VCond where
  | eq | ne | lt | le | ltu | leu | un
  deriving DecidableEq, Repr

/-- R38: `ltu` and `leu` take integer types only, `un` takes floating-point types only. -/
def VCond.okFor (c : VCond) (t : ETy) : Bool :=
  match c with
  | .ltu | .leu => !t.isFp
  | .un => t.isFp
  | .eq | .ne | .lt | .le => true

/-- Every instruction, and every step of the device, of spec/opcode_table.json. -/
inductive Instr where
  -- C-words
  /-- CNOP, R119. -/
  | cnop (gd : Guard)
  /-- ISYNC, R104. -/
  | isync (gd : Guard)
  /-- ERET, R117. -/
  | eret (gd : Guard)
  /-- BRK, R118. -/
  | brk (gd : Guard)
  /-- RET, R106. -/
  | ret (gd : Guard)
  /-- JR, R106. -/
  | jr (gd : Guard) (a : GReg)
  /-- JLR, R106. -/
  | jlr (gd : Guard) (a : GReg)
  /-- LEAVE, R112. -/
  | leave (gd : Guard)
  /-- QUIT, R72. -/
  | quit (gd : Guard)
  /-- SPLIT, R75. -/
  | split (gd : Guard)
  /-- UIRET, R347. -/
  | uiret (gd : Guard)
  /-- TRAP, R118. -/
  | trap (gd : Guard) (i : BitVec 11)
  /-- B, R105. -/
  | br (gd : Guard) (off : BitVec 21)
  /-- JL, R105. -/
  | jl (gd : Guard) (off : BitVec 21)
  /-- J, R105. -/
  | j (gd : Guard) (off : BitVec 21) (imm : BitVec 32)
  /-- LPD, R107. -/
  | lpd (gd : Guard) (d : GReg) (off : BitVec 16)
  /-- ENTER, R111. -/
  | enter (gd : Guard) (i : BitVec 11)
  /-- CRD, R78. -/
  | crd (gd : Guard) (d : GReg) (i : BitVec 11)
  /-- CWR, R78. -/
  | cwr (gd : Guard) (a : GReg) (i : BitVec 11)
  /-- CRSET, R78. -/
  | crset (gd : Guard) (d : GReg) (a : GReg) (i : BitVec 11)
  /-- CRCLR, R78. -/
  | crclr (gd : Guard) (d : GReg) (a : GReg) (i : BitVec 11)
  /-- SPAWN, R71. -/
  | spawn (gd : Guard) (d : GReg) (a : GReg) (b : GReg) (opts : BitVec 3)
  /-- WAIT, R73. -/
  | wait (gd : Guard) (a : GReg)
  /-- GANG, R75. -/
  | gang (gd : Guard) (d : GReg)
  /-- WFLD, R76. -/
  | wfld (gd : Guard) (d : GReg) (k : BitVec 5)
  /-- KILL, R74. -/
  | kill (gd : Guard) (d : GReg) (a : GReg) (k : BitVec 5)
  /-- CMAP, R77. -/
  | cmap (gd : Guard) (d : GReg) (a : GReg)
  /-- LDB, R156. -/
  | ldb (gd : Guard) (d : GReg) (a : GReg) (o : LdOrd) (i : BitVec 9)
  /-- LDH, R156. -/
  | ldh (gd : Guard) (d : GReg) (a : GReg) (o : LdOrd) (i : BitVec 9)
  /-- LDW, R156. -/
  | ldw (gd : Guard) (d : GReg) (a : GReg) (o : LdOrd) (i : BitVec 9)
  /-- LDD, R156. -/
  | ldd (gd : Guard) (d : GReg) (a : GReg) (o : LdOrd) (i : BitVec 9)
  /-- LDBZ, R156. -/
  | ldbz (gd : Guard) (d : GReg) (a : GReg) (o : LdOrd) (i : BitVec 9)
  /-- LDHZ, R156. -/
  | ldhz (gd : Guard) (d : GReg) (a : GReg) (o : LdOrd) (i : BitVec 9)
  /-- LDWZ, R156. -/
  | ldwz (gd : Guard) (d : GReg) (a : GReg) (o : LdOrd) (i : BitVec 9)
  /-- LDV, R157. -/
  | ldv (gd : Guard) (d : VReg) (a : GReg) (o : LdOrd) (i : BitVec 9)
  /-- STB, R156. -/
  | stb (gd : Guard) (d : GReg) (a : GReg) (o : StOrd) (i : BitVec 9)
  /-- STH, R156. -/
  | sth (gd : Guard) (d : GReg) (a : GReg) (o : StOrd) (i : BitVec 9)
  /-- STW, R156. -/
  | stw (gd : Guard) (d : GReg) (a : GReg) (o : StOrd) (i : BitVec 9)
  /-- STD, R156. -/
  | std (gd : Guard) (d : GReg) (a : GReg) (o : StOrd) (i : BitVec 9)
  /-- STV, R157. -/
  | stv (gd : Guard) (d : VReg) (a : GReg) (o : StOrd) (i : BitVec 9)
  /-- LDS, R163. -/
  | lds (gd : Guard) (d : GReg) (a : GReg)
  /-- STS, R163. -/
  | sts (gd : Guard) (d : GReg) (a : GReg)
  /-- SHP, R162. -/
  | shp (gd : Guard) (d : GReg) (a : GReg) (b : GReg)
  /-- TFADD, R159. -/
  | tfadd (gd : Guard) (d : GReg) (a : GReg) (b : GReg)
  /-- RDR, R160. -/
  | rdr (gd : Guard) (d : VReg) (a : GReg) (n : BitVec 4)
  /-- MIGR, R164. -/
  | migr (gd : Guard) (a : GReg)
  /-- TAM, R158. -/
  | tam (gd : Guard) (d : GReg) (a : GReg) (b : GReg) (op : AtomOp)
  /-- LEA, R165. -/
  | lea (gd : Guard) (d : GReg) (a : GReg) (i : BitVec 11)
  /-- DTLD, R138. -/
  | dtld (gd : Guard) (t : MReg) (a : GReg)
  /-- DTST, R138. -/
  | dtst (gd : Guard) (t : MReg) (a : GReg)
  /-- SEND, R200. -/
  | send (gd : Guard) (d : GReg) (a : GReg) (v : VReg) (mb : BitVec 4)
  /-- SEND_L, R201. -/
  | sendL (gd : Guard) (a : GReg) (b : GReg) (tag : BitVec 4) (len : BitVec 12)
  /-- RECV, R202. -/
  | recv (gd : Guard) (d : GReg) (a : GReg) (v : VReg)
  /-- MBC, R204. -/
  | mbc (gd : Guard) (d : GReg) (k : BitVec 4)
  /-- WAITC, R203. -/
  | waitc (gd : Guard) (d : GReg) (a : GReg) (k : BitVec 4)
  /-- MBCLR, R205. -/
  | mbclr (gd : Guard) (d : GReg) (a : GReg)
  /-- MCAST, R206. -/
  | mcast (gd : Guard) (d : GReg) (a : GReg)
  /-- MCLAIM, R226. -/
  | mclaim (gd : Guard) (d : GReg) (soft : Bool)
  /-- MREL, R227. -/
  | mrel (gd : Guard)
  /-- MZERO, R228. -/
  | mzero (gd : Guard) (t : MReg)
  /-- MLOAD, R228. -/
  | mload (gd : Guard) (t : MReg) (a : GReg) (b : GReg)
  /-- MDRAIN, R230. -/
  | mdrain (gd : Guard) (t : MReg) (a : GReg) (b : GReg)
  /-- MDRAINR, R232. -/
  | mdrainr (gd : Guard) (d : GReg) (a : GReg) (b : GReg)
  /-- MCMD, R233. -/
  | mcmd (gd : Guard) (d : GReg) (a : GReg) (b : GReg)
  /-- MSTAT, R234. -/
  | mstat (gd : Guard) (d : GReg) (clr : Bool)
  /-- MMAC, R229. -/
  | mmac (gd : Guard) (t : MReg) (a : BitVec 5) (b : BitVec 5) (z : Bool) (bv : Bool) (av : Bool) (sr : BitVec 3) (steps : BitVec 12)
  /-- LDFE, R249. -/
  | ldfe (gd : Guard) (d : GReg) (a : GReg) (o : LdOrd)
  /-- LDFF, R249. -/
  | ldff (gd : Guard) (d : GReg) (a : GReg) (o : LdOrd)
  /-- STEF, R249. -/
  | stef (gd : Guard) (a : GReg) (b : GReg) (o : StOrd)
  /-- STFF, R249. -/
  | stff (gd : Guard) (a : GReg) (b : GReg) (o : StOrd)
  /-- LRW, R252. -/
  | lrw (gd : Guard) (d : GReg) (a : GReg) (o : LdOrd)
  /-- SCH, R252. -/
  | sch (gd : Guard) (a : GReg) (b : GReg) (o : StOrd)
  /-- SDROP, R252. -/
  | sdrop (gd : Guard) (a : GReg) (o : StOrd)
  /-- AMO, R254. -/
  | amo (gd : Guard) (d : GReg) (a : GReg) (b : GReg) (o : AmOrd) (op : AtomOp)
  /-- AFADD, R254. -/
  | afadd (gd : Guard) (d : GReg) (a : GReg) (b : GReg) (o : AmOrd)
  /-- ACAS, R254. -/
  | acas (gd : Guard) (d : GReg) (a : GReg) (b : GReg) (o : AmOrd)
  /-- RUPD, R257. -/
  | rupd (gd : Guard) (a : GReg) (b : GReg) (imm : BitVec 32)
  /-- HALLOC, R246. -/
  | halloc (gd : Guard) (d : GReg) (a : GReg) (b : GReg)
  /-- HFREE, R247. -/
  | hfree (gd : Guard) (d : GReg) (a : GReg)
  /-- HQ, R248. -/
  | hq (gd : Guard) (d : GReg) (a : GReg) (item : BitVec 5)
  /-- QPUSH, R272. -/
  | qpush (gd : Guard) (d : GReg) (a : GReg) (v : VReg) (w : Win) (blk : Bool)
  /-- QPOP, R272. -/
  | qpop (gd : Guard) (d : GReg) (a : GReg) (v : VReg) (w : Win) (blk : Bool)
  /-- QCNT, R274. -/
  | qcnt (gd : Guard) (d : GReg) (a : GReg)
  /-- QMAKE, R275. -/
  | qmake (gd : Guard) (d : GReg) (a : GReg) (b : GReg)
  /-- QFREE, R276. -/
  | qfree (gd : Guard) (d : GReg) (a : GReg)
  /-- TENQ, R287. -/
  | tenq (gd : Guard) (d : GReg) (v : VReg)
  /-- TDEP, R288. -/
  | tdep (gd : Guard) (d : GReg) (a : GReg)
  /-- TCAN, R288. -/
  | tcan (gd : Guard) (d : GReg) (a : GReg)
  /-- SVSL, R294. -/
  | svsl (gd : Guard) (d : GReg) (a : GReg) (b : GReg)
  /-- LDSL, R295. -/
  | ldsl (gd : Guard) (d : GReg) (a : GReg) (b : GReg)
  /-- TINVL, R302. -/
  | tinvl (gd : Guard) (a : GReg) (b : GReg)
  /-- HINV, R302. -/
  | hinv (gd : Guard)
  /-- TCALL, R313. -/
  | tcall (gd : Guard) (d : GReg) (a : GReg) (n : BitVec 3)
  /-- TNEXT, R315. -/
  | tnext (gd : Guard) (d : GReg) (a : GReg) (c : Bool)
  /-- TANS, R314. -/
  | tans (gd : Guard) (a : GReg) (b : GReg)
  /-- TEND, R311. -/
  | tend (gd : Guard) (a : GReg)
  /-- TFAIL, R314. -/
  | tfail (gd : Guard) (a : GReg)
  /-- TINV, R316. -/
  | tinv (gd : Guard) (d : GReg) (a : GReg)
  /-- TSTAT, R316. -/
  | tstat (gd : Guard) (d : GReg) (a : GReg) (item : BitVec 2)
  /-- PTASK, R324. -/
  | ptask (gd : Guard) (d : GReg) (a : GReg) (b : GReg) (k : BitVec 4) (e : GReg)
  /-- CPYQ, R344. -/
  | cpyq (gd : Guard) (d : GReg) (a : GReg) (blk : Bool)
  /-- PERMIT, R345. -/
  | permit (gd : Guard) (d : GReg) (a : GReg) (n : BitVec 4)
  /-- CPST, R346. -/
  | cpst (gd : Guard) (d : GReg) (a : GReg) (item : BitVec 2)
  /-- FENCE, R357. -/
  | fence (gd : Guard)
  /-- FENCE_ACQ, R357. -/
  | fenceAcq (gd : Guard)
  /-- FENCE_REL, R357. -/
  | fenceRel (gd : Guard)
  /-- PARR, R359. -/
  | parr (gd : Guard) (d : GReg) (a : GReg) (b : GReg)
  /-- PWAIT, R359. -/
  | pwait (gd : Guard) (d : GReg) (a : GReg) (b : GReg)
  /-- PINIT, R359. -/
  | pinit (gd : Guard) (d : GReg) (a : GReg) (b : GReg)
  -- A-words
  /-- ANOP, R119. -/
  | anop (gd : Guard)
  /-- ADD, R83. -/
  | add (gd : Guard) (d : GReg) (a : GReg) (b : GReg)
  /-- SUB, R83. -/
  | sub (gd : Guard) (d : GReg) (a : GReg) (b : GReg)
  /-- AND, R83. -/
  | and (gd : Guard) (d : GReg) (a : GReg) (b : GReg)
  /-- OR, R83. -/
  | or (gd : Guard) (d : GReg) (a : GReg) (b : GReg)
  /-- XOR, R83. -/
  | xor (gd : Guard) (d : GReg) (a : GReg) (b : GReg)
  /-- SLL, R83. -/
  | sll (gd : Guard) (d : GReg) (a : GReg) (b : GReg)
  /-- SRL, R83. -/
  | srl (gd : Guard) (d : GReg) (a : GReg) (b : GReg)
  /-- SRA, R83. -/
  | sra (gd : Guard) (d : GReg) (a : GReg) (b : GReg)
  /-- MUL, R83. -/
  | mul (gd : Guard) (d : GReg) (a : GReg) (b : GReg)
  /-- MULH, R83. -/
  | mulh (gd : Guard) (d : GReg) (a : GReg) (b : GReg)
  /-- MULHU, R83. -/
  | mulhu (gd : Guard) (d : GReg) (a : GReg) (b : GReg)
  /-- DIV, R84. -/
  | div (gd : Guard) (d : GReg) (a : GReg) (b : GReg)
  /-- DIVU, R84. -/
  | divu (gd : Guard) (d : GReg) (a : GReg) (b : GReg)
  /-- REM, R84. -/
  | rem (gd : Guard) (d : GReg) (a : GReg) (b : GReg)
  /-- REMU, R84. -/
  | remu (gd : Guard) (d : GReg) (a : GReg) (b : GReg)
  /-- MIN, R83. -/
  | min (gd : Guard) (d : GReg) (a : GReg) (b : GReg)
  /-- MINU, R83. -/
  | minu (gd : Guard) (d : GReg) (a : GReg) (b : GReg)
  /-- MAX, R83. -/
  | max (gd : Guard) (d : GReg) (a : GReg) (b : GReg)
  /-- MAXU, R83. -/
  | maxu (gd : Guard) (d : GReg) (a : GReg) (b : GReg)
  /-- CLZ, R83. -/
  | clz (gd : Guard) (d : GReg) (a : GReg)
  /-- CTZ, R83. -/
  | ctz (gd : Guard) (d : GReg) (a : GReg)
  /-- POPC, R83. -/
  | popc (gd : Guard) (d : GReg) (a : GReg)
  /-- BREV, R83. -/
  | brev (gd : Guard) (d : GReg) (a : GReg)
  /-- ADDI, R85. -/
  | addi (gd : Guard) (d : GReg) (a : GReg) (i : BitVec 12)
  /-- ANDI, R85. -/
  | andi (gd : Guard) (d : GReg) (a : GReg) (i : BitVec 12)
  /-- ORI, R85. -/
  | ori (gd : Guard) (d : GReg) (a : GReg) (i : BitVec 12)
  /-- XORI, R85. -/
  | xori (gd : Guard) (d : GReg) (a : GReg) (i : BitVec 12)
  /-- SLLI, R85. -/
  | slli (gd : Guard) (d : GReg) (a : GReg) (sh : BitVec 6)
  /-- SRLI, R85. -/
  | srli (gd : Guard) (d : GReg) (a : GReg) (sh : BitVec 6)
  /-- SRAI, R85. -/
  | srai (gd : Guard) (d : GReg) (a : GReg) (sh : BitVec 6)
  /-- EXT, R85. -/
  | ext (gd : Guard) (d : GReg) (a : GReg) (pos : BitVec 6) (wm1 : BitVec 6)
  /-- LI, R85. -/
  | li (gd : Guard) (d : GReg) (i : BitVec 17)
  /-- LUI_CHUNK1, R85. -/
  | lui1 (gd : Guard) (d : GReg) (c : BitVec 16)
  /-- LUI_CHUNK2, R85. -/
  | lui2 (gd : Guard) (d : GReg) (c : BitVec 16)
  /-- LUI_CHUNK3, R85. -/
  | lui3 (gd : Guard) (d : GReg) (c : BitVec 16)
  /-- CMP, R86. -/
  | cmp (gd : Guard) (d : PReg) (a : GReg) (b : GReg) (c : CmpCond)
  /-- BAND, R86. -/
  | band (gd : Guard) (d : PReg) (a : PReg) (b : PReg)
  /-- BOR, R86. -/
  | bor (gd : Guard) (d : PReg) (a : PReg) (b : PReg)
  /-- BXOR, R86. -/
  | bxor (gd : Guard) (d : PReg) (a : PReg) (b : PReg)
  /-- BNOT, R86. -/
  | bnot (gd : Guard) (d : PReg) (a : PReg)
  /-- BMOV, R86. -/
  | bmov (gd : Guard) (d : PReg) (a : PReg)
  /-- BPACK, R86. -/
  | bpack (gd : Guard) (d : GReg)
  /-- BUNPK, R86. -/
  | bunpk (gd : Guard) (a : GReg)
  /-- SEL, R86. -/
  | sel (gd : Guard) (d : GReg) (a : GReg) (b : GReg) (p : PReg)
  /-- FADD, R91. -/
  | fadd (gd : Guard) (d : GReg) (a : GReg) (b : GReg) (f : FTy)
  /-- FSUB, R91. -/
  | fsub (gd : Guard) (d : GReg) (a : GReg) (b : GReg) (f : FTy)
  /-- FMUL, R91. -/
  | fmul (gd : Guard) (d : GReg) (a : GReg) (b : GReg) (f : FTy)
  /-- FDIV, R91. -/
  | fdiv (gd : Guard) (d : GReg) (a : GReg) (b : GReg) (f : FTy)
  /-- FSQRT, R91. -/
  | fsqrt (gd : Guard) (d : GReg) (a : GReg) (f : FTy)
  /-- FMIN, R93. -/
  | fmin (gd : Guard) (d : GReg) (a : GReg) (b : GReg) (f : FTy)
  /-- FMAX, R93. -/
  | fmax (gd : Guard) (d : GReg) (a : GReg) (b : GReg) (f : FTy)
  /-- FABS, R94. -/
  | fabs (gd : Guard) (d : GReg) (a : GReg) (f : FTy)
  /-- FNEG, R94. -/
  | fneg (gd : Guard) (d : GReg) (a : GReg) (f : FTy)
  /-- FSGNJ, R94. -/
  | fsgnj (gd : Guard) (d : GReg) (a : GReg) (b : GReg) (f : FTy)
  /-- FCLASS, R95. -/
  | fclass (gd : Guard) (d : GReg) (a : GReg) (f : FTy)
  /-- FCVT, R97. -/
  | fcvt (gd : Guard) (d : GReg) (a : GReg) (f : FTy)
  /-- FCVTI, R97. -/
  | fcvti (gd : Guard) (d : GReg) (a : GReg) (tr : Bool) (u : Bool) (f : FTy)
  /-- ICVTF, R97. -/
  | icvtf (gd : Guard) (d : GReg) (a : GReg) (u : Bool) (f : FTy)
  /-- FMA, R92. -/
  | fma (gd : Guard) (d : GReg) (a : GReg) (b : GReg) (f : FTy)
  /-- FMS, R92. -/
  | fms (gd : Guard) (d : GReg) (a : GReg) (b : GReg) (f : FTy)
  /-- FNMA, R92. -/
  | fnma (gd : Guard) (d : GReg) (a : GReg) (b : GReg) (f : FTy)
  /-- FCMP, R96. -/
  | fcmp (gd : Guard) (d : PReg) (a : GReg) (b : GReg) (f : FTy) (c : FCond)
  /-- VADD, R173. -/
  | vadd (gd : Guard) (d : VReg) (a : VReg) (b : VReg) (t : ETy)
  /-- VSUB, R173. -/
  | vsub (gd : Guard) (d : VReg) (a : VReg) (b : VReg) (t : ETy)
  /-- VMUL, R173. -/
  | vmul (gd : Guard) (d : VReg) (a : VReg) (b : VReg) (t : ETy)
  /-- VMIN, R173. -/
  | vmin (gd : Guard) (d : VReg) (a : VReg) (b : VReg) (t : ETy)
  /-- VMAX, R173. -/
  | vmax (gd : Guard) (d : VReg) (a : VReg) (b : VReg) (t : ETy)
  /-- VABS, R173. -/
  | vabs (gd : Guard) (d : VReg) (a : VReg) (t : ETy)
  /-- VNEG, R173. -/
  | vneg (gd : Guard) (d : VReg) (a : VReg) (t : ETy)
  /-- VAND, R173. -/
  | vand (gd : Guard) (d : VReg) (a : VReg) (b : VReg) (t : ETy)
  /-- VOR, R173. -/
  | vor (gd : Guard) (d : VReg) (a : VReg) (b : VReg) (t : ETy)
  /-- VXOR, R173. -/
  | vxor (gd : Guard) (d : VReg) (a : VReg) (b : VReg) (t : ETy)
  /-- VSLL, R173. -/
  | vsll (gd : Guard) (d : VReg) (a : VReg) (b : VReg) (t : ETy)
  /-- VSRL, R173. -/
  | vsrl (gd : Guard) (d : VReg) (a : VReg) (b : VReg) (t : ETy)
  /-- VSRA, R173. -/
  | vsra (gd : Guard) (d : VReg) (a : VReg) (b : VReg) (t : ETy)
  /-- VMOV, R173. -/
  | vmov (gd : Guard) (d : VReg) (a : VReg) (t : ETy)
  /-- VFMA, R173. -/
  | vfma (gd : Guard) (d : VReg) (a : VReg) (b : VReg) (t : ETy)
  /-- VFMS, R173. -/
  | vfms (gd : Guard) (d : VReg) (a : VReg) (b : VReg) (t : ETy)
  /-- VCMP, R174. -/
  | vcmp (gd : Guard) (d : MReg) (a : VReg) (b : VReg) (t : ETy) (c : VCond)
  /-- VSEL, R175. -/
  | vsel (gd : Guard) (d : VReg) (a : VReg) (b : VReg) (m : MReg)
  /-- VBC, R176. -/
  | vbc (gd : Guard) (d : VReg) (a : GReg) (t : ETy)
  /-- VEXT, R176. -/
  | vext (gd : Guard) (d : GReg) (a : VReg) (i : BitVec 5) (t : ETy)
  /-- VINS, R176. -/
  | vins (gd : Guard) (d : VReg) (a : GReg) (i : BitVec 5) (t : ETy)
  /-- VPERM, R177. -/
  | vperm (gd : Guard) (d : VReg) (a : VReg) (b : VReg) (t : ETy)
  /-- VSLIDE, R177. -/
  | vslide (gd : Guard) (d : VReg) (a : VReg) (sh : BitVec 5) (t : ETy)
  /-- VRED_ADD, R178. -/
  | vredAdd (gd : Guard) (d : VReg) (a : VReg) (t : ETy)
  /-- VRED_MIN, R178. -/
  | vredMin (gd : Guard) (d : VReg) (a : VReg) (t : ETy)
  /-- VRED_MAX, R178. -/
  | vredMax (gd : Guard) (d : VReg) (a : VReg) (t : ETy)
  /-- VSCAN_ADD, R178. -/
  | vscanAdd (gd : Guard) (d : VReg) (a : VReg) (t : ETy)
  /-- VWID, R179. -/
  | vwid (gd : Guard) (d : VReg) (a : VReg) (k : BitVec 5) (t : ETy)
  /-- VNAR, R179. -/
  | vnar (gd : Guard) (d : VReg) (a : VReg) (k : BitVec 5) (t : ETy)
  /-- VEXP2, R180. -/
  | vexp2 (gd : Guard) (d : VReg) (a : VReg) (t : ETy)
  /-- VLOG2, R180. -/
  | vlog2 (gd : Guard) (d : VReg) (a : VReg) (t : ETy)
  /-- VRCP, R180. -/
  | vrcp (gd : Guard) (d : VReg) (a : VReg) (t : ETy)
  /-- VRSQ, R180. -/
  | vrsq (gd : Guard) (d : VReg) (a : VReg) (t : ETy)
  /-- VSQRT, R180. -/
  | vsqrt (gd : Guard) (d : VReg) (a : VReg) (t : ETy)
  /-- VSIN, R180. -/
  | vsin (gd : Guard) (d : VReg) (a : VReg) (t : ETy)
  /-- VCOS, R180. -/
  | vcos (gd : Guard) (d : VReg) (a : VReg) (t : ETy)
  /-- VTANH, R180. -/
  | vtanh (gd : Guard) (d : VReg) (a : VReg) (t : ETy)
  /-- MAND, R175. -/
  | mand (gd : Guard) (d : MReg) (a : MReg) (b : MReg)
  /-- MOR, R175. -/
  | mor (gd : Guard) (d : MReg) (a : MReg) (b : MReg)
  /-- MNOT, R175. -/
  | mnot (gd : Guard) (d : MReg) (a : MReg)
  /-- MPOP, R175. -/
  | mpop (gd : Guard) (d : GReg) (a : MReg)
  /-- REP, R181. -/
  | rep (gd : Guard) (len : BitVec 4) (cnt : BitVec 12) (str : BitVec 3) (st : BitVec 3)
  /-- T8ENC, R139. -/
  | t8enc (gd : Guard) (d : VReg) (a : VReg) (k : BitVec 5) (sr : Bool) (t : ETy) (dt : MReg)
  /-- T8DEC, R139. -/
  | t8dec (gd : Guard) (d : VReg) (a : VReg) (k : BitVec 5) (t : ETy) (dt : MReg)
  /-- VCVT, R140. -/
  | vcvt (gd : Guard) (d : VReg) (a : VReg) (k : BitVec 5) (ts : ETy) (td : ETy) (sr : Bool)
  -- steps of the device that no instruction encodes
  /-- FETCH_MISS_FILL, R101: the line a slot waits for reaches its core. -/
  | fetchMissFill (slot : Nat)
  /-- OPERATION_COMPLETE, R53: a parked operation is over and the slot rejoins. -/
  | operationComplete (slot : Nat)
  /-- CONTEXT_LOADED, R55: an arriving context is whole. -/
  | contextLoaded (slot : Nat)
  /-- DRAIN_COMPLETE, R55: the operation of a slot in DRAIN is over. -/
  | drainComplete (slot : Nat)
  /-- QUIT_COMPLETE, R72: a quitting thread has nothing outstanding. -/
  | quitComplete (slot : Nat)
  /-- WAIT_DEADLINE, R73: the deadline of a wait has come. -/
  | waitDeadline (slot : Nat)
  /-- MIGRATION_PACKET_SEND, R154: a migrating thread leaves its slot. -/
  | migrationPacketSend (slot : Nat)
  /-- MIGRANT_LANDING, R191: a migrant reaches the landing buffer. -/
  | migrantLanding (pkt : Nat)
  /-- LANDING_ADMIT, R191: a landed thread takes a slot. -/
  | landingAdmit (core : Nat)
  /-- SPAWN_PACKET_ARRIVAL, R71: a spawn or rupd packet reaches its core. -/
  | spawnPacketArrival (pkt : Nat)
  /-- SPILL_TO_ADMIT, R193: a slot is spilled to admit a landed thread. -/
  | spillToAdmit (core : Nat)
  /-- SPILL_FOR_CLASS, R289: a slot is spilled for a task of a higher class. -/
  | spillForClass (slot : Nat)
  /-- SPILL_RECORD_WRITTEN, R290, R292: the record of a spilled thread is written, after some failed writes. -/
  | spillRecordWritten (slot : Nat) (fails : Nat)
  /-- RESUME, R293: a spilled thread resumes. -/
  | resume (idx : Nat) (slot : Nat)
  /-- MESSAGE_LANDING, R196: a message of a parked sender lands. -/
  | messageLanding (slot : Nat)
  /-- WAKE_UP_LANDING, R196: a wake-up lands. -/
  | wakeUpLanding (pkt : Nat)
  /-- DATA_LANDING, R196: a data landing of a parked sender lands. -/
  | dataLanding (slot : Nat)
  /-- REMOTE_READ, R160: the owners of a run read it. -/
  | remoteRead (slot : Nat)
  /-- ACCESS_ACCEPTED, R348: arbiters take the access that a slot is parked for (n = 0), or its n-th outstanding store. -/
  | accessAccepted (slot : Nat) (n : Nat)
  /-- FULL_EMPTY_REQUEST, R250: a bank port takes a full/empty request. -/
  | fullEmptyRequest (slot : Nat)
  /-- RESERVATION_REQUEST, R252: a bank port takes a reservation request. -/
  | reservationRequest (slot : Nat)
  /-- PHASE_REQUEST, R359: a bank port takes a phase request. -/
  | phaseRequest (slot : Nat)
  /-- WELT_SWITCH_ARRIVAL, R261: a pairable request reaches a Welt switch. -/
  | weltSwitchArrival (req : Nat)
  /-- PAIRING_WINDOW_EXPIRY, R261: the window of a held request runs out. -/
  | pairingWindowExpiry (req : Nat)
  /-- COMBINED_REPLY_SPLIT, R263: the reply of a combined add is split. -/
  | combinedReplySplit (req : Nat)
  /-- QUEUE_HOME_OPERATION, R268: a queue home takes an operation. -/
  | queueHomeOperation (slot : Nat)
  /-- BLOCK_RELOCATION, R242: a block starts to move. -/
  | blockRelocation (tenant : Nat) (handle : Nat) (block : Nat) (dest : Nat)
  /-- RELOCATION_CUTOVER, R242: a moving block is cut over. -/
  | relocationCutover (tenant : Nat) (handle : Nat) (block : Nat)
  /-- LAYER_FAULT, R243: a layer enters FAULT. -/
  | layerFault (stack : Nat) (layer : Nat)
  /-- LAYER_WAKE, R243: a sleeping layer starts to wake. -/
  | layerWake (stack : Nat) (layer : Nat)
  /-- LAYER_RETURN_ACTIVE, R243: a layer is ACTIVE again. -/
  | layerReturnActive (stack : Nat) (layer : Nat)
  /-- TAP_RETIREMENT, R244: taps of the station under a tile are retired. -/
  | tapRetirement (tile : Nat) (taps : BitVec 2)
  /-- BUS_FAILURE, R244: the vertical bus under a tile fails. -/
  | busFailure (tile : Nat)
  /-- TCM_BANK_RETIREMENT, R149: a TCM bank is retired. -/
  | tcmBankRetirement (core : Nat) (bank : Nat)
  /-- LAUNCH_WINDOW_WRITE, R366: the host writes its launch window. -/
  | launchWindowWrite (fn : Nat) (off : Nat) (data : List W64) (whole : Bool) (stream : Bool)
  /-- LAUNCH_PUSH_STORED, R279: a pushed launch record is stored. -/
  | launchPushStored (fn : Nat)
  /-- LAUNCH_POP, R280: a dispatch unit pops a launch record. -/
  | launchPop (die : Nat) (tenant : Nat)
  /-- LAUNCH_HEADER_ARRIVAL, R280: a header reaches a die. -/
  | launchHeaderArrival (die : Nat) (idx : Nat)
  /-- TASK_DISPATCH, R283: a READY task is dispatched. -/
  | taskDispatch (die : Nat) (task : Nat) (core : Nat)
  /-- CONTAINMENT_RETRY, R62: a dead unit is dispatched again. -/
  | containmentRetry (idx : Nat)
  /-- DISPATCH_COUNT_REPORT, R286: a die reports its counts. -/
  | dispatchCountReport (die : Nat) (idx : Nat)
  /-- THROTTLE_REQUEST, R373: the Orrery sets a throttle level. -/
  | throttleRequest (die : Nat) (level : BitVec 3)
  /-- ORRERY_TICK, R373: the Orrery of a stack takes its sample. -/
  | orreryTick (stack : Nat) (temps : List Byte) (valves : List Byte) (level : BitVec 3) (pwr : BitVec 32) (idle : BitVec 8)
  /-- MATRIX_REMOTE_COMMAND, R233: a remote matrix command reaches its unit. -/
  | matrixRemoteCommand (slot : Nat)
  /-- MATRIX_OP_START, R210: a matrix unit starts its next operation. -/
  | matrixOpStart (core : Nat)
  /-- MATRIX_KSTEP_COMPLETE, R219: a matrix unit completes a K-step. -/
  | matrixKstepComplete (core : Nat)
  /-- COPY_TRANSFER_START, R334: a copy engine takes a request. -/
  | copyTransferStart (core : Nat)
  /-- COPY_CHUNK, R334: a copy engine reads or writes at most n more words of its chunk. -/
  | copyChunk (core : Nat) (id : Nat) (n : Nat)
  /-- PERMIT_REQUEST, R337: a copy engine asks for permits. -/
  | permitRequest (core : Nat) (id : Nat)
  /-- PERMIT_RETRY_TIMEOUT, R337: a refused engine may ask again. -/
  | permitRetryTimeout (core : Nat) (id : Nat)
  /-- COPY_COMPLETION, R343: a transfer is over. -/
  | copyCompletion (core : Nat) (id : Nat)
  /-- COMPLETION_DELIVERY, R340: a completion enters a handler. -/
  | completionDelivery (slot : Nat)
  /-- TRANSLATION_WALK_COMPLETE, R301: a walk is over and its translation is kept. -/
  | translationWalkComplete (die : Nat) (tenant : Nat) (va : Nat)
  /-- COBBLER_ATOMIC, R256: a Cobbler performs a foreign atomic. -/
  | cobblerAtomic (slot : Nat)
  /-- SPDM_GET_MEASUREMENTS, R371: the host asks for the measurements. -/
  | spdmGetMeasurements (fn : Nat) (nonce : List W64)
  /-- IDE_KM, R364: an IDE stream is set up or ends. -/
  | ideKm (fn : Nat) (on : Bool)
  /-- SEAL, R375: the security block seals a data block. -/
  | seal (fn : Nat) (ok : Bool)
  /-- UNSEAL, R375: the security block opens a sealed block. -/
  | unseal (fn : Nat) (ok : Bool)
  /-- FLASH_UPDATE, R375: a new flash image is written. -/
  | flashUpdate (fn : Nat) (ok : Bool)
  /-- HOST_REGISTER_WRITE, R366, R375: the host writes a register or a command slot. -/
  | hostRegisterWrite (fn : Nat) (off : Nat) (data : List W64) (whole : Bool) (stream : Bool)
  /-- PACKAGE_RESET, R372: the package is reset. -/
  | packageReset (masks : List W64) (banks : List Nat) (clusters : List Nat) (groups : List Nat)
  /-- PLANNED_POWER_DOWN, R243: a layer goes to sleep. -/
  | plannedPowerDown (stack : Nat) (layer : Nat)
  /-- SCRATCHPAD_BANK_RETIREMENT, R149: a cluster runs in 32-bank mode. -/
  | scratchpadBankRetirement (cluster : Nat)
  /-- MANAGEMENT_RING_STALL, R14: the management ring stops or runs again. -/
  | managementRingStall (on : Bool)
  /-- TENANT_TABLE_WRITE, R369: firmware writes a dword of the tenant table. -/
  | tenantTableWrite (tenant : Nat) (idx : Nat) (data : W64)
  /-- MEMORY_OWNER_ASSIGNMENT, R143: memory is given to a tenant. -/
  | memoryOwnerAssignment (kind : Nat) (unit : Nat) (tenant : Nat)
  /-- TENANT_DESTRUCTION, R370: a tenant is destroyed. -/
  | tenantDestruction (tenant : Nat)
  /-- PEER_UNREACHABLE, R368: what a peer exports for each tenant changes, to nothing where it is unreachable. -/
  | peerUnreachable (peer : Nat) (exports : List Export)
  deriving DecidableEq, Repr

end Sys2Proof
end

