-- ==== Sys2Proof/Machine/State.lean ====
section
/-!
DEFINITION. The state of the whole package as plain data: the thread slots with their registers, the cores, the
memories, the tables and queues of the control plane, the networks, the host side, and the model's own schedule.
Each field's docstring names the rule of spec/ that gives it. `State.reset` is the package right after reset.
-/

namespace Sys2Proof.Machine

/-! ## Registers of a thread -/

/-- The per-slot control registers of R66, in the order of their save offsets; h1 to h4 stand in `Ctx.h`, and `slotid`
is no storage: in every slot it is that slot's core address (`slotidOf`). -/
structure CRs where
  rmode   : W64
  fpflags : W64
  nanrd   : W64
  srseed  : W64
  srctr   : W64
  fmta    : W64
  fmtb    : W64
  fmtc    : W64
  scla    : W64
  sclb    : W64
  mkstep  : W64
  qwin    : W64
  lmask   : W64
  stklim  : W64
  scope   : W64
  uivec   : W64
  uixid   : W64
  wid     : W64
  wshape  : W64
  tenant  : W64
  pstate  : W64
  tabent  : W64
  tabst   : W64
  lnum    : W64
  tvec    : W64
  cause   : W64
  epc     : W64
  tval    : W64
  lrect   : W64
  deriving DecidableEq, Repr

/-- R352: the scope rectangle that covers the whole package, bank cores included. -/
def packageRect : W64 := 0x00000000BF7F0000#64

/-- The reset values of R66. -/
def CRs.zero : CRs :=
  ⟨0, 0, 0, 0, 0, 0, 0, 0, 0, 0, 0, 0, 0, 0, packageRect, 0, 0, 0, 0x40#64, 0, 0, 0, 0, 0, 0, 0, 0, 0, packageRect⟩

/-- R66: what `slotid` holds in the slot with core address k, at reset and always. -/
def slotidOf (k : Nat) : W64 := BitVec.ofNat 64 k

/-- The repetition buffer of a slot (R181 to R185). -/
structure RepBuf where
  /-- The captured A-words, unstepped. -/
  words : Vector (BitVec 32) 16
  /-- From arming until the last word. -/
  act   : Bool
  /-- Between trap entry and `eret` (R184). -/
  susp  : Bool
  /-- During capture. -/
  cap   : Bool
  /-- len - 1, count - 1 and stride - 1, as in the `rep`. -/
  len   : BitVec 4
  count : BitVec 12
  stride : BitVec 3
  steps : BitVec 3
  /-- The current iteration. -/
  i     : Nat
  /-- The next position; during capture, the words captured. -/
  k     : Nat
  deriving DecidableEq, Repr

/-- An empty repetition buffer (R185). -/
def RepBuf.empty : RepBuf := ⟨Vector.replicate 16 0, false, false, false, 0, 0, 0, 0, 0, 0⟩

/-- The registers of one thread: pc (R100), g (R79), b (R80), m (R167), h (R81), v (R166; the upper 512 bits
are the odd slot's half of a ganged or held pair, R56), the control registers and the repetition buffer. -/
structure Ctx where
  pc  : W64
  g   : Vector W64 32
  b   : BitVec 8
  m   : Vector W64 4
  h   : Vector W64 4
  v   : Vector (BitVec 1024) 16
  cr  : CRs
  rep : RepBuf
  deriving DecidableEq, Repr

/-- A context with every register at its reset value. -/
def Ctx.zero : Ctx :=
  ⟨0, Vector.replicate 32 0, 0, Vector.replicate 4 0, Vector.replicate 4 0, Vector.replicate 16 0, CRs.zero,
    RepBuf.empty⟩

/-! ## Slots -/

/-- A trap: its cause (R118) and the value `tval` receives. -/
structure Trap where
  cause : BitVec 8
  tval  : W64
  deriving DecidableEq, Repr

/-- A store that has left its bundle and is not yet taken by its arbiter (R348): its bytes with the physical addresses
where they go (two parts for the 128 bytes of a ganged `stv`), the address as the program gave it, and the address of
its bundle. -/
structure OutStore where
  parts : List (Nat × List Byte)
  ea    : W64
  pc    : W64
  deriving DecidableEq, Repr

/-- What a parked slot waits for. -/
inductive Wait where
  /-- The variable-latency operation is over; the slot rejoins, or takes the trap its reply carries. -/
  | reply (t : Option Trap)
  /-- The request of the bundle's C-half is under way and no arbiter has taken it. -/
  | flight
  /-- The bundle of the pc is being fetched (R101). -/
  | fetch
  /-- `quit` with accesses outstanding (R72). -/
  | quit
  /-- `wait` until this package cycle (R73). -/
  | wait (deadline : Nat)
  /-- A migration packet to this core leaves once earlier accesses are accepted (R154); `migr` has committed its
  bundle, an access has not; `regs` are the registers that the bundle reads. -/
  | migrate (core : Nat) (ea : W64) (committed : Bool) (regs : List GReg)
  /-- `recv` with no message that it takes (R202). -/
  | mailbox
  /-- `waitc` on a counter (R203). -/
  | counter
  /-- The waiter list of a word (R250). -/
  | fullEmpty (pa : Nat)
  /-- The reservation queue of a word (R252). -/
  | reservation (pa : Nat)
  /-- A phase word (R359). -/
  | phase (pa : Nat)
  /-- A blocking queue operation (R268). -/
  | queue (pa : Nat)
  /-- A request held in a Welt switch (R261). -/
  | welt (req : Nat)
  /-- The reply to a combined add, which its arbiter has taken (R263). -/
  | combined (req : Nat)
  /-- An Answer Table entry under evaluation (R313, R315, R324). -/
  | entry (e : Nat)
  /-- A leader that ends its group (R311). -/
  | leader (e : Nat)
  /-- A spawn packet under way (R71). -/
  | spawn (pkt : Nat)
  /-- `kill` has killed n threads, and these of the threads that it matched were still live then (R74). -/
  | kill (n : Nat) (tids : List Nat)
  /-- A copy request that finds its FIFO full (R344). -/
  | copyFifo
  /-- The matrix unit works for this slot (R210). -/
  | matrix
  /-- `svsl` waits until the thread of slot k has been saved at an address (R294). -/
  | save (k : Nat) (ea : W64)
  deriving DecidableEq, Repr

/-- The states of a slot (R54). -/
inductive SlotSt where
  | free
  | run
  /-- R54 PARK, with the C-half that parked, the bytes it read as a snapshot at issue, and its place in the order
  of arrival. -/
  | park (w : Wait) (i : Instr) (snap : List Byte) (stamp : Nat)
  /-- R54 RESV; an arriving context is loading. -/
  | resv
  | ganghi
  | held
  /-- R54 DRAIN, with the operation that must finish, its snapshot and its place in the order of arrival; `spill` says
  whether a record is written then (R290). -/
  | drain (spill : Bool) (w : Wait) (i : Instr) (snap : List Byte) (stamp : Nat)
  /-- R55, R290: a slot in RUN, or in PARK with the operation i withdrawn, that is spilled with nothing to finish: it
  issues no more, and passes to FREE once its record is written. -/
  | saving (parked : Bool) (i : Instr)
  deriving DecidableEq, Repr

/-- A descriptor of a tile: address and length (R322). -/
structure Tile where
  addr : W64
  len  : W64
  deriving DecidableEq, Repr

/-- What a pure entry records: its tiles (R324, R325), and the g29 that its producer held at `ptask` (R326). -/
structure PureRec where
  code : Tile
  args : List Tile
  out  : Tile
  sp   : W64
  deriving DecidableEq, Repr

/-- One thread slot (R11, R54 to R57). -/
structure Slot where
  st    : SlotSt
  /-- The thread that holds the slot; threads are numbered by the model (log entry 11). -/
  tid   : Nat
  ctx   : Ctx
  /-- R50: the pc of the next bundle, while a bundle executes. -/
  npc   : W64
  /-- What the bundle commits once its parked C-half completes (R22, R25). -/
  after : Option Ctx
  /-- The thread's dispatch class (R285). -/
  cls   : BitVec 3
  /-- Stores not yet accepted (R348). -/
  out   : List OutStore
  /-- A trap to take before the next bundle (R192). -/
  pend  : Option Trap
  /-- The pure tasks that the thread runs, innermost first (R326). -/
  pure  : List PureRec
  /-- The package cycle before which the slot has no turn (R52). -/
  due   : Nat
  /-- R73: the `wait` bundle in which the thread was spilled, and its deadline. -/
  late  : Option (W64 × Nat)
  /-- R99, R171: a divide, a root or a special function in the A-half was issued beside the C-half that parked. -/
  slowA : Bool
  deriving DecidableEq, Repr

/-- A slot that holds no thread. -/
def Slot.free : Slot := ⟨.free, 0, Ctx.zero, 0, none, 0, [], none, [], 0, none, false⟩

/-! ## Stacked memory -/

/-- One object of a tenant's handle table (R238, R246). -/
structure Obj where
  used : Bool
  /-- Allocated bytes. -/
  size : Nat
  /-- The options as `halloc` was given them: rights, initial full/empty, placement. -/
  opts : W64
  /-- The bank group in which `halloc` placed each block (R241), by the core address of its bank core (R240). -/
  homes : List Nat
  deriving DecidableEq, Repr

/-- A handle that names nothing. -/
def Obj.none : Obj := ⟨false, 0, 0, []⟩

/-- How a block stands apart from its placement at `halloc`: moved to a bank group, lost (R244), or in motion to
a bank group (R242). -/
structure Blk where
  home : Option Nat
  lost : Bool
  dest : Option Nat
  deriving DecidableEq, Repr

/-- A block where `halloc` placed it. -/
def Blk.placed : Blk := ⟨none, false, none⟩

/-- The key of a reservation (R252): tenant, lnum and wid. -/
structure ResvKey where
  tenant : W64
  lnum   : W64
  wid    : W64
  deriving DecidableEq, Repr

/-! ## Queues -/

/-- A live queue at its home (R264 to R268). -/
structure Queue where
  live   : Bool
  tenant : W64
  mode   : Nat
  elim   : Bool
  /-- Base blocks and lent blocks of 64 slots (R267). -/
  base   : Nat
  lent   : Nat
  /-- Stored entries, oldest first, each with a mark that its slots are uncorrectable (R273). -/
  entries : List (BitVec 512 × Bool)
  /-- The last entry removed, by which a FIFO decodes (R266). -/
  last   : BitVec 512
  pushes : W64
  pops   : W64
  /-- `qfree` has removed the queue's record, and requests that passed the check before are still taken (R276). -/
  closing : Bool
  deriving DecidableEq, Repr

/-- No queue. -/
def Queue.none : Queue := ⟨false, 0, 0, false, 0, 0, [], 0, 0, 0, false⟩

/-- A request that pairs, held or under way in the Welt of the home's stack (R261). -/
structure WeltReq where
  id     : Nat
  /-- The slots of the requests that this one carries, the first of the pair first, each with the sum of the
  operands before its own (R263). -/
  slots  : List (Nat × W64)
  pa     : Nat
  i      : Instr
  tenant : W64
  /-- The pairing window in cycles. -/
  win    : Nat
  /-- The operand of a combined add, or the entry of a push. -/
  data   : BitVec 512
  /-- The source port and the station port (R258). -/
  src    : Nat
  dst    : Nat
  /-- The stage it has reached; past stage 9 it is at its home's station. -/
  stage  : Nat
  /-- The switch of that stage holds it. -/
  held   : Bool
  /-- The cycle at which its window at this stage runs out. -/
  expires : Nat
  deriving DecidableEq, Repr

/-- The reply of a combined add on its way back (R263): the slots it is for and the old value or trap. -/
structure WeltReply where
  id    : Nat
  slots : List (Nat × W64)
  old   : W64
  trap  : Option (BitVec 8)
  deriving DecidableEq, Repr

/-! ## Answer Table -/

/-- The states of an entry (R307). -/
inductive AtSt where
  | free | eval | complete | failed
  deriving DecidableEq, Repr

/-- The key of an entry (R306). -/
inductive AtKey where
  | call (callee : W64) (args : List W64)
  | pure (k : BitVec 256)
  deriving DecidableEq, Repr

/-- One way of the Answer Table (R304, R307). -/
structure AtEntry where
  st       : AtSt
  /-- How often the way has become FREE; its generation follows from it (R304, R379). -/
  adv      : Nat
  tenant   : W64
  key      : AtKey
  answers  : List (W64 × W64)
  producer : Option Nat
  parent   : W64
  /-- The way of the group's leader (R308). -/
  group    : Nat
  mround   : BitVec 16
  readF    : Bool
  cause    : BitVec 8
  lastUse  : Nat
  created  : Nat
  pure     : Option PureRec
  /-- A tile of a pure entry was written after its leaf was taken (R325). -/
  stale    : Bool
  deriving DecidableEq, Repr

/-- A FREE way that has never held an entry. -/
def AtEntry.free : AtEntry := ⟨.free, 0, 0, .call 0 [], [], none, 0, 0, 0, false, 0, 0, 0, none, false⟩

/-- A group's record, held under its leader (R308). `pending` is the number of members with a producer. -/
structure AtGroup where
  round : BitVec 16
  dirty : Bool
  deriving DecidableEq, Repr

/-- A record of an iterator log (R318). -/
structure Pin where
  way    : Nat
  adv    : Nat
  tenant : W64
  lnum   : W64
  deriving DecidableEq, Repr

/-! ## Dispatch -/

/-- The states of a task record (R282). -/
inductive TaskSt where
  | free | wait | ready | dispatched
  deriving DecidableEq, Repr

/-- One record of a die's task table (R281, R282). -/
structure Task where
  st     : TaskSt
  /-- How often the record has become FREE; its generation follows from it (R282, R379). -/
  adv    : Nat
  tenant : W64
  lnum   : W64
  /-- The eight fields f0 to f7 (R281). -/
  f      : Vector W64 8
  /-- The core of a mode-0 task, which takes slot 0 (R280). -/
  bound  : Option Nat
  /-- The cycle and the order in which it became READY (R283). -/
  since  : Nat
  order  : Nat
  /-- The thread and the slot it was dispatched into. -/
  tid    : Nat
  slot   : Nat
  deriving DecidableEq, Repr

/-- A FREE task record. -/
def Task.free : Task := ⟨.free, 0, 0, 0, Vector.replicate 8 0, none, 0, 0, 0, 0⟩

/-- The state of a launch in its lead dispatch unit (R280, R286, R298). -/
structure Launch where
  tenant  : W64
  lnum    : W64
  hdr     : Vector W64 16
  refused : Bool
  failed  : Bool
  done    : Bool
  /-- Dies that its header has not reached yet (R280). -/
  toDies  : List Nat
  /-- The retry table: level, unit and count (R298). -/
  retries : List (Nat × W64 × Nat)
  /-- Copies of the records dispatched (R298). -/
  copies  : List Task
  /-- Units that are to be dispatched again once they are dead: level and unit (R62). -/
  redo    : List (Nat × W64)
  deriving DecidableEq, Repr

/-- A spilled thread in the resume list (R290, R293), or one saved by `svsl` (R294). -/
structure Spilled where
  tid    : Nat
  tenant : W64
  lnum   : W64
  wid    : W64
  cls    : BitVec 3
  /-- The core it left. -/
  core   : Nat
  /-- Where its record stands. -/
  pa     : Nat
  /-- Saved by `svsl`: it resumes only by `ldsl`. -/
  soft   : Bool
  /-- The wait it was spilled from binds it to its core (R194). -/
  fixed  : Bool
  /-- It was spilled in `isync` (R104). -/
  sync   : Bool
  /-- The pure tasks that the thread runs (R326). -/
  pure   : List PureRec
  order  : Nat
  deriving DecidableEq, Repr

/-! ## Threads on the mesh -/

/-- What a packet of virtual network 2 carries a thread for. -/
inductive PktKind where
  /-- A migrant (R154): its origin slot, the address that moved it, and whether its bundle is committed. -/
  | migrant (origin : Nat) (ea : W64) (committed : Bool)
  /-- A child of `spawn` (R71): the parent's slot and thread, and whether it waits for a slot. -/
  | spawn (parent : Nat) (ptid : Nat) (blk : Bool)
  /-- A remote-update child (R257): the parent's slot and thread. -/
  | rupd (parent : Nat) (ptid : Nat)
  /-- A task of a dispatch unit (R280). -/
  | task
  deriving DecidableEq, Repr

/-- A thread that travels, or waits in a landing buffer (R191). -/
structure Pkt where
  id     : Nat
  kind   : PktKind
  /-- The core that sent it; none for a dispatch unit (R189). -/
  sender : Option Nat
  tid    : Nat
  ctx    : Ctx
  cls    : BitVec 3
  core   : Nat
  /-- The slot it must take, if it names one. -/
  slot   : Option Nat
  gang   : Bool
  landed : Bool
  /-- The cycle at which it landed (R193). -/
  since  : Nat
  /-- The slots that the spill engine has evicted for it (R193). -/
  evict  : List Nat
  /-- The trap it takes when it is admitted (R192). -/
  pend   : Option Trap
  /-- The pure tasks that the thread runs (R326). -/
  pure   : List PureRec
  deriving DecidableEq, Repr

/-! ## Mailboxes -/

/-- One mailbox of a compute core with its counter (R195, R197). -/
structure Mbox where
  /-- Header and payload of the entries held, oldest first. -/
  ents  : List (W64 × BitVec 512)
  cnt   : BitVec 32
  sat   : Bool
  full  : Bool
  seen0 : Bool
  seen1 : Bool
  fsnd0 : BitVec 32
  fsnd1 : BitVec 32
  deriving DecidableEq, Repr

/-- A cleared mailbox. -/
def Mbox.empty : Mbox := ⟨[], 0, false, false, false, false, 0, 0⟩

/-- A wake-up on its way to a mailbox (R196, R198). -/
structure Wake where
  id      : Nat
  core    : Nat
  mb      : Nat
  header  : W64
  payload : BitVec 512
  tenant  : Nat
  nanrd   : Bool
  sender  : BitVec 32
  deriving DecidableEq, Repr

/-! ## Decode tables -/

/-- A decode table of a compute core (R130): the nonzero entries by code, the attribute word and the owner. -/
structure DecTab where
  ents  : SMap (BitVec 20)
  attr  : W64
  owner : BitVec 8
  deriving DecidableEq, Repr

/-- R130: a table at reset. -/
def DecTab.zero : DecTab := ⟨[], 0, 0⟩

/-! ## Matrix units -/

/-- The registers that an operation samples (R216). -/
structure MatRegs where
  fmta  : W64
  fmtb  : W64
  fmtc  : W64
  scla  : W64
  sclb  : W64
  nanrd : W64
  rmode : W64
  /-- The decode tables that `fmta` and `fmtb` name; empty where they name none (R131). -/
  ta    : DecTab
  tb    : DecTab
  deriving DecidableEq, Repr

/-- A command of a matrix unit: a remote command (R233), or an owner's instruction in the same form. -/
structure MatCmd where
  /-- 0 `mzero`, 1 `mmac`, 2 `mdrain`, 3 `mdrainr`, 4 `mload`. -/
  kind   : Nat
  tile   : Nat
  sr     : Nat
  z      : Bool
  steps  : Nat
  /-- The two registers of the scratchpad pair of A and of B (R218). -/
  a0 : W64
  a1 : W64
  b0 : W64
  b1 : W64
  /-- The blocks of operands in registers (R217). -/
  ra : Option (List Byte)
  rb : Option (List Byte)
  /-- The gA and gB of a drain or a load. -/
  da : W64
  db : W64
  regs   : MatRegs
  /-- The slot that issued it. -/
  sender : Nat
  tenant : Nat
  id     : Nat
  nmb    : Nat
  notify : Bool
  /-- Its place in the order of arrival (R210). -/
  stamp  : Nat
  deriving DecidableEq, Repr

/-- The operation that a unit performs (R210): whether it is the owner's own, its next K-step or row, and whether a
row of its drain was refused. -/
structure MatOp where
  cmd  : MatCmd
  own  : Bool
  step : Nat
  refused : Bool
  deriving DecidableEq, Repr

/-- The matrix unit of a compute core (R208 to R210, R225, R234). -/
structure MatUnit where
  claimed : Bool
  /-- The core address of the owning slot. -/
  owner   : Nat
  tenant  : Nat
  epoch   : BitVec 16
  /-- Elements of the four tiles, by tile, row and column (R209). -/
  tiles   : SMap (BitVec 32)
  flags   : BitVec 5
  fault   : Bool
  fcause  : BitVec 8
  fstep   : Nat
  ftile   : Nat
  queue   : List MatCmd
  op      : Option MatOp
  /-- The unit is released when its operation is over (R224, R227). -/
  ending  : Bool
  /-- The owner of a unit that is to be released is being spilled: its tiles are kept for its record (R224). -/
  keep    : Bool
  deriving DecidableEq, Repr

/-- An unclaimed unit. -/
def MatUnit.idle : MatUnit := ⟨false, 0, 0, 0, [], 0, false, 0, 0, 0, [], none, false, false⟩

/-! ## Copy engines -/

/-- A transfer in the command FIFO of a core (R334 to R338). -/
structure CopyReq where
  id     : Nat
  /-- The thread that issued it. -/
  tid    : Nat
  tenant : W64
  lrect  : W64
  nanrd  : Bool
  src    : W64
  dst    : W64
  len    : Nat
  tag    : Nat
  dist   : Bool
  wake   : Bool
  intr   : Bool
  handler : W64
  bsize  : Nat
  /-- The cores that receive landings (R338); none where the destination is not in space 0x1. -/
  targets : List Nat
  running : Bool
  /-- Bytes of the source whose chunks have been written so far. -/
  done   : Nat
  /-- Words of the chunk that stand in staging, each with a mark that it is poisoned, and how many of them are written. -/
  staged : List (W64 × Bool)
  wrote  : Nat
  /-- Permits held, by core (R337). -/
  held   : SMap Nat
  /-- The core whose mailbox port holds a request for permits of this transfer. -/
  asked  : Option Nat
  /-- The cycle from which a refused request is made again. -/
  retry  : Option Nat
  pcnt   : Nat
  /-- The source offset of the first bad word, or of the failing chunk (R343). -/
  bad    : Option Nat
  fault  : Option (BitVec 8)
  /-- The wake-ups that are not answered yet; none before they are sent. -/
  wakes  : Option (List Nat)
  deriving DecidableEq, Repr

/-- A completion record in a core's record store (R340). -/
structure CopyRec where
  id      : Nat
  tid     : Nat
  handler : W64
  status  : W64
  bytes   : W64
  bad     : W64
  /-- Its place in the order in which records are stored. -/
  order   : Nat
  deriving DecidableEq, Repr

/-- What the station remembers of a completed transfer (R346). -/
structure CopyPast where
  id     : Nat
  tenant : W64
  status : W64
  bytes  : W64
  bad    : W64
  deriving DecidableEq, Repr

/-- The copy engine of a core (R334, R340, R346). -/
structure CopyEng where
  reqs  : List CopyReq
  recs  : List CopyRec
  /-- The 16 latest completions, oldest first. -/
  past  : List CopyPast
  /-- How many transfer ids have been used (R379). -/
  count : Nat
  deriving DecidableEq, Repr

/-- An engine with nothing to do. -/
def CopyEng.idle : CopyEng := ⟨[], [], [], 0⟩

/-- A request in the permit queue of a core (R337). -/
structure PermitReq where
  /-- The core above the station that asks, and its transfer. -/
  core : Nat
  id   : Nat
  mb   : Nat
  n    : Nat
  deriving DecidableEq, Repr

/-! ## Host and management -/

/-- What a function of the host link holds (R366, R375). -/
structure HostFn where
  /-- Dwords written in the record slots: 16 · slot + dword. -/
  recs   : SMap W64
  /-- wbits, by record slot. -/
  wbits  : SMap (BitVec 16)
  taken  : BitVec 32
  drop   : BitVec 32
  pushed : BitVec 32
  /-- Records taken whose push is not stored yet, oldest first, with their slots. -/
  pushes : List (Nat × List W64)
  /-- The command slot, its written marks, and whether a command runs. -/
  cmd    : SMap W64
  marks  : BitVec 16
  busy   : Bool
  /-- The response area. -/
  status : W64
  seq    : W64
  olen   : W64
  /-- R364: an IDE stream is established. -/
  ide    : Bool
  /-- R371: the latest response to GET_MEASUREMENTS. -/
  spdm   : List W64
  deriving DecidableEq, Repr

/-- A function at reset (R366, R375). -/
def HostFn.reset : HostFn := ⟨[], [], 0, 0, 0, [], [], 0, false, 0, 0, 0, false, []⟩

/-- R368: what a peer device exports for a tenant, by its export handle there: its size in bytes, its rights (R239), and the
blocks of it that do not resolve there. -/
structure Peer where
  size   : Nat
  rights : BitVec 4
  gone   : List Nat
  deriving DecidableEq, Repr

/-- A peer that exports nothing, or is unreachable. -/
def Peer.none : Peer := ⟨0, 0, []⟩

/-- The management plane: boot status (R372, R374), telemetry, throttle levels and the security block. -/
structure Mgmt where
  stage  : Nat
  recov  : Bool
  rrbad  : Bool
  ready  : Bool
  /-- R374: temperatures and valves, by 0x200 · stack + 16 · tier + zone. -/
  temp   : SMap Byte
  valve  : SMap Byte
  /-- R373: throttle levels, by stack. -/
  thr    : SMap (BitVec 3)
  pwr    : SMap (BitVec 32)
  /-- R373: management events posted. -/
  events : Nat
  /-- R14: the ring has stalled. -/
  stalled : Bool
  /-- R375: how often each tenant's sealing counter has been used under this image. -/
  nonces : SMap Nat
  /-- R371, R372, R375: the image and the certificate chain in boot flash, the image that runs, and the repair record as it was
made, with the field repairs that firmware has appended: a kind (0 a TCM row, 1 a TCM bank, 2 a scratchpad bank, 3 a bank
group) and a unit each. -/
  flash  : List Byte
  chain  : List Byte
  image  : List Byte
  repair : List Byte
  repairs : List (Nat × Nat)
  /-- R256: the host path supports AtomicOps. -/
  atomics : Bool
  deriving DecidableEq, Repr

/-- The management plane at reset. -/
def Mgmt.reset : Mgmt := ⟨0, false, false, false, [], [], [], [], 0, false, [], [], [], [], [], [], true⟩

/-! ## The schedule -/

/-- How a turn of the agenda runs: with every operation completing in its bundle, with every variable-latency
operation parking, with the bundle that the instruction cache holds, or with a miss of that cache. -/
inductive TurnMode where
  | plain | slow | stale | miss
  deriving DecidableEq, Repr

/-- A cached translation of a die's translation unit or its cores (R301). -/
structure TlbEntry where
  die    : Nat
  tenant : Nat
  /-- The first window address of the page, and k of R300. -/
  va     : Nat
  k      : Nat
  pte    : W64
  deriving DecidableEq, Repr

/-- What a peer does to a tenant's export handle (R368): a load of n bytes, a store, or an atomic of R254 to R256. -/
inductive PeerOp where
  | load (n : Nat)
  | store (data : List Byte)
  | amo (op : AtomOp) (x : W64)
  | afadd (x : W64)
  | acas (want new : W64)
  deriving DecidableEq, Repr

/-- The steps of the device that the fixed schedule takes when something waits for them, each as the row of the opcode table
that it names. -/
inductive Due where
  | fetchMissFill (slot : Nat)
  | operationComplete (slot : Nat)
  | contextLoaded (slot : Nat)
  | drainComplete (slot : Nat)
  | quitComplete (slot : Nat)
  | waitDeadline (slot : Nat)
  | migrationPacketSend (slot : Nat)
  | migrantLanding (pkt : Nat)
  | landingAdmit (core : Nat)
  | spawnPacketArrival (pkt : Nat)
  | spillToAdmit (core : Nat)
  | spillForClass (slot : Nat)
  | spillRecordWritten (slot : Nat) (fails : Nat)
  | resume (idx : Nat) (slot : Nat)
  | messageLanding (slot : Nat)
  | wakeUpLanding (pkt : Nat)
  | dataLanding (slot : Nat)
  | remoteRead (slot : Nat)
  | accessAccepted (slot : Nat) (n : Nat)
  | fullEmptyRequest (slot : Nat)
  | reservationRequest (slot : Nat)
  | phaseRequest (slot : Nat)
  | weltSwitchArrival (req : Nat)
  | pairingWindowExpiry (req : Nat)
  | combinedReplySplit (req : Nat)
  | queueHomeOperation (slot : Nat)
  | relocationCutover (tenant : Nat) (handle : Nat) (block : Nat)
  | layerWake (stack : Nat) (layer : Nat)
  | tapRetirement (tile : Nat) (taps : BitVec 2)
  | launchPushStored (fn : Nat)
  | launchPop (die : Nat) (tenant : Nat)
  | launchHeaderArrival (die : Nat) (idx : Nat)
  | taskDispatch (die : Nat) (task : Nat) (core : Nat)
  | containmentRetry (idx : Nat)
  | dispatchCountReport (die : Nat) (idx : Nat)
  | matrixRemoteCommand (slot : Nat)
  | matrixOpStart (core : Nat)
  | matrixKstepComplete (core : Nat)
  | copyTransferStart (core : Nat)
  | copyChunk (core : Nat) (id : Nat) (n : Nat)
  | permitRequest (core : Nat) (id : Nat)
  | permitRetryTimeout (core : Nat) (id : Nat)
  | copyCompletion (core : Nat) (id : Nat)
  | completionDelivery (slot : Nat)
  | cobblerAtomic (slot : Nat)
  | seal (fn : Nat) (ok : Bool)
  | unseal (fn : Nat) (ok : Bool)
  | flashUpdate (fn : Nat) (ok : Bool)
  deriving DecidableEq, Repr

/-- One entry of the schedule: a slot's turn, a step of the device, an access of a peer at an offset of a tenant's export
handle, or cycles in which nothing moves. -/
inductive Act where
  | turn (slot : Nat) (mode : TurnMode)
  | event (i : Instr)
  | due (d : Due)
  | peer (tenant off : Nat) (op : PeerOp)
  /-- The turn that comes next, or the cycles until a deadline. -/
  | move
  | tick (n : Nat)
  deriving DecidableEq, Repr

/-! ## The state -/

structure State where
  /-- Slots of the package by their core address with the slot number (R70); an unlisted slot is FREE. -/
  slots : SMap Slot
  /-- Bytes of all memories by physical address (R12); an unlisted byte reads as 0 (log entry 5). -/
  mem : SMap Byte
  /-- SRAM words that read as uncorrectable (R148) and stacked-memory words whose poison bit is set (R245), by the
  physical address of the word. -/
  bad : SMap Bool
  /-- SRAM words that hold a single-bit error, which the next read corrects (R148). -/
  flaws : SMap Bool
  /-- Rows of TCM banks (`rowKey`): when one last corrected an error, as 1 more than that cycle, and whether one is to be
  remapped at its next write (R149). -/
  rowSeen : SMap Nat
  rowBad : SMap Bool
  /-- Spare rows in use of each TCM bank, by 16 · core + bank, and failed banks of each scratchpad, by cluster (R149). -/
  spareRows : SMap Nat
  spadFails : SMap Nat
  /-- Stacked-memory words whose full/empty bit differs from what their object's option gave them (R246, R249). -/
  feFlip : SMap Bool
  /-- Handle tables of the tenants (R238), by tenant and handle. -/
  objs : SMap Obj
  /-- Blocks that have moved, are lost or are in motion (R242, R244), by tenant, handle and block. -/
  blks : SMap Blk
  /-- Holders of reservations (R252), by word. -/
  resv : SMap (Option ResvKey)
  /-- Layer states (R243), by stack and layer; an unlisted layer is ACTIVE (log entry 6). -/
  layers : SMap (BitVec 2)
  /-- Bank groups out of service (R244), by core address. -/
  retired : SMap Bool
  /-- Live queues (R264), by the physical address of the descriptor. -/
  queues : SMap Queue
  /-- Requests in the Welts (R258 to R263, R269). -/
  welt : List WeltReq
  /-- Combined replies on their way back (R263). -/
  replies : List WeltReply
  /-- Ways of the Answer Table (R303), by bits 20:0 of a reference. -/
  entries : SMap AtEntry
  /-- Group records (R308), by the way of the leader. -/
  groups : SMap AtGroup
  /-- The iterator logs (R303, R318). -/
  pins : List Pin
  /-- Task tables (R282), by die and index. -/
  tasks : SMap Task
  /-- Launches (R280). -/
  launches : List Launch
  /-- How many launches each tenant has made (R280, R379). -/
  lnums : SMap Nat
  /-- Spilled and saved threads (R290, R294). -/
  spilled : List Spilled
  /-- Threads that travel or have landed (R191). -/
  pkts : List Pkt
  /-- R193: the cycle at which a slot of the core last became FREE. -/
  freedAt : SMap Nat
  /-- Mailboxes (R195), by core and number. -/
  mbox : SMap Mbox
  /-- Wake-ups on their way (R196). -/
  wakes : List Wake
  /-- Decode tables (R130), by core and number: 4 · core + number. -/
  dts : SMap DecTab
  /-- Matrix units (R208), by core. -/
  mat : SMap MatUnit
  /-- mcapk (R215), by core. -/
  mcapk : SMap W64
  /-- Events dropped by each tenant's error queue (R296). -/
  dropped : SMap W64
  /-- Events whose error queue's home is held, oldest first, with their tenants (R242, R296). -/
  events : List (Nat × List W64)
  /-- The tenant table (R369), by tenant and dword. -/
  tenants : SMap W64
  /-- Cached translations (R301). -/
  tlb : List TlbEntry
  /-- What each peer device exports for a tenant (R368), by device and tenant; an unlisted peer is unreachable or exports
  nothing (log entry 6). -/
  peers : SMap Peer
  /-- Retired TCM banks of each core (R149, R150), bit k for bank k. -/
  tbankOut : SMap (BitVec 16)
  /-- Owner tenant of each core's TCM (R143, R150). -/
  towner : SMap Byte
  /-- Clusters in 32-bank mode (R149), by cluster column and row. -/
  spad32 : SMap Bool
  /-- Owner tenant of each cluster's scratchpad (R143, R150). -/
  sowner : SMap Byte
  /-- Owner tenant of each shared-SRAM granule (R143, R150), by die and granule. -/
  gowner : SMap Byte
  /-- Corrected and uncorrectable errors of each die since reset (R150). -/
  ccount : SMap W64
  ucount : SMap W64
  /-- coremask registers (R69), by die and number; an unlisted register reads as all ones. -/
  coremask : SMap W64
  /-- R101, R103: bundles that instruction caches hold, by core and the physical address of the bundle. -/
  icache : SMap (Option W64)
  /-- Copy engines (R334), by the core above the station. -/
  copy : SMap CopyEng
  /-- Permit counters (R337), by 16 · core + mailbox. -/
  permits : SMap (BitVec 16)
  /-- Permit queues (R337), by core. -/
  permitQ : SMap (List PermitReq)
  /-- R283: the tenant that a die's dispatch unit visits in a class, and how many of its tasks it has dispatched on
  this visit, by 8 · die + class. -/
  visits : SMap (Nat × Nat)
  /-- Functions of the host link (R363), by number. -/
  fns : SMap HostFn
  /-- The management plane (R14). -/
  mgmt : Mgmt
  /-- R73: cycles since the package reset. -/
  cycle : Nat
  /-- Which agent moves next, oldest first (log entry 2). -/
  agenda : List Act
  /-- The slot whose bundle executes. -/
  cur : Nat
  /-- R22: the registers as the bundle reads them at issue. -/
  src : Option Ctx
  /-- The 64 bits of the bundle as fetched (R42). -/
  raw : W64
  /-- The trap that the bundle of `cur` has taken. -/
  trapped : Option Trap
  /-- Variable-latency operations park in their bundle (log entry 2). -/
  slow : Bool
  /-- How many free values have been used (log entry 1). -/
  free : Nat
  /-- The next thread number (log entry 11). -/
  nextTid : Nat
  /-- Order of arrival at the arbiters (R15). -/
  stamp : Nat
  /-- R373: the package has stopped at 125 degrees. -/
  stopped : Bool
  deriving DecidableEq, Repr

/-- Why the machine stops. -/
inductive Fault where
  /-- Raised by every step but a package reset once a zone at 125 degrees has stopped the package (R373): the part no
  longer runs. Safe: the model does nothing after it. -/
  | packageStopped
  deriving DecidableEq, Repr

/-- Why an instruction has no meaning in the model. -/
inductive Refusal where
  /-- Raised by an arm of `exec` that has no meaning yet. Safe: the model stops. -/
  | notModelled (mnemonic : String)
  deriving DecidableEq, Repr

/-- The package right after reset (R372). -/
def State.reset : State where
  slots := []
  mem := []
  bad := []
  flaws := []
  rowSeen := []
  rowBad := []
  spareRows := []
  spadFails := []
  feFlip := []
  objs := []
  blks := []
  resv := []
  layers := []
  retired := []
  queues := []
  welt := []
  replies := []
  entries := []
  groups := []
  pins := []
  tasks := []
  launches := []
  lnums := []
  spilled := []
  pkts := []
  freedAt := []
  mbox := []
  wakes := []
  dts := []
  mat := []
  mcapk := []
  dropped := []
  events := []
  tenants := []
  tlb := []
  peers := []
  tbankOut := []
  towner := []
  spad32 := []
  sowner := []
  gowner := []
  ccount := []
  ucount := []
  coremask := []
  icache := []
  copy := []
  permits := []
  permitQ := []
  visits := []
  fns := []
  mgmt := Mgmt.reset
  cycle := 0
  agenda := []
  cur := 0
  src := none
  raw := 0
  trapped := none
  slow := false
  free := 0
  nextTid := 1
  stamp := 0
  stopped := false

end Sys2Proof.Machine
end

