-- ==== Sys2Proof/Machine/Access.lean ====
section
/-!
DEFINITION. Core addresses (R70) and the access to slots: which slot a step is about, the registers a half reads
at issue (R22), and the context that its writes go to.
-/

namespace Sys2Proof.Machine

/-- What an instruction answers. -/
abbrev Res := Host.Outcome State Fault Refusal

/-! ## Bits of words -/

/-- Bit n of a word. -/
def bitAt {w : Nat} (x : BitVec w) (n : Nat) : Bool := x.getLsbD n

/-- Bits h to l of a word, as a number. -/
def bitsAt {w : Nat} (x : BitVec w) (h l : Nat) : Nat := (x.toNat / 2 ^ l) % 2 ^ (h + 1 - l)

/-- The word with bit n set to b. -/
def setBit (x : W64) (n : Nat) (b : Bool) : W64 :=
  if b then x ||| (1#64 <<< n) else x &&& ~~~(1#64 <<< n)

/-- A truth value as a word. -/
def ofBool (b : Bool) : W64 := if b then 1 else 0

/-- A number as a word, modulo 2^64. -/
def w64 (n : Nat) : W64 := BitVec.ofNat 64 n

/-- An integer as a word, modulo 2^64 (R50 wrap64). -/
def wrap64 (n : Int) : W64 := BitVec.ofInt 64 n

/-- R50 sext: a field sign-extended to 64 bits. -/
def sext {w : Nat} (x : BitVec w) : W64 := x.signExtend 64

/-- R50 zext: a field zero-extended to 64 bits. -/
def zext {w : Nat} (x : BitVec w) : W64 := x.zeroExtend 64

/-- All ones. -/
def allOnes : W64 := 0xFFFFFFFFFFFFFFFF#64

/-- A list sorted by f, equals keeping their order: each element goes behind those of no greater key. -/
def sortBy {α : Type} (f : α → Nat) (l : List α) : List α :=
  l.foldl (fun done x => (done.takeWhile fun y => f y ≤ f x) ++ x :: done.dropWhile fun y => f y ≤ f x) []

/-! ## Core addresses (R70) -/

/-- The kinds of core (R11); the Cobbler is a compute core. -/
inductive CoreKind where
  | compute | bank | station
  deriving DecidableEq, Repr

/-- The column of a core address. -/
def caX (k : Nat) : Nat := k % 128
/-- The row of a core address. -/
def caY (k : Nat) : Nat := (k / 2 ^ 8) % 64
/-- The DRAM layer of a bank core. -/
def caLayer (k : Nat) : Nat := (k / 2 ^ 14) % 8
/-- The tap of a bank core. -/
def caTap (k : Nat) : Nat := (k / 2 ^ 17) % 2
/-- The kind of core. -/
def caKind (k : Nat) : CoreKind :=
  if (k / 2 ^ 18) % 2 = 1 then .bank else if (k / 2 ^ 19) % 2 = 1 then .station else .compute
/-- The thread slot of a core address. -/
def caSlot (k : Nat) : Nat := (k / 2 ^ 20) % 16
/-- The core address with slot 0. -/
def caCore (k : Nat) : Nat := k % 2 ^ 20
/-- The core address of a slot of a core. -/
def caWith (core slot : Nat) : Nat := caCore core + slot * 2 ^ 20
/-- The compute core of a tile. -/
def caTile (x y : Nat) : Nat := x + y * 2 ^ 8
/-- The tile a core stands in, above or under. -/
def caTileOf (k : Nat) : Nat := caTile (caX k) (caY k)
/-- The bank core of a bank group. -/
def caBank (x y layer tap : Nat) : Nat := x + y * 2 ^ 8 + layer * 2 ^ 14 + tap * 2 ^ 17 + 2 ^ 18
/-- R9: the die of a core. -/
def caDie (k : Nat) : Nat := caX k / 32 + 4 * (caY k / 32)
/-- R69: the die-local index of a core. -/
def caIndex (k : Nat) : Nat := 32 * (caY k % 32) + caX k % 32
/-- The compute core of a die with this die-local index. -/
def caOfIndex (die i : Nat) : Nat := caTile (32 * (die % 4) + i % 32) (32 * (die / 4) + i / 32)
/-- R10: the Cobbler of a die. -/
def caCobbler (die : Nat) : Nat := caOfIndex die 1023
/-- R10: a compute core that is its die's Cobbler. -/
def isCobbler (k : Nat) : Bool := caKind k == .compute && caIndex k == 1023
/-- R11: the number of slots of a core. -/
def slotCount : CoreKind → Nat
  | .compute => 16
  | .bank => 8
  | .station => 4

/-- The slots of a core, lowest first. -/
def coreSlots (core : Nat) : List Nat :=
  (List.range (slotCount (caKind core))).map fun n => caWith core n

/-- R70: the three well-formed forms. -/
def coreAddressOk (v : W64) : Bool :=
  let k := v.toNat
  decide (k < 2 ^ 24) && !bitAt v 7 && decide (caSlot k < slotCount (caKind k)) &&
    (match caKind k with
     | .compute => decide (bitsAt v 17 14 = 0)
     | .bank => !bitAt v 19
     | .station => decide (bitsAt v 17 14 = 0))

/-! ## Slots -/

/-- The slot with this core address. -/
def State.slot (s : State) (k : Nat) : Slot := smGet Slot.free s.slots k

/-- Write a slot. -/
def State.setSlot (s : State) (k : Nat) (x : Slot) : State := { s with slots := smSet Slot.free s.slots k x }

/-- Change a slot. -/
def State.modSlot (s : State) (k : Nat) (f : Slot → Slot) : State := s.setSlot k (f (s.slot k))

/-- The slot whose bundle executes. -/
def State.me (s : State) : Slot := s.slot s.cur

/-- R22: the registers as the bundle reads them. -/
def State.rd (s : State) : Ctx :=
  match s.src with
  | some c => c
  | none => s.me.ctx

/-- Change the context that a slot's bundle commits: the one kept for its completion, or the live one. -/
def Slot.write (f : Ctx → Ctx) (x : Slot) : Slot :=
  match x.after with
  | some c => { x with after := some (f c) }
  | none => { x with ctx := f x.ctx }

/-- Change the registers that the executing bundle commits. -/
def State.upd (s : State) (f : Ctx → Ctx) : State := s.modSlot s.cur (Slot.write f)

/-- The core on which the executing slot runs. -/
def State.core (s : State) : Nat := caCore s.cur

/-- A slot that issues in its turns. -/
def SlotSt.isRun : SlotSt → Bool
  | .run => true
  | _ => false

/-- A slot that holds no thread. -/
def SlotSt.isFree : SlotSt → Bool
  | .free => true
  | _ => false

/-- R60: a slot that holds a thread. GANGHI and HELD lend a slot to the thread of its partner. -/
def SlotSt.live : SlotSt → Bool
  | .free | .ganghi | .held => false
  | .run | .park _ _ _ _ | .resv | .drain _ _ _ _ _ | .saving _ _ => true

/-- R54: the state code. A slot whose record is being written with nothing to finish is still in RUN or PARK (R55). -/
def SlotSt.code : SlotSt → Nat
  | .free => 0
  | .run => 1
  | .park _ _ _ _ => 2
  | .resv => 3
  | .ganghi => 4
  | .held => 5
  | .drain _ _ _ _ _ => 6
  | .saving parked _ => if parked then 2 else 1

/-- What a slot waits for, if it is parked. -/
def Slot.wait (x : Slot) : Option Wait :=
  match x.st with
  | .park w _ _ _ => some w
  | _ => none

/-- What a parked or draining slot waits for, and for which operation: beside a divide, a root or a special function an operation
drains even where it only waits (R99, R171). -/
def Slot.waits (x : Slot) : Option (Wait × Instr) :=
  match x.st with
  | .park w i _ _ | .drain _ w i _ _ => some (w, i)
  | _ => none

/-- The operation that a parked or draining slot has under way. -/
def Slot.instr (x : Slot) : Option Instr :=
  match x.st with
  | .park _ i _ _ => some i
  | .drain _ _ i _ _ => some i
  | .saving _ i => some i
  | _ => none

/-- R289: a slot whose thread is being spilled. -/
def SlotSt.spilling : SlotSt → Bool
  | .drain true _ _ _ _ | .saving _ _ => true
  | _ => false

/-- The gang partner of a slot: slot 2i and slot 2i + 1 (R56). -/
def partner (k : Nat) : Nat := if caSlot k % 2 = 0 then k + 2 ^ 20 else k - 2 ^ 20

/-! ## The thread state register (R67) -/

/-- `pstate`.priv. -/
def Ctx.priv (c : Ctx) : Bool := bitAt c.cr.pstate 0
/-- `pstate`.inh. -/
def Ctx.inh (c : Ctx) : Bool := bitAt c.cr.pstate 1
/-- `pstate`.gang. -/
def Ctx.gang (c : Ctx) : Bool := bitAt c.cr.pstate 2
/-- `pstate`.pure. -/
def Ctx.pure (c : Ctx) : Bool := bitAt c.cr.pstate 3
/-- `pstate`.uih. -/
def Ctx.uih (c : Ctx) : Bool := bitAt c.cr.pstate 4

/-- Change the control registers of a context. -/
def Ctx.onCr (f : CRs → CRs) (c : Ctx) : Ctx := { c with cr := f c.cr }

/-- Set one bit of `pstate`. -/
def Ctx.setPs (n : Nat) (b : Bool) (c : Ctx) : Ctx :=
  c.onCr fun r => { r with pstate := setBit r.pstate n b }

/-- The tenant of a context, 0 to 255. -/
def Ctx.ten (c : Ctx) : Nat := c.cr.tenant.toNat % 256

/-! ## Free values and arrival order -/

/-- Use one free value. -/
def State.takeFree (s : State) : Nat × State := (Config.freeNat s.free, { s with free := s.free + 1 })

/-- One of a list of allowed choices, which one being a free value. -/
def State.choose (s : State) (l : List Nat) : Option Nat × State :=
  match l with
  | [] => (none, s)
  | [x] => (some x, s)
  | _ =>
    let (n, t) := s.takeFree
    (l[n % l.length]?, t)

/-- The next place in the order of arrival. -/
def State.nextStamp (s : State) : Nat × State := (s.stamp, { s with stamp := s.stamp + 1 })

/-- A new thread number. -/
def State.newTid (s : State) : Nat × State := (s.nextTid, { s with nextTid := s.nextTid + 1 })

/-! ## Parking and rejoining -/

/-- Park a slot (R53), keeping the C-half that parks and the bytes it read at issue. -/
def State.parkAt (s : State) (k : Nat) (w : Wait) (i : Instr) (snap : List Byte) : State :=
  let (n, t) := s.nextStamp
  t.modSlot k fun x => { x with st := .park w i snap n }

/-- The operation of a parked slot is over: it rejoins, or takes the trap t, when OPERATION_COMPLETE comes. A slot in
DRAIN has finished its operation. -/
def State.reply (s : State) (k : Nat) (t : Option Trap) : State :=
  s.modSlot k fun x =>
    match x.st with
    | .park _ i sn n => { x with st := .park (.reply t) i sn n }
    | .drain spill _ i sn n => { x with st := .drain spill (.reply t) i sn n }
    | _ => x

/-- Change the registers that a parked slot's bundle commits. -/
def State.deliver (s : State) (k : Nat) (f : Ctx → Ctx) : State := s.modSlot k (Slot.write f)

/-- The parked and draining slots that wait as p says, in the order in which they arrived. -/
def State.waiting (s : State) (p : Wait → Bool) : List Nat :=
  let l := s.slots.filterMap fun e =>
    match e.2.st with
    | .park w _ _ n | .drain _ w _ _ n => if p w then some (n, e.1) else none
    | _ => none
  (sortBy Prod.fst l).map Prod.snd

/-- R193: a slot of this core has become FREE. -/
def State.noteFree (s : State) (k : Nat) : State := { s with freedAt := smSet 0 s.freedAt (caCore k) s.cycle }

/-- The live threads that occupy slots, with their slots. -/
def State.liveSlots (s : State) : List (Nat × Slot) := s.slots.filter fun e => e.2.st.live

end Sys2Proof.Machine
end

