-- ==== Sys2Proof/Machine/Memory.lean ====
section
/-!
DEFINITION. The memories of the package (R12): physical addresses, bytes and words, SECDED and poison (R148,
R245), full/empty bits (R249), the handle tables and where their blocks lie (R238 to R244), the capacity and the
owners of the SRAMs (R141 to R150), and the status block (R150).
-/

namespace Sys2Proof.Machine

/-! ## Physical addresses

The first byte of every memory unit has a number of its own: the space-0x1, 0x2 and 0x3 address form with its
core, cluster or die named; for stacked memory the tenant above the space-0x4 address; for the window the host or
peer address. -/

/-- A byte of a core's TCM. -/
def paTcm (core off : Nat) : Nat := 2 ^ 60 + caY core * 2 ^ 40 + caX core * 2 ^ 32 + off
/-- A byte of a cluster's scratchpad. -/
def paSpad (cx cy off : Nat) : Nat := 2 * 2 ^ 60 + cy * 2 ^ 40 + cx * 2 ^ 32 + off
/-- A byte of a die's shared SRAM. -/
def paShared (die off : Nat) : Nat := 3 * 2 ^ 60 + die * 2 ^ 32 + off
/-- A byte of a tenant's stacked memory. -/
def paStack (tenant : Nat) (ea : Nat) : Nat := (tenant + 1) * 2 ^ 64 + ea
/-- A byte of host memory. -/
def paHost (frame : Nat) : Nat := 8 * 2 ^ 60 + frame
/-- A byte of what a peer device exports for a tenant (R368). -/
def paPeer (dev tenant addr : Nat) : Nat := 2 ^ 73 + (dev * 256 + tenant) * 2 ^ 40 + addr

/-- The tenant of a stacked-memory byte, or none for another memory. -/
def paTenant (pa : Nat) : Option Nat :=
  if 2 ^ 64 ≤ pa ∧ pa < 2 ^ 73 then some (pa / 2 ^ 64 - 1) else none

/-- The handle, the block and the offset of a stacked-memory byte. -/
def paHandle (pa : Nat) : Nat := (pa / 2 ^ 40) % 2 ^ 20
def paBlock (pa : Nat) : Nat := (pa / 2 ^ 12) % 2 ^ 28
def paOff (pa : Nat) : Nat := pa % 2 ^ 40

/-! ## Bytes and words -/

/-- One byte as stored. -/
def State.byte (s : State) (a : Nat) : Byte := smGet 0 s.mem a

/-- Store one byte. -/
def State.setByte (s : State) (a : Nat) (v : Byte) : State := { s with mem := smSet 0 s.mem a v }

/-- R150: a byte of the status block of a die, at offset o from 0x3FF_F000. -/
def State.statusByte (s : State) (die o : Nat) : Byte :=
  if o < 0x800 then
    let m := ~~~(smGet 0 s.tbankOut (caOfIndex die (o / 2)))
    BitVec.ofNat 8 (if o % 2 = 0 then m.toNat else m.toNat / 256)
  else if o < 0xC00 then smGet 0 s.towner (caOfIndex die (o - 0x800))
  else if o < 0xC40 then
    let q := o - 0xC00
    let cx := 8 * (die % 4) + q % 8
    let cy := 8 * (die / 4) + q / 8
    let on := (List.range 16).any fun p =>
      let c := caTile (4 * cx + p % 4) (4 * cy + p / 4)
      bitAt (smGet allOnes s.coremask (die * 16 + caIndex c / 64)) (caIndex c % 64)
    if !on then 0 else if smGet false s.spad32 (cy * 32 + cx) then 32 else 64
  else if o < 0xC80 then
    let q := o - 0xC40
    smGet 0 s.sowner ((8 * (die / 4) + q / 8) * 32 + 8 * (die % 4) + q % 8)
  else if o < 0xF80 then smGet 0 s.gowner (die * 768 + (o - 0xC80))
  else if o < 0xF88 then BitVec.ofNat 8 ((smGet 0 s.ccount die).toNat / 256 ^ (o - 0xF80))
  else if o < 0xF90 then BitVec.ofNat 8 ((smGet 0 s.ucount die).toNat / 256 ^ (o - 0xF88))
  else 0

/-- A byte of a status block. -/
def paIsStatus (a : Nat) : Bool :=
  a / 2 ^ 60 == 3 && decide (0x3FFF000 ≤ a % 2 ^ 32)

/-- A byte as an access reads it. -/
def State.readByte (s : State) (a : Nat) : Byte :=
  if paIsStatus a then s.statusByte ((a / 2 ^ 32) % 8) (a % 2 ^ 32 - 0x3FFF000) else s.byte a

/-- n bytes from address a on. -/
def State.readBytes (s : State) : Nat → Nat → List Byte
  | _, 0 => []
  | a, n + 1 => s.readByte a :: s.readBytes (a + 1) n

/-- The number that bytes form, the first the least significant (R2). -/
def leNat : List Byte → Nat
  | [] => 0
  | b :: t => b.toNat + 256 * leNat t

/-- The n bytes of a number, the least significant first (R2). -/
def leBytes : Nat → Nat → List Byte
  | 0, _ => []
  | n + 1, v => BitVec.ofNat 8 v :: leBytes n (v / 256)

/-- The little-endian number in n bytes from address a on. -/
def State.readN (s : State) (a n : Nat) : Nat := leNat (s.readBytes a n)

/-- The 64-bit word at address a. -/
def State.readW (s : State) (a : Nat) : W64 := w64 (s.readN a 8)

/-- Store bytes from address a on. -/
def State.writeBytes (s : State) : Nat → List Byte → State
  | _, [] => s
  | a, b :: t => (s.setByte a b).writeBytes (a + 1) t

/-- Store a number in n bytes from address a on. -/
def State.writeN (s : State) (a n v : Nat) : State := s.writeBytes a (leBytes n v)

/-- Store a 64-bit word. -/
def State.writeW (s : State) (a : Nat) (v : W64) : State := s.writeN a 8 v.toNat

/-! ## Errors and full/empty bits -/

/-- The address of the word that holds a byte. -/
def wordOf (a : Nat) : Nat := a - a % 8

/-- R148, R245: the word that holds this byte is uncorrectable or poisoned. -/
def State.isBad (s : State) (a : Nat) : Bool := smGet false s.bad (wordOf a)

/-- Mark the word that holds a byte. -/
def State.setBad (s : State) (a : Nat) (b : Bool) : State := { s with bad := smSet false s.bad (wordOf a) b }

/-- The first bad word that n bytes from a on touch, as an offset from the word of a. -/
def State.firstBad (s : State) (a n : Nat) : Option Nat :=
  ((List.range ((a % 8 + n + 7) / 8)).find? fun j => s.isBad (wordOf a + 8 * j)).map (8 * ·)

/-- Clear the bad mark of every whole word among n bytes from a on (R148, R245). -/
def State.clearBad (s : State) (a n : Nat) : State :=
  if a % 8 = 0 then (List.range (n / 8)).foldl (fun t j => t.setBad (a + 8 * j) false) s else s

/-! ## Errors of SRAM words (R148, R149) -/

/-- The memory of a physical address is an SRAM with SECDED: TCM, scratchpad or shared SRAM. -/
def paSram (pa : Nat) : Bool := decide (2 ^ 60 ≤ pa) && decide (pa < 4 * 2 ^ 60)

/-- The die of an SRAM address. -/
def sramDie (pa : Nat) : Nat :=
  let x := pa / 2 ^ 32 % 2 ^ 8
  let y := pa / 2 ^ 40 % 2 ^ 8
  match pa / 2 ^ 60 with
  | 1 => caDie (caTile x y)
  | 2 => caDie (caTile (4 * x) (4 * y))
  | _ => x % 8

/-- R149: the TCM bank of an address, as 16 · core + bank, and the row of that bank; none outside TCM. -/
def tcmBank (pa : Nat) : Option Nat :=
  if pa / 2 ^ 60 = 1 then some (16 * caTile (pa / 2 ^ 32 % 2 ^ 8) (pa / 2 ^ 40 % 2 ^ 8) + pa % 2 ^ 32 / 0x2000) else none

/-- The key of the row that holds the word of a TCM address. -/
def rowKey (pa : Nat) : Option Nat := (tcmBank pa).map fun b => Config.rowOf (wordOf (pa % 2 ^ 32)) * 2 ^ 20 + b

/-- R149: the row of a word is to be remapped at its next write. -/
def State.rowFails (s : State) (pa : Nat) : State :=
  match rowKey pa with
  | some r => { s with rowBad := smSet false s.rowBad r true }
  | none => s

/-- R150: an uncorrectable SRAM word has been met: it counts, and its row is to be remapped (R149). -/
def State.countBad (s : State) (pa : Nat) : State :=
  if paSram pa then State.rowFails { s with ucount := smMod 0 s.ucount (sramDie pa) (· + 1) } pa else s

/-- R149: a row that corrects a second error within one second, 2.7 · 10^9 cycles (R5), is to be remapped. -/
def State.noteRow (s : State) (pa : Nat) : State :=
  match rowKey pa with
  | none => s
  | some r =>
    let last := smGet 0 s.rowSeen r
    let t := { s with rowSeen := smSet 0 s.rowSeen r (s.cycle + 1) }
    if last ≠ 0 ∧ s.cycle + 1 ≤ last + 2700000000 then t.rowFails pa else t

/-- R148, R150: a read of the word that holds a byte corrects its single-bit error, writes it back and counts it. -/
def State.correctWord (s : State) (a : Nat) : State :=
  if smGet false s.flaws (wordOf a) then
    State.noteRow { s with
      flaws := smSet false s.flaws (wordOf a) false
      ccount := smMod 0 s.ccount (sramDie a) (· + 1) } a
  else s

/-- The words that n bytes from a on touch. -/
def wordsTouched (a n : Nat) : List Nat := (List.range ((a % 8 + n + 7) / 8)).map fun j => wordOf a + 8 * j

/-- R148: a read of n bytes from a on corrects the words that it touches. -/
def State.correct (s : State) (a n : Nat) : State :=
  if s.flaws.isEmpty then s else (wordsTouched a n).foldl State.correctWord s

/-- R149: a write of the word at a remaps its row, if that is to be, while its bank has one of its four spare rows left. -/
def State.remapWord (s : State) (a : Nat) : State :=
  match tcmBank a, rowKey a with
  | some b, some r =>
    if smGet false s.rowBad r && decide (smGet 0 s.spareRows b < 4) then
      { s with
        rowBad := smSet false s.rowBad r false
        spareRows := smMod 0 s.spareRows b (· + 1)
        mgmt := { s.mgmt with repairs := s.mgmt.repairs ++ [(0, b)] } }
    else s
  | _, _ => s

/-- R148: a write of n bytes from a on and the single-bit errors of its words: a word written whole gets a fresh code, and a
narrower write reads its word first. -/
def State.recode (s : State) (a n : Nat) : State :=
  if s.flaws.isEmpty then s
  else if a % 8 = 0 ∧ n % 8 = 0 then
    (wordsTouched a n).foldl (fun t w => { t with flaws := smSet false t.flaws w false }) s
  else s.correct a n

/-- R149: a write of n bytes from a on remaps the rows of its words that are to be. -/
def State.remapRun (s : State) (a n : Nat) : State :=
  if s.rowBad.isEmpty then s else (wordsTouched a n).foldl State.remapWord s

/-- R148, R149: what a write of n bytes from a on does to the errors of its words, and to rows that are to be remapped. -/
def State.freshen (s : State) (a n : Nat) : State :=
  (s.recode a n).remapRun a n

/-- The handle table entry of a handle (R238). -/
def State.obj (s : State) (tenant handle : Nat) : Obj := smGet Obj.none s.objs (tenant * 2 ^ 20 + handle)

/-- R246, R249: the full/empty bit of a word, true when full. -/
def State.isFull (s : State) (a : Nat) : Bool :=
  match paTenant a with
  | some t => smGet false s.feFlip (wordOf a) == bitAt (s.obj t (paHandle a)).opts 4
  | none => true

/-- Write a full/empty bit. -/
def State.setFull (s : State) (a : Nat) (full : Bool) : State :=
  match paTenant a with
  | some t =>
    { s with feFlip := smSet false s.feFlip (wordOf a) (full == bitAt (s.obj t (paHandle a)).opts 4) }
  | none => s

/-! ## Where blocks lie -/

/-- R240, R244: a bank group in service. -/
def State.inService (s : State) (bank : Nat) : Bool := !smGet false s.retired bank

/-- The state of a layer (R243). -/
def State.layer (s : State) (stack l : Nat) : Nat := (smGet 0 s.layers (stack * 8 + l)).toNat

/-- The n-th bank group tapped by the station under a tile. -/
def groupOf (tile n : Nat) : Nat := caBank (caX tile) (caY tile) (n / 2) (n % 2)

/-- R243, R244: a bank group that can take a block: in service, on a layer that is not OFF or in FAULT. -/
def State.groupUsable (s : State) (bank : Nat) : Bool := s.inService bank && decide (s.layer (caDie bank) (caLayer bank) < 2)

/-- The key of a block. -/
def blkKey (tenant handle b : Nat) : Nat := (tenant * 2 ^ 20 + handle) * 2 ^ 28 + b

/-- A block's departures from its placement. -/
def State.blk (s : State) (tenant handle b : Nat) : Blk := smGet Blk.placed s.blks (blkKey tenant handle b)

/-- The bank core of the bank group that holds a block (R241, R242). -/
def State.blockHome (s : State) (tenant handle b : Nat) : Nat :=
  match (s.blk tenant handle b).home with
  | some h => h
  | none => (s.obj tenant handle).homes[b]?.getD (caBank 0 0 0 0)

/-- The bank core of the bank group that holds a byte. -/
def State.bankOf (s : State) (pa : Nat) : Nat :=
  match paTenant pa with
  | some t => s.blockHome t (paHandle pa) (paBlock pa)
  | none => 0

/-- R243: the block of a byte lies on a layer in FAULT. -/
def State.offline (s : State) (pa : Nat) : Bool :=
  let b := s.bankOf pa
  s.layer (caDie b) (caLayer b) == 3

/-- What a translation that has to wait gives for an address: no byte of the machine, and held like a byte of memory whose
layer sleeps or whose block moves (R242, R243, R301). -/
def paWaits : Nat := 15 * 2 ^ 60

/-- R242, R243: accesses to this byte are held: its layer is asleep, or its block is in motion. -/
def State.isHeld (s : State) (pa : Nat) : Bool :=
  match paTenant pa with
  | some t =>
    let b := s.bankOf pa
    s.layer (caDie b) (caLayer b) == 1 || (s.blk t (paHandle pa) (paBlock pa)).dest.isSome
  | none => decide (pa = paWaits)

/-- The first byte of every block that n bytes of stacked memory from pa on touch. -/
def blocksOfRun (pa n : Nat) : List Nat :=
  pa :: (List.range (n / 4096 + 1)).filterMap fun j =>
    let a := pa - pa % 4096 + 4096 * (j + 1)
    if a < pa + n then some a else none

/-- R242, R243: an access to n bytes from pa on is held. -/
def State.runHeld (s : State) (pa n : Nat) : Bool := (blocksOfRun pa n).any s.isHeld

/-- R244: the block of a byte is lost. -/
def State.isLost (s : State) (pa : Nat) : Bool :=
  match paTenant pa with
  | some t => (s.blk t (paHandle pa) (paBlock pa)).lost
  | none => false

/-- R243, R244: a block among n bytes from pa on is lost, or lies on a layer in FAULT: nothing is read or written there. -/
def State.runGone (s : State) (pa n : Nat) : Bool := (blocksOfRun pa n).any fun a => s.isLost a || s.offline a

/-- Rights of a handle (R239), as bits r, w, x, s. -/
def rightR : BitVec 4 := 1
def rightW : BitVec 4 := 2
def rightX : BitVec 4 := 4
def rightS : BitVec 4 := 8

/-- A trap with `tval` the address. -/
def trapAt (cause : BitVec 8) (v : W64) : Trap := ⟨cause, v⟩

/-- R238, first two checks: the handle is allocated and the offset lies in the object. -/
def State.resolveHandle (s : State) (tenant : Nat) (ea : W64) : Except Trap Nat :=
  let pa := paStack tenant ea.toNat
  let o := s.obj tenant (paHandle pa)
  if paHandle pa = 0 || !o.used || decide (o.size ≤ paOff pa) then .error (trapAt 0x04 ea) else .ok pa

/-- R238: resolve a space-0x4 address, with the rights that the operation needs. -/
def State.resolve (s : State) (tenant : Nat) (ea : W64) (need : BitVec 4) : Except Trap Nat :=
  match s.resolveHandle tenant ea with
  | .error t => .error t
  | .ok pa =>
    if need &&& BitVec.ofNat 4 (s.obj tenant (paHandle pa)).opts.toNat != need then .error (trapAt 0x06 ea)
    else if s.isLost pa then .error (trapAt 0x14 ea)
    else if s.offline pa then .error (trapAt 0x0A ea)
    else .ok pa

/-! ## SRAM capacity and owners -/

/-- R66, R69: a compute core that `coremask` enables. -/
def State.coreEnabled (s : State) (core : Nat) : Bool :=
  bitAt (smGet allOnes s.coremask (caDie core * 16 + caIndex core / 64)) (caIndex core % 64)

/-- R141, R149: an offset of a core's TCM that is in service. -/
def State.tcmOk (s : State) (core off : Nat) : Bool :=
  decide (off < 0x20000) && !bitAt (smGet 0 s.tbankOut (caTileOf core)) (off / 0x2000)

/-- R149: the capacity of a cluster's scratchpad. That it has one where sbanks reads 0 (R150), since no core of the cluster is
enabled, is the model's choice (log entry 102). -/
def State.spadSize (s : State) (cx cy : Nat) : Nat := if smGet false s.spad32 (cy * 32 + cx) then 0x100000 else 0x200000

/-- R143: a tenant that may use memory with this owner. -/
def ownerOk (tenant : Nat) (owner : Byte) : Bool := tenant == 0 || owner.toNat == tenant

/-- R143: the owner of a core's TCM. -/
def State.tcmOwner (s : State) (core : Nat) : Byte := smGet 0 s.towner (caTileOf core)

end Sys2Proof.Machine
end

