-- ==== Sys2Proof/Machine/Operands.lean ====
section
/-!
DEFINITION. Operand forms: the register files as instructions reach them (R79 to R82, R166 to R168), guards (R26),
lanes of vector registers (R168), and the windows and scopes that fields name.
-/

namespace Sys2Proof.Machine

/-! ## Scalar registers -/

/-- R79, R81: read a general register. g0 reads 0; g1 to g4 are h1 to h4 while `pstate`.uih is 1. -/
def Ctx.getG (c : Ctx) (n : GReg) : W64 :=
  if n = 0 then 0
  else if c.uih && decide (n.toNat ≤ 4) then (c.h.toList)[n.toNat - 1]?.getD 0
  else (c.g.toList)[n.toNat]?.getD 0

/-- R79, R81: write a general register as a bundle names it that was issued with this `pstate`.uih. A write to g0
is discarded. -/
def Ctx.setGIn (uih : Bool) (c : Ctx) (n : GReg) (v : W64) : Ctx :=
  if n = 0 then c
  else if uih && decide (n.toNat ≤ 4) then { c with h := c.h.setIfInBounds (n.toNat - 1) v }
  else { c with g := c.g.setIfInBounds n.toNat v }

/-- R79, R81: write a general register. -/
def Ctx.setG (c : Ctx) (n : GReg) (v : W64) : Ctx := c.setGIn c.uih n v

/-- The general register that follows by k the one that a multi-register operand names (R31). That one of g1 to g4 which so
follows reaches its h register too while uih is 1 is the model's choice: R81 speaks of fields that name them (log entry 88). -/
def Ctx.getGAt (c : Ctx) (n : GReg) (k : Nat) : W64 := c.getG (n + BitVec.ofNat 5 k)

/-- R80: read a predicate. b0 reads 1. -/
def Ctx.getB (c : Ctx) (n : PReg) : Bool := if n = 0 then true else bitAt c.b n.toNat

/-- R80: write a predicate. A write to b0 is discarded. -/
def Ctx.setB (c : Ctx) (n : PReg) (v : Bool) : Ctx :=
  if n = 0 then c
  else { c with b := if v then c.b ||| (1#8 <<< n.toNat) else c.b &&& ~~~(1#8 <<< n.toNat) }

/-- R167: read a mask register. -/
def Ctx.getM (c : Ctx) (n : MReg) : W64 := (c.m.toList)[n.toNat]?.getD 0

/-- R167: write a mask register. -/
def Ctx.setM (c : Ctx) (n : MReg) (v : W64) : Ctx := { c with m := c.m.setIfInBounds n.toNat v }

/-- R26: the guard of a half holds. -/
def Ctx.holds (c : Ctx) (g : Guard) : Bool := c.getB g.p != g.neg

/-! ## Vector registers -/

/-- R166, R56: the width of a vector register, 512 bits, or 1,024 in a ganged thread. -/
def Ctx.vlen (c : Ctx) : Nat := if c.gang then 1024 else 512

/-- R166: read a vector register, as bits above its width zero. -/
def Ctx.getV (c : Ctx) (n : VReg) : BitVec 1024 :=
  let x := (c.v.toList)[n.toNat]?.getD 0
  if c.gang then x else x &&& ((1#1024 <<< 512) - 1)

/-- R166, R57: write a vector register of a bundle that was issued ganged or not. An unganged thread leaves the
halves that its HELD partner keeps. -/
def Ctx.setVIn (gang : Bool) (c : Ctx) (n : VReg) (x : BitVec 1024) : Ctx :=
  let low := (1#1024 <<< 512) - 1
  let old := (c.v.toList)[n.toNat]?.getD 0
  { c with v := c.v.setIfInBounds n.toNat (if gang then x else (old &&& ~~~low) ||| (x &&& low)) }

/-- R166: write a vector register. -/
def Ctx.setV (c : Ctx) (n : VReg) (x : BitVec 1024) : Ctx := c.setVIn c.gang n x

/-- R57, R75: the upper halves of the vector registers are discarded. -/
def Ctx.dropUpper (c : Ctx) : Ctx := { c with v := c.v.map fun x => x &&& ((1#1024 <<< 512) - 1) }

/-- R168: the number of lanes of w bits. -/
def Ctx.lanes (c : Ctx) (w : Nat) : Nat := c.vlen / w

/-- R168: lane j of w bits of a register value. -/
def lane {n : Nat} (x : BitVec n) (w j : Nat) : Nat := (x.toNat / 2 ^ (w * j)) % 2 ^ w

/-- The lanes of w bits of a register value, lane 0 first. -/
def lanesOf (x : BitVec 1024) (w n : Nat) : List Nat := (List.range n).map fun j => lane x w j

/-- A register value with these lanes of w bits, lane 0 first, and zeros above them. -/
def ofLanes (w : Nat) (l : List Nat) : BitVec 1024 :=
  BitVec.ofNat 1024 (l.foldr (fun v acc => v % 2 ^ w + 2 ^ w * acc) 0)

/-- The bytes of a vector register, byte 0 first. -/
def vBytes (x : BitVec 1024) (n : Nat) : List Byte := (lanesOf x 8 n).map (BitVec.ofNat 8)

/-- A vector register with these bytes. -/
def ofVBytes (l : List Byte) : BitVec 1024 := ofLanes 8 (l.map BitVec.toNat)

/-! ## The executing bundle's operands -/

/-- Read a general register at issue. -/
def State.g (s : State) (n : GReg) : W64 := s.rd.getG n

/-- Read the k-th register of a multi-register operand at issue. -/
def State.gAt (s : State) (n : GReg) (k : Nat) : W64 := s.rd.getGAt n k

/-- Write a general register. -/
def State.setG (s : State) (n : GReg) (v : W64) : State := s.upd fun c => c.setGIn s.rd.uih n v

/-- Write a predicate. -/
def State.setB (s : State) (n : PReg) (v : Bool) : State := s.upd fun c => c.setB n v

/-- Write a mask register. -/
def State.setM (s : State) (n : MReg) (v : W64) : State := s.upd fun c => c.setM n v

/-- R166, R75: write a vector register. A thread that was issued ganged and that the bundle's `split` has unganged keeps no
upper half: that the discard comes last is the model's choice (log entry 91). -/
def State.setV (s : State) (n : VReg) (v : BitVec 1024) : State := s.upd fun c => c.setVIn (s.rd.gang && c.gang) n v

/-- Set where the next bundle is fetched (R50 next_pc). -/
def State.setNpc (s : State) (v : W64) : State := s.modSlot s.cur fun x => { x with npc := v }

/-- R50 pc: the address of the bundle that executes. -/
def State.pc (s : State) : W64 := s.rd.pc

/-- R31: the k-th general register after the one a field names. -/
def gNext (n : GReg) (k : Nat) : GReg := n + BitVec.ofNat 5 k

/-- A half with this guard: nothing happens when the slot no longer issues or the guard does not hold (R26). -/
def half (gd : Guard) (s : State) (f : State → State) : Res :=
  .next (if s.me.st.isRun && s.rd.holds gd then f s else s)

/-- A C-half i of variable latency (R53). When the schedule says so it parks, with the bytes it reads as a
snapshot, and the same meaning runs when its arbiter takes it. -/
def halfVar (gd : Guard) (i : Instr) (s : State) (f : State → State) : Res :=
  half gd s fun s => if s.slow then s.parkAt s.cur .flight i [] else f s

/-! ## Windows and scopes -/

/-- R34, R261: the pairing window in cycles of a window code. -/
def windowOf (w : Win) (c : Ctx) : Nat :=
  let k := match w with
    | .qwin => c.cr.qwin.toNat % 8
    | .code k => k.toNat
  if k = 0 then 0 else 2 ^ (k - 1)

/-- R352: the bounds of a scope rectangle: x_lo, x_hi, y_lo, y_hi. -/
structure Rect where
  xlo : Nat
  xhi : Nat
  ylo : Nat
  yhi : Nat
  bk  : Bool
  deriving DecidableEq, Repr

/-- R352: the fields of a value in scope-rectangle format. -/
def rectOf (v : W64) : Rect := ⟨bitsAt v 6 0, bitsAt v 22 16, bitsAt v 13 8, bitsAt v 29 24, bitAt v 31⟩

/-- R352: the reserved bits of a scope rectangle. -/
def rectReserved : W64 := 0xFFFFFFFF4080C080#64

/-- R352: a value that a register or field in scope-rectangle format accepts; all ones names the package. -/
def rectOk (v : W64) : Bool := v == allOnes || v &&& rectReserved == 0

/-- R352: the value stored for an accepted one. -/
def rectNorm (v : W64) : W64 := if v = allOnes then packageRect else v

/-- A rectangle that holds no tile (R352). -/
def Rect.isEmpty (r : Rect) : Bool := decide (r.xhi < r.xlo) || decide (r.yhi < r.ylo)

/-- A tile inside a rectangle. -/
def Rect.has (r : Rect) (x y : Nat) : Bool :=
  decide (r.xlo ≤ x) && decide (x ≤ r.xhi) && decide (r.ylo ≤ y) && decide (y ≤ r.yhi)

/-- R71: a core inside a launch rectangle; a bank core needs bk as well. -/
def Rect.hasCore (r : Rect) (core : Nat) : Bool :=
  r.has (caX core) (caY core) && (caKind core != .bank || r.bk)

end Sys2Proof.Machine
end

