-- ==== Sys2Proof/Machine/QueueHome.lean ====
section
/-!
DEFINITION. The home of a queue (R264 to R268): its capacity in coded slots, pushes and pops, the operations
parked at it, and the descriptor that loads read.
-/

namespace Sys2Proof.Machine

/-- A function of the host link (R363). -/
def State.fn (s : State) (n : Nat) : HostFn := smGet HostFn.reset s.fns n

/-- R369: a dword of a tenant's entry in the tenant table. -/
def State.tt (s : State) (tenant idx : Nat) : W64 := smGet 0 s.tenants (tenant * 32 + idx)

/-- R266: the fields in which two entries differ. -/
def entryDiff (x y : BitVec 512) : Nat :=
  ((List.range 8).filter fun j => lane x 64 j != lane y 64 j).length

/-- R266: the slots that coded entries take, each against the one before it, the first against p. -/
def codedSlots (p : BitVec 512) : List (BitVec 512 × Bool) → Nat
  | [] => 0
  | e :: t => 1 + entryDiff e.1 p + codedSlots e.1 t

/-- R266: the slots in use. A FIFO codes against the entry last removed, a LIFO or BAG against zeros. -/
def Queue.used (q : Queue) : Nat := codedSlots (if q.mode = 0 then q.last else 0) q.entries

/-- R265: the slots held. -/
def Queue.cap (q : Queue) : Nat := 64 * (q.base + q.lent)

/-- The queue whose descriptor stands at pa. -/
def State.queue (s : State) (pa : Nat) : Queue := smGet Queue.none s.queues pa

/-- R267: blocks of a tenant's queue pool that no queue holds. -/
def State.poolFree (s : State) (tenant : Nat) : Nat :=
  let held := s.queues.foldl (fun n e => if e.2.live && e.2.tenant.toNat == tenant then n + e.2.base + e.2.lent else n) 0
  (s.tt tenant 7).toNat - held

/-- The slots parked at a home with a push, or with a pop, in order of arrival. -/
def State.parkedAt (s : State) (pa : Nat) (push : Bool) : List Nat :=
  (s.waiting fun w => match w with | .queue a => a == pa | _ => false).filter fun k =>
    match (s.slot k).instr with
    | some (.qpush _ _ _ _ _ _) => push
    | some (.qpop _ _ _ _ _ _) => !push
    | _ => false

/-- R265: write the descriptor as loads are to read it. -/
def State.syncDesc (s : State) (pa : Nat) : State :=
  let q := s.queue pa
  let cfg := w64 (q.mode + (if q.elim then 4 else 0) + (if q.live then 8 else 0) + q.base * 2 ^ 8) |||
    (q.tenant <<< 16)
  let t := s.writeW pa cfg
  let t := t.writeW (pa + 0x08) (w64 q.entries.length)
  let t := t.writeW (pa + 0x10) (w64 q.used)
  let t := t.writeW (pa + 0x18) (w64 q.cap)
  let t := t.writeW (pa + 0x20) q.pushes
  let t := t.writeW (pa + 0x28) q.pops
  let t := t.writeW (pa + 0x30) (w64 ((s.parkedAt pa false).length + (s.parkedAt pa true).length * 2 ^ 32))
  t.writeW (pa + 0x38) 0

/-- Write a queue and its descriptor. -/
def State.setQueue (s : State) (pa : Nat) (q : Queue) : State :=
  State.syncDesc { s with queues := smSet Queue.none s.queues pa q } pa

/-- R272: what a queue operation writes when it is answered: the status, and the entry of a pop. -/
def answerQueue (i : Instr) (status : W64) (e : Option (BitVec 512)) (c : Ctx) : Ctx :=
  match i, e with
  | .qpush _ d _ _ _ _, _ => c.setG d status
  | .qpop _ d _ v _ _, some x => (c.setG d status).setV v (x.zeroExtend 1024)
  | .qpop _ d _ _ _ _, none => c.setG d status
  | _, _ => c

/-- R272: the status of an operation answered at the home (code 0) or in stage k of a Welt (where k + 1). -/
def queueStatus (code where_ : Nat) : W64 := w64 (code + where_ * 2 ^ 8)

/-- Answer a parked, travelling or draining queue operation. -/
def State.answerSlot (s : State) (k : Nat) (status : W64) (e : Option (BitVec 512)) : State :=
  match (s.slot k).instr with
  | some i => (s.deliver k (answerQueue i status e)).reply k none
  | none => s

/-- R267, R268: store an entry, borrowing a block if that is needed and the pool has one. -/
def State.storeEntry (s : State) (pa : Nat) (e : BitVec 512) : Option State :=
  let q := s.queue pa
  let q1 := { q with entries := q.entries ++ [(e, false)], pushes := q.pushes + 1 }
  if q1.used ≤ q1.cap then some (s.setQueue pa q1)
  else if s.poolFree q.tenant.toNat = 0 then none
  else some (s.setQueue pa { q1 with lent := q1.lent + 1 })

/-- R268: the home takes a push; none when there is no room. -/
def State.homePush (s : State) (pa : Nat) (e : BitVec 512) : Option State :=
  match s.parkedAt pa false with
  | k :: _ =>
    let q := s.queue pa
    some ((s.answerSlot k (queueStatus 0 0) (some e)).setQueue pa
      { q with pushes := q.pushes + 1, pops := q.pops + 1 })
  | [] => s.storeEntry pa e

/-- R267: lent blocks that go back to the pool after a pop. -/
def Queue.reclaim (q : Queue) : Nat → Queue
  | 0 => q
  | n + 1 => if 0 < q.lent && decide (q.used + 64 ≤ q.cap) then Queue.reclaim { q with lent := q.lent - 1 } n else q

/-- R266: the slots that the record above the j-th of coded entries needs more once that entry is removed. -/
def recordGrowth (l : List (BitVec 512 × Bool)) (j : Nat) : Nat :=
  let at_ (n : Nat) : BitVec 512 := (l[n]?.map Prod.fst).getD 0
  let below : BitVec 512 := if j = 0 then 0 else at_ (j - 1)
  entryDiff (at_ (j + 1)) below - entryDiff (at_ (j + 1)) (at_ j)

/-- R268: the entries that a pop may take, by place: of a BAG, the newest, and those whose removal fits in the free slots. -/
def Queue.popChoices (q : Queue) : List Nat :=
  let n := q.entries.length
  match q.mode with
  | 0 => if n = 0 then [] else [0]
  | 1 => if n = 0 then [] else [n - 1]
  | _ => (List.range n).filter fun j => j == n - 1 || decide (recordGrowth q.entries j ≤ q.cap - q.used)

/-- R268: the oldest push parked at the home is stored if it now fits. -/
def State.admitPush (s : State) (pa : Nat) : State :=
  match s.parkedAt pa true with
  | [] => s
  | k :: _ =>
    let e := match (s.slot k).instr with
      | some (.qpush _ _ _ v _ _) => ((s.slot k).ctx.getV v).truncate 512
      | _ => 0
    match s.storeEntry pa e with
    | none => s
    | some t => State.syncDesc (t.answerSlot k (queueStatus 0 0) none) pa

/-- R268: the home takes a pop: the entry removed, with its error mark, or none when the queue is empty. -/
def State.homePop (s : State) (pa : Nat) : Option (BitVec 512 × Bool) × State :=
  let q := s.queue pa
  match s.choose q.popChoices with
  | (none, t) => (none, t)
  | (some j, t) =>
    match q.entries[j]? with
    | none => (none, t)
    | some e =>
      let q1 := { q with entries := q.entries.eraseIdx j, last := e.1 }
      let q2 := (if e.2 then q1 else { q1 with pops := q1.pops + 1 }).reclaim q1.lent
      (some e, (t.setQueue pa q2).admitPush pa)

/-- R264, R272: the queue that a reference of a tenant names, as the physical address of its descriptor, when it
is live with the reference's mode and eliminable bit. -/
def State.liveQueue (s : State) (tenant : Nat) (r : W64) : Option Nat :=
  let pa := paStack tenant (r.toNat - r.toNat % 64)
  let q := s.queue pa
  if q.live && !q.closing && decide (q.mode = r.toNat % 4) && q.elim == bitAt r 2 then some pa else none

/-- R265: the byte stands in the descriptor of a live queue. -/
def State.inDesc (s : State) (pa : Nat) : Bool := (s.queue (pa - pa % 64)).live

/-- R265: the descriptor of a live queue stands among n bytes from pa on. -/
def State.runDesc (s : State) (pa n : Nat) : Bool :=
  s.queues.any fun e => e.2.live && decide (e.1 < pa + n) && decide (pa < e.1 + 64)

/-- An entry of eight fields, f0 first. -/
def entryOf (l : List W64) : BitVec 512 := (ofLanes 64 (l.map BitVec.toNat)).truncate 512

/-- R296: post an event to a tenant's error queue. A full queue, or one whose home is lost or in FAULT (R243, R244), drops it
and counts it. While memory holds the home (R242, R243), the event waits behind those that wait already. -/
def State.postEvent (s : State) (tenant : Nat) (f : List W64) : State :=
  let drop := smGet 0 s.dropped tenant
  let lost := { s with dropped := smSet 0 s.dropped tenant (drop + 1) }
  match s.liveQueue tenant (s.tt tenant 2) with
  | none => lost
  | some pa =>
    if s.isLost pa || s.offline pa then lost
    else if s.isHeld pa || s.events.any fun e => e.1 == tenant then { s with events := s.events ++ [(tenant, f)] }
    else
      match s.homePush pa (entryOf (f ++ [drop])) with
      | none => lost
      | some t => { t with dropped := smSet 0 t.dropped tenant 0 }

/-- R242, R243, R296: the events that wait for their homes are posted again, in their order. -/
def State.repost (s : State) : State := s.events.foldl (fun t e => t.postEvent e.1 e.2) { s with events := [] }

end Sys2Proof.Machine
end

