-- ==== Sys2Proof/Machine/TableCore.lean ====
section
/-!
DEFINITION. The sets of the Answer Table (R303 to R311, R317 to R319): references, groups and their pending
counts, delivery to callers, the end of a round, failure, and the way back to FREE.
-/

namespace Sys2Proof.Machine

/-- The codes of `tabst` (R312). -/
inductive TabCode where
  | noentry | produce | hit | loop | failed | noroom | done | again | member | new | dup | ended | stale | full
  | reuse | answer
  deriving DecidableEq, Repr

/-- R312: the number of a code. -/
def TabCode.num : TabCode → Nat
  | .noentry => 0 | .produce => 1 | .hit => 2 | .loop => 3 | .failed => 4 | .noroom => 5 | .done => 6
  | .again => 7 | .member => 8 | .new => 9 | .dup => 10 | .ended => 11 | .stale => 12 | .full => 13
  | .reuse => 14 | .answer => 15

/-- R312: a value of `tabst`. -/
def tabstOf (c : TabCode) (cause : BitVec 8) (count : Nat) : W64 :=
  w64 (c.num + cause.toNat * 2 ^ 8 + count % 2 ^ 15 * 2 ^ 16)

/-- Write `tabst`. -/
def Ctx.setTabst (v : W64) (c : Ctx) : Ctx := c.onCr fun r => { r with tabst := v }

/-- The entry in a way. -/
def State.entry (s : State) (way : Nat) : AtEntry := smGet AtEntry.free s.entries way

/-- Write a way. -/
def State.setEntry (s : State) (way : Nat) (e : AtEntry) : State :=
  { s with entries := smSet AtEntry.free s.entries way e }

/-- R304, R379: the generation of a way, 1 to 1,023. -/
def genOf (way adv : Nat) : Nat := (Config.firstGen way + adv) % 1023 + 1

/-- R304: the reference of the entry in a way. -/
def State.refOf (s : State) (way : Nat) : Nat := way + genOf way (s.entry way).adv * 2 ^ 21

/-- R304: the way that a reference of a tenant names, unless the reference is stale. -/
def State.wayOf (s : State) (tenant : Nat) (r : W64) : Option Nat :=
  let way := r.toNat % 2 ^ 21
  let e := s.entry way
  if e.st != .free && decide (e.tenant.toNat = tenant) && decide (bitsAt r 30 21 = genOf way e.adv) then some way
  else none

/-- The members of a group, which are in EVAL, oldest first (R308). -/
def State.members (s : State) (g : Nat) : List Nat :=
  (sortBy (fun e => e.2.created) (s.entries.filter fun e => e.2.st == .eval && e.2.group == g)).map Prod.fst

/-- R308: the number of members whose producer takes part in the round. -/
def State.pending (s : State) (g : Nat) : Nat :=
  ((s.members g).filter fun w => (s.entry w).producer.isSome).length

/-- The record of a group. -/
def State.group (s : State) (g : Nat) : AtGroup := smGet ⟨0, false⟩ s.groups g

/-- Write the record of a group. -/
def State.setGroup (s : State) (g : Nat) (x : AtGroup) : State := { s with groups := smSet ⟨0, false⟩ s.groups g x }

/-- R304, R317: the way becomes FREE: its references go stale, its answers leave the store, its pins end. -/
def State.freeWay (s : State) (way : Nat) : State :=
  let e := s.entry way
  let t := s.setEntry way { AtEntry.free with adv := e.adv + 1 }
  { t with pins := t.pins.filter fun p => p.way != way }

/-- The slots parked as consumers of an entry, in the order in which they parked (R315). -/
def State.consumers (s : State) (way : Nat) : List Nat :=
  s.waiting fun w => match w with | .entry e => e == way | _ => false

/-- R319: a FAILED entry with neither producer nor consumer becomes FREE. -/
def State.tidy (s : State) (way : Nat) : State :=
  let e := s.entry way
  if e.st == .failed && e.producer.isNone && (s.consumers way).isEmpty then s.freeWay way else s

/-- R317: an entry is used. -/
def State.touch (s : State) (way : Nat) : State := s.setEntry way { s.entry way with lastUse := s.cycle }

/-- R314: is the production that a `tabent` value names pure? -/
def State.tabPure (s : State) (tenant : Nat) (tabent : W64) : Bool :=
  match s.wayOf tenant tabent with
  | some w => tabent != 0 && (s.entry w).pure.isSome
  | none => false

/-- R314 leave, in the table: the entry has no producer. -/
def State.leaveEntry (s : State) (way : Nat) : State :=
  (s.setEntry way { s.entry way with producer := none }).tidy way

/-- R314 leave, in the registers: `tabent` is the entry's parent. -/
def Ctx.leaveTo (parent : W64) (c : Ctx) : Ctx := c.onCr fun r => { r with tabent := parent }

/-- R318: a free record of a slice's iterator log. -/
def State.logFree (s : State) (way : Nat) : Bool :=
  decide ((s.pins.filter fun p => p.way / 2 ^ 18 == way / 2 ^ 18).length < 8192)

/-- R313 deliver: what a caller with destination d receives of the first m answers of an entry. A HIT of two or
more answers opens an iterator where the log has room (R318). -/
def State.deliverCall (s : State) (k : Nat) (d : GReg) (way m : Nat) (code : TabCode) : State :=
  let e := s.entry way
  let open_ := code == .hit && decide (2 ≤ m) && s.logFree way
  let (x, y) := e.answers.head?.getD (0, 0)
  let ans := if m = 0 then ((0 : W64), (0 : W64)) else (x, y)
  let it := w64 (s.refOf way + (if open_ then 2 ^ 31 else 0) + min m 1 * 2 ^ 32 + m * 2 ^ 48)
  let c := (s.slot k).ctx
  let t := s.touch way
  let t := if open_ then { t with pins := t.pins ++ [⟨way, e.adv, c.cr.tenant, c.cr.lnum⟩] } else t
  t.deliver k fun c => (((c.setG 1 ans.1).setG 2 ans.2).setG d it).setTabst (tabstOf code 0 m)

/-- What a consumer of an entry is given when the entry is over (R313, R324): its answers or its result, or the
failure with its cause. -/
def State.wakeConsumer (s : State) (k way : Nat) : State :=
  let e := s.entry way
  match (s.slot k).instr with
  | some i =>
    match i with
    | .tcall _ d _ _ =>
      if e.st == .failed then
        (s.deliver k fun c => (c.setG d (w64 (s.refOf way))).setTabst (tabstOf .failed e.cause 0)).reply k none
      else (s.deliverCall k d way e.answers.length .hit).reply k none
    | .ptask _ d _ _ _ _ =>
      if e.st == .failed then (s.deliver k fun c => (c.setG d 0).setTabst (tabstOf .failed e.cause 0)).reply k none
      else
        let r := match e.pure with | some p => p.out.addr | none => 0
        ((s.touch way).deliver k fun c => (c.setG d r).setTabst (tabstOf .reuse 0 0)).reply k none
    | _ => s
  | none => s

/-- Wake every consumer of the entries, entry by entry. -/
def State.wakeAll (s : State) (ways : List Nat) : State :=
  ways.foldl (fun t w => (t.consumers w).foldl (fun u k => u.wakeConsumer k w) t) s

/-- R314: what a `tend` or `tfail` writes when it has left its entry. The pure bit follows the parent on `tend` (fix);
an outer pure task's regions come back with it (R326). -/
def State.leaveCtx (s : State) (k : Nat) (parent : W64) (st : W64) (fix : Bool) : State :=
  let c := (s.slot k).ctx
  let p := s.tabPure c.ten parent
  let t := s.deliver k fun c =>
    let c := (c.leaveTo parent).setTabst st
    if fix then c.setPs 3 p else c
  t.modSlot k fun x => if c.pure && (fix || p) then { x with pure := x.pure.tail } else x

/-- R322, R325: the blocks of all tiles of a pure task. -/
def PureRec.blockCount (p : PureRec) : Nat := ((p.code :: p.out :: p.args).map fun x => x.len.toNat / 4096).foldl (· + ·) 0

/-- R325: the blocks that a slice records for its COMPLETE pure entries but that of a way. -/
def State.watchedBlocks (s : State) (way : Nat) : Nat :=
  s.entries.foldl (fun n e =>
    match e.2.pure with
    | some p => if e.2.st == .complete && e.1 != way && e.1 / 2 ^ 18 == way / 2 ^ 18 then n + p.blockCount else n
    | none => n) 0

/-- R325: a pure entry that has completed: freed at once if a tile was written meanwhile, or if its slice cannot record its
blocks, which is a free value (log entry 79). -/
def State.pureDone (s : State) (way : Nat) : State :=
  let e := s.entry way
  match e.pure with
  | some p => if e.stale || !Config.sliceRecords (s.watchedBlocks way) p.blockCount then s.freeWay way else s
  | none => s

/-- R325: a tile of a tenant meets the n bytes from pa on, block by block. -/
def Tile.meets (x : Tile) (tenant pa n : Nat) : Bool :=
  let lo := paStack tenant x.addr.toNat
  decide (lo < (pa + n + 4095) / 4096 * 4096) && decide (pa / 4096 * 4096 < lo + x.len.toNat)

/-- R325: n bytes from pa on are written. Every COMPLETE pure entry with a tile there is freed; one in EVAL whose
code or argument leaves were taken there is marked. -/
def State.watch (s : State) (pa n : Nat) : State :=
  match paTenant pa with
  | none => s
  | some _ =>
    s.entries.foldl (fun t e =>
      match e.2.pure with
      | none => t
      | some p =>
        let ten := e.2.tenant.toNat
        let read := (p.code :: p.args).any fun x => x.meets ten pa n
        if e.2.st == .complete && (read || p.out.meets ten pa n) then t.freeWay e.1
        else if e.2.st == .eval && read then t.setEntry e.1 { t.entry e.1 with stale := true }
        else t) s

/-- Write bytes at an arbiter: whole words written lose their error mark (R148, R245), rows are remapped (R149), and pure
entries that used the blocks go (R325). -/
def State.storeBytes (s : State) (pa : Nat) (l : List Byte) : State :=
  ((s.watch pa l.length).freshen pa l.length).writeBytes pa l |>.clearBad pa l.length

/-- R311: decide the `tend` of slot k on entry e, the leader, with one producer pending. -/
def State.decideTend (s : State) (k way : Nat) : State :=
  let e := s.entry way
  let g := s.group way
  let n := e.answers.length
  let ms := s.members way
  if g.dirty then
    let t := s.setGroup way ⟨g.round + 1, false⟩
    let t := ms.foldl (fun t w => t.setEntry w { t.entry w with readF := false }) t
    let c := (t.slot k).ctx
    t.deliver k fun x => (x.setTabst (tabstOf .again 0 n)).setPs 3 (t.tabPure c.ten c.cr.tabent)
  else
    let t := ms.foldl (fun t w =>
      t.setEntry w { t.entry w with st := .complete, readF := false, lastUse := s.cycle, producer := none }) s
    let t := t.setGroup way ⟨0, false⟩
    let t := t.leaveCtx k e.parent (tabstOf .done 0 n) true
    (t.wakeAll ms).pureDone way

/-- R311: the `tend` of a member that is not the leader. -/
def State.memberTend (s : State) (k way : Nat) : State :=
  let e := s.entry way
  (s.leaveEntry way).leaveCtx k e.parent (tabstOf .member 0 e.answers.length) true

/-- The slots whose leader's `tend` is parked, with their entries (R311). -/
def State.parkedLeaders (s : State) : List (Nat × Nat) :=
  (s.waiting fun w => match w with | .leader _ => true | _ => false).filterMap fun k =>
    match (s.slot k).waits with
    | some (.leader e, _) => some (k, e)
    | _ => none

/-- R311: after a change of pending counts or leaders, decide every parked `tend` that can be decided: first those
whose entry no longer leads its group, then the leaders. -/
def State.settle (s : State) : State :=
  let t := s.parkedLeaders.foldl (fun t p =>
    if (t.entry p.2).group != p.2 then (t.memberTend p.1 p.2).reply p.1 none else t) s
  t.parkedLeaders.foldl (fun t p =>
    if (t.entry p.2).group == p.2 && decide (t.pending p.2 ≤ 1) then (t.decideTend p.1 p.2).reply p.1 none else t) t

/-- R305, R319: the answers of an entry: those of a FAILED one are discarded, though they count until it is FREE. -/
def AtEntry.held (e : AtEntry) : List (W64 × W64) := if e.st = .failed then [] else e.answers

/-- R319: a group fails. -/
def State.failGroup (s : State) (g : Nat) (cause : BitVec 8) : State :=
  let ms := s.members g
  let t := ms.foldl (fun t w =>
    let e := t.entry w
    if e.st == .eval then t.setEntry w { e with st := .failed, readF := false, cause := cause } else t) s
  let t := t.setGroup g ⟨0, false⟩
  let t := t.wakeAll ms
  let t := t.parkedLeaders.foldl (fun t p =>
    if ms.contains p.2 then
      let e := t.entry p.2
      ((t.leaveEntry p.2).leaveCtx p.1 e.parent (tabstOf .failed cause 0) false).reply p.1 none
    else t) t
  ms.foldl State.tidy t

/-- R307, R309: the entries that a thread produces. -/
def State.produced (s : State) (tid : Nat) : List Nat :=
  (s.entries.filter fun e => e.2.producer == some tid).map Prod.fst

/-- R319: the thread ends, by a kill or by `quit`: the group of every entry on its chain fails. -/
def State.endProducer (s : State) (tid : Nat) (cause : BitVec 8) : State :=
  let t := (s.produced tid).foldl (fun t w =>
    let e := t.entry w
    let t := if e.st == .eval then t.failGroup e.group cause else t
    if (t.entry w).producer == some tid then t.leaveEntry w else t) s
  t.settle

/-- R305: a tenant's entries and answers in a slice. -/
def State.atCount (s : State) (tenant die : Nat) : Nat × Nat :=
  s.entries.foldl (fun n e =>
    if e.2.st != .free && decide (e.2.tenant.toNat = tenant) && decide (e.1 / 2 ^ 18 = die) then
      (n.1 + 1, n.2 + e.2.answers.length)
    else n) (0, 0)

/-- R317: the tenant is within its entry quota in a slice; tenant 0 has none. -/
def State.entryQuotaOk (s : State) (tenant die : Nat) : Bool :=
  tenant == 0 || decide ((s.atCount tenant die).1 < (s.tt tenant (9 + die)).toNat % 2 ^ 32)

/-- R314: one more answer fits the tenant's quota and the answer store of the slice. -/
def State.answerRoom (s : State) (tenant die : Nat) : Bool :=
  let all := s.entries.foldl (fun n e => if e.1 / 2 ^ 18 == die then n + e.2.answers.length else n) 0
  (tenant == 0 || decide ((s.atCount tenant die).2 < (s.tt tenant (9 + die)).toNat / 2 ^ 32)) && decide (all < 1048576)

/-- R317: the way that a new entry takes in a set of a die, if any. The evicted entry becomes FREE at once. -/
def State.takeWay (s : State) (tenant die set : Nat) : Option Nat × State :=
  let ways := (List.range 8).map fun j => die * 2 ^ 18 + j * 2 ^ 15 + set
  let inQuota := s.entryQuotaOk tenant die
  match (if inQuota then ways.find? fun w => (s.entry w).st == .free else none) with
  | some w => (some w, s)
  | none =>
    let ev := ways.filter fun w =>
      let e := s.entry w
      e.st == .complete && (s.pins.all fun p => p.way != w) && (inQuota || decide (e.tenant.toNat = tenant))
    match sortBy (fun w => (s.entry w).lastUse) ev with
    | [] => (none, s)
    | w :: _ => (some w, s.freeWay w)

end Sys2Proof.Machine
end

