-- ==== Sys2Proof/Machine/Contain.lean ====
section
/-!
DEFINITION. Threads that end: reservations that pass on (R252, R253), the release of a matrix unit (R224, R227), a
killed thread's remains (R63), units and containment (R60 to R62), and the event that a fault posts (R297).
-/

namespace Sys2Proof.Machine

/-! ## Reservations -/

/-- R252: the key of a thread. -/
def Ctx.key (c : Ctx) : ResvKey := ⟨c.cr.tenant, c.cr.lnum, c.cr.wid⟩

/-- The holder of a word's reservation. -/
def State.holder (s : State) (pa : Nat) : Option ResvKey := smGet none s.resv pa

/-- Write the holder of a word's reservation. -/
def State.setHolder (s : State) (pa : Nat) (k : Option ResvKey) : State := { s with resv := smSet none s.resv pa k }

/-- The space-0x4 address of a stacked-memory byte. -/
def paEa (pa : Nat) : W64 := w64 pa

/-- The slots queued in `lrw` on a word, in order. -/
def State.lrwQueue (s : State) (pa : Nat) : List Nat :=
  s.waiting fun w => match w with | .reservation a => a == pa | _ => false

/-- R252: the word has no holder: grant it to the head of its queue. A queued `lrw` that would receive a poisoned
word leaves the queue with a trap, and the next is considered. -/
def State.grantNext (s : State) (pa : Nat) : State :=
  (s.lrwQueue pa).foldl (fun t k =>
    if (t.holder pa).isSome then t
    else if t.isBad pa then t.reply k (some ⟨0x09, paEa pa⟩)
    else
      match (t.slot k).instr with
      | some (.lrw _ d _ _) =>
        let v := t.readW pa
        ((t.setHolder pa (some (t.slot k).ctx.key)).deliver k fun c => c.setG d v).reply k none
      | _ => t) (s.setHolder pa none)

/-- R60: the threads of the package that are live: their number and key. -/
def State.threads (s : State) : List (Nat × ResvKey) :=
  (s.liveSlots.map fun e => (e.2.tid, e.2.ctx.key)) ++ (s.pkts.map fun p => (p.tid, p.ctx.key)) ++
    (s.spilled.map fun x => (x.tid, ⟨x.tenant, x.lnum, x.wid⟩))

/-- R253: after a kill, the reservations of a key that no live thread bears are released. -/
def State.dropKey (s : State) (key : ResvKey) : State :=
  if s.threads.any fun t => t.2 == key then s
  else (s.resv.filter fun e => e.2 == some key).foldl (fun t e => t.grantNext e.1) s

/-! ## Matrix units -/

/-- The matrix unit of a core. -/
def State.unit (s : State) (core : Nat) : MatUnit := smGet MatUnit.idle s.mat (caTileOf core)

/-- Write the matrix unit of a core. -/
def State.setUnit (s : State) (core : Nat) (u : MatUnit) : State :=
  { s with mat := smSet MatUnit.idle s.mat (caTileOf core) u }

/-- The next packet number. -/
def State.newId (s : State) : Nat × State := (s.stamp, { s with stamp := s.stamp + 1 })

/-- R231: the payload of a kind-1 wake-up. -/
def wakePayload (status : Nat) (cause : BitVec 8) (step tile : Nat) (dst : W64) : BitVec 512 :=
  entryOf [w64 (status + cause.toNat * 2 ^ 8 + step % 4096 * 2 ^ 16 + tile % 4 * 2 ^ 28), dst, 0, 0, 0, 0, 0, 0]

/-- R198: a mailbox header. Kind 0 is `send`, 1 a matrix wake-up, 2 a copy-engine wake-up. -/
def mailHeader (sender mb id kind : Nat) (nanrd : Bool) : W64 :=
  w64 (sender % 2 ^ 24 + mb % 16 * 2 ^ 32 + (if nanrd then 2 ^ 36 else 0) + kind % 4 * 2 ^ 37 + id % 2 ^ 16 * 2 ^ 40 + 2 ^ 63)

/-- Send a wake-up (R196). -/
def State.sendWake (s : State) (core mb : Nat) (header : W64) (payload : BitVec 512) (tenant : Nat) (nanrd : Bool)
    (sender : Nat) : State :=
  let (n, t) := s.newId
  { t with wakes := t.wakes ++ [⟨n, core, mb, header, payload, tenant, nanrd, BitVec.ofNat 32 sender⟩] }

/-- R231: the notification of a remote command that asked for one. -/
def State.notify (s : State) (core : Nat) (c : MatCmd) (status : Nat) (cause : BitVec 8) (step : Nat) : State :=
  if c.notify then
    let nr := bitAt c.regs.nanrd 0
    let owner := (s.unit core).owner
    let dst := if c.kind = 2 || c.kind = 3 then c.da else 0
    s.sendWake (caCore c.sender) c.nmb (mailHeader owner c.nmb c.id 1 nr) (wakePayload status cause step c.tile dst)
      (s.unit core).tenant nr owner
  else s

/-- R227: the unit is unclaimed, its tiles are zero, and every queued command is notified with status 1. The owner
loses it; where save holds, its `mkstep` goes into its record as it stands (R224). -/
def State.endClaim (s : State) (core : Nat) (save : Bool) : State :=
  let u := s.unit core
  let t := u.queue.foldl (fun t c => t.notify core c 1 0 0) s
  let t := if !save && bitAt (s.slot u.owner).ctx.cr.mkstep 63 then
      (t.deliver u.owner fun c => c.onCr fun r => { r with mkstep := 0 }).modSlot u.owner fun x =>
        { x with ctx := x.ctx.onCr fun r => { r with mkstep := 0 } }
    else t
  let t := match (t.slot u.owner).st with
    | .park .matrix (.mrel _) _ _ => t.reply u.owner none
    | .drain _ .matrix _ _ _ => t.reply u.owner none
    | _ => t
  t.setUnit core { u with claimed := false, owner := 0, tenant := 0, tiles := [], queue := [], op := none, ending := false, keep := false }

/-- R232: the owner of a unit waits in an `mdrainr` that the unit has still to perform. -/
def State.drainWaits (s : State) (k : Nat) : Bool :=
  match (s.slot k).st with
  | .park .matrix (.mdrainr _ _ _ _) _ _ | .drain _ .matrix (.mdrainr _ _ _ _) _ _ => true
  | .park .flight (.mdrainr _ _ _ _) _ _ | .drain _ .flight (.mdrainr _ _ _ _) _ _ => true
  | _ => false

/-- R224, R227: release the unit that a slot owns: at once when it has nothing to finish, else when that is over. -/
def State.releaseUnit (s : State) (k : Nat) : State :=
  let core := caCore k
  let u := s.unit core
  if u.claimed && u.owner == k then
    if u.op.isNone && !s.drainWaits k then s.endClaim core false else s.setUnit core { u with ending := true, keep := false }
  else s

/-- R224, R227: a claim that is being given up ends once the unit has nothing to finish; but for that of an owner that is being
spilled, whose tiles are to be saved first. -/
def State.settleClaim (s : State) (core : Nat) : State :=
  let u := s.unit core
  if u.ending && !u.keep && u.op.isNone && !s.drainWaits u.owner then s.endClaim core false else s

/-- The slot owns the matrix unit of its core. -/
def State.owns (s : State) (k : Nat) : Bool :=
  let u := s.unit (caCore k)
  caKind k == .compute && u.claimed && u.owner == k

/-! ## The end of a thread -/

/-- The places of an outstanding store, as spans. -/
def OutStore.spans (o : OutStore) : List (Nat × Nat) := o.parts.map fun e => (e.1, e.2.length)

/-- R348: the cause with which an arbiter discards a store of n bytes at pa that is checked already: its object or block
is gone, its layer is in FAULT, its bytes have become a queue's descriptor (R265), or it is narrow and its word bad. -/
def State.storeLost (s : State) (pa n : Nat) : Option (BitVec 8) :=
  let narrow : Option (BitVec 8) := if n < 8 ∧ s.isBad pa then some 0x09 else none
  match paTenant pa with
  | some t =>
    let obj := s.obj t (paHandle pa)
    if !obj.used || decide (obj.size ≤ paOff pa) then some 0x04
    else if s.isLost pa then some 0x14
    else if s.offline pa then some 0x0A
    else if s.inDesc pa then some 0x0F
    else narrow
  | none => narrow

/-- R348: the arbiter takes a store, whole or not at all. The result says with which cause it was lost; an uncorrectable word
counts (R150). -/
def State.acceptStore (s : State) (o : OutStore) : State × Option (BitVec 8) :=
  match o.parts.findSome? fun e => (s.storeLost e.1 e.2.length).map fun c => (c, e.1) with
  | some (cause, pa) => (if cause = 0x09 then s.countBad pa else s, some cause)
  | none => (o.parts.foldl (fun t e => t.storeBytes e.1 e.2) s, none)

/-- R282: the record of a task whose thread is no longer live becomes FREE. -/
def State.freeTask (s : State) (die idx : Nat) : State :=
  let key := die * 2 ^ 16 + idx
  let x := smGet Task.free s.tasks key
  { s with tasks := smSet Task.free s.tasks key { Task.free with adv := x.adv + 1 } }

/-- R282: free the record of a thread that has ended. -/
def State.endTask (s : State) (tid : Nat) : State :=
  (s.tasks.filter fun e => e.2.st == .dispatched && e.2.tid == tid).foldl
    (fun t e => t.freeTask (e.1 / 2 ^ 16) (e.1 % 2 ^ 16)) s

/-- R55: the slot passes to FREE, and with it a partner that lends its upper halves. -/
def State.vacate (s : State) (k : Nat) : State :=
  let p := partner k
  let t := (s.setSlot k Slot.free).noteFree k
  match (s.slot p).st with
  | .ganghi | .held => if caSlot k % 2 = 0 then t.setSlot p Slot.free else t
  | _ => t

/-- R55, R63: an operation of a parked slot that must finish before the slot passes to FREE. An add that is still in the
Welt is abandoned (R254); a queue operation there is not (R273). R55 does not say whether a `spawn` that waits for its reply
is one, or a `kill` or an `svsl` that waits for its victims: that such a thread drains when it is killed or spilled is the model's choice
(log entry 87). -/
def mustFinish (w : Wait) (i : Instr) : Bool :=
  match w with
  | .reply _ => true
  | .welt _ => (match i with | .amo _ _ _ _ _ _ => false | _ => true)
  | .combined _ => true
  | .spawn _ => true
  | .kill _ _ => true
  | .save _ _ => true
  | .matrix => true
  | .flight =>
    (match i with
     | .rdr _ _ _ _ | .send _ _ _ _ _ | .sendL _ _ _ _ _ | .mcast _ _ _ | .mcmd _ _ _ _ | .mdrainr _ _ _ _ | .dtst _ _ _ => true
     | .qpush _ _ _ _ _ _ | .qpop _ _ _ _ _ _ | .qcnt _ _ _ | .qfree _ _ _ => true
     | .tdep _ _ _ | .tcan _ _ _ | .tinvl _ _ _ | .hinv _ => true
     | _ => false)
  | _ => false

/-- Perform the outstanding stores of a slot that p names. A store that is lost posts an event of kind 4 (R297,
R348). -/
def State.flushWhere (s : State) (k : Nat) (p : OutStore → Bool) : State :=
  let x := s.slot k
  let c := x.ctx
  let t := (x.out.filter p).foldl (fun t o =>
    match t.acceptStore o with
    | (t, none) => t
    | (t, some cause) =>
      t.postEvent c.ten [w64 (cause.toNat + 4 * 2 ^ 8 + 7 * 2 ^ 16 + 4 * 2 ^ 19) ||| (c.cr.lnum <<< 32), o.pc, o.ea, c.cr.wid,
        w64 k, w64 t.cycle, 0]) s
  t.modSlot k fun x => { x with out := x.out.filter fun o => !p o }

/-- R348: the object of an outstanding store has been freed, its block is lost, or its layer is in FAULT. -/
def State.storeGone (s : State) (o : OutStore) : Bool :=
  o.parts.any fun e => match s.storeLost e.1 8 with | some c => c != 0x0F | none => false

/-- R348: the outstanding stores that a change has left without their place are discarded as soon as it has, each with its event,
so that no later owner of the place receives them: the moment is the model's choice (log entry 109). -/
def State.shedStores (s : State) : State :=
  s.slots.foldl (fun t e => if e.2.out.any s.storeGone then t.flushWhere e.1 s.storeGone else t) s

/-- R242, R243: an outstanding store is held at its station. -/
def State.storeHeld (s : State) (o : OutStore) : Bool := o.parts.any fun e => s.isHeld e.1

/-- R351: perform every outstanding store of a slot that is not held. -/
def State.flushAll (s : State) (k : Nat) : State := s.flushWhere k fun o => !s.storeHeld o

/-- R254, R263: a combined request without the operand x of the thread of slot k. -/
def WeltReq.without (r : WeltReq) (k : Nat) (x : W64) : WeltReq :=
  let later := (r.slots.dropWhile fun e => e.1 != k).tail.map fun e => (e.1, e.2 - x)
  { r with
    slots := (r.slots.takeWhile fun e => e.1 != k) ++ later
    data := (r.data.truncate 64 - x).zeroExtend 512 }

/-- R254: the add of slot k leaves the Welt before its arbiter takes it: the request goes, or, combined with others,
goes on without its operand. -/
def State.weltAbandon (s : State) (k : Nat) : State :=
  let x := s.slot k
  let own : W64 := match x.instr with | some (.amo _ _ _ b _ _) => x.ctx.getG b | _ => 0
  { s with welt := s.welt.filterMap fun r =>
      if r.slots.all fun e => e.1 != k then some r
      else
        let q := r.without k own
        if q.slots.isEmpty then none else some q }

/-- What the operation i of a slot, which was in state st, leaves behind when it is withdrawn: the descriptor of a
queue counts its waiters anew (R265), and an add is out of the Welt. -/
def State.withdrawn (s : State) (k : Nat) (st : SlotSt) : State :=
  match st with
  | .park w i _ _ | .drain _ w i _ _ =>
    (match w, i with
     | .queue pa, _ => s.syncDesc pa
     | .entry e, _ => s.tidy e
     | .welt _, .amo _ _ _ _ _ _ => s.weltAbandon k
     | _, _ => s)
  | _ => s

/-- R340: the completion records of a thread that ends or leaves its core are discarded, those to come included. -/
def State.dropRecords (s : State) (tid : Nat) : State :=
  (s.copy.map Prod.fst).foldl (fun t core =>
    { t with copy := smMod CopyEng.idle t.copy core fun e =>
        { e with
          reqs := e.reqs.map fun r => if r.tid = tid then { r with tid := 0 } else r
          recs := e.recs.filter fun r => r.tid != tid } }) s

/-- R63: what every killed thread leaves behind, once its slot holds it no more. -/
def State.killedThread (s : State) (tid : Nat) (key : ResvKey) : State := ((s.endTask tid).dropKey key).dropRecords tid

/-- R55, R63, R224: a killed slot with nothing left to finish: no operation, no store that is held, and no unit that still
ends, which its operation may have left for it to release: it passes to FREE. -/
def State.killDone (s : State) (k : Nat) : State :=
  let x := s.slot k
  match x.st with
  | .drain false (.reply _) _ _ _ =>
    let t := if s.owns k then s.settleClaim (caCore k) else s
    if x.out.isEmpty && !t.owns k then (t.vacate k).killedThread x.tid x.ctx.key else t
  | _ => s

/-- R224: the unit of a slot's core has taken the operation of the slot, its owner, or is still to take it although the claim
ends (R232). -/
def State.unitServes (s : State) (k : Nat) : Bool :=
  s.owns k && (s.drainWaits k || match (s.unit (caCore k)).op with | some o => o.own | none => false)

/-- R55: a slot has an operation that must finish. A wait for the matrix unit is one only once the unit has taken the operation;
before that it is withdrawn (R224). -/
def State.unfinished (s : State) (k : Nat) : Bool :=
  match (s.slot k).waits with
  | some (.matrix, _) => s.unitServes k
  | some (w, i) => mustFinish w i
  | none => false

/-- R99, R171: a divide, a root or a special function is in progress beside the C-half of a slot, whatever that waits for. It is in
progress until the C-half is over: the model's choice (log entry 65). -/
def Slot.dividing (x : Slot) : Bool := x.slowA && x.waits.isSome

/-- R55, R63: the state of a slot that is killed or spilled (spill), until what must finish is over: its operation goes on
(keep) or is withdrawn. -/
def SlotSt.draining (st : SlotSt) (keep spill : Bool) : SlotSt :=
  match st with
  | .park w i sn n | .drain _ w i sn n => if keep then .drain spill w i sn n else .drain spill (.reply none) i [] n
  | _ => .drain spill (.reply none) (.cnop .always) [] 0

/-- R63: kill the thread of a slot: its productions fail, its outstanding stores are performed, its unit is
released, and the slot passes to FREE, or through DRAIN when an operation must finish: its C-half's, or a divide, a root or a
special function beside it (R99, R171). A thread parked in `quit` ends by itself (R72). R55 lists no way out of RESV but to RUN: that a kill frees such a slot at once is the model's
choice (log entry 70). -/
def State.killSlot (s : State) (k : Nat) (cause : BitVec 8) : State :=
  let x := s.slot k
  if !x.st.live || x.wait == some .quit then s
  else
    let t := ((s.flushAll k).endProducer x.tid cause).releaseUnit k
    let y := t.slot k
    let keep := t.unfinished k
    let u := t.modSlot k fun y => { y with st := y.st.draining keep false, pend := none }
    if keep then u
    else
      let v := u.withdrawn k y.st
      if y.dividing then v else v.killDone k

/-- The packet that a slot parked or draining in `spawn` or `rupd` waits for. -/
def SlotSt.spawning (st : SlotSt) : Option Nat :=
  match st with
  | .park (.spawn n) _ _ _ => some n
  | .drain _ (.spawn n) _ _ _ => some n
  | _ => none

/-- R71, R257: the reply v to the parent that is parked in `spawn` or `rupd` for a packet; a killed parent drains.
`rupd` writes no register. -/
def State.answerSpawn (s : State) (p : Pkt) (v : W64) : State :=
  let answer (parent ptid : Nat) : State :=
    let x := s.slot parent
    if x.tid != ptid || x.st.spawning != some p.id then s
    else
      match x.instr with
      | some (.spawn _ d _ _ _) => (s.deliver parent fun c => c.setG d v).reply parent none
      | _ => s.reply parent none
  match p.kind with
  | .spawn parent ptid _ => answer parent ptid
  | .rupd parent ptid => answer parent ptid
  | _ => s

/-- A packet leaves the network. -/
def State.dropPkt (s : State) (id : Nat) : State := { s with pkts := s.pkts.filter fun q => q.id != id }

/-- R63, R71: kill a thread that travels. A live parent parked in `spawn` for it receives the BUSY value. -/
def State.killPkt (s : State) (p : Pkt) : State :=
  (((s.dropPkt p.id).answerSpawn p allOnes).endProducer p.tid 0).killedThread p.tid p.ctx.key

/-- R63: kill a spilled thread with a cause (R319): its record is discarded. -/
def State.killSpilled (s : State) (cause : BitVec 8) (x : Spilled) : State :=
  let t := { s with spilled := s.spilled.filter fun y => y.tid != x.tid }
  (t.endProducer x.tid cause).killedThread x.tid ⟨x.tenant, x.lnum, x.wid⟩

/-! ## Units and containment -/

/-- R58: the width of level k of a shape. -/
def shapeWidth (sh : W64) (k : Nat) : Nat := bitsAt sh (7 * k + 6) (7 * k)

/-- R59: the policy of level k. -/
def shapePolicy (sh : W64) (k : Nat) : Nat := bitsAt sh (43 + 2 * k) (42 + 2 * k)

/-- R58: S(k), the lowest bit of level k. -/
def shapeLow (sh : W64) : Nat → Nat
  | 0 => 0
  | k + 1 => shapeLow sh k + shapeWidth sh k

/-- R58: the number of levels. -/
def shapeLevels (sh : W64) : Nat := ((List.range 6).filter fun k => shapeWidth sh k != 0).length

/-- R59: a shape that `wshape` accepts. -/
def shapeOk (sh : W64) : Bool :=
  let ws := (List.range 6).map (shapeWidth sh)
  decide (ws.foldl (· + ·) 0 = 64) && shapeWidth sh 0 != 0 &&
    ((List.range 5).all fun k => shapeWidth sh k != 0 || shapeWidth sh (k + 1) == 0) &&
    ((List.range 6).all fun k => shapeWidth sh k != 0 || shapePolicy sh k == 0)

/-- R60: the unit at level k of a thread, as the `wid` bits above S(k). -/
def unitOf (sh wid : W64) (k : Nat) : W64 := wid >>> shapeLow sh k

/-- R60: a thread belongs to the unit at level k of another thread. -/
def inUnit (sh : W64) (k : Nat) (of_ key : ResvKey) : Bool :=
  key.tenant == of_.tenant && key.lnum == of_.lnum && unitOf sh key.wid k == unitOf sh of_.wid k

/-- Kill every live thread whose key satisfies p. -/
def State.killWhere (s : State) (p : ResvKey → Bool) : State :=
  let t := s.liveSlots.foldl (fun t e => if p e.2.ctx.key then t.killSlot e.1 0 else t) s
  let t := (t.pkts.filter fun q => p q.ctx.key).foldl State.killPkt t
  (t.spilled.filter fun x => p ⟨x.tenant, x.lnum, x.wid⟩).foldl (fun t x => t.killSpilled 0 x) t

/-- Change the record of a launch. -/
def State.modLaunch (s : State) (tenant lnum : W64) (f : Launch → Launch) : State :=
  { s with launches := s.launches.map fun l => if l.tenant == tenant && l.lnum == lnum then f l else l }

/-- The record of a launch. -/
def State.launch (s : State) (tenant lnum : W64) : Option Launch :=
  s.launches.find? fun l => l.tenant == tenant && l.lnum == lnum

/-- R62, R286: a launch is killed whole: it is failed, and its tasks in WAIT and READY are discarded. -/
def State.killLaunch (s : State) (key : ResvKey) : State :=
  let t := s.killWhere (fun q => q.tenant == key.tenant && q.lnum == key.lnum)
  let t := (t.tasks.filter fun e =>
      (e.2.st == .wait || e.2.st == .ready) && e.2.tenant == key.tenant && e.2.lnum == key.lnum).foldl
    (fun t e => t.freeTask (e.1 / 2 ^ 16) (e.1 % 2 ^ 16)) t
  t.modLaunch key.tenant key.lnum fun l => { l with failed := true, redo := [] }

/-- What containment does: the absorbing level, and the action code of R297. -/
structure Verdict where
  level  : Nat
  action : Nat
  deriving DecidableEq, Repr

/-- R298: the retry count of a unit; a full table counts as exhausted. -/
def retryCount (l : Launch) (k : Nat) (u : W64) : Option Nat :=
  match l.retries.find? fun r => r.1 == k && r.2.1 == u with
  | some r => some r.2.2
  | none => if l.retries.length < 1024 then some 0 else none

/-- R62: consult the policies from level k on. -/
def State.consult (s : State) (sh : W64) (key : ResvKey) : Nat → Nat → Verdict
  | 0, _ => ⟨7, 3⟩
  | n + 1, k =>
    let count := match s.launch key.tenant key.lnum with
      | some l => retryCount l k (unitOf sh key.wid k)
      | none => none
    match shapePolicy sh k with
    | 0 => s.consult sh key n (k + 1)
    | 1 =>
      match count with
      | some c => if c < bitsAt sh 57 54 then ⟨k, 0⟩ else ⟨k, 2⟩
      | none => ⟨k, 2⟩
    | 2 => ⟨k, 1⟩
    | _ => ⟨k, 2⟩

/-- R62: carry a verdict out. A unit that is to be dispatched again has its entry in the retry table from now on (R298), and
its count rises when it is (State.retryUnit). A unit that faults again before that is still dispatched again once: the model's
choice (log entry 98). -/
def State.absorb (s : State) (sh : W64) (key : ResvKey) (v : Verdict) : State :=
  let levels := shapeLevels sh
  match v.action with
  | 0 =>
    let u := unitOf sh key.wid v.level
    (s.killWhere (inUnit sh v.level key)).modLaunch key.tenant key.lnum fun l =>
      let c := (retryCount l v.level u).getD 0
      { l with
        retries := (l.retries.filter fun r => !(r.1 == v.level && r.2.1 == u)) ++ [(v.level, u, c)]
        redo := if l.redo.contains (v.level, u) then l.redo else l.redo ++ [(v.level, u)] }
  | 1 => if levels ≤ v.level then s.killLaunch key else s.killWhere (inUnit sh v.level key)
  | 2 => if levels ≤ v.level + 1 then s.killLaunch key else s.killWhere (inUnit sh (v.level + 1) key)
  | _ => s.killLaunch key

/-- R61 to R63, R297: a fault of the thread of slot k with cause c and value v: the thread stops, containment acts,
and one event is posted. -/
def State.faultSlot (s : State) (k : Nat) (t : Trap) : State :=
  let c := (s.slot k).ctx
  let sh := c.cr.wshape
  let key := c.key
  let v := s.consult sh key (shapeLevels sh) 0
  let u := (s.killSlot k t.cause).absorb sh key v
  u.postEvent c.ten
    [w64 (t.cause.toNat + 1 * 2 ^ 8 + v.level * 2 ^ 16 + v.action * 2 ^ 19) ||| (c.cr.lnum <<< 32), c.pc, t.tval,
      c.cr.wid, w64 k, w64 u.cycle, 0]

end Sys2Proof.Machine
end

