-- ==== Sys2Proof/WellFormed.lean ====
section
/-!
DEFINITION. The limits that the encoding puts on an instruction beyond the widths of its fields (R29, R31, R34,
R36, R38, R40, R41 and the limits of the instruction entries). A pattern outside them traps with cause 0x01.
-/

namespace Sys2Proof

/-- R66: the control-register indices that have a register. -/
def Cr.assigned (i : BitVec 11) : Bool :=
  let n := i.toNat
  decide (n ≤ 0x014) || (decide (0x100 ≤ n) && decide (n ≤ 0x107)) || n == 0x180 ||
    (decide (0x200 ≤ n) && decide (n ≤ 0x204)) || n == 0x400 || n == 0x401 ||
    (decide (0x600 ≤ n) && decide (n ≤ 0x60F))

/-- R201: the length of `send.l` is a multiple of 8 from 8 to 256. -/
def lenOk (len : BitVec 12) : Bool :=
  decide (8 ≤ len.toNat) && decide (len.toNat ≤ 256) && decide (len.toNat % 8 = 0)

/-- One operand of `mmac`: a v register (bit 4 zero), or the first of a scratchpad pair, 1 to 30. -/
def mmacOperandOk (inRegs : Bool) (x : BitVec 5) : Bool :=
  if inRegs then decide (x.toNat < 16) else decide (1 ≤ x.toNat) && decide (x.toNat ≤ 30)

/-- The limits of `mmac`: operands, a semiring of R219 and one step only with an operand in registers. That codes 6 and 7, and g0 as
an operand in the scratchpad, are illegal encodings, and so come before the check of the owner in R229, is the model's reading
(log entry 108). -/
def mmacOk (a b : BitVec 5) (bv av : Bool) (sr : BitVec 3) (steps : BitVec 12) : Bool :=
  mmacOperandOk av a && mmacOperandOk bv b && decide (sr.toNat ≤ 5) && (!(av || bv) || steps == 0)

/-- R139: part k of `t8enc` and `t8dec`, and the wide types 4 to 6. -/
def t8Ok (t : ETy) (k : BitVec 5) : Bool :=
  match t with
  | .f32 => decide (k.toNat ≤ 3)
  | .f16 | .bf16 => decide (k.toNat ≤ 1)
  | .i8 | .i16 | .i32 | .i64 | .f64 => false

/-- R179: k is 0, or 0 and 1 where the widths differ. -/
def partOk (two : Bool) (k : BitVec 5) : Bool :=
  if two then decide (k.toNat ≤ 1) else k == 0

/-- R140: the types differ, k is below the quotient of the widths, and stochastic rounding needs a narrower
floating-point destination. -/
def vcvtOk (ts td : ETy) (k : BitVec 5) (sr : Bool) : Bool :=
  ts != td && decide (k.toNat < max ts.width td.width / min ts.width td.width) &&
    (!sr || (td.isFp && decide (td.width < ts.width)))

/-- The limits of one instruction. A half guarded "never" is well formed only as `cnop` or `anop`: R27 makes
every pattern under that guard a no-operation, which the decoder reads as one of these two. -/
def Instr.wf : Instr → Bool
  | .cnop _ => true
  | .isync gd => gd.runs
  | .eret gd => gd.runs
  | .brk gd => gd.runs
  | .ret gd => gd.runs
  | .jr gd _ => gd.runs
  | .jlr gd _ => gd.runs
  | .leave gd => gd.runs
  | .quit gd => gd.runs
  | .split gd => gd.runs
  | .uiret gd => gd.runs
  | .trap gd _ => gd.runs
  | .br gd _ => gd.runs
  | .jl gd _ => gd.runs
  | .j gd _ _ => gd.runs
  | .lpd gd d _ => gd.runs && (d != 0)
  | .enter gd _ => gd.runs
  | .crd gd _ i => gd.runs && (Cr.assigned i)
  | .cwr gd _ i => gd.runs && (Cr.assigned i)
  | .crset gd _ _ i => gd.runs && (Cr.assigned i)
  | .crclr gd _ _ i => gd.runs && (Cr.assigned i)
  | .spawn gd _ _ b _ => gd.runs && (decide (b.toNat ≤ 27))
  | .wait gd _ => gd.runs
  | .gang gd _ => gd.runs
  | .wfld gd _ k => gd.runs && (decide (k.toNat ≤ 5))
  | .kill gd _ _ k => gd.runs && (decide (k.toNat ≤ 6))
  | .cmap gd _ _ => gd.runs
  | .ldb gd _ _ _ _ => gd.runs
  | .ldh gd _ _ _ _ => gd.runs
  | .ldw gd _ _ _ _ => gd.runs
  | .ldd gd _ _ _ _ => gd.runs
  | .ldbz gd _ _ _ _ => gd.runs
  | .ldhz gd _ _ _ _ => gd.runs
  | .ldwz gd _ _ _ _ => gd.runs
  | .ldv gd _ _ _ _ => gd.runs
  | .stb gd _ _ _ _ => gd.runs
  | .sth gd _ _ _ _ => gd.runs
  | .stw gd _ _ _ _ => gd.runs
  | .std gd _ _ _ _ => gd.runs
  | .stv gd _ _ _ _ => gd.runs
  | .lds gd d a => gd.runs && (decide (1 ≤ a.toNat) && decide (a.toNat ≤ 28) && d != a && d != a + 1)
  | .sts gd _ a => gd.runs && (decide (1 ≤ a.toNat) && decide (a.toNat ≤ 28))
  | .shp gd d _ _ => gd.runs && (decide (1 ≤ d.toNat) && decide (d.toNat ≤ 28))
  | .tfadd gd _ _ _ => gd.runs
  | .rdr gd _ _ _ => gd.runs
  | .migr gd _ => gd.runs
  | .tam gd _ _ _ _ => gd.runs
  | .lea gd _ _ _ => gd.runs
  | .dtld gd _ _ => gd.runs
  | .dtst gd _ _ => gd.runs
  | .send gd _ _ _ _ => gd.runs
  | .sendL gd _ _ _ len => gd.runs && (lenOk len)
  | .recv gd _ _ _ => gd.runs
  | .mbc gd _ _ => gd.runs
  | .waitc gd _ _ _ => gd.runs
  | .mbclr gd _ _ => gd.runs
  | .mcast gd _ a => gd.runs && (decide (1 ≤ a.toNat) && decide (a.toNat ≤ 28))
  | .mclaim gd _ _ => gd.runs
  | .mrel gd => gd.runs
  | .mzero gd _ => gd.runs
  | .mload gd _ _ _ => gd.runs
  | .mdrain gd _ _ _ => gd.runs
  | .mdrainr gd _ _ _ => gd.runs
  | .mcmd gd _ _ _ => gd.runs
  | .mstat gd _ _ => gd.runs
  | .mmac gd _ a b _ bv av sr steps => gd.runs && (mmacOk a b bv av sr steps)
  | .ldfe gd _ _ _ => gd.runs
  | .ldff gd _ _ _ => gd.runs
  | .stef gd _ _ _ => gd.runs
  | .stff gd _ _ _ => gd.runs
  | .lrw gd _ _ _ => gd.runs
  | .sch gd _ _ _ => gd.runs
  | .sdrop gd _ _ => gd.runs
  | .amo gd _ _ _ _ _ => gd.runs
  | .afadd gd _ _ _ _ => gd.runs
  | .acas gd _ _ _ _ => gd.runs
  | .rupd gd _ b _ => gd.runs && (decide (1 ≤ b.toNat) && decide (b.toNat ≤ 27))
  | .halloc gd _ _ _ => gd.runs
  | .hfree gd _ _ => gd.runs
  | .hq gd _ _ item => gd.runs && (decide (item.toNat ≤ 6))
  | .qpush gd _ _ _ _ _ => gd.runs
  | .qpop gd _ _ _ _ _ => gd.runs
  | .qcnt gd _ _ => gd.runs
  | .qmake gd _ _ _ => gd.runs
  | .qfree gd _ _ => gd.runs
  | .tenq gd _ _ => gd.runs
  | .tdep gd _ _ => gd.runs
  | .tcan gd _ _ => gd.runs
  | .svsl gd _ _ _ => gd.runs
  | .ldsl gd _ _ _ => gd.runs
  | .tinvl gd _ _ => gd.runs
  | .hinv gd => gd.runs
  | .tcall gd _ _ n => gd.runs && (decide (n.toNat ≤ 6))
  | .tnext gd d a _ => gd.runs && (decide (1 ≤ d.toNat) && decide (d.toNat ≤ 30) && d != a && d + 1 != a)
  | .tans gd _ _ => gd.runs
  | .tend gd _ => gd.runs
  | .tfail gd _ => gd.runs
  | .tinv gd _ _ => gd.runs
  | .tstat gd _ _ _ => gd.runs
  | .ptask gd _ a _ k e => gd.runs && (decide (1 ≤ a.toNat) && decide (a.toNat ≤ 30) && decide (1 ≤ e.toNat) && decide (e.toNat ≤ 30) && decide (k.toNat ≤ 8))
  | .cpyq gd _ a _ => gd.runs && (decide (1 ≤ a.toNat) && decide (a.toNat ≤ 28))
  | .permit gd _ _ _ => gd.runs
  | .cpst gd _ _ item => gd.runs && (item != 3)
  | .fence gd => gd.runs
  | .fenceAcq gd => gd.runs
  | .fenceRel gd => gd.runs
  | .parr gd _ _ _ => gd.runs
  | .pwait gd _ _ _ => gd.runs
  | .pinit gd _ _ _ => gd.runs
  | .anop _ => true
  | .add gd _ _ _ => gd.runs
  | .sub gd _ _ _ => gd.runs
  | .and gd _ _ _ => gd.runs
  | .or gd _ _ _ => gd.runs
  | .xor gd _ _ _ => gd.runs
  | .sll gd _ _ _ => gd.runs
  | .srl gd _ _ _ => gd.runs
  | .sra gd _ _ _ => gd.runs
  | .mul gd _ _ _ => gd.runs
  | .mulh gd _ _ _ => gd.runs
  | .mulhu gd _ _ _ => gd.runs
  | .div gd _ _ _ => gd.runs
  | .divu gd _ _ _ => gd.runs
  | .rem gd _ _ _ => gd.runs
  | .remu gd _ _ _ => gd.runs
  | .min gd _ _ _ => gd.runs
  | .minu gd _ _ _ => gd.runs
  | .max gd _ _ _ => gd.runs
  | .maxu gd _ _ _ => gd.runs
  | .clz gd _ _ => gd.runs
  | .ctz gd _ _ => gd.runs
  | .popc gd _ _ => gd.runs
  | .brev gd _ _ => gd.runs
  | .addi gd _ _ _ => gd.runs
  | .andi gd _ _ _ => gd.runs
  | .ori gd _ _ _ => gd.runs
  | .xori gd _ _ _ => gd.runs
  | .slli gd _ _ _ => gd.runs
  | .srli gd _ _ _ => gd.runs
  | .srai gd _ _ _ => gd.runs
  | .ext gd _ _ pos wm1 => gd.runs && (decide (pos.toNat + wm1.toNat + 1 ≤ 64))
  | .li gd _ _ => gd.runs
  | .lui1 gd _ _ => gd.runs
  | .lui2 gd _ _ => gd.runs
  | .lui3 gd _ _ => gd.runs
  | .cmp gd _ _ _ _ => gd.runs
  | .band gd _ _ _ => gd.runs
  | .bor gd _ _ _ => gd.runs
  | .bxor gd _ _ _ => gd.runs
  | .bnot gd _ _ => gd.runs
  | .bmov gd _ _ => gd.runs
  | .bpack gd _ => gd.runs
  | .bunpk gd _ => gd.runs
  | .sel gd _ _ _ _ => gd.runs
  | .fadd gd _ _ _ _ => gd.runs
  | .fsub gd _ _ _ _ => gd.runs
  | .fmul gd _ _ _ _ => gd.runs
  | .fdiv gd _ _ _ _ => gd.runs
  | .fsqrt gd _ _ _ => gd.runs
  | .fmin gd _ _ _ _ => gd.runs
  | .fmax gd _ _ _ _ => gd.runs
  | .fabs gd _ _ _ => gd.runs
  | .fneg gd _ _ _ => gd.runs
  | .fsgnj gd _ _ _ _ => gd.runs
  | .fclass gd _ _ _ => gd.runs
  | .fcvt gd _ _ _ => gd.runs
  | .fcvti gd _ _ _ _ _ => gd.runs
  | .icvtf gd _ _ _ _ => gd.runs
  | .fma gd _ _ _ _ => gd.runs
  | .fms gd _ _ _ _ => gd.runs
  | .fnma gd _ _ _ _ => gd.runs
  | .fcmp gd _ _ _ _ _ => gd.runs
  | .vadd gd _ _ _ _ => gd.runs
  | .vsub gd _ _ _ _ => gd.runs
  | .vmul gd _ _ _ _ => gd.runs
  | .vmin gd _ _ _ _ => gd.runs
  | .vmax gd _ _ _ _ => gd.runs
  | .vabs gd _ _ _ => gd.runs
  | .vneg gd _ _ _ => gd.runs
  | .vand gd _ _ _ t => gd.runs && (!t.isFp)
  | .vor gd _ _ _ t => gd.runs && (!t.isFp)
  | .vxor gd _ _ _ t => gd.runs && (!t.isFp)
  | .vsll gd _ _ _ t => gd.runs && (!t.isFp)
  | .vsrl gd _ _ _ t => gd.runs && (!t.isFp)
  | .vsra gd _ _ _ t => gd.runs && (!t.isFp)
  | .vmov gd _ _ _ => gd.runs
  | .vfma gd _ _ _ t => gd.runs && (t.isFp)
  | .vfms gd _ _ _ t => gd.runs && (t.isFp)
  | .vcmp gd _ _ _ t c => gd.runs && (c.okFor t)
  | .vsel gd _ _ _ _ => gd.runs
  | .vbc gd _ _ _ => gd.runs
  | .vext gd _ _ _ _ => gd.runs
  | .vins gd _ _ _ _ => gd.runs
  | .vperm gd _ _ _ _ => gd.runs
  | .vslide gd _ _ _ _ => gd.runs
  | .vredAdd gd _ _ _ => gd.runs
  | .vredMin gd _ _ _ => gd.runs
  | .vredMax gd _ _ _ => gd.runs
  | .vscanAdd gd _ _ _ => gd.runs
  | .vwid gd _ _ k t => gd.runs && (t != .i64 && t != .f64 && partOk (t != .f16) k)
  | .vnar gd _ _ k t => gd.runs && (t != .i8 && t != .f16 && partOk (t != .bf16) k)
  | .vexp2 gd _ _ t => gd.runs && (t.isFp)
  | .vlog2 gd _ _ t => gd.runs && (t.isFp)
  | .vrcp gd _ _ t => gd.runs && (t.isFp)
  | .vrsq gd _ _ t => gd.runs && (t.isFp)
  | .vsqrt gd _ _ t => gd.runs && (t.isFp)
  | .vsin gd _ _ t => gd.runs && (t.isFp)
  | .vcos gd _ _ t => gd.runs && (t.isFp)
  | .vtanh gd _ _ t => gd.runs && (t.isFp)
  | .mand gd _ _ _ => gd.runs
  | .mor gd _ _ _ => gd.runs
  | .mnot gd _ _ => gd.runs
  | .mpop gd _ _ => gd.runs
  | .rep gd _ _ _ _ => gd.runs
  | .t8enc gd _ _ k _ t _ => gd.runs && (t8Ok t k)
  | .t8dec gd _ _ k t _ => gd.runs && (t8Ok t k)
  | .vcvt gd _ _ k ts td sr => gd.runs && (vcvtOk ts td k sr)
  | .fetchMissFill _ => true
  | .operationComplete _ => true
  | .contextLoaded _ => true
  | .drainComplete _ => true
  | .quitComplete _ => true
  | .waitDeadline _ => true
  | .migrationPacketSend _ => true
  | .migrantLanding _ => true
  | .landingAdmit _ => true
  | .spawnPacketArrival _ => true
  | .spillToAdmit _ => true
  | .spillForClass _ => true
  | .spillRecordWritten _ _ => true
  | .resume _ _ => true
  | .messageLanding _ => true
  | .wakeUpLanding _ => true
  | .dataLanding _ => true
  | .remoteRead _ => true
  | .accessAccepted _ _ => true
  | .fullEmptyRequest _ => true
  | .reservationRequest _ => true
  | .phaseRequest _ => true
  | .weltSwitchArrival _ => true
  | .pairingWindowExpiry _ => true
  | .combinedReplySplit _ => true
  | .queueHomeOperation _ => true
  | .blockRelocation _ _ _ _ => true
  | .relocationCutover _ _ _ => true
  | .layerFault _ _ => true
  | .layerWake _ _ => true
  | .layerReturnActive _ _ => true
  | .tapRetirement _ _ => true
  | .busFailure _ => true
  | .tcmBankRetirement _ _ => true
  | .launchWindowWrite _ _ _ _ _ => true
  | .launchPushStored _ => true
  | .launchPop _ _ => true
  | .launchHeaderArrival _ _ => true
  | .taskDispatch _ _ _ => true
  | .containmentRetry _ => true
  | .dispatchCountReport _ _ => true
  | .throttleRequest _ _ => true
  | .orreryTick _ _ _ _ _ _ => true
  | .matrixRemoteCommand _ => true
  | .matrixOpStart _ => true
  | .matrixKstepComplete _ => true
  | .copyTransferStart _ => true
  | .copyChunk _ _ _ => true
  | .permitRequest _ _ => true
  | .permitRetryTimeout _ _ => true
  | .copyCompletion _ _ => true
  | .completionDelivery _ => true
  | .translationWalkComplete _ _ _ => true
  | .cobblerAtomic _ => true
  | .spdmGetMeasurements _ _ => true
  | .ideKm _ _ => true
  | .seal _ _ => true
  | .unseal _ _ => true
  | .flashUpdate _ _ => true
  | .hostRegisterWrite _ _ _ _ _ => true
  | .packageReset _ _ _ _ => true
  | .plannedPowerDown _ _ => true
  | .scratchpadBankRetirement _ => true
  | .managementRingStall _ => true
  | .tenantTableWrite _ _ _ => true
  | .memoryOwnerAssignment _ _ _ => true
  | .tenantDestruction _ => true
  | .peerUnreachable _ _ => true

end Sys2Proof
end

