-- ==== Sys2Proof/Decode.lean ====
section
/-!
DEFINITION. From bits to instructions and back (spec/02_encoding.md). The formats of R28 to R30 are one
structure for each half; the maps of R34 to R38 cut it into an instruction; `Instr.wf` refuses what the limits
of the entries exclude. `Instr.encode` is written from the same maps.
-/

namespace Sys2Proof

/-! ## Cutting and joining bit fields -/

/-- The upper n bits of an (n + m)-bit value. -/
def hi (n m : Nat) (x : BitVec (n + m)) : BitVec n := BitVec.extractLsb' m n x

/-- The lower m bits of an (n + m)-bit value. -/
def lo (n m : Nat) (x : BitVec (n + m)) : BitVec m := BitVec.extractLsb' 0 m x

/-- The value with x in its upper n bits and y in its lower m bits. -/
def app (n m : Nat) (x : BitVec n) (y : BitVec m) : BitVec (n + m) := x ++ y

/-- A one-bit field as a truth value. -/
def bit (x : BitVec 1) : Bool := x == 1

/-- A truth value as a one-bit field. -/
def ofBit (b : Bool) : BitVec 1 := if b then 1 else 0

/-! ## Coded fields -/

/-- R37. -/
def ETy.ofBits (x : BitVec 3) : ETy :=
  match x.toNat with
  | 0 => .i8 | 1 => .i16 | 2 => .i32 | 3 => .i64 | 4 => .f16 | 5 => .bf16 | 6 => .f32 | _ => .f64

/-- R37. -/
def ETy.bits : ETy → BitVec 3
  | .i8 => 0 | .i16 => 1 | .i32 => 2 | .i64 => 3 | .f16 => 4 | .bf16 => 5 | .f32 => 6 | .f64 => 7

/-- R36: P selects FP32 when 0 and FP64 when 1. -/
def FTy.ofBits (x : BitVec 1) : FTy := if x = 0 then .s else .d

/-- R36. -/
def FTy.bits : FTy → BitVec 1
  | .s => 0 | .d => 1

/-- R35: the op list of `amo` and `tam`. -/
def AtomOp.ofBits (x : BitVec 4) : Option AtomOp :=
  match x.toNat with
  | 0 => some .add | 1 => some .and | 2 => some .or | 3 => some .xor | 4 => some .min | 5 => some .max
  | 6 => some .minu | 7 => some .maxu | 8 => some .swap | _ => none

/-- R35. -/
def AtomOp.bits : AtomOp → BitVec 4
  | .add => 0 | .and => 1 | .or => 2 | .xor => 3 | .min => 4 | .max => 5 | .minu => 6 | .maxu => 7 | .swap => 8

/-- R33, loads. -/
def LdOrd.ofBits (x : BitVec 2) : Option LdOrd :=
  match x.toNat with
  | 0 => some .plain | 1 => some .relaxed | 2 => some .acq | _ => none

/-- R33, loads. -/
def LdOrd.bits : LdOrd → BitVec 2
  | .plain => 0 | .relaxed => 1 | .acq => 2

/-- R33, stores. -/
def StOrd.ofBits (x : BitVec 2) : Option StOrd :=
  match x.toNat with
  | 0 => some .plain | 1 => some .relaxed | 2 => some .rel | _ => none

/-- R33, stores. -/
def StOrd.bits : StOrd → BitVec 2
  | .plain => 0 | .relaxed => 1 | .rel => 2

/-- R33, the AMO major. -/
def AmOrd.ofBits (x : BitVec 2) : AmOrd :=
  match x.toNat with
  | 0 => .plain | 1 => .relaxed | 2 => .acq | _ => .rel

/-- R33, the AMO major. -/
def AmOrd.bits : AmOrd → BitVec 2
  | .plain => 0 | .relaxed => 1 | .acq => 2 | .rel => 3

/-- R34: the window code; 0b0001 to 0b0111 are illegal. -/
def Win.ofBits (x : BitVec 4) : Option Win :=
  if x = 0 then some .qwin else if hi 1 3 x = 1 then some (.code (lo 1 3 x)) else none

/-- R34. -/
def Win.bits : Win → BitVec 4
  | .qwin => 0 | .code k => app 1 3 1 k

/-- R36: conditions of `cmp`. -/
def CmpCond.ofBits (x : BitVec 3) : Option CmpCond :=
  match x.toNat with
  | 0 => some .eq | 1 => some .ne | 2 => some .lt | 3 => some .ge | 4 => some .ltu | 5 => some .geu | _ => none

/-- R36. -/
def CmpCond.bits : CmpCond → BitVec 3
  | .eq => 0 | .ne => 1 | .lt => 2 | .ge => 3 | .ltu => 4 | .geu => 5

/-- R36: conditions of `fcmp`. -/
def FCond.ofBits (x : BitVec 2) : FCond :=
  match x.toNat with
  | 0 => .eq | 1 => .lt | 2 => .le | _ => .un

/-- R36. -/
def FCond.bits : FCond → BitVec 2
  | .eq => 0 | .lt => 1 | .le => 2 | .un => 3

/-- R38: conditions of `vcmp`. -/
def VCond.ofBits (x : BitVec 4) : Option VCond :=
  match x.toNat with
  | 0 => some .eq | 1 => some .ne | 2 => some .lt | 3 => some .le | 4 => some .ltu | 5 => some .leu
  | 6 => some .un | _ => none

/-- R38. -/
def VCond.bits : VCond → BitVec 4
  | .eq => 0 | .ne => 1 | .lt => 2 | .le => 3 | .ltu => 4 | .leu => 5 | .un => 6

/-! ## Formats -/

/-- A C-word cut as format CR (R28): L, major, guard, d, a, b, fn. The other formats join these cuts. -/
structure CFmt where
  long  : Bool
  major : BitVec 6
  gd    : Guard
  d     : BitVec 5
  a     : BitVec 5
  b     : BitVec 5
  fn    : BitVec 6
  deriving DecidableEq, Repr

/-- Bits 10:0 of a C-word (formats CI and CM). -/
def CFmt.bf (f : CFmt) : BitVec 11 := app 5 6 f.b f.fn
/-- Bits 15:0 of a C-word (format CC). -/
def CFmt.abf (f : CFmt) : BitVec 16 := app 5 11 f.a f.bf
/-- Bits 20:0 of a C-word (format CJ). -/
def CFmt.dabf (f : CFmt) : BitVec 21 := app 5 16 f.d f.abf

/-- An A-word cut as format AR (R30): major, guard, d, a, b, fn. -/
structure AFmt where
  major : BitVec 6
  gd    : Guard
  d     : BitVec 5
  a     : BitVec 5
  b     : BitVec 5
  fn    : BitVec 7
  deriving DecidableEq, Repr

/-- Bits 11:0 of an A-word (format AI). -/
def AFmt.bf (f : AFmt) : BitVec 12 := app 5 7 f.b f.fn
/-- Bits 16:0 of an A-word (format AW). -/
def AFmt.abf (f : AFmt) : BitVec 17 := app 5 12 f.a f.bf
/-- Bits 21:0 of an A-word (format AP). -/
def AFmt.dabf (f : AFmt) : BitVec 22 := app 5 17 f.d f.abf

/-- The guard fields joined: predicate above negate. -/
def Guard.bits (g : Guard) : BitVec 4 := app 3 1 g.p (ofBit g.neg)

/-- The guard fields cut. -/
def Guard.ofBits (x : BitVec 4) : Guard := ⟨hi 3 1 x, bit (lo 3 1 x)⟩

/-- R28: cut a C-word. -/
def CFmt.unpack (w : BitVec 32) : CFmt :=
  let x := lo 1 31 w
  let y := lo 6 25 x
  let z := lo 4 21 y
  let u := lo 5 16 z
  let v := lo 5 11 u
  ⟨bit (hi 1 31 w), hi 6 25 x, Guard.ofBits (hi 4 21 y), hi 5 16 z, hi 5 11 u, hi 5 6 v, lo 5 6 v⟩

/-- R28: join a C-word. -/
def CFmt.pack (f : CFmt) : BitVec 32 :=
  app 1 31 (ofBit f.long) (app 6 25 f.major (app 4 21 f.gd.bits f.dabf))

/-- R30: cut an A-word. -/
def AFmt.unpack (w : BitVec 32) : AFmt :=
  let y := lo 6 26 w
  let z := lo 4 22 y
  let u := lo 5 17 z
  let v := lo 5 12 u
  ⟨hi 6 26 w, Guard.ofBits (hi 4 22 y), hi 5 17 z, hi 5 12 u, hi 5 7 v, lo 5 7 v⟩

/-- R30: join an A-word. -/
def AFmt.pack (f : AFmt) : BitVec 32 :=
  app 6 26 f.major (app 4 22 f.gd.bits f.dabf)

/-! ## The maps -/

/-- The C-words of major 0x00 (R34, R35). -/
def decC00 (g : Guard) (f : CFmt) : Option Instr :=
  match f.fn.toNat with
  | 0x00 => if f.d = 0 ∧ f.a = 0 ∧ f.b = 0 then some (.cnop g) else none
  | 0x01 => if f.d = 0 ∧ f.a = 0 ∧ f.b = 0 then some (.isync g) else none
  | 0x02 => if f.d = 0 ∧ f.a = 0 ∧ f.b = 0 then some (.eret g) else none
  | 0x03 => if f.d = 0 ∧ f.a = 0 ∧ f.b = 0 then some (.brk g) else none
  | 0x04 => if f.d = 0 ∧ f.a = 0 ∧ f.b = 0 then some (.ret g) else none
  | 0x05 => if f.d = 0 ∧ f.b = 0 then some (.jr g f.a) else none
  | 0x06 => if f.d = 0 ∧ f.b = 0 then some (.jlr g f.a) else none
  | 0x07 => if f.d = 0 ∧ f.a = 0 ∧ f.b = 0 then some (.leave g) else none
  | 0x08 => if f.d = 0 ∧ f.a = 0 ∧ f.b = 0 then some (.quit g) else none
  | 0x09 => if f.d = 0 ∧ f.a = 0 ∧ f.b = 0 then some (.split g) else none
  | 0x0a => if f.d = 0 ∧ f.a = 0 ∧ f.b = 0 then some (.uiret g) else none
  | _ => none

/-- The C-words of major 0x0c (R34, R35). -/
def decC0C (g : Guard) (f : CFmt) : Option Instr :=
  match f.fn.toNat with
  | 0x00 => if f.d = 0 ∧ f.b = 0 then some (.wait g f.a) else none
  | 0x01 => if f.a = 0 ∧ f.b = 0 then some (.gang g f.d) else none
  | 0x02 => if f.b = 0 then some (.wfld g f.d f.a) else none
  | 0x03 => some (.kill g f.d f.a f.b)
  | 0x04 => if f.b = 0 then some (.cmap g f.d f.a) else none
  | _ => none

/-- The C-words of major 0x1d (R34, R35). -/
def decC1D (g : Guard) (f : CFmt) : Option Instr :=
  match f.fn.toNat with
  | 0x00 => if f.b = 0 then some (.lds g f.d f.a) else none
  | 0x01 => if f.b = 0 then some (.sts g f.d f.a) else none
  | 0x02 => some (.shp g f.d f.a f.b)
  | 0x03 => some (.tfadd g f.d f.a f.b)
  | 0x04 => if (hi 1 4 f.d) = 0 ∧ (hi 1 4 f.b) = 0 then some (.rdr g (lo 1 4 f.d) f.a (lo 1 4 f.b)) else none
  | 0x05 => if f.d = 0 ∧ f.b = 0 then some (.migr g f.a) else none
  | _ => none

/-- The C-words of major 0x20 (R34, R35). -/
def decC20 (g : Guard) (f : CFmt) : Option Instr :=
  match f.fn.toNat with
  | 0x00 => if (hi 3 2 f.d) = 0 ∧ f.b = 0 then some (.dtld g (lo 3 2 f.d) f.a) else none
  | 0x01 => if (hi 3 2 f.d) = 0 ∧ f.b = 0 then some (.dtst g (lo 3 2 f.d) f.a) else none
  | _ => none

/-- The C-words of major 0x23 (R34, R35). -/
def decC23 (g : Guard) (f : CFmt) : Option Instr :=
  match f.fn.toNat with
  | 0x00 => if (hi 1 4 f.b) = 0 then some (.recv g f.d f.a (lo 1 4 f.b)) else none
  | 0x01 => if f.a = 0 ∧ (hi 1 4 f.b) = 0 then some (.mbc g f.d (lo 1 4 f.b)) else none
  | 0x02 => if (hi 1 4 f.b) = 0 then some (.waitc g f.d f.a (lo 1 4 f.b)) else none
  | 0x03 => if f.b = 0 then some (.mbclr g f.d f.a) else none
  | 0x04 => if f.b = 0 then some (.mcast g f.d f.a) else none
  | _ => none

/-- The C-words of major 0x24 (R34, R35). -/
def decC24 (g : Guard) (f : CFmt) : Option Instr :=
  match f.fn.toNat with
  | 0x00 => if f.a = 0 ∧ (hi 4 1 f.b) = 0 then some (.mclaim g f.d (bit (lo 4 1 f.b))) else none
  | 0x01 => if f.d = 0 ∧ f.a = 0 ∧ f.b = 0 then some (.mrel g) else none
  | 0x02 => if (hi 3 2 f.d) = 0 ∧ f.a = 0 ∧ f.b = 0 then some (.mzero g (lo 3 2 f.d)) else none
  | 0x03 => if (hi 3 2 f.d) = 0 then some (.mload g (lo 3 2 f.d) f.a f.b) else none
  | 0x04 => if (hi 3 2 f.d) = 0 then some (.mdrain g (lo 3 2 f.d) f.a f.b) else none
  | 0x05 => some (.mdrainr g f.d f.a f.b)
  | 0x06 => some (.mcmd g f.d f.a f.b)
  | 0x07 => if f.a = 0 ∧ (hi 4 1 f.b) = 0 then some (.mstat g f.d (bit (lo 4 1 f.b))) else none
  | _ => none

/-- The C-words of major 0x26 (R34, R35). -/
def decC26 (g : Guard) (f : CFmt) : Option Instr :=
  match (lo 2 4 f.fn).toNat with
  | 0x0 => if f.b = 0 then (LdOrd.ofBits (hi 2 4 f.fn)).map fun o => .ldfe g f.d f.a o else none
  | 0x1 => if f.b = 0 then (LdOrd.ofBits (hi 2 4 f.fn)).map fun o => .ldff g f.d f.a o else none
  | 0x2 => if f.d = 0 then (StOrd.ofBits (hi 2 4 f.fn)).map fun o => .stef g f.a f.b o else none
  | 0x3 => if f.d = 0 then (StOrd.ofBits (hi 2 4 f.fn)).map fun o => .stff g f.a f.b o else none
  | 0x4 => if f.b = 0 then (LdOrd.ofBits (hi 2 4 f.fn)).map fun o => .lrw g f.d f.a o else none
  | 0x5 => if f.d = 0 then (StOrd.ofBits (hi 2 4 f.fn)).map fun o => .sch g f.a f.b o else none
  | 0x6 => if f.d = 0 ∧ f.b = 0 then (StOrd.ofBits (hi 2 4 f.fn)).map fun o => .sdrop g f.a o else none
  | _ => none

/-- The C-words of major 0x27 (R34, R35). -/
def decC27 (g : Guard) (f : CFmt) : Option Instr :=
  match (lo 2 4 f.fn).toNat with
  | 0x9 => some (.afadd g f.d f.a f.b (AmOrd.ofBits (hi 2 4 f.fn)))
  | 0xa => some (.acas g f.d f.a f.b (AmOrd.ofBits (hi 2 4 f.fn)))
  | _ => (AtomOp.ofBits (lo 2 4 f.fn)).map fun op => .amo g f.d f.a f.b (AmOrd.ofBits (hi 2 4 f.fn)) op

/-- The C-words of major 0x29 (R34, R35). -/
def decC29 (g : Guard) (f : CFmt) : Option Instr :=
  match f.fn.toNat with
  | 0x00 => some (.halloc g f.d f.a f.b)
  | 0x01 => if f.b = 0 then some (.hfree g f.d f.a) else none
  | 0x02 => some (.hq g f.d f.a f.b)
  | _ => none

/-- The C-words of major 0x2c (R34, R35). -/
def decC2C (g : Guard) (f : CFmt) : Option Instr :=
  match f.fn.toNat with
  | 0x00 => if f.b = 0 then some (.qcnt g f.d f.a) else none
  | 0x01 => some (.qmake g f.d f.a f.b)
  | 0x02 => if f.b = 0 then some (.qfree g f.d f.a) else none
  | _ => none

/-- The C-words of major 0x2d (R34, R35). -/
def decC2D (g : Guard) (f : CFmt) : Option Instr :=
  match f.fn.toNat with
  | 0x00 => if f.a = 0 ∧ (hi 1 4 f.b) = 0 then some (.tenq g f.d (lo 1 4 f.b)) else none
  | 0x01 => if f.b = 0 then some (.tdep g f.d f.a) else none
  | 0x02 => if f.b = 0 then some (.tcan g f.d f.a) else none
  | 0x03 => some (.svsl g f.d f.a f.b)
  | 0x04 => some (.ldsl g f.d f.a f.b)
  | 0x05 => if f.d = 0 then some (.tinvl g f.a f.b) else none
  | 0x06 => if f.d = 0 ∧ f.a = 0 ∧ f.b = 0 then some (.hinv g) else none
  | _ => none

/-- The C-words of major 0x2f (R34, R35). -/
def decC2F (g : Guard) (f : CFmt) : Option Instr :=
  match f.fn.toNat with
  | 0x00 => if (hi 4 1 f.b) = 0 then some (.tnext g f.d f.a (bit (lo 4 1 f.b))) else none
  | 0x01 => if f.d = 0 then some (.tans g f.a f.b) else none
  | 0x02 => if f.d = 0 ∧ f.b = 0 then some (.tend g f.a) else none
  | 0x03 => if f.d = 0 ∧ f.b = 0 then some (.tfail g f.a) else none
  | 0x04 => if f.b = 0 then some (.tinv g f.d f.a) else none
  | 0x05 => if (hi 3 2 f.b) = 0 then some (.tstat g f.d f.a (lo 3 2 f.b)) else none
  | _ => none

/-- The C-words of major 0x31 (R34, R35). -/
def decC31 (g : Guard) (f : CFmt) : Option Instr :=
  match f.fn.toNat with
  | 0x00 => if (hi 4 1 f.b) = 0 then some (.cpyq g f.d f.a (bit (lo 4 1 f.b))) else none
  | 0x01 => if (hi 1 4 f.b) = 0 then some (.permit g f.d f.a (lo 1 4 f.b)) else none
  | 0x02 => if (hi 3 2 f.b) = 0 then some (.cpst g f.d f.a (lo 3 2 f.b)) else none
  | _ => none

/-- The C-words of major 0x32 (R34, R35). -/
def decC32 (g : Guard) (f : CFmt) : Option Instr :=
  match f.fn.toNat with
  | 0x00 => if f.d = 0 ∧ f.a = 0 ∧ f.b = 0 then some (.fence g) else none
  | 0x01 => if f.d = 0 ∧ f.a = 0 ∧ f.b = 0 then some (.fenceAcq g) else none
  | 0x02 => if f.d = 0 ∧ f.a = 0 ∧ f.b = 0 then some (.fenceRel g) else none
  | 0x03 => some (.parr g f.d f.a f.b)
  | 0x04 => some (.pwait g f.d f.a f.b)
  | 0x05 => some (.pinit g f.d f.a f.b)
  | _ => none

/-- The C-word major map of R34, but for the long majors. -/
def decCShort (g : Guard) (f : CFmt) : Option Instr :=
  match f.major.toNat with
  | 0x00 => decC00 g f
  | 0x01 => if f.d = 0 ∧ f.a = 0 then some (.trap g f.bf) else none
  | 0x02 => some (.br g f.dabf)
  | 0x03 => some (.jl g f.dabf)
  | 0x05 => some (.lpd g f.d f.abf)
  | 0x06 => if f.d = 0 ∧ f.a = 0 then some (.enter g f.bf) else none
  | 0x07 => if f.a = 0 then some (.crd g f.d f.bf) else none
  | 0x08 => if f.d = 0 then some (.cwr g f.a f.bf) else none
  | 0x09 => some (.crset g f.d f.a f.bf)
  | 0x0a => some (.crclr g f.d f.a f.bf)
  | 0x0c => decC0C g f
  | 0x10 => (LdOrd.ofBits (hi 2 9 f.bf)).map fun o => .ldb g f.d f.a o (lo 2 9 f.bf)
  | 0x11 => (LdOrd.ofBits (hi 2 9 f.bf)).map fun o => .ldh g f.d f.a o (lo 2 9 f.bf)
  | 0x12 => (LdOrd.ofBits (hi 2 9 f.bf)).map fun o => .ldw g f.d f.a o (lo 2 9 f.bf)
  | 0x13 => (LdOrd.ofBits (hi 2 9 f.bf)).map fun o => .ldd g f.d f.a o (lo 2 9 f.bf)
  | 0x14 => (LdOrd.ofBits (hi 2 9 f.bf)).map fun o => .ldbz g f.d f.a o (lo 2 9 f.bf)
  | 0x15 => (LdOrd.ofBits (hi 2 9 f.bf)).map fun o => .ldhz g f.d f.a o (lo 2 9 f.bf)
  | 0x16 => (LdOrd.ofBits (hi 2 9 f.bf)).map fun o => .ldwz g f.d f.a o (lo 2 9 f.bf)
  | 0x17 => if (hi 1 4 f.d) = 0 then (LdOrd.ofBits (hi 2 9 f.bf)).map fun o => .ldv g (lo 1 4 f.d) f.a o (lo 2 9 f.bf) else none
  | 0x18 => (StOrd.ofBits (hi 2 9 f.bf)).map fun o => .stb g f.d f.a o (lo 2 9 f.bf)
  | 0x19 => (StOrd.ofBits (hi 2 9 f.bf)).map fun o => .sth g f.d f.a o (lo 2 9 f.bf)
  | 0x1a => (StOrd.ofBits (hi 2 9 f.bf)).map fun o => .stw g f.d f.a o (lo 2 9 f.bf)
  | 0x1b => (StOrd.ofBits (hi 2 9 f.bf)).map fun o => .std g f.d f.a o (lo 2 9 f.bf)
  | 0x1c => if (hi 1 4 f.d) = 0 then (StOrd.ofBits (hi 2 9 f.bf)).map fun o => .stv g (lo 1 4 f.d) f.a o (lo 2 9 f.bf) else none
  | 0x1d => decC1D g f
  | 0x1e => if (hi 2 4 f.fn) = 0 then (AtomOp.ofBits (lo 2 4 f.fn)).map fun op => .tam g f.d f.a f.b op else none
  | 0x1f => some (.lea g f.d f.a f.bf)
  | 0x20 => decC20 g f
  | 0x21 => if (hi 1 4 f.b) = 0 ∧ (hi 2 4 f.fn) = 0 then some (.send g f.d f.a (lo 1 4 f.b) (lo 2 4 f.fn)) else none
  | 0x23 => decC23 g f
  | 0x24 => decC24 g f
  | 0x26 => decC26 g f
  | 0x27 => decC27 g f
  | 0x29 => decC29 g f
  | 0x2a => if (hi 1 4 f.b) = 0 ∧ (hi 1 1 (lo 4 2 f.fn)) = 0 then (Win.ofBits (hi 4 2 f.fn)).map fun w => .qpush g f.d f.a (lo 1 4 f.b) w (bit (lo 1 1 (lo 4 2 f.fn))) else none
  | 0x2b => if (hi 1 4 f.b) = 0 ∧ (hi 1 1 (lo 4 2 f.fn)) = 0 then (Win.ofBits (hi 4 2 f.fn)).map fun w => .qpop g f.d f.a (lo 1 4 f.b) w (bit (lo 1 1 (lo 4 2 f.fn))) else none
  | 0x2c => decC2C g f
  | 0x2d => decC2D g f
  | 0x2e => if f.b = 0 ∧ (hi 3 3 f.fn) = 0 then some (.tcall g f.d f.a (lo 3 3 f.fn)) else none
  | 0x2f => decC2F g f
  | 0x31 => decC31 g f
  | 0x32 => decC32 g f
  | _ => none

/-- The six long majors of R29, with their X-word x. -/
def decCLong (g : Guard) (f : CFmt) (x : BitVec 32) : Option Instr :=
  match f.major.toNat with
  | 0x04 => some (.j g f.dabf x)
  | 0x0b => if f.fn = 0 ∧ (hi 29 3 x) = 0 then some (.spawn g f.d f.a f.b (lo 29 3 x)) else none
  | 0x22 => if f.d = 0 ∧ (hi 2 4 f.fn) = 0 ∧ (lo 12 20 x) = 0 then some (.sendL g f.a f.b (lo 2 4 f.fn) (hi 12 20 x)) else none
  | 0x25 => if (hi 3 2 f.d) = 0 ∧ (lo 12 20 x) = 0 then some (.mmac g (lo 3 2 f.d) f.a f.b (bit (hi 1 5 f.fn)) (bit (hi 1 4 (lo 1 5 f.fn))) (bit (hi 1 3 (lo 1 4 (lo 1 5 f.fn)))) (lo 1 3 (lo 1 4 (lo 1 5 f.fn))) (hi 12 20 x)) else none
  | 0x28 => if f.d = 0 ∧ f.fn = 0 then some (.rupd g f.a f.b x) else none
  | 0x30 => if (hi 2 4 f.fn) = 0 ∧ (hi 27 5 x) = 0 then some (.ptask g f.d f.a f.b (lo 2 4 f.fn) (lo 27 5 x)) else none
  | _ => none

/-- The A-words of major 0x01 (R36, R38). -/
def decA01 (g : Guard) (f : AFmt) : Option Instr :=
  match f.fn.toNat with
  | 0x00 => some (.add g f.d f.a f.b)
  | 0x01 => some (.sub g f.d f.a f.b)
  | 0x02 => some (.and g f.d f.a f.b)
  | 0x03 => some (.or g f.d f.a f.b)
  | 0x04 => some (.xor g f.d f.a f.b)
  | 0x05 => some (.sll g f.d f.a f.b)
  | 0x06 => some (.srl g f.d f.a f.b)
  | 0x07 => some (.sra g f.d f.a f.b)
  | 0x08 => some (.mul g f.d f.a f.b)
  | 0x09 => some (.mulh g f.d f.a f.b)
  | 0x0a => some (.mulhu g f.d f.a f.b)
  | 0x0b => some (.div g f.d f.a f.b)
  | 0x0c => some (.divu g f.d f.a f.b)
  | 0x0d => some (.rem g f.d f.a f.b)
  | 0x0e => some (.remu g f.d f.a f.b)
  | 0x0f => some (.min g f.d f.a f.b)
  | 0x10 => some (.minu g f.d f.a f.b)
  | 0x11 => some (.max g f.d f.a f.b)
  | 0x12 => some (.maxu g f.d f.a f.b)
  | 0x13 => if f.b = 0 then some (.clz g f.d f.a) else none
  | 0x14 => if f.b = 0 then some (.ctz g f.d f.a) else none
  | 0x15 => if f.b = 0 then some (.popc g f.d f.a) else none
  | 0x16 => if f.b = 0 then some (.brev g f.d f.a) else none
  | _ => none

/-- The A-words of major 0x06 (R36, R38). -/
def decA06 (g : Guard) (f : AFmt) : Option Instr :=
  match (hi 6 6 f.bf).toNat with
  | 0x00 => some (.slli g f.d f.a (lo 6 6 f.bf))
  | 0x01 => some (.srli g f.d f.a (lo 6 6 f.bf))
  | 0x02 => some (.srai g f.d f.a (lo 6 6 f.bf))
  | _ => none

/-- The A-words of major 0x0d (R36, R38). -/
def decA0D (g : Guard) (f : AFmt) : Option Instr :=
  match f.fn.toNat with
  | 0x00 => if (hi 2 3 f.d) = 0 ∧ (hi 2 3 f.a) = 0 ∧ (hi 2 3 f.b) = 0 then some (.band g (lo 2 3 f.d) (lo 2 3 f.a) (lo 2 3 f.b)) else none
  | 0x01 => if (hi 2 3 f.d) = 0 ∧ (hi 2 3 f.a) = 0 ∧ (hi 2 3 f.b) = 0 then some (.bor g (lo 2 3 f.d) (lo 2 3 f.a) (lo 2 3 f.b)) else none
  | 0x02 => if (hi 2 3 f.d) = 0 ∧ (hi 2 3 f.a) = 0 ∧ (hi 2 3 f.b) = 0 then some (.bxor g (lo 2 3 f.d) (lo 2 3 f.a) (lo 2 3 f.b)) else none
  | 0x03 => if (hi 2 3 f.d) = 0 ∧ (hi 2 3 f.a) = 0 ∧ f.b = 0 then some (.bnot g (lo 2 3 f.d) (lo 2 3 f.a)) else none
  | 0x04 => if (hi 2 3 f.d) = 0 ∧ (hi 2 3 f.a) = 0 ∧ f.b = 0 then some (.bmov g (lo 2 3 f.d) (lo 2 3 f.a)) else none
  | 0x05 => if f.a = 0 ∧ f.b = 0 then some (.bpack g f.d) else none
  | 0x06 => if f.d = 0 ∧ f.b = 0 then some (.bunpk g f.a) else none
  | _ => none

/-- The A-words of major 0x10 (R36, R38). -/
def decA10 (g : Guard) (f : AFmt) : Option Instr :=
  match (lo 1 6 f.fn).toNat with
  | 0x0 => some (.fadd g f.d f.a f.b (FTy.ofBits (hi 1 6 f.fn)))
  | 0x1 => some (.fsub g f.d f.a f.b (FTy.ofBits (hi 1 6 f.fn)))
  | 0x2 => some (.fmul g f.d f.a f.b (FTy.ofBits (hi 1 6 f.fn)))
  | 0x3 => some (.fdiv g f.d f.a f.b (FTy.ofBits (hi 1 6 f.fn)))
  | 0x4 => if f.b = 0 then some (.fsqrt g f.d f.a (FTy.ofBits (hi 1 6 f.fn))) else none
  | 0x5 => some (.fmin g f.d f.a f.b (FTy.ofBits (hi 1 6 f.fn)))
  | 0x6 => some (.fmax g f.d f.a f.b (FTy.ofBits (hi 1 6 f.fn)))
  | 0x7 => if f.b = 0 then some (.fabs g f.d f.a (FTy.ofBits (hi 1 6 f.fn))) else none
  | 0x8 => if f.b = 0 then some (.fneg g f.d f.a (FTy.ofBits (hi 1 6 f.fn))) else none
  | 0x9 => some (.fsgnj g f.d f.a f.b (FTy.ofBits (hi 1 6 f.fn)))
  | 0xa => if f.b = 0 then some (.fclass g f.d f.a (FTy.ofBits (hi 1 6 f.fn))) else none
  | 0xb => if f.b = 0 then some (.fcvt g f.d f.a (FTy.ofBits (hi 1 6 f.fn))) else none
  | 0xc => if (hi 3 2 f.b) = 0 then some (.fcvti g f.d f.a (bit (hi 1 1 (lo 3 2 f.b))) (bit (lo 1 1 (lo 3 2 f.b))) (FTy.ofBits (hi 1 6 f.fn))) else none
  | 0xd => if (hi 4 1 f.b) = 0 then some (.icvtf g f.d f.a (bit (lo 4 1 f.b)) (FTy.ofBits (hi 1 6 f.fn))) else none
  | _ => none

/-- The A-words of major 0x11 (R36, R38). -/
def decA11 (g : Guard) (f : AFmt) : Option Instr :=
  match (lo 1 6 f.fn).toNat with
  | 0x0 => some (.fma g f.d f.a f.b (FTy.ofBits (hi 1 6 f.fn)))
  | 0x1 => some (.fms g f.d f.a f.b (FTy.ofBits (hi 1 6 f.fn)))
  | 0x2 => some (.fnma g f.d f.a f.b (FTy.ofBits (hi 1 6 f.fn)))
  | _ => none

/-- The A-words of major 0x20 (R36, R38). -/
def decA20 (g : Guard) (f : AFmt) : Option Instr :=
  match (lo 3 4 f.fn).toNat with
  | 0x0 => if (hi 1 4 f.d) = 0 ∧ (hi 1 4 f.a) = 0 ∧ (hi 1 4 f.b) = 0 then some (.vadd g (lo 1 4 f.d) (lo 1 4 f.a) (lo 1 4 f.b) (ETy.ofBits (hi 3 4 f.fn))) else none
  | 0x1 => if (hi 1 4 f.d) = 0 ∧ (hi 1 4 f.a) = 0 ∧ (hi 1 4 f.b) = 0 then some (.vsub g (lo 1 4 f.d) (lo 1 4 f.a) (lo 1 4 f.b) (ETy.ofBits (hi 3 4 f.fn))) else none
  | 0x2 => if (hi 1 4 f.d) = 0 ∧ (hi 1 4 f.a) = 0 ∧ (hi 1 4 f.b) = 0 then some (.vmul g (lo 1 4 f.d) (lo 1 4 f.a) (lo 1 4 f.b) (ETy.ofBits (hi 3 4 f.fn))) else none
  | 0x3 => if (hi 1 4 f.d) = 0 ∧ (hi 1 4 f.a) = 0 ∧ (hi 1 4 f.b) = 0 then some (.vmin g (lo 1 4 f.d) (lo 1 4 f.a) (lo 1 4 f.b) (ETy.ofBits (hi 3 4 f.fn))) else none
  | 0x4 => if (hi 1 4 f.d) = 0 ∧ (hi 1 4 f.a) = 0 ∧ (hi 1 4 f.b) = 0 then some (.vmax g (lo 1 4 f.d) (lo 1 4 f.a) (lo 1 4 f.b) (ETy.ofBits (hi 3 4 f.fn))) else none
  | 0x5 => if (hi 1 4 f.d) = 0 ∧ (hi 1 4 f.a) = 0 ∧ f.b = 0 then some (.vabs g (lo 1 4 f.d) (lo 1 4 f.a) (ETy.ofBits (hi 3 4 f.fn))) else none
  | 0x6 => if (hi 1 4 f.d) = 0 ∧ (hi 1 4 f.a) = 0 ∧ f.b = 0 then some (.vneg g (lo 1 4 f.d) (lo 1 4 f.a) (ETy.ofBits (hi 3 4 f.fn))) else none
  | 0x7 => if (hi 1 4 f.d) = 0 ∧ (hi 1 4 f.a) = 0 ∧ (hi 1 4 f.b) = 0 then some (.vand g (lo 1 4 f.d) (lo 1 4 f.a) (lo 1 4 f.b) (ETy.ofBits (hi 3 4 f.fn))) else none
  | 0x8 => if (hi 1 4 f.d) = 0 ∧ (hi 1 4 f.a) = 0 ∧ (hi 1 4 f.b) = 0 then some (.vor g (lo 1 4 f.d) (lo 1 4 f.a) (lo 1 4 f.b) (ETy.ofBits (hi 3 4 f.fn))) else none
  | 0x9 => if (hi 1 4 f.d) = 0 ∧ (hi 1 4 f.a) = 0 ∧ (hi 1 4 f.b) = 0 then some (.vxor g (lo 1 4 f.d) (lo 1 4 f.a) (lo 1 4 f.b) (ETy.ofBits (hi 3 4 f.fn))) else none
  | 0xa => if (hi 1 4 f.d) = 0 ∧ (hi 1 4 f.a) = 0 ∧ (hi 1 4 f.b) = 0 then some (.vsll g (lo 1 4 f.d) (lo 1 4 f.a) (lo 1 4 f.b) (ETy.ofBits (hi 3 4 f.fn))) else none
  | 0xb => if (hi 1 4 f.d) = 0 ∧ (hi 1 4 f.a) = 0 ∧ (hi 1 4 f.b) = 0 then some (.vsrl g (lo 1 4 f.d) (lo 1 4 f.a) (lo 1 4 f.b) (ETy.ofBits (hi 3 4 f.fn))) else none
  | 0xc => if (hi 1 4 f.d) = 0 ∧ (hi 1 4 f.a) = 0 ∧ (hi 1 4 f.b) = 0 then some (.vsra g (lo 1 4 f.d) (lo 1 4 f.a) (lo 1 4 f.b) (ETy.ofBits (hi 3 4 f.fn))) else none
  | 0xd => if (hi 1 4 f.d) = 0 ∧ (hi 1 4 f.a) = 0 ∧ f.b = 0 then some (.vmov g (lo 1 4 f.d) (lo 1 4 f.a) (ETy.ofBits (hi 3 4 f.fn))) else none
  | 0xe => if (hi 1 4 f.d) = 0 ∧ (hi 1 4 f.a) = 0 ∧ (hi 1 4 f.b) = 0 then some (.vfma g (lo 1 4 f.d) (lo 1 4 f.a) (lo 1 4 f.b) (ETy.ofBits (hi 3 4 f.fn))) else none
  | 0xf => if (hi 1 4 f.d) = 0 ∧ (hi 1 4 f.a) = 0 ∧ (hi 1 4 f.b) = 0 then some (.vfms g (lo 1 4 f.d) (lo 1 4 f.a) (lo 1 4 f.b) (ETy.ofBits (hi 3 4 f.fn))) else none
  | _ => none

/-- The A-words of major 0x23 (R36, R38). -/
def decA23 (g : Guard) (f : AFmt) : Option Instr :=
  match (lo 3 4 f.fn).toNat with
  | 0x0 => if (hi 1 4 f.d) = 0 ∧ f.b = 0 then some (.vbc g (lo 1 4 f.d) f.a (ETy.ofBits (hi 3 4 f.fn))) else none
  | 0x1 => if (hi 1 4 f.a) = 0 then some (.vext g f.d (lo 1 4 f.a) f.b (ETy.ofBits (hi 3 4 f.fn))) else none
  | 0x2 => if (hi 1 4 f.d) = 0 then some (.vins g (lo 1 4 f.d) f.a f.b (ETy.ofBits (hi 3 4 f.fn))) else none
  | 0x3 => if (hi 1 4 f.d) = 0 ∧ (hi 1 4 f.a) = 0 ∧ (hi 1 4 f.b) = 0 then some (.vperm g (lo 1 4 f.d) (lo 1 4 f.a) (lo 1 4 f.b) (ETy.ofBits (hi 3 4 f.fn))) else none
  | 0x4 => if (hi 1 4 f.d) = 0 ∧ (hi 1 4 f.a) = 0 then some (.vslide g (lo 1 4 f.d) (lo 1 4 f.a) f.b (ETy.ofBits (hi 3 4 f.fn))) else none
  | 0x5 => if (hi 1 4 f.d) = 0 ∧ (hi 1 4 f.a) = 0 ∧ f.b = 0 then some (.vredAdd g (lo 1 4 f.d) (lo 1 4 f.a) (ETy.ofBits (hi 3 4 f.fn))) else none
  | 0x6 => if (hi 1 4 f.d) = 0 ∧ (hi 1 4 f.a) = 0 ∧ f.b = 0 then some (.vredMin g (lo 1 4 f.d) (lo 1 4 f.a) (ETy.ofBits (hi 3 4 f.fn))) else none
  | 0x7 => if (hi 1 4 f.d) = 0 ∧ (hi 1 4 f.a) = 0 ∧ f.b = 0 then some (.vredMax g (lo 1 4 f.d) (lo 1 4 f.a) (ETy.ofBits (hi 3 4 f.fn))) else none
  | 0x8 => if (hi 1 4 f.d) = 0 ∧ (hi 1 4 f.a) = 0 ∧ f.b = 0 then some (.vscanAdd g (lo 1 4 f.d) (lo 1 4 f.a) (ETy.ofBits (hi 3 4 f.fn))) else none
  | 0x9 => if (hi 1 4 f.d) = 0 ∧ (hi 1 4 f.a) = 0 then some (.vwid g (lo 1 4 f.d) (lo 1 4 f.a) f.b (ETy.ofBits (hi 3 4 f.fn))) else none
  | 0xa => if (hi 1 4 f.d) = 0 ∧ (hi 1 4 f.a) = 0 then some (.vnar g (lo 1 4 f.d) (lo 1 4 f.a) f.b (ETy.ofBits (hi 3 4 f.fn))) else none
  | _ => none

/-- The A-words of major 0x24 (R36, R38). -/
def decA24 (g : Guard) (f : AFmt) : Option Instr :=
  match (lo 3 4 f.fn).toNat with
  | 0x0 => if (hi 1 4 f.d) = 0 ∧ (hi 1 4 f.a) = 0 ∧ f.b = 0 then some (.vexp2 g (lo 1 4 f.d) (lo 1 4 f.a) (ETy.ofBits (hi 3 4 f.fn))) else none
  | 0x1 => if (hi 1 4 f.d) = 0 ∧ (hi 1 4 f.a) = 0 ∧ f.b = 0 then some (.vlog2 g (lo 1 4 f.d) (lo 1 4 f.a) (ETy.ofBits (hi 3 4 f.fn))) else none
  | 0x2 => if (hi 1 4 f.d) = 0 ∧ (hi 1 4 f.a) = 0 ∧ f.b = 0 then some (.vrcp g (lo 1 4 f.d) (lo 1 4 f.a) (ETy.ofBits (hi 3 4 f.fn))) else none
  | 0x3 => if (hi 1 4 f.d) = 0 ∧ (hi 1 4 f.a) = 0 ∧ f.b = 0 then some (.vrsq g (lo 1 4 f.d) (lo 1 4 f.a) (ETy.ofBits (hi 3 4 f.fn))) else none
  | 0x4 => if (hi 1 4 f.d) = 0 ∧ (hi 1 4 f.a) = 0 ∧ f.b = 0 then some (.vsqrt g (lo 1 4 f.d) (lo 1 4 f.a) (ETy.ofBits (hi 3 4 f.fn))) else none
  | 0x5 => if (hi 1 4 f.d) = 0 ∧ (hi 1 4 f.a) = 0 ∧ f.b = 0 then some (.vsin g (lo 1 4 f.d) (lo 1 4 f.a) (ETy.ofBits (hi 3 4 f.fn))) else none
  | 0x6 => if (hi 1 4 f.d) = 0 ∧ (hi 1 4 f.a) = 0 ∧ f.b = 0 then some (.vcos g (lo 1 4 f.d) (lo 1 4 f.a) (ETy.ofBits (hi 3 4 f.fn))) else none
  | 0x7 => if (hi 1 4 f.d) = 0 ∧ (hi 1 4 f.a) = 0 ∧ f.b = 0 then some (.vtanh g (lo 1 4 f.d) (lo 1 4 f.a) (ETy.ofBits (hi 3 4 f.fn))) else none
  | _ => none

/-- The A-words of major 0x25 (R36, R38). -/
def decA25 (g : Guard) (f : AFmt) : Option Instr :=
  match f.fn.toNat with
  | 0x00 => if (hi 3 2 f.d) = 0 ∧ (hi 3 2 f.a) = 0 ∧ (hi 3 2 f.b) = 0 then some (.mand g (lo 3 2 f.d) (lo 3 2 f.a) (lo 3 2 f.b)) else none
  | 0x01 => if (hi 3 2 f.d) = 0 ∧ (hi 3 2 f.a) = 0 ∧ (hi 3 2 f.b) = 0 then some (.mor g (lo 3 2 f.d) (lo 3 2 f.a) (lo 3 2 f.b)) else none
  | 0x02 => if (hi 3 2 f.d) = 0 ∧ (hi 3 2 f.a) = 0 ∧ f.b = 0 then some (.mnot g (lo 3 2 f.d) (lo 3 2 f.a)) else none
  | 0x03 => if (hi 3 2 f.a) = 0 ∧ f.b = 0 then some (.mpop g f.d (lo 3 2 f.a)) else none
  | _ => none

/-- The A-words of major 0x28 (R36, R38). -/
def decA28 (g : Guard) (f : AFmt) : Option Instr :=
  let x := lo 4 3 f.fn
  match (hi 1 2 x).toNat with
  | 0 => if (hi 1 4 f.d) = 0 ∧ (hi 1 4 f.a) = 0 then some (.t8enc g (lo 1 4 f.d) (lo 1 4 f.a) f.b (bit (hi 1 6 f.fn)) (ETy.ofBits (hi 3 3 (lo 1 6 f.fn))) (lo 1 2 (lo 3 3 (lo 1 6 f.fn)))) else none
  | 1 => if (hi 1 4 f.d) = 0 ∧ (hi 1 4 f.a) = 0 ∧ (hi 1 6 f.fn) = 0 then some (.t8dec g (lo 1 4 f.d) (lo 1 4 f.a) f.b (ETy.ofBits (hi 3 3 (lo 1 6 f.fn))) (lo 1 2 (lo 3 3 (lo 1 6 f.fn)))) else none
  | _ => none

/-- The A-word major map of R36. -/
def decAMap (g : Guard) (f : AFmt) : Option Instr :=
  match f.major.toNat with
  | 0x00 => if f.d = 0 ∧ f.a = 0 ∧ f.b = 0 ∧ f.fn = 0 then some (.anop g) else none
  | 0x01 => decA01 g f
  | 0x02 => some (.addi g f.d f.a f.bf)
  | 0x03 => some (.andi g f.d f.a f.bf)
  | 0x04 => some (.ori g f.d f.a f.bf)
  | 0x05 => some (.xori g f.d f.a f.bf)
  | 0x06 => decA06 g f
  | 0x07 => some (.ext g f.d f.a (hi 6 6 f.bf) (lo 6 6 f.bf))
  | 0x08 => some (.li g f.d f.abf)
  | 0x09 => if (hi 1 16 f.abf) = 0 then some (.lui1 g f.d (lo 1 16 f.abf)) else none
  | 0x0a => if (hi 1 16 f.abf) = 0 then some (.lui2 g f.d (lo 1 16 f.abf)) else none
  | 0x0b => if (hi 1 16 f.abf) = 0 then some (.lui3 g f.d (lo 1 16 f.abf)) else none
  | 0x0c => if (hi 2 3 f.d) = 0 ∧ (hi 4 3 f.fn) = 0 then (CmpCond.ofBits (lo 4 3 f.fn)).map fun c => .cmp g (lo 2 3 f.d) f.a f.b c else none
  | 0x0d => decA0D g f
  | 0x0e => if (hi 4 3 f.fn) = 0 then some (.sel g f.d f.a f.b (lo 4 3 f.fn)) else none
  | 0x10 => decA10 g f
  | 0x11 => decA11 g f
  | 0x12 => if (hi 2 3 f.d) = 0 ∧ (hi 4 2 (lo 1 6 f.fn)) = 0 then some (.fcmp g (lo 2 3 f.d) f.a f.b (FTy.ofBits (hi 1 6 f.fn)) (FCond.ofBits (lo 4 2 (lo 1 6 f.fn)))) else none
  | 0x20 => decA20 g f
  | 0x21 => if (hi 3 2 f.d) = 0 ∧ (hi 1 4 f.a) = 0 ∧ (hi 1 4 f.b) = 0 then (VCond.ofBits (lo 3 4 f.fn)).map fun c => .vcmp g (lo 3 2 f.d) (lo 1 4 f.a) (lo 1 4 f.b) (ETy.ofBits (hi 3 4 f.fn)) c else none
  | 0x22 => if (hi 1 4 f.d) = 0 ∧ (hi 1 4 f.a) = 0 ∧ (hi 1 4 f.b) = 0 ∧ (hi 5 2 f.fn) = 0 then some (.vsel g (lo 1 4 f.d) (lo 1 4 f.a) (lo 1 4 f.b) (lo 5 2 f.fn)) else none
  | 0x23 => decA23 g f
  | 0x24 => decA24 g f
  | 0x25 => decA25 g f
  | 0x26 => some (.rep g (hi 4 18 f.dabf) (hi 12 6 (lo 4 18 f.dabf)) (hi 3 3 (lo 12 6 (lo 4 18 f.dabf))) (lo 3 3 (lo 12 6 (lo 4 18 f.dabf))))
  | 0x28 => decA28 g f
  | 0x29 => if (hi 1 4 f.d) = 0 ∧ (hi 1 4 f.a) = 0 then some (.vcvt g (lo 1 4 f.d) (lo 1 4 f.a) f.b (ETy.ofBits (hi 3 4 f.fn)) (ETy.ofBits (hi 3 1 (lo 3 4 f.fn))) (bit (lo 3 1 (lo 3 4 f.fn)))) else none
  | _ => none

/-- Keep an instruction only if it is within the limits of its entry (R41). -/
def keepWf : Option Instr → Option Instr
  | some i => if i.wf then some i else none
  | none => none

/-- Decode a C-word f with the word x above it. A word guarded "never" is a no-operation (R27). -/
def decodeC (f : CFmt) (x : BitVec 32) : Option Instr :=
  if f.gd.runs then keepWf (if f.long then decCLong f.gd f x else decCShort f.gd f)
  else some (.cnop f.gd)

/-- Decode an A-word. A word guarded "never" is a no-operation (R27). -/
def decodeA (f : AFmt) : Option Instr :=
  if f.gd.runs then keepWf (decAMap f.gd f) else some (.anop f.gd)

/-! ## The encoder -/

/-- What an instruction encodes to: nothing (a step of the device), a C-word, a long bundle, or an A-word. -/
inductive Enc where
  | none
  | c (f : CFmt)
  | long (f : CFmt) (x : BitVec 32)
  | a (f : AFmt)
  deriving DecidableEq, Repr

/-- Format CR. The bit L is set where the instruction is long. -/
def mkCR (major : BitVec 6) (g : Guard) (d a b : BitVec 5) (fn : BitVec 6) : CFmt :=
  ⟨false, major, g, d, a, b, fn⟩
/-- Formats CI and CM. -/
def mkCI (major : BitVec 6) (g : Guard) (d a : BitVec 5) (i : BitVec 11) : CFmt :=
  mkCR major g d a (hi 5 6 i) (lo 5 6 i)
/-- Format CC. -/
def mkCW (major : BitVec 6) (g : Guard) (d : BitVec 5) (i : BitVec 16) : CFmt :=
  mkCI major g d (hi 5 11 i) (lo 5 11 i)
/-- Format CJ. -/
def mkCJ (major : BitVec 6) (g : Guard) (i : BitVec 21) : CFmt :=
  mkCW major g (hi 5 16 i) (lo 5 16 i)
/-- Format AR. -/
def mkAR (major : BitVec 6) (g : Guard) (d a b : BitVec 5) (fn : BitVec 7) : AFmt :=
  ⟨major, g, d, a, b, fn⟩
/-- Format AI. -/
def mkAI (major : BitVec 6) (g : Guard) (d a : BitVec 5) (i : BitVec 12) : AFmt :=
  mkAR major g d a (hi 5 7 i) (lo 5 7 i)
/-- Format AW. -/
def mkAW (major : BitVec 6) (g : Guard) (d : BitVec 5) (i : BitVec 17) : AFmt :=
  mkAI major g d (hi 5 12 i) (lo 5 12 i)
/-- Format AP. -/
def mkAJ (major : BitVec 6) (g : Guard) (i : BitVec 22) : AFmt :=
  mkAW major g (hi 5 17 i) (lo 5 17 i)

/-- The long form of a C-word: L = 1, with its X-word. -/
def Enc.ofLong (f : CFmt) (x : BitVec 32) : Enc := .long { f with long := true } x

/-- The words of an instruction, from the maps of R34 to R38 and the entries' encoding tables. -/
def Instr.encode : Instr → Enc
  | .cnop gd => .c (mkCR 0x00 gd 0#5 0#5 0#5 0#6)
  | .isync gd => .c (mkCR 0x00 gd 0#5 0#5 0#5 1#6)
  | .eret gd => .c (mkCR 0x00 gd 0#5 0#5 0#5 2#6)
  | .brk gd => .c (mkCR 0x00 gd 0#5 0#5 0#5 3#6)
  | .ret gd => .c (mkCR 0x00 gd 0#5 0#5 0#5 4#6)
  | .jr gd a => .c (mkCR 0x00 gd 0#5 a 0#5 5#6)
  | .jlr gd a => .c (mkCR 0x00 gd 0#5 a 0#5 6#6)
  | .leave gd => .c (mkCR 0x00 gd 0#5 0#5 0#5 7#6)
  | .quit gd => .c (mkCR 0x00 gd 0#5 0#5 0#5 8#6)
  | .split gd => .c (mkCR 0x00 gd 0#5 0#5 0#5 9#6)
  | .uiret gd => .c (mkCR 0x00 gd 0#5 0#5 0#5 10#6)
  | .trap gd i => .c (mkCI 0x01 gd 0#5 0#5 i)
  | .br gd off => .c (mkCJ 0x02 gd off)
  | .jl gd off => .c (mkCJ 0x03 gd off)
  | .j gd off imm => Enc.ofLong (mkCJ 0x04 gd off) imm
  | .lpd gd d off => .c (mkCW 0x05 gd d off)
  | .enter gd i => .c (mkCI 0x06 gd 0#5 0#5 i)
  | .crd gd d i => .c (mkCI 0x07 gd d 0#5 i)
  | .cwr gd a i => .c (mkCI 0x08 gd 0#5 a i)
  | .crset gd d a i => .c (mkCI 0x09 gd d a i)
  | .crclr gd d a i => .c (mkCI 0x0a gd d a i)
  | .spawn gd d a b opts => Enc.ofLong (mkCR 0x0b gd d a b 0#6) (app 29 3 0#29 opts)
  | .wait gd a => .c (mkCR 0x0c gd 0#5 a 0#5 0#6)
  | .gang gd d => .c (mkCR 0x0c gd d 0#5 0#5 1#6)
  | .wfld gd d k => .c (mkCR 0x0c gd d k 0#5 2#6)
  | .kill gd d a k => .c (mkCR 0x0c gd d a k 3#6)
  | .cmap gd d a => .c (mkCR 0x0c gd d a 0#5 4#6)
  | .ldb gd d a o i => .c (mkCI 0x10 gd d a (app 2 9 o.bits i))
  | .ldh gd d a o i => .c (mkCI 0x11 gd d a (app 2 9 o.bits i))
  | .ldw gd d a o i => .c (mkCI 0x12 gd d a (app 2 9 o.bits i))
  | .ldd gd d a o i => .c (mkCI 0x13 gd d a (app 2 9 o.bits i))
  | .ldbz gd d a o i => .c (mkCI 0x14 gd d a (app 2 9 o.bits i))
  | .ldhz gd d a o i => .c (mkCI 0x15 gd d a (app 2 9 o.bits i))
  | .ldwz gd d a o i => .c (mkCI 0x16 gd d a (app 2 9 o.bits i))
  | .ldv gd d a o i => .c (mkCI 0x17 gd (app 1 4 0#1 d) a (app 2 9 o.bits i))
  | .stb gd d a o i => .c (mkCI 0x18 gd d a (app 2 9 o.bits i))
  | .sth gd d a o i => .c (mkCI 0x19 gd d a (app 2 9 o.bits i))
  | .stw gd d a o i => .c (mkCI 0x1a gd d a (app 2 9 o.bits i))
  | .std gd d a o i => .c (mkCI 0x1b gd d a (app 2 9 o.bits i))
  | .stv gd d a o i => .c (mkCI 0x1c gd (app 1 4 0#1 d) a (app 2 9 o.bits i))
  | .lds gd d a => .c (mkCR 0x1d gd d a 0#5 0#6)
  | .sts gd d a => .c (mkCR 0x1d gd d a 0#5 1#6)
  | .shp gd d a b => .c (mkCR 0x1d gd d a b 2#6)
  | .tfadd gd d a b => .c (mkCR 0x1d gd d a b 3#6)
  | .rdr gd d a n => .c (mkCR 0x1d gd (app 1 4 0#1 d) a (app 1 4 0#1 n) 4#6)
  | .migr gd a => .c (mkCR 0x1d gd 0#5 a 0#5 5#6)
  | .tam gd d a b op => .c (mkCR 0x1e gd d a b (app 2 4 0#2 op.bits))
  | .lea gd d a i => .c (mkCI 0x1f gd d a i)
  | .dtld gd t a => .c (mkCR 0x20 gd (app 3 2 0#3 t) a 0#5 0#6)
  | .dtst gd t a => .c (mkCR 0x20 gd (app 3 2 0#3 t) a 0#5 1#6)
  | .send gd d a v mb => .c (mkCR 0x21 gd d a (app 1 4 0#1 v) (app 2 4 0#2 mb))
  | .sendL gd a b tag len => Enc.ofLong (mkCR 0x22 gd 0#5 a b (app 2 4 0#2 tag)) (app 12 20 len 0#20)
  | .recv gd d a v => .c (mkCR 0x23 gd d a (app 1 4 0#1 v) 0#6)
  | .mbc gd d k => .c (mkCR 0x23 gd d 0#5 (app 1 4 0#1 k) 1#6)
  | .waitc gd d a k => .c (mkCR 0x23 gd d a (app 1 4 0#1 k) 2#6)
  | .mbclr gd d a => .c (mkCR 0x23 gd d a 0#5 3#6)
  | .mcast gd d a => .c (mkCR 0x23 gd d a 0#5 4#6)
  | .mclaim gd d soft => .c (mkCR 0x24 gd d 0#5 (app 4 1 0#4 (ofBit soft)) 0#6)
  | .mrel gd => .c (mkCR 0x24 gd 0#5 0#5 0#5 1#6)
  | .mzero gd t => .c (mkCR 0x24 gd (app 3 2 0#3 t) 0#5 0#5 2#6)
  | .mload gd t a b => .c (mkCR 0x24 gd (app 3 2 0#3 t) a b 3#6)
  | .mdrain gd t a b => .c (mkCR 0x24 gd (app 3 2 0#3 t) a b 4#6)
  | .mdrainr gd d a b => .c (mkCR 0x24 gd d a b 5#6)
  | .mcmd gd d a b => .c (mkCR 0x24 gd d a b 6#6)
  | .mstat gd d clr => .c (mkCR 0x24 gd d 0#5 (app 4 1 0#4 (ofBit clr)) 7#6)
  | .mmac gd t a b z bv av sr steps => Enc.ofLong (mkCR 0x25 gd (app 3 2 0#3 t) a b (app 1 5 (ofBit z) (app 1 4 (ofBit bv) (app 1 3 (ofBit av) sr)))) (app 12 20 steps 0#20)
  | .ldfe gd d a o => .c (mkCR 0x26 gd d a 0#5 (app 2 4 o.bits 0#4))
  | .ldff gd d a o => .c (mkCR 0x26 gd d a 0#5 (app 2 4 o.bits 1#4))
  | .stef gd a b o => .c (mkCR 0x26 gd 0#5 a b (app 2 4 o.bits 2#4))
  | .stff gd a b o => .c (mkCR 0x26 gd 0#5 a b (app 2 4 o.bits 3#4))
  | .lrw gd d a o => .c (mkCR 0x26 gd d a 0#5 (app 2 4 o.bits 4#4))
  | .sch gd a b o => .c (mkCR 0x26 gd 0#5 a b (app 2 4 o.bits 5#4))
  | .sdrop gd a o => .c (mkCR 0x26 gd 0#5 a 0#5 (app 2 4 o.bits 6#4))
  | .amo gd d a b o op => .c (mkCR 0x27 gd d a b (app 2 4 o.bits op.bits))
  | .afadd gd d a b o => .c (mkCR 0x27 gd d a b (app 2 4 o.bits 9#4))
  | .acas gd d a b o => .c (mkCR 0x27 gd d a b (app 2 4 o.bits 10#4))
  | .rupd gd a b imm => Enc.ofLong (mkCR 0x28 gd 0#5 a b 0#6) imm
  | .halloc gd d a b => .c (mkCR 0x29 gd d a b 0#6)
  | .hfree gd d a => .c (mkCR 0x29 gd d a 0#5 1#6)
  | .hq gd d a item => .c (mkCR 0x29 gd d a item 2#6)
  | .qpush gd d a v w blk => .c (mkCR 0x2a gd d a (app 1 4 0#1 v) (app 4 2 w.bits (app 1 1 0#1 (ofBit blk))))
  | .qpop gd d a v w blk => .c (mkCR 0x2b gd d a (app 1 4 0#1 v) (app 4 2 w.bits (app 1 1 0#1 (ofBit blk))))
  | .qcnt gd d a => .c (mkCR 0x2c gd d a 0#5 0#6)
  | .qmake gd d a b => .c (mkCR 0x2c gd d a b 1#6)
  | .qfree gd d a => .c (mkCR 0x2c gd d a 0#5 2#6)
  | .tenq gd d v => .c (mkCR 0x2d gd d 0#5 (app 1 4 0#1 v) 0#6)
  | .tdep gd d a => .c (mkCR 0x2d gd d a 0#5 1#6)
  | .tcan gd d a => .c (mkCR 0x2d gd d a 0#5 2#6)
  | .svsl gd d a b => .c (mkCR 0x2d gd d a b 3#6)
  | .ldsl gd d a b => .c (mkCR 0x2d gd d a b 4#6)
  | .tinvl gd a b => .c (mkCR 0x2d gd 0#5 a b 5#6)
  | .hinv gd => .c (mkCR 0x2d gd 0#5 0#5 0#5 6#6)
  | .tcall gd d a n => .c (mkCR 0x2e gd d a 0#5 (app 3 3 0#3 n))
  | .tnext gd d a c => .c (mkCR 0x2f gd d a (app 4 1 0#4 (ofBit c)) 0#6)
  | .tans gd a b => .c (mkCR 0x2f gd 0#5 a b 1#6)
  | .tend gd a => .c (mkCR 0x2f gd 0#5 a 0#5 2#6)
  | .tfail gd a => .c (mkCR 0x2f gd 0#5 a 0#5 3#6)
  | .tinv gd d a => .c (mkCR 0x2f gd d a 0#5 4#6)
  | .tstat gd d a item => .c (mkCR 0x2f gd d a (app 3 2 0#3 item) 5#6)
  | .ptask gd d a b k e => Enc.ofLong (mkCR 0x30 gd d a b (app 2 4 0#2 k)) (app 27 5 0#27 e)
  | .cpyq gd d a blk => .c (mkCR 0x31 gd d a (app 4 1 0#4 (ofBit blk)) 0#6)
  | .permit gd d a n => .c (mkCR 0x31 gd d a (app 1 4 0#1 n) 1#6)
  | .cpst gd d a item => .c (mkCR 0x31 gd d a (app 3 2 0#3 item) 2#6)
  | .fence gd => .c (mkCR 0x32 gd 0#5 0#5 0#5 0#6)
  | .fenceAcq gd => .c (mkCR 0x32 gd 0#5 0#5 0#5 1#6)
  | .fenceRel gd => .c (mkCR 0x32 gd 0#5 0#5 0#5 2#6)
  | .parr gd d a b => .c (mkCR 0x32 gd d a b 3#6)
  | .pwait gd d a b => .c (mkCR 0x32 gd d a b 4#6)
  | .pinit gd d a b => .c (mkCR 0x32 gd d a b 5#6)
  | .anop gd => .a (mkAR 0x00 gd 0#5 0#5 0#5 0#7)
  | .add gd d a b => .a (mkAR 0x01 gd d a b 0#7)
  | .sub gd d a b => .a (mkAR 0x01 gd d a b 1#7)
  | .and gd d a b => .a (mkAR 0x01 gd d a b 2#7)
  | .or gd d a b => .a (mkAR 0x01 gd d a b 3#7)
  | .xor gd d a b => .a (mkAR 0x01 gd d a b 4#7)
  | .sll gd d a b => .a (mkAR 0x01 gd d a b 5#7)
  | .srl gd d a b => .a (mkAR 0x01 gd d a b 6#7)
  | .sra gd d a b => .a (mkAR 0x01 gd d a b 7#7)
  | .mul gd d a b => .a (mkAR 0x01 gd d a b 8#7)
  | .mulh gd d a b => .a (mkAR 0x01 gd d a b 9#7)
  | .mulhu gd d a b => .a (mkAR 0x01 gd d a b 10#7)
  | .div gd d a b => .a (mkAR 0x01 gd d a b 11#7)
  | .divu gd d a b => .a (mkAR 0x01 gd d a b 12#7)
  | .rem gd d a b => .a (mkAR 0x01 gd d a b 13#7)
  | .remu gd d a b => .a (mkAR 0x01 gd d a b 14#7)
  | .min gd d a b => .a (mkAR 0x01 gd d a b 15#7)
  | .minu gd d a b => .a (mkAR 0x01 gd d a b 16#7)
  | .max gd d a b => .a (mkAR 0x01 gd d a b 17#7)
  | .maxu gd d a b => .a (mkAR 0x01 gd d a b 18#7)
  | .clz gd d a => .a (mkAR 0x01 gd d a 0#5 19#7)
  | .ctz gd d a => .a (mkAR 0x01 gd d a 0#5 20#7)
  | .popc gd d a => .a (mkAR 0x01 gd d a 0#5 21#7)
  | .brev gd d a => .a (mkAR 0x01 gd d a 0#5 22#7)
  | .addi gd d a i => .a (mkAI 0x02 gd d a i)
  | .andi gd d a i => .a (mkAI 0x03 gd d a i)
  | .ori gd d a i => .a (mkAI 0x04 gd d a i)
  | .xori gd d a i => .a (mkAI 0x05 gd d a i)
  | .slli gd d a sh => .a (mkAI 0x06 gd d a (app 6 6 0#6 sh))
  | .srli gd d a sh => .a (mkAI 0x06 gd d a (app 6 6 1#6 sh))
  | .srai gd d a sh => .a (mkAI 0x06 gd d a (app 6 6 2#6 sh))
  | .ext gd d a pos wm1 => .a (mkAI 0x07 gd d a (app 6 6 pos wm1))
  | .li gd d i => .a (mkAW 0x08 gd d i)
  | .lui1 gd d c => .a (mkAW 0x09 gd d (app 1 16 0#1 c))
  | .lui2 gd d c => .a (mkAW 0x0a gd d (app 1 16 0#1 c))
  | .lui3 gd d c => .a (mkAW 0x0b gd d (app 1 16 0#1 c))
  | .cmp gd d a b c => .a (mkAR 0x0c gd (app 2 3 0#2 d) a b (app 4 3 0#4 c.bits))
  | .band gd d a b => .a (mkAR 0x0d gd (app 2 3 0#2 d) (app 2 3 0#2 a) (app 2 3 0#2 b) 0#7)
  | .bor gd d a b => .a (mkAR 0x0d gd (app 2 3 0#2 d) (app 2 3 0#2 a) (app 2 3 0#2 b) 1#7)
  | .bxor gd d a b => .a (mkAR 0x0d gd (app 2 3 0#2 d) (app 2 3 0#2 a) (app 2 3 0#2 b) 2#7)
  | .bnot gd d a => .a (mkAR 0x0d gd (app 2 3 0#2 d) (app 2 3 0#2 a) 0#5 3#7)
  | .bmov gd d a => .a (mkAR 0x0d gd (app 2 3 0#2 d) (app 2 3 0#2 a) 0#5 4#7)
  | .bpack gd d => .a (mkAR 0x0d gd d 0#5 0#5 5#7)
  | .bunpk gd a => .a (mkAR 0x0d gd 0#5 a 0#5 6#7)
  | .sel gd d a b p => .a (mkAR 0x0e gd d a b (app 4 3 0#4 p))
  | .fadd gd d a b f => .a (mkAR 0x10 gd d a b (app 1 6 f.bits 0#6))
  | .fsub gd d a b f => .a (mkAR 0x10 gd d a b (app 1 6 f.bits 1#6))
  | .fmul gd d a b f => .a (mkAR 0x10 gd d a b (app 1 6 f.bits 2#6))
  | .fdiv gd d a b f => .a (mkAR 0x10 gd d a b (app 1 6 f.bits 3#6))
  | .fsqrt gd d a f => .a (mkAR 0x10 gd d a 0#5 (app 1 6 f.bits 4#6))
  | .fmin gd d a b f => .a (mkAR 0x10 gd d a b (app 1 6 f.bits 5#6))
  | .fmax gd d a b f => .a (mkAR 0x10 gd d a b (app 1 6 f.bits 6#6))
  | .fabs gd d a f => .a (mkAR 0x10 gd d a 0#5 (app 1 6 f.bits 7#6))
  | .fneg gd d a f => .a (mkAR 0x10 gd d a 0#5 (app 1 6 f.bits 8#6))
  | .fsgnj gd d a b f => .a (mkAR 0x10 gd d a b (app 1 6 f.bits 9#6))
  | .fclass gd d a f => .a (mkAR 0x10 gd d a 0#5 (app 1 6 f.bits 10#6))
  | .fcvt gd d a f => .a (mkAR 0x10 gd d a 0#5 (app 1 6 f.bits 11#6))
  | .fcvti gd d a tr u f => .a (mkAR 0x10 gd d a (app 3 2 0#3 (app 1 1 (ofBit tr) (ofBit u))) (app 1 6 f.bits 12#6))
  | .icvtf gd d a u f => .a (mkAR 0x10 gd d a (app 4 1 0#4 (ofBit u)) (app 1 6 f.bits 13#6))
  | .fma gd d a b f => .a (mkAR 0x11 gd d a b (app 1 6 f.bits 0#6))
  | .fms gd d a b f => .a (mkAR 0x11 gd d a b (app 1 6 f.bits 1#6))
  | .fnma gd d a b f => .a (mkAR 0x11 gd d a b (app 1 6 f.bits 2#6))
  | .fcmp gd d a b f c => .a (mkAR 0x12 gd (app 2 3 0#2 d) a b (app 1 6 f.bits (app 4 2 0#4 c.bits)))
  | .vadd gd d a b t => .a (mkAR 0x20 gd (app 1 4 0#1 d) (app 1 4 0#1 a) (app 1 4 0#1 b) (app 3 4 t.bits 0#4))
  | .vsub gd d a b t => .a (mkAR 0x20 gd (app 1 4 0#1 d) (app 1 4 0#1 a) (app 1 4 0#1 b) (app 3 4 t.bits 1#4))
  | .vmul gd d a b t => .a (mkAR 0x20 gd (app 1 4 0#1 d) (app 1 4 0#1 a) (app 1 4 0#1 b) (app 3 4 t.bits 2#4))
  | .vmin gd d a b t => .a (mkAR 0x20 gd (app 1 4 0#1 d) (app 1 4 0#1 a) (app 1 4 0#1 b) (app 3 4 t.bits 3#4))
  | .vmax gd d a b t => .a (mkAR 0x20 gd (app 1 4 0#1 d) (app 1 4 0#1 a) (app 1 4 0#1 b) (app 3 4 t.bits 4#4))
  | .vabs gd d a t => .a (mkAR 0x20 gd (app 1 4 0#1 d) (app 1 4 0#1 a) 0#5 (app 3 4 t.bits 5#4))
  | .vneg gd d a t => .a (mkAR 0x20 gd (app 1 4 0#1 d) (app 1 4 0#1 a) 0#5 (app 3 4 t.bits 6#4))
  | .vand gd d a b t => .a (mkAR 0x20 gd (app 1 4 0#1 d) (app 1 4 0#1 a) (app 1 4 0#1 b) (app 3 4 t.bits 7#4))
  | .vor gd d a b t => .a (mkAR 0x20 gd (app 1 4 0#1 d) (app 1 4 0#1 a) (app 1 4 0#1 b) (app 3 4 t.bits 8#4))
  | .vxor gd d a b t => .a (mkAR 0x20 gd (app 1 4 0#1 d) (app 1 4 0#1 a) (app 1 4 0#1 b) (app 3 4 t.bits 9#4))
  | .vsll gd d a b t => .a (mkAR 0x20 gd (app 1 4 0#1 d) (app 1 4 0#1 a) (app 1 4 0#1 b) (app 3 4 t.bits 10#4))
  | .vsrl gd d a b t => .a (mkAR 0x20 gd (app 1 4 0#1 d) (app 1 4 0#1 a) (app 1 4 0#1 b) (app 3 4 t.bits 11#4))
  | .vsra gd d a b t => .a (mkAR 0x20 gd (app 1 4 0#1 d) (app 1 4 0#1 a) (app 1 4 0#1 b) (app 3 4 t.bits 12#4))
  | .vmov gd d a t => .a (mkAR 0x20 gd (app 1 4 0#1 d) (app 1 4 0#1 a) 0#5 (app 3 4 t.bits 13#4))
  | .vfma gd d a b t => .a (mkAR 0x20 gd (app 1 4 0#1 d) (app 1 4 0#1 a) (app 1 4 0#1 b) (app 3 4 t.bits 14#4))
  | .vfms gd d a b t => .a (mkAR 0x20 gd (app 1 4 0#1 d) (app 1 4 0#1 a) (app 1 4 0#1 b) (app 3 4 t.bits 15#4))
  | .vcmp gd d a b t c => .a (mkAR 0x21 gd (app 3 2 0#3 d) (app 1 4 0#1 a) (app 1 4 0#1 b) (app 3 4 t.bits c.bits))
  | .vsel gd d a b m => .a (mkAR 0x22 gd (app 1 4 0#1 d) (app 1 4 0#1 a) (app 1 4 0#1 b) (app 5 2 0#5 m))
  | .vbc gd d a t => .a (mkAR 0x23 gd (app 1 4 0#1 d) a 0#5 (app 3 4 t.bits 0#4))
  | .vext gd d a i t => .a (mkAR 0x23 gd d (app 1 4 0#1 a) i (app 3 4 t.bits 1#4))
  | .vins gd d a i t => .a (mkAR 0x23 gd (app 1 4 0#1 d) a i (app 3 4 t.bits 2#4))
  | .vperm gd d a b t => .a (mkAR 0x23 gd (app 1 4 0#1 d) (app 1 4 0#1 a) (app 1 4 0#1 b) (app 3 4 t.bits 3#4))
  | .vslide gd d a sh t => .a (mkAR 0x23 gd (app 1 4 0#1 d) (app 1 4 0#1 a) sh (app 3 4 t.bits 4#4))
  | .vredAdd gd d a t => .a (mkAR 0x23 gd (app 1 4 0#1 d) (app 1 4 0#1 a) 0#5 (app 3 4 t.bits 5#4))
  | .vredMin gd d a t => .a (mkAR 0x23 gd (app 1 4 0#1 d) (app 1 4 0#1 a) 0#5 (app 3 4 t.bits 6#4))
  | .vredMax gd d a t => .a (mkAR 0x23 gd (app 1 4 0#1 d) (app 1 4 0#1 a) 0#5 (app 3 4 t.bits 7#4))
  | .vscanAdd gd d a t => .a (mkAR 0x23 gd (app 1 4 0#1 d) (app 1 4 0#1 a) 0#5 (app 3 4 t.bits 8#4))
  | .vwid gd d a k t => .a (mkAR 0x23 gd (app 1 4 0#1 d) (app 1 4 0#1 a) k (app 3 4 t.bits 9#4))
  | .vnar gd d a k t => .a (mkAR 0x23 gd (app 1 4 0#1 d) (app 1 4 0#1 a) k (app 3 4 t.bits 10#4))
  | .vexp2 gd d a t => .a (mkAR 0x24 gd (app 1 4 0#1 d) (app 1 4 0#1 a) 0#5 (app 3 4 t.bits 0#4))
  | .vlog2 gd d a t => .a (mkAR 0x24 gd (app 1 4 0#1 d) (app 1 4 0#1 a) 0#5 (app 3 4 t.bits 1#4))
  | .vrcp gd d a t => .a (mkAR 0x24 gd (app 1 4 0#1 d) (app 1 4 0#1 a) 0#5 (app 3 4 t.bits 2#4))
  | .vrsq gd d a t => .a (mkAR 0x24 gd (app 1 4 0#1 d) (app 1 4 0#1 a) 0#5 (app 3 4 t.bits 3#4))
  | .vsqrt gd d a t => .a (mkAR 0x24 gd (app 1 4 0#1 d) (app 1 4 0#1 a) 0#5 (app 3 4 t.bits 4#4))
  | .vsin gd d a t => .a (mkAR 0x24 gd (app 1 4 0#1 d) (app 1 4 0#1 a) 0#5 (app 3 4 t.bits 5#4))
  | .vcos gd d a t => .a (mkAR 0x24 gd (app 1 4 0#1 d) (app 1 4 0#1 a) 0#5 (app 3 4 t.bits 6#4))
  | .vtanh gd d a t => .a (mkAR 0x24 gd (app 1 4 0#1 d) (app 1 4 0#1 a) 0#5 (app 3 4 t.bits 7#4))
  | .mand gd d a b => .a (mkAR 0x25 gd (app 3 2 0#3 d) (app 3 2 0#3 a) (app 3 2 0#3 b) 0#7)
  | .mor gd d a b => .a (mkAR 0x25 gd (app 3 2 0#3 d) (app 3 2 0#3 a) (app 3 2 0#3 b) 1#7)
  | .mnot gd d a => .a (mkAR 0x25 gd (app 3 2 0#3 d) (app 3 2 0#3 a) 0#5 2#7)
  | .mpop gd d a => .a (mkAR 0x25 gd d (app 3 2 0#3 a) 0#5 3#7)
  | .rep gd len cnt str st => .a (mkAJ 0x26 gd (app 4 18 len (app 12 6 cnt (app 3 3 str st))))
  | .t8enc gd d a k sr t dt => .a (mkAR 0x28 gd (app 1 4 0#1 d) (app 1 4 0#1 a) k (app 1 6 (ofBit sr) (app 3 3 t.bits (app 1 2 0#1 dt))))
  | .t8dec gd d a k t dt => .a (mkAR 0x28 gd (app 1 4 0#1 d) (app 1 4 0#1 a) k (app 1 6 0#1 (app 3 3 t.bits (app 1 2 1#1 dt))))
  | .vcvt gd d a k ts td sr => .a (mkAR 0x29 gd (app 1 4 0#1 d) (app 1 4 0#1 a) k (app 3 4 ts.bits (app 3 1 td.bits (ofBit sr))))
  | .fetchMissFill _ => .none
  | .operationComplete _ => .none
  | .contextLoaded _ => .none
  | .drainComplete _ => .none
  | .quitComplete _ => .none
  | .waitDeadline _ => .none
  | .migrationPacketSend _ => .none
  | .migrantLanding _ => .none
  | .landingAdmit _ => .none
  | .spawnPacketArrival _ => .none
  | .spillToAdmit _ => .none
  | .spillForClass _ => .none
  | .spillRecordWritten _ _ => .none
  | .resume _ _ => .none
  | .messageLanding _ => .none
  | .wakeUpLanding _ => .none
  | .dataLanding _ => .none
  | .remoteRead _ => .none
  | .accessAccepted _ _ => .none
  | .fullEmptyRequest _ => .none
  | .reservationRequest _ => .none
  | .phaseRequest _ => .none
  | .weltSwitchArrival _ => .none
  | .pairingWindowExpiry _ => .none
  | .combinedReplySplit _ => .none
  | .queueHomeOperation _ => .none
  | .blockRelocation _ _ _ _ => .none
  | .relocationCutover _ _ _ => .none
  | .layerFault _ _ => .none
  | .layerWake _ _ => .none
  | .layerReturnActive _ _ => .none
  | .tapRetirement _ _ => .none
  | .busFailure _ => .none
  | .tcmBankRetirement _ _ => .none
  | .launchWindowWrite _ _ _ _ _ => .none
  | .launchPushStored _ => .none
  | .launchPop _ _ => .none
  | .launchHeaderArrival _ _ => .none
  | .taskDispatch _ _ _ => .none
  | .containmentRetry _ => .none
  | .dispatchCountReport _ _ => .none
  | .throttleRequest _ _ => .none
  | .orreryTick _ _ _ _ _ _ => .none
  | .matrixRemoteCommand _ => .none
  | .matrixOpStart _ => .none
  | .matrixKstepComplete _ => .none
  | .copyTransferStart _ => .none
  | .copyChunk _ _ _ => .none
  | .permitRequest _ _ => .none
  | .permitRetryTimeout _ _ => .none
  | .copyCompletion _ _ => .none
  | .completionDelivery _ => .none
  | .translationWalkComplete _ _ _ => .none
  | .cobblerAtomic _ => .none
  | .spdmGetMeasurements _ _ => .none
  | .ideKm _ _ => .none
  | .seal _ _ => .none
  | .unseal _ _ => .none
  | .flashUpdate _ _ => .none
  | .hostRegisterWrite _ _ _ _ _ => .none
  | .packageReset _ _ _ _ => .none
  | .plannedPowerDown _ _ => .none
  | .scratchpadBankRetirement _ => .none
  | .managementRingStall _ => .none
  | .tenantTableWrite _ _ _ => .none
  | .memoryOwnerAssignment _ _ _ => .none
  | .tenantDestruction _ => .none
  | .peerUnreachable _ _ => .none

/-! ## Bundles -/

/-- A decoded bundle (R21): its C-half and its A-half. A long bundle has no arithmetic half (R29), which the
model writes as `anop`. -/
structure Bundle where
  c    : Instr
  a    : Instr
  long : Bool
  deriving DecidableEq, Repr

/-- A destination of R23. -/
inductive Dest where
  | g (n : GReg) | b (n : PReg) | v (n : VReg) | m (n : MReg)
  deriving DecidableEq, Repr

/-- R23 and the entries: the registers that a half names as destinations, explicitly or implicitly. -/
def Instr.fields : Instr → List Dest
  | .cnop _ => []
  | .isync _ => []
  | .eret _ => []
  | .brk _ => []
  | .ret _ => []
  | .jr _ _ => []
  | .jlr _ _ => [.g 30]
  | .leave _ => [.g 28, .g 29, .g 30]
  | .quit _ => []
  | .split _ => []
  | .uiret _ => []
  | .trap _ _ => []
  | .br _ _ => []
  | .jl _ _ => [.g 30]
  | .j _ _ _ => []
  | .lpd _ d _ => [.g d]
  | .enter _ _ => [.g 28, .g 29]
  | .crd _ d _ => [.g d]
  | .cwr _ _ _ => []
  | .crset _ d _ _ => [.g d]
  | .crclr _ d _ _ => [.g d]
  | .spawn _ d _ _ _ => [.g d]
  | .wait _ _ => []
  | .gang _ d => [.g d]
  | .wfld _ d _ => [.g d]
  | .kill _ d _ _ => [.g d]
  | .cmap _ d _ => [.g d]
  | .ldb _ d _ _ _ => [.g d]
  | .ldh _ d _ _ _ => [.g d]
  | .ldw _ d _ _ _ => [.g d]
  | .ldd _ d _ _ _ => [.g d]
  | .ldbz _ d _ _ _ => [.g d]
  | .ldhz _ d _ _ _ => [.g d]
  | .ldwz _ d _ _ _ => [.g d]
  | .ldv _ d _ _ _ => [.v d]
  | .stb _ _ _ _ _ => []
  | .sth _ _ _ _ _ => []
  | .stw _ _ _ _ _ => []
  | .std _ _ _ _ _ => []
  | .stv _ _ _ _ _ => []
  | .lds _ d a => [.g d, .g a, .g (a + 1)]
  | .sts _ _ a => [.g a, .g (a + 1)]
  | .shp _ d _ _ => [.g d, .g (d + 1), .g (d + 2), .g (d + 3)]
  | .tfadd _ d _ _ => [.g d]
  | .rdr _ d _ _ => [.v d]
  | .migr _ _ => []
  | .tam _ d _ _ _ => [.g d]
  | .lea _ d _ _ => [.g d]
  | .dtld _ _ _ => []
  | .dtst _ _ _ => []
  | .send _ d _ _ _ => [.g d]
  | .sendL _ _ _ _ _ => []
  | .recv _ d _ v => [.g d, .v v]
  | .mbc _ d _ => [.g d]
  | .waitc _ d _ _ => [.g d]
  | .mbclr _ d _ => [.g d]
  | .mcast _ d _ => [.g d]
  | .mclaim _ d _ => [.g d]
  | .mrel _ => []
  | .mzero _ _ => []
  | .mload _ _ _ _ => []
  | .mdrain _ _ _ _ => []
  | .mdrainr _ d _ _ => [.g d]
  | .mcmd _ d _ _ => [.g d]
  | .mstat _ d _ => [.g d]
  | .mmac _ _ _ _ _ _ _ _ _ => []
  | .ldfe _ d _ _ => [.g d]
  | .ldff _ d _ _ => [.g d]
  | .stef _ _ _ _ => []
  | .stff _ _ _ _ => []
  | .lrw _ d _ _ => [.g d]
  | .sch _ _ _ _ => []
  | .sdrop _ _ _ => []
  | .amo _ d _ _ _ _ => [.g d]
  | .afadd _ d _ _ _ => [.g d]
  | .acas _ d _ _ _ => [.g d]
  | .rupd _ _ _ _ => []
  | .halloc _ d _ _ => [.g d]
  | .hfree _ d _ => [.g d]
  | .hq _ d _ _ => [.g d]
  | .qpush _ d _ _ _ _ => [.g d]
  | .qpop _ d _ v _ _ => [.g d, .v v]
  | .qcnt _ d _ => [.g d]
  | .qmake _ d _ _ => [.g d]
  | .qfree _ d _ => [.g d]
  | .tenq _ d _ => [.g d]
  | .tdep _ d _ => [.g d]
  | .tcan _ d _ => [.g d]
  | .svsl _ d _ _ => [.g d]
  | .ldsl _ d _ _ => [.g d]
  | .tinvl _ _ _ => []
  | .hinv _ => []
  | .tcall _ d _ _ => [.g d, .g 1, .g 2, .g 30]
  | .tnext _ d a _ => [.g d, .g (d + 1), .g a]
  | .tans _ _ _ => []
  | .tend _ _ => []
  | .tfail _ _ => []
  | .tinv _ d _ => [.g d]
  | .tstat _ d _ _ => [.g d]
  | .ptask _ d _ _ _ _ => [.g d, .g 30]
  | .cpyq _ d _ _ => [.g d]
  | .permit _ d _ _ => [.g d]
  | .cpst _ d _ _ => [.g d]
  | .fence _ => []
  | .fenceAcq _ => []
  | .fenceRel _ => []
  | .parr _ d _ _ => [.g d]
  | .pwait _ d _ _ => [.g d]
  | .pinit _ d _ _ => [.g d]
  | .anop _ => []
  | .add _ d _ _ => [.g d]
  | .sub _ d _ _ => [.g d]
  | .and _ d _ _ => [.g d]
  | .or _ d _ _ => [.g d]
  | .xor _ d _ _ => [.g d]
  | .sll _ d _ _ => [.g d]
  | .srl _ d _ _ => [.g d]
  | .sra _ d _ _ => [.g d]
  | .mul _ d _ _ => [.g d]
  | .mulh _ d _ _ => [.g d]
  | .mulhu _ d _ _ => [.g d]
  | .div _ d _ _ => [.g d]
  | .divu _ d _ _ => [.g d]
  | .rem _ d _ _ => [.g d]
  | .remu _ d _ _ => [.g d]
  | .min _ d _ _ => [.g d]
  | .minu _ d _ _ => [.g d]
  | .max _ d _ _ => [.g d]
  | .maxu _ d _ _ => [.g d]
  | .clz _ d _ => [.g d]
  | .ctz _ d _ => [.g d]
  | .popc _ d _ => [.g d]
  | .brev _ d _ => [.g d]
  | .addi _ d _ _ => [.g d]
  | .andi _ d _ _ => [.g d]
  | .ori _ d _ _ => [.g d]
  | .xori _ d _ _ => [.g d]
  | .slli _ d _ _ => [.g d]
  | .srli _ d _ _ => [.g d]
  | .srai _ d _ _ => [.g d]
  | .ext _ d _ _ _ => [.g d]
  | .li _ d _ => [.g d]
  | .lui1 _ d _ => [.g d]
  | .lui2 _ d _ => [.g d]
  | .lui3 _ d _ => [.g d]
  | .cmp _ d _ _ _ => [.b d]
  | .band _ d _ _ => [.b d]
  | .bor _ d _ _ => [.b d]
  | .bxor _ d _ _ => [.b d]
  | .bnot _ d _ => [.b d]
  | .bmov _ d _ => [.b d]
  | .bpack _ d => [.g d]
  | .bunpk _ _ => [.b 1, .b 2, .b 3, .b 4, .b 5, .b 6, .b 7]
  | .sel _ d _ _ _ => [.g d]
  | .fadd _ d _ _ _ => [.g d]
  | .fsub _ d _ _ _ => [.g d]
  | .fmul _ d _ _ _ => [.g d]
  | .fdiv _ d _ _ _ => [.g d]
  | .fsqrt _ d _ _ => [.g d]
  | .fmin _ d _ _ _ => [.g d]
  | .fmax _ d _ _ _ => [.g d]
  | .fabs _ d _ _ => [.g d]
  | .fneg _ d _ _ => [.g d]
  | .fsgnj _ d _ _ _ => [.g d]
  | .fclass _ d _ _ => [.g d]
  | .fcvt _ d _ _ => [.g d]
  | .fcvti _ d _ _ _ _ => [.g d]
  | .icvtf _ d _ _ _ => [.g d]
  | .fma _ d _ _ _ => [.g d]
  | .fms _ d _ _ _ => [.g d]
  | .fnma _ d _ _ _ => [.g d]
  | .fcmp _ d _ _ _ _ => [.b d]
  | .vadd _ d _ _ _ => [.v d]
  | .vsub _ d _ _ _ => [.v d]
  | .vmul _ d _ _ _ => [.v d]
  | .vmin _ d _ _ _ => [.v d]
  | .vmax _ d _ _ _ => [.v d]
  | .vabs _ d _ _ => [.v d]
  | .vneg _ d _ _ => [.v d]
  | .vand _ d _ _ _ => [.v d]
  | .vor _ d _ _ _ => [.v d]
  | .vxor _ d _ _ _ => [.v d]
  | .vsll _ d _ _ _ => [.v d]
  | .vsrl _ d _ _ _ => [.v d]
  | .vsra _ d _ _ _ => [.v d]
  | .vmov _ d _ _ => [.v d]
  | .vfma _ d _ _ _ => [.v d]
  | .vfms _ d _ _ _ => [.v d]
  | .vcmp _ d _ _ _ _ => [.m d]
  | .vsel _ d _ _ _ => [.v d]
  | .vbc _ d _ _ => [.v d]
  | .vext _ d _ _ _ => [.g d]
  | .vins _ d _ _ _ => [.v d]
  | .vperm _ d _ _ _ => [.v d]
  | .vslide _ d _ _ _ => [.v d]
  | .vredAdd _ d _ _ => [.v d]
  | .vredMin _ d _ _ => [.v d]
  | .vredMax _ d _ _ => [.v d]
  | .vscanAdd _ d _ _ => [.v d]
  | .vwid _ d _ _ _ => [.v d]
  | .vnar _ d _ _ _ => [.v d]
  | .vexp2 _ d _ _ => [.v d]
  | .vlog2 _ d _ _ => [.v d]
  | .vrcp _ d _ _ => [.v d]
  | .vrsq _ d _ _ => [.v d]
  | .vsqrt _ d _ _ => [.v d]
  | .vsin _ d _ _ => [.v d]
  | .vcos _ d _ _ => [.v d]
  | .vtanh _ d _ _ => [.v d]
  | .mand _ d _ _ => [.m d]
  | .mor _ d _ _ => [.m d]
  | .mnot _ d _ => [.m d]
  | .mpop _ d _ => [.g d]
  | .rep _ _ _ _ _ => []
  | .t8enc _ d _ _ _ _ _ => [.v d]
  | .t8dec _ d _ _ _ _ => [.v d]
  | .vcvt _ d _ _ _ _ _ => [.v d]
  | .fetchMissFill _ => []
  | .operationComplete _ => []
  | .contextLoaded _ => []
  | .drainComplete _ => []
  | .quitComplete _ => []
  | .waitDeadline _ => []
  | .migrationPacketSend _ => []
  | .migrantLanding _ => []
  | .landingAdmit _ => []
  | .spawnPacketArrival _ => []
  | .spillToAdmit _ => []
  | .spillForClass _ => []
  | .spillRecordWritten _ _ => []
  | .resume _ _ => []
  | .messageLanding _ => []
  | .wakeUpLanding _ => []
  | .dataLanding _ => []
  | .remoteRead _ => []
  | .accessAccepted _ _ => []
  | .fullEmptyRequest _ => []
  | .reservationRequest _ => []
  | .phaseRequest _ => []
  | .weltSwitchArrival _ => []
  | .pairingWindowExpiry _ => []
  | .combinedReplySplit _ => []
  | .queueHomeOperation _ => []
  | .blockRelocation _ _ _ _ => []
  | .relocationCutover _ _ _ => []
  | .layerFault _ _ => []
  | .layerWake _ _ => []
  | .layerReturnActive _ _ => []
  | .tapRetirement _ _ => []
  | .busFailure _ => []
  | .tcmBankRetirement _ _ => []
  | .launchWindowWrite _ _ _ _ _ => []
  | .launchPushStored _ => []
  | .launchPop _ _ => []
  | .launchHeaderArrival _ _ => []
  | .taskDispatch _ _ _ => []
  | .containmentRetry _ => []
  | .dispatchCountReport _ _ => []
  | .throttleRequest _ _ => []
  | .orreryTick _ _ _ _ _ _ => []
  | .matrixRemoteCommand _ => []
  | .matrixOpStart _ => []
  | .matrixKstepComplete _ => []
  | .copyTransferStart _ => []
  | .copyChunk _ _ _ => []
  | .permitRequest _ _ => []
  | .permitRetryTimeout _ _ => []
  | .copyCompletion _ _ => []
  | .completionDelivery _ => []
  | .translationWalkComplete _ _ _ => []
  | .cobblerAtomic _ => []
  | .spdmGetMeasurements _ _ => []
  | .ideKm _ _ => []
  | .seal _ _ => []
  | .unseal _ _ => []
  | .flashUpdate _ _ => []
  | .hostRegisterWrite _ _ _ _ _ => []
  | .packageReset _ _ _ _ => []
  | .plannedPowerDown _ _ => []
  | .scratchpadBankRetirement _ => []
  | .managementRingStall _ => []
  | .tenantTableWrite _ _ _ => []
  | .memoryOwnerAssignment _ _ _ => []
  | .tenantDestruction _ => []
  | .peerUnreachable _ _ => []

/-- R23: the destinations of a half, those of a half guarded "never" and the discarded writes to g0 and b0 left
out. -/
def Instr.dests (i : Instr) : List Dest :=
  i.fields.filter fun x => x != .g 0 && x != .b 0

/-- R23: two halves that name one destination. -/
def clash (c a : Instr) : Bool := c.dests.any fun x => a.dests.contains x

/-- Decode one bundle w (R42): `none` is an illegal encoding, cause 0x01. -/
def decodeBundle (w : BitVec 64) : Option Bundle :=
  let f := CFmt.unpack (lo 32 32 w)
  match decodeC f (hi 32 32 w) with
  | none => none
  | some c =>
    if f.long then some ⟨c, .anop .always, true⟩
    else
      match decodeA (AFmt.unpack (hi 32 32 w)) with
      | none => none
      | some a => if clash c a then none else some ⟨c, a, false⟩

/-- The 64 bits of a bundle whose halves are these. -/
def encodeBundle (b : Bundle) : Option (BitVec 64) :=
  match b.c.encode, b.a.encode with
  | .long f x, _ => if b.long then some (app 32 32 x f.pack) else none
  | .c f, .a h => if b.long then none else some (app 32 32 h.pack f.pack)
  | _, _ => none

/-! ## The host's table words -/

/-- The C-word reading of a word of the opcode table, its X-word being the bits above it. -/
def tableC (w : Nat) : Option Instr := decodeC (CFmt.unpack (BitVec.ofNat 32 w)) (BitVec.ofNat 32 (w / 2 ^ 32))

/-- The A-word reading of a word of the opcode table. -/
def tableA (w : Nat) : Option Instr := decodeA (AFmt.unpack (BitVec.ofNat 32 w))

/-- The opcode table numbers the bits of an A-word within the A-word, so one number can be a C-word and an
A-word. It is read as a C-word where that is a legal short C-word, but for the C-major 0x02 whose numbers are
the A-major 0x01; a long C-word needs more than 32 bits (log entry 10). -/
def tableIsA (nbits w : Nat) : Bool :=
  let f := CFmt.unpack (BitVec.ofNat 32 w)
  if f.long && decide (32 < nbits) then false
  else if f.long || f.major == 2 || (tableC w).isNone then (tableA w).isSome
  else false

/-- The instruction that the decoder reads from a word of the opcode table. -/
def decodeTableWord (nbits w : Nat) : Option Instr :=
  if tableIsA nbits w then tableA w else tableC w

end Sys2Proof
end

