-- ==== Sys2Proof/Machine/Reads.lean ====
section
/-!
DEFINITION. The general registers that a half reads (R154: a migrating bundle carries them).
-/

namespace Sys2Proof.Machine

/-- The general registers that an instruction reads. -/
def readsG : Instr → List GReg
  | .cnop _ => []
  | .isync _ => []
  | .eret _ => []
  | .brk _ => []
  | .ret _ => [30]
  | .jr _ a => [a]
  | .jlr _ a => [a]
  | .leave _ => [28]
  | .quit _ => []
  | .split _ => []
  | .uiret _ => []
  | .trap _ _ => []
  | .br _ _ => []
  | .jl _ _ => []
  | .j _ _ _ => []
  | .lpd _ d _ => [d]
  | .enter _ _ => [28, 29, 30]
  | .crd _ _ _ => []
  | .cwr _ a _ => [a]
  | .crset _ _ a _ => [a]
  | .crclr _ _ a _ => [a]
  | .spawn _ _ a b _ => [a, b, b + 1, b + 2, b + 3, b + 4]
  | .wait _ a => [a]
  | .gang _ _ => []
  | .wfld _ _ _ => []
  | .kill _ _ a _ => [a]
  | .cmap _ _ a => [a]
  | .ldb _ _ a _ _ => [a]
  | .ldh _ _ a _ _ => [a]
  | .ldw _ _ a _ _ => [a]
  | .ldd _ _ a _ _ => [a]
  | .ldbz _ _ a _ _ => [a]
  | .ldhz _ _ a _ _ => [a]
  | .ldwz _ _ a _ _ => [a]
  | .ldv _ _ a _ _ => [a]
  | .stb _ d a _ _ => [d, a]
  | .sth _ d a _ _ => [d, a]
  | .stw _ d a _ _ => [d, a]
  | .std _ d a _ _ => [d, a]
  | .stv _ _ a _ _ => [a]
  | .lds _ _ a => [a, a + 1, a + 2, a + 3]
  | .sts _ d a => [d, a, a + 1, a + 2, a + 3]
  | .shp _ _ a b => [a, b]
  | .tfadd _ _ a b => [a, b]
  | .rdr _ _ a _ => [a]
  | .migr _ a => [a]
  | .tam _ _ a b _ => [a, b]
  | .lea _ _ a _ => [a]
  | .dtld _ _ a => [a]
  | .dtst _ _ a => [a]
  | .send _ _ a _ _ => [a]
  | .sendL _ a b _ _ => [a, b]
  | .recv _ _ a _ => [a]
  | .mbc _ _ _ => []
  | .waitc _ _ a _ => [a]
  | .mbclr _ _ a => [a]
  | .mcast _ _ a => [a, a + 1, a + 2, a + 3]
  | .mclaim _ _ _ => []
  | .mrel _ => []
  | .mzero _ _ => []
  | .mload _ _ a b => [a, b]
  | .mdrain _ _ a b => [a, b]
  | .mdrainr _ _ a b => [a, b]
  | .mcmd _ _ a b => [a, b]
  | .mstat _ _ _ => []
  | .mmac _ _ a b _ bv av _ _ => (if av then [] else [a, a + 1]) ++ (if bv then [] else [b, b + 1])
  | .ldfe _ _ a _ => [a]
  | .ldff _ _ a _ => [a]
  | .stef _ a b _ => [a, b]
  | .stff _ a b _ => [a, b]
  | .lrw _ _ a _ => [a]
  | .sch _ a b _ => [a, b]
  | .sdrop _ a _ => [a]
  | .amo _ _ a b _ _ => [a, b]
  | .afadd _ _ a b _ => [a, b]
  | .acas _ d a b _ => [d, a, b]
  | .rupd _ a b _ => [a, b, b + 1, b + 2, b + 3, b + 4]
  | .halloc _ _ a b => [a, b]
  | .hfree _ _ a => [a]
  | .hq _ _ a _ => [a]
  | .qpush _ _ a _ _ _ => [a]
  | .qpop _ _ a _ _ _ => [a]
  | .qcnt _ _ a => [a]
  | .qmake _ _ a b => [a, b]
  | .qfree _ _ a => [a]
  | .tenq _ _ _ => []
  | .tdep _ _ a => [a]
  | .tcan _ _ a => [a]
  | .svsl _ _ a b => [a, b]
  | .ldsl _ _ a b => [a, b]
  | .tinvl _ a b => [a, b]
  | .hinv _ => []
  | .tcall _ _ a n => a :: (List.range n.toNat).map fun j => BitVec.ofNat 5 (j + 1)
  | .tnext _ _ a _ => [a]
  | .tans _ a b => [a, b]
  | .tend _ a => [a]
  | .tfail _ a => [a]
  | .tinv _ _ a => [a]
  | .tstat _ _ a _ => [a]
  | .ptask _ _ a b _ e => [a, a + 1, b, e, e + 1]
  | .cpyq _ _ a _ => [a, a + 1, a + 2, a + 3]
  | .permit _ _ a _ => [a]
  | .cpst _ _ a _ => [a]
  | .fence _ => []
  | .fenceAcq _ => []
  | .fenceRel _ => []
  | .parr _ _ a b => [a, b]
  | .pwait _ _ a b => [a, b]
  | .pinit _ _ a b => [a, b]
  | .anop _ => []
  | .add _ _ a b => [a, b]
  | .sub _ _ a b => [a, b]
  | .and _ _ a b => [a, b]
  | .or _ _ a b => [a, b]
  | .xor _ _ a b => [a, b]
  | .sll _ _ a b => [a, b]
  | .srl _ _ a b => [a, b]
  | .sra _ _ a b => [a, b]
  | .mul _ _ a b => [a, b]
  | .mulh _ _ a b => [a, b]
  | .mulhu _ _ a b => [a, b]
  | .div _ _ a b => [a, b]
  | .divu _ _ a b => [a, b]
  | .rem _ _ a b => [a, b]
  | .remu _ _ a b => [a, b]
  | .min _ _ a b => [a, b]
  | .minu _ _ a b => [a, b]
  | .max _ _ a b => [a, b]
  | .maxu _ _ a b => [a, b]
  | .clz _ _ a => [a]
  | .ctz _ _ a => [a]
  | .popc _ _ a => [a]
  | .brev _ _ a => [a]
  | .addi _ _ a _ => [a]
  | .andi _ _ a _ => [a]
  | .ori _ _ a _ => [a]
  | .xori _ _ a _ => [a]
  | .slli _ _ a _ => [a]
  | .srli _ _ a _ => [a]
  | .srai _ _ a _ => [a]
  | .ext _ _ a _ _ => [a]
  | .li _ _ _ => []
  | .lui1 _ d _ => [d]
  | .lui2 _ d _ => [d]
  | .lui3 _ d _ => [d]
  | .cmp _ _ a b _ => [a, b]
  | .band _ _ _ _ => []
  | .bor _ _ _ _ => []
  | .bxor _ _ _ _ => []
  | .bnot _ _ _ => []
  | .bmov _ _ _ => []
  | .bpack _ _ => []
  | .bunpk _ a => [a]
  | .sel _ _ a b _ => [a, b]
  | .fadd _ _ a b _ => [a, b]
  | .fsub _ _ a b _ => [a, b]
  | .fmul _ _ a b _ => [a, b]
  | .fdiv _ _ a b _ => [a, b]
  | .fsqrt _ _ a _ => [a]
  | .fmin _ _ a b _ => [a, b]
  | .fmax _ _ a b _ => [a, b]
  | .fabs _ _ a _ => [a]
  | .fneg _ _ a _ => [a]
  | .fsgnj _ _ a b _ => [a, b]
  | .fclass _ _ a _ => [a]
  | .fcvt _ _ a _ => [a]
  | .fcvti _ _ a _ _ _ => [a]
  | .icvtf _ _ a _ _ => [a]
  | .fma _ d a b _ => [d, a, b]
  | .fms _ d a b _ => [d, a, b]
  | .fnma _ d a b _ => [d, a, b]
  | .fcmp _ _ a b _ _ => [a, b]
  | .vadd _ _ _ _ _ => []
  | .vsub _ _ _ _ _ => []
  | .vmul _ _ _ _ _ => []
  | .vmin _ _ _ _ _ => []
  | .vmax _ _ _ _ _ => []
  | .vabs _ _ _ _ => []
  | .vneg _ _ _ _ => []
  | .vand _ _ _ _ _ => []
  | .vor _ _ _ _ _ => []
  | .vxor _ _ _ _ _ => []
  | .vsll _ _ _ _ _ => []
  | .vsrl _ _ _ _ _ => []
  | .vsra _ _ _ _ _ => []
  | .vmov _ _ _ _ => []
  | .vfma _ _ _ _ _ => []
  | .vfms _ _ _ _ _ => []
  | .vcmp _ _ _ _ _ _ => []
  | .vsel _ _ _ _ _ => []
  | .vbc _ _ a _ => [a]
  | .vext _ _ _ _ _ => []
  | .vins _ _ a _ _ => [a]
  | .vperm _ _ _ _ _ => []
  | .vslide _ _ _ _ _ => []
  | .vredAdd _ _ _ _ => []
  | .vredMin _ _ _ _ => []
  | .vredMax _ _ _ _ => []
  | .vscanAdd _ _ _ _ => []
  | .vwid _ _ _ _ _ => []
  | .vnar _ _ _ _ _ => []
  | .vexp2 _ _ _ _ => []
  | .vlog2 _ _ _ _ => []
  | .vrcp _ _ _ _ => []
  | .vrsq _ _ _ _ => []
  | .vsqrt _ _ _ _ => []
  | .vsin _ _ _ _ => []
  | .vcos _ _ _ _ => []
  | .vtanh _ _ _ _ => []
  | .mand _ _ _ _ => []
  | .mor _ _ _ _ => []
  | .mnot _ _ _ => []
  | .mpop _ _ _ => []
  | .rep _ _ _ _ _ => []
  | .t8enc _ _ _ _ _ _ _ => []
  | .t8dec _ _ _ _ _ _ => []
  | .vcvt _ _ _ _ _ _ _ => []
  | .fetchMissFill _ => []
  | .operationComplete _ => []
  | .contextLoaded _ => []
  | .drainComplete _ => []
  | .quitComplete _ => []
  | .waitDeadline _ => []
  | .migrationPacketSend _ => []
  | .migrantLanding _ => []
  | .landingAdmit _ => []
  | .spawnPacketArrival _ => []
  | .spillToAdmit _ => []
  | .spillForClass _ => []
  | .spillRecordWritten _ _ => []
  | .resume _ _ => []
  | .messageLanding _ => []
  | .wakeUpLanding _ => []
  | .dataLanding _ => []
  | .remoteRead _ => []
  | .accessAccepted _ _ => []
  | .fullEmptyRequest _ => []
  | .reservationRequest _ => []
  | .phaseRequest _ => []
  | .weltSwitchArrival _ => []
  | .pairingWindowExpiry _ => []
  | .combinedReplySplit _ => []
  | .queueHomeOperation _ => []
  | .blockRelocation _ _ _ _ => []
  | .relocationCutover _ _ _ => []
  | .layerFault _ _ => []
  | .layerWake _ _ => []
  | .layerReturnActive _ _ => []
  | .tapRetirement _ _ => []
  | .busFailure _ => []
  | .tcmBankRetirement _ _ => []
  | .launchWindowWrite _ _ _ _ _ => []
  | .launchPushStored _ => []
  | .launchPop _ _ => []
  | .launchHeaderArrival _ _ => []
  | .taskDispatch _ _ _ => []
  | .containmentRetry _ => []
  | .dispatchCountReport _ _ => []
  | .throttleRequest _ _ => []
  | .orreryTick _ _ _ _ _ _ => []
  | .matrixRemoteCommand _ => []
  | .matrixOpStart _ => []
  | .matrixKstepComplete _ => []
  | .copyTransferStart _ => []
  | .copyChunk _ _ _ => []
  | .permitRequest _ _ => []
  | .permitRetryTimeout _ _ => []
  | .copyCompletion _ _ => []
  | .completionDelivery _ => []
  | .translationWalkComplete _ _ _ => []
  | .cobblerAtomic _ => []
  | .spdmGetMeasurements _ _ => []
  | .ideKm _ _ => []
  | .seal _ _ => []
  | .unseal _ _ => []
  | .flashUpdate _ _ => []
  | .hostRegisterWrite _ _ _ _ _ => []
  | .packageReset _ _ _ _ => []
  | .plannedPowerDown _ _ => []
  | .scratchpadBankRetirement _ => []
  | .managementRingStall _ => []
  | .tenantTableWrite _ _ _ => []
  | .memoryOwnerAssignment _ _ _ => []
  | .tenantDestruction _ => []
  | .peerUnreachable _ _ => []

/-- R154: the general registers that either half of a bundle reads. -/
def bundleReads (w : W64) : List GReg :=
  match decodeBundle w with
  | some b => readsG b.c ++ readsG b.a
  | none => []

end Sys2Proof.Machine
end

