-- ==== Sys2Proof/Machine/Ops.lean ====
section
/-!
DEFINITION. The operations that instructions share: taking a trap and returning from it (R57, R61, R115, R117),
the purity check (R326), where an access goes (R141 to R143, R152, R153, R238, R299 to R301), what it waits for
(R349, R353), and loads, stores and atomics as their arbiters perform them.
-/

namespace Sys2Proof.Machine

/-! ## Traps -/

/-- R57: split the gang of a slot: the partner is HELD and the thread is no longer ganged. -/
def State.splitGang (s : State) (k : Nat) : State :=
  if (s.slot k).ctx.gang then
    (s.modSlot (partner k) fun y => { y with st := .held }).modSlot k fun x => { x with ctx := x.ctx.setPs 2 false }
  else s

/-- R115: the registers of a handler at its first bundle, from those of the trapped bundle. That the buffer counts as suspended on a core
that has none too (R166) is the model's choice (log entry 114). -/
def Ctx.enterTrap (c : Ctx) (t : Trap) (split : Bool) : Ctx :=
  let ps := c.cr.pstate
  let cause := w64 t.cause.toNat ||| (if c.priv then 0x100 else 0) ||| (if c.uih then 0x200 else 0) |||
    (if split then 0x400 else 0)
  { c with
    pc := c.cr.tvec
    cr := { c.cr with epc := c.pc, tval := t.tval, cause := cause, pstate := setBit (setBit (setBit ps 0 true) 1 true) 4 false }
    rep := { c.rep with susp := true } }

/-- R61: a trap that no handler receives. -/
def Ctx.isFault (c : Ctx) (t : Trap) : Bool := t.cause == 0x13 || c.cr.tvec == 0 || c.inh

/-- R141: the SRAM byte that an address names, as a thread of a core uses it; 0 for another memory. -/
def sramPa (core : Nat) (ea : W64) : Nat :=
  match bitsAt ea 63 60 with
  | 0 => paTcm core (bitsAt ea 16 0)
  | 1 => paTcm (caTile (bitsAt ea 38 32) (bitsAt ea 45 40)) (bitsAt ea 16 0)
  | 2 => if bitAt ea 47 then paSpad (caX core / 4) (caY core / 4) (bitsAt ea 20 0) else paSpad (bitsAt ea 36 32) (bitsAt ea 43 40) (bitsAt ea 20 0)
  | 3 => paShared (if bitAt ea 35 then caDie core else bitsAt ea 34 32) (bitsAt ea 25 0)
  | _ => 0

/-- R150: a trap that reports an uncorrectable SRAM word counts it. -/
def State.countError (s : State) (k : Nat) (t : Trap) : State :=
  if t.cause = 0x09 then s.countBad (sramPa (caCore k) t.tval) else s

/-- R25, R61, R115: the thread of slot k takes a trap: it enters its handler, or containment acts. Nothing of its
bundle is committed. -/
def State.takeTrap (s : State) (k : Nat) (t : Trap) : State :=
  let split := (s.slot k).ctx.gang
  let s1 := ((s.countError k t).splitGang k).modSlot k fun x => { x with after := none, late := none }
  let s2 := if k = s.cur then { s1 with trapped := some t } else s1
  let c := (s2.slot k).ctx
  if c.isFault t then s2.faultSlot k t
  else s2.modSlot k fun x => { x with st := .run, ctx := c.enterTrap t split, npc := c.cr.tvec }

/-- The executing bundle traps. -/
def State.trap (s : State) (cause : BitVec 8) (v : W64) : State := s.takeTrap s.cur ⟨cause, v⟩

/-- R117: what `eret` restores from `cause`; the repetition buffer goes on (R184). -/
def Ctx.leaveTrap (c : Ctx) : Ctx :=
  let k := c.cr.cause
  { c with
    cr := { c.cr with pstate := setBit (setBit (setBit c.cr.pstate 0 (bitAt k 8)) 4 (bitAt k 9)) 1 false }
    rep := { c.rep with susp := false } }

/-! ## Purity -/

/-- An address inside a tile. -/
def Tile.has (x : Tile) (ea : W64) (n : Nat) : Bool :=
  decide (x.addr.toNat ≤ ea.toNat) && decide (ea.toNat + n ≤ x.addr.toNat + x.len.toNat)

/-- The addresses of a tile, as the first and the one past the last. -/
def Tile.range (x : Tile) : Nat × Nat := (x.addr.toNat, x.addr.toNat + x.len.toNat)

/-- R110, R326: the addresses of a pure task's stack: those of the space of the g29 that it held, from `stklim` on. -/
def stackRange (c : Ctx) (sp : W64) : Nat × Nat := (max c.cr.stklim.toNat (bitsAt sp 63 60 * 2 ^ 60), sp.toNat)

/-- R326: the allowed regions of a pure task outside its own TCM, for stores (st) or loads. -/
def PureRec.regions (p : PureRec) (c : Ctx) (st : Bool) : List (Nat × Nat) :=
  (if st then [] else p.code.range :: p.args.map Tile.range) ++ [p.out.range, stackRange c p.sp]

/-- How far the addresses from a on lie in regions, going through at most n of them. -/
def regionsEnd (l : List (Nat × Nat)) : Nat → Nat → Nat
  | 0, a => a
  | n + 1, a =>
    match l.find? fun r => decide (r.1 ≤ a) && decide (a < r.2) with
    | some r => regionsEnd l n r.2
    | none => a

/-- R326: an address in the own TCM of a core. -/
def ownTcmForm (core : Nat) (ea : W64) : Bool :=
  caKind core == .compute &&
    (decide (bitsAt ea 63 60 = 0) || (decide (bitsAt ea 63 60 = 1) && decide (bitsAt ea 45 32 = caTileOf core)))

/-- R326: a pure task may load, or store as well (st), n bytes at ea. -/
def pureOk (r : Option PureRec) (c : Ctx) (core : Nat) (ea : W64) (n : Nat) (st : Bool) : Bool :=
  ownTcmForm core ea ||
    match r with
    | none => false
    | some p =>
      let l := p.regions c st
      decide (ea.toNat + n ≤ regionsEnd l l.length ea.toNat)

/-- R326: the executing thread runs a pure task and may not make this access. -/
def State.impure (s : State) (ea : W64) (n : Nat) (st : Bool) : Bool :=
  s.rd.pure && !pureOk s.me.pure.head? s.rd s.core ea n st

/-- R326: the executing thread runs a pure task and may not make this atomic or synchronising access, which is not in
its own TCM. -/
def State.impureSync (s : State) (ea : W64) : Bool := s.rd.pure && !ownTcmForm s.core ea

/-! ## The translated window -/

/-- R300: the k bits of the index at a level of the walk. -/
def walkIndex (va level : Nat) : Nat := (va / 2 ^ (12 + 9 * level)) % 512

/-- R300: a leaf that a walk accepts at its level. -/
def leafOk (pte : W64) (level : Nat) : Bool :=
  let k := bitsAt pte 7 4
  let hi := if bitAt pte 8 then 43 else 51
  decide (bitsAt pte 11 9 = 0) && (if level = 0 then decide (k ≤ 8) else decide (level = 1) && decide (9 ≤ k)) &&
    decide (bitsAt pte hi 12 % 2 ^ k = 0) &&
    (if bitAt pte 8 then decide (bitsAt pte 63 44 ≤ 786431) else decide (bitsAt pte 63 52 = 0))

/-- R300: the node that an entry of a walk points to, if it is a pointer as it should be. -/
def nextNode (pte : W64) : Option W64 :=
  if bitAt pte 0 && !bitAt pte 1 && bitsAt pte 11 9 == 0 && bitsAt pte 63 60 == 0 then
    some ((pte &&& 0x0FFFFFFFFFFFF000#64) ||| 0x4000000000000000#64)
  else none

/-- R299, R300: the entry that a walk reads in a node of a level. -/
def State.walkEntry (s : State) (tenant va level : Nat) (node : W64) : Option Nat :=
  (s.resolve tenant (node + w64 (8 * walkIndex va level)) rightR).toOption

/-- R299, R300: walk the table of a tenant from a node on. The leaf with its k, or none: for cause 0x05, or where the walk
waits. -/
def State.walk (s : State) (tenant va : Nat) : Nat → W64 → Option W64
  | level, node =>
    match s.walkEntry tenant va level node with
    | none => none
    | some pa =>
      if s.isHeld pa || s.isBad pa then none
      else
        let pte := s.readW pa
        if bitAt pte 0 && bitAt pte 1 then (if leafOk pte level then some pte else none)
        else
          match level, nextNode pte with
          | l + 1, some n => s.walk tenant va l n
          | _, _ => none

/-- R242, R243, R301: a walk reads its nodes as loads do, so that it waits where memory holds one. -/
def State.walkWaits (s : State) (tenant va : Nat) : Nat → W64 → Bool
  | level, node =>
    match s.walkEntry tenant va level node with
    | none => false
    | some pa =>
      if s.isHeld pa then true
      else if s.isBad pa then false
      else
        match level, nextNode (s.readW pa) with
        | l + 1, some n => s.walkWaits tenant va l n
        | _, _ => false

/-- The cached translation of a die for a window address (R301). -/
def State.cached (s : State) (die tenant va : Nat) : Option W64 :=
  (s.tlb.find? fun e => e.die == die && e.tenant == tenant && decide (e.va ≤ va) && decide (va < e.va + 4096 * 2 ^ e.k)).map
    TlbEntry.pte

/-- R299 to R301, R364, R368: translate a space-0x8 address for an access that needs r (ld) and w (st), or both, as an atomic
does, which needs s of a peer's export as well (R239). A walk that waits gives `paWaits`, so that its access waits. -/
def State.translate (s : State) (die tenant : Nat) (ea : W64) (ld st : Bool) : Except Trap Nat :=
  if bitsAt ea 59 57 != 0 then .error ⟨0x04, ea⟩
  else
    let va := bitsAt ea 56 0
    let hit := match s.cached die tenant va with
      | some e => some e
      | none => s.walk tenant va 4 (s.tt tenant 3)
    match hit with
    | none => if s.walkWaits tenant va 4 (s.tt tenant 3) then .ok paWaits else .error ⟨0x05, ea⟩
    | some e =>
      if (ld && !bitAt e 2) || (st && !bitAt e 3) then .error ⟨0x06, ea⟩
      else
        let off := va % (4096 * 2 ^ bitsAt e 7 4)
        if bitAt e 8 then
          let a := bitsAt e 43 12 * 4096 + off
          let dev := bitsAt e 63 44
          let x := smGet Peer.none s.peers (dev * 256 + tenant)
          let need : BitVec 4 := (if ld then rightR else 0) ||| (if st then rightW else 0) ||| (if ld && st then rightS else 0)
          if 2 ^ 40 ≤ a ∨ x.size ≤ a ∨ need &&& x.rights ≠ need ∨ x.gone.contains (a / 4096) then .error ⟨0x05, ea⟩
          else .ok (paPeer dev tenant a)
        else if bitAt (s.tt tenant 0) 1 && !(s.fn tenant).ide then .error ⟨0x06, ea⟩
        else .ok (paHost (bitsAt e 51 12 * 4096 + off))

/-! ## Where an access goes -/

/-- Where an access goes: a physical address, another core, or a trap. -/
inductive Loc where
  | at_ (pa : Nat)
  | migrate (core : Nat)
  | trap (t : Trap)
  deriving DecidableEq, Repr

/-- A resolved address or a trap, as a place. -/
def Loc.ofExcept : Except Trap Nat → Loc
  | .ok pa => .at_ pa
  | .error t => .trap t

/-- R141, R143, R149: an offset of a core's TCM. -/
def State.tcmAt (s : State) (core tenant : Nat) (ea : W64) : Loc :=
  let off := bitsAt ea 16 0
  if !s.tcmOk core off then .trap ⟨0x04, ea⟩
  else if !ownerOk tenant (s.tcmOwner core) then .trap ⟨0x06, ea⟩
  else .at_ (paTcm core off)

/-- R141, R143, R149: an offset of a cluster's scratchpad. -/
def State.spadAt (s : State) (cx cy tenant : Nat) (ea : W64) : Loc :=
  let off := bitsAt ea 20 0
  if s.spadSize cx cy ≤ off then .trap ⟨0x04, ea⟩
  else if !ownerOk tenant (smGet 0 s.sowner (cy * 32 + cx)) then .trap ⟨0x06, ea⟩
  else .at_ (paSpad cx cy off)

/-- R141, R143, R150: an offset of a die's shared SRAM. -/
def State.sharedAt (s : State) (die tenant : Nat) (ea : W64) (st : Bool) : Loc :=
  let off := bitsAt ea 25 0
  if 0x3FFF000 ≤ off then (if st then .trap ⟨0x06, ea⟩ else .at_ (paShared die off))
  else if 0x3000000 ≤ off then .trap ⟨0x04, ea⟩
  else if !ownerOk tenant (smGet 0 s.gowner (die * 768 + off / 2 ^ 16)) then .trap ⟨0x06, ea⟩
  else .at_ (paShared die off)

/-- R153: the first five refusals of a migration of the thread of slot k. -/
def State.migrationRefused (s : State) (k : Nat) (c : Ctx) : Bool :=
  let u := s.unit (caCore k)
  decide (bitsAt c.cr.lmask 47 32 ≠ 0) || c.gang || (caSlot k % 2 == 0 && (s.slot (partner k)).st == .held) ||
    (caKind k == .compute && u.claimed && u.owner == k) || c.rep.act || c.uih

/-- R153: a disabled target, then one outside `lrect` or a Cobbler that the tenant may not use. -/
def State.targetTrap (s : State) (c : Ctx) (core : Nat) (ea : W64) : Option Trap :=
  if caKind core == .compute && !s.coreEnabled core then some ⟨0x04, ea⟩
  else if !(rectOf c.cr.lrect).hasCore core || (isCobbler core && c.cr.tenant != 0) then some ⟨0x06, ea⟩
  else none

/-- R153: migration to a core, with the refusals in their order. -/
def State.moveTo (s : State) (core : Nat) (ea : W64) : Loc :=
  if s.migrationRefused s.cur s.rd then .trap ⟨0x0D, ea⟩
  else match s.targetTrap s.rd core ea with
    | some t => .trap t
    | none => .migrate core

/-- R152: the core of a cluster to which a thread of this core migrates, if it has one. -/
def State.clusterTarget (s : State) (core tenant cx cy : Nat) : Option Nat :=
  let p := 4 * (caY core % 4) + caX core % 4
  ((List.range 16).map fun i =>
      let q := (p + i) % 16
      caTile (4 * cx + q % 4) (4 * cy + q / 4)).find? fun t =>
    s.coreEnabled t && (tenant == 0 || !isCobbler t)

/-- R152, R153: migration to a cluster. That a cluster without a core that the thread may use is a hole, cause 0x04, is the
model's choice: the rule names no outcome (log entry 71). -/
def State.moveToCluster (s : State) (cx cy : Nat) (ea : W64) : Loc :=
  match s.clusterTarget s.core s.rd.ten cx cy with
  | some t => s.moveTo t ea
  | none => if s.migrationRefused s.cur s.rd then .trap ⟨0x0D, ea⟩ else .trap ⟨0x04, ea⟩

/-- R141: bits that must be zero in the forms of spaces 0x1, 0x2 and 0x3. -/
def formBad1 : W64 := 0x0FFFC080FFFE0000#64
def formBad2 : W64 := 0x0FFF70E0FFE00000#64
def formBad3 : W64 := 0x0FFFFFF0FC000000#64

/-- R141 to R143, R152, R153 and R238 or R299: where n bytes at ea lie for a load (ld) or a store (st) of the
executing thread. The purity check stands first (R153). -/
def State.locate (s : State) (ea : W64) (n : Nat) (ld st : Bool) : Loc :=
  let c := s.rd
  let core := s.core
  let kind := caKind core
  let bad : Loc := .trap ⟨0x04, ea⟩
  if s.impure ea n st then .trap ⟨0x0B, ea⟩
  else
    match bitsAt ea 63 60 with
    | 0 => if kind != .compute || bitsAt ea 59 17 != 0 then bad else s.tcmAt core c.ten ea
    | 1 =>
      let t := caTile (bitsAt ea 38 32) (bitsAt ea 45 40)
      if ea &&& formBad1 != 0 then bad
      else if kind == .station || (kind == .compute && t == core) then s.tcmAt t c.ten ea
      else s.moveTo t ea
    | 2 =>
      let own := bitAt ea 47
      let cx := bitsAt ea 36 32
      let cy := bitsAt ea 43 40
      let hx := caX core / 4
      let hy := caY core / 4
      if ea &&& formBad2 != 0 then bad
      else if own then (if kind == .bank || bitsAt ea 44 32 != 0 then bad else s.spadAt hx hy c.ten ea)
      else if kind == .station || (kind == .compute && cx == hx && cy == hy) then s.spadAt cx cy c.ten ea
      else s.moveToCluster cx cy ea
    | 3 =>
      if ea &&& formBad3 != 0 then bad
      else if bitAt ea 35 then
        (if bitsAt ea 34 32 != 0 then bad else s.sharedAt (caDie core) c.ten ea st)
      else s.sharedAt (bitsAt ea 34 32) c.ten ea st
    | 4 => .ofExcept (s.resolve c.ten ea ((if ld then rightR else 0) ||| (if st then rightW else 0)))
    | 8 => .ofExcept (s.translate (caDie core) c.ten ea ld st)
    | _ => bad

/-- Where the n bytes at ea lie, as spans of at most 64 bytes. That a trap of the second 64 bytes reports ea, the address that
the instruction names, is the model's choice (log entry 89). -/
def State.spans (s : State) (ea : W64) (n : Nat) (ld st : Bool) : Except Loc (List (Nat × Nat)) :=
  match s.locate ea n ld st with
  | .at_ pa =>
    if n ≤ 64 then .ok [(pa, n)]
    else
      match s.locate (ea + 64) (n - 64) ld st with
      | .at_ pb => .ok [(pa, 64), (pb, n - 64)]
      | .migrate k => .error (.migrate k)
      | .trap t => .error (.trap ⟨t.cause, ea⟩)
  | l => .error l

/-- The byte lies in the TCM of this core. -/
def isOwn (core pa : Nat) : Bool := caKind core == .compute && pa / 2 ^ 32 == paTcm core 0 / 2 ^ 32

/-! ## What an access waits for -/

/-- R353: the word of a physical address lies within a scope. -/
def State.inScope (s : State) (scope : W64) (pa : Nat) : Bool :=
  let r := rectOf scope
  match paTenant pa with
  | some _ => r.bk && !r.isEmpty && (let b := s.bankOf pa; r.has (caX b) (caY b))
  | none =>
    let x := (pa / 2 ^ 32) % 2 ^ 8
    let y := (pa / 2 ^ 40) % 2 ^ 8
    match pa / 2 ^ 60 with
    | 1 => r.has x y
    | 2 => !r.isEmpty && decide (r.xlo ≤ 4 * x + 3) && decide (4 * x ≤ r.xhi) && decide (r.ylo ≤ 4 * y + 3) && decide (4 * y ≤ r.yhi)
    | 3 =>
      let d := x % 8
      !r.isEmpty && decide (r.xlo ≤ 32 * (d % 4) + 31) && decide (32 * (d % 4) ≤ r.xhi) &&
        decide (r.ylo ≤ 32 * (d / 4) + 31) && decide (32 * (d / 4) ≤ r.yhi)
    | _ => scope == packageRect

/-- R349: which earlier relaxed stores an access waits for. -/
inductive OrdMode where
  | all | overlap | scope
  deriving DecidableEq, Repr

/-- R349: a load, by its mark. -/
def ldMode : LdOrd → OrdMode
  | .plain => .all
  | .relaxed => .overlap
  | .acq => .scope
/-- R349: a store, by its mark. -/
def stMode : StOrd → OrdMode
  | .plain => .all
  | .relaxed => .overlap
  | .rel => .scope
/-- R349: an atomic, by its mark. -/
def amMode : AmOrd → OrdMode
  | .plain => .all
  | .relaxed => .overlap
  | .acq | .rel => .scope

/-- An outstanding store overlaps spans of an access. -/
def OutStore.meets (o : OutStore) (l : List (Nat × Nat)) : Bool :=
  l.any fun e => o.spans.any fun p => decide (p.1 < e.1 + e.2) && decide (e.1 < p.1 + p.2)

/-- R353: a word of an outstanding store lies within a scope. -/
def State.storeInScope (s : State) (scope : W64) (o : OutStore) : Bool := o.parts.any fun e => s.inScope scope e.1

/-- R349: the outstanding stores that an access to these spans waits for. -/
def State.waitsFor (s : State) (m : OrdMode) (own : Bool) (l : List (Nat × Nat)) (o : OutStore) : Bool :=
  match m with
  | .all => !own || o.meets l
  | .overlap => o.meets l
  | .scope => o.meets l || s.storeInScope s.rd.cr.scope o

/-- Go on once the stores that p names are accepted (R349) and the spans are not held (R242, R243); else the slot
parks until then, with the bytes that its bundle read at issue. -/
def State.afterStoresWith (s : State) (i : Instr) (snap : List Byte) (p : OutStore → Bool) (l : List (Nat × Nat))
    (f : State → State) : State :=
  if (s.me.out.any fun o => p o && s.storeHeld o) || l.any fun e => s.isHeld e.1 then s.parkAt s.cur .flight i snap
  else f (s.flushWhere s.cur p)

/-- Go on once the stores that p names are accepted and the spans are not held. -/
def State.afterStores (s : State) (i : Instr) (p : OutStore → Bool) (l : List (Nat × Nat)) (f : State → State) : State :=
  s.afterStoresWith i [] p l f

/-- R154: the thread leaves its slot for a core once its accesses are accepted. -/
def State.startMigration (s : State) (i : Instr) (core : Nat) (ea : W64) (committed : Bool) : State :=
  s.parkAt s.cur (.migrate core ea committed (bundleReads s.raw)) i []

/-- R148, R245: the address, in the program's form, of the first bad word that spans of an access at ea touch. -/
def State.badWord (s : State) (ea : W64) : List (Nat × Nat) → Option W64
  | [] => none
  | (pa, n) :: t =>
    match s.firstBad pa n with
    | some j => some (ea - w64 (ea.toNat % 8) + w64 j)
    | none => s.badWord (ea + w64 n) t

/-- The bytes of spans. All of them are read in one step, whatever arbiters their words have: that no other access falls
between the words is the model's choice (log entry 72). -/
def State.readSpans (s : State) (l : List (Nat × Nat)) : List Byte :=
  l.foldr (fun e acc => s.readBytes e.1 e.2 ++ acc) []

/-- R148: reads of spans correct the words that they touch. -/
def State.correctSpans (s : State) (l : List (Nat × Nat)) : State := l.foldl (fun t e => t.correct e.1 e.2) s

/-- Store bytes into spans. -/
def State.storeSpans (s : State) : List (Nat × Nat) → List Byte → State
  | [], _ => s
  | (pa, n) :: t, l => (s.storeBytes pa (l.take n)).storeSpans t (l.drop n)

/-- R265: a span in the descriptor of a live queue. -/
def State.hitsDesc (s : State) (l : List (Nat × Nat)) : Bool :=
  l.any fun e => (paTenant e.1).isSome && (s.inDesc e.1 || s.inDesc (e.1 + e.2 - 1))

/-- What becomes of an access that does not go to a place of its own: a trap, or a migration (R152). -/
def State.elsewhere (s : State) (i : Instr) (ea : W64) : Loc → State
  | .trap t => s.takeTrap s.cur t
  | .migrate core => s.startMigration i core ea false
  | .at_ _ => s

/-! ## Loads, stores and atomics -/

/-- R156, R157: load n bytes at ea, aligned to al, and pass them on. -/
def State.load (s : State) (i : Instr) (ea : W64) (al n : Nat) (m : OrdMode) (f : List Byte → State → State) : State :=
  if ea.toNat % al ≠ 0 then s.trap 0x03 ea
  else
    match s.spans ea n true false with
    | .error l => s.elsewhere i ea l
    | .ok l =>
      s.afterStores i (s.waitsFor m (l.all fun e => isOwn s.core e.1) l) l fun s =>
        match s.badWord ea l with
        | some v => s.trap 0x09 v
        | none => f (s.readSpans l) (s.correctSpans l)

/-- R148, R245: the word that a store narrower than 8 bytes finds bad. -/
def State.narrowBad (s : State) (ea : W64) (n : Nat) (l : List (Nat × Nat)) : Option W64 :=
  if n < 8 then s.badWord ea l else none

/-- R348: a relaxed store leaves the core once its address is translated. It is performed at once, or it stays outstanding when
the schedule says so or its word is held; a ninth waits for the oldest. -/
def State.relaxedStore (s : State) (i : Instr) (ea : W64) (l : List (Nat × Nat)) (data : List Byte) (f : State → State) : State :=
  let oldest := s.me.out.head?
  let full := decide (8 ≤ s.me.out.length)
  s.afterStores i (fun o => o.meets l || (full && some o == oldest)) (l.filter fun e => e.1 = paWaits) fun s =>
    let pc := s.pc
    let parts := (l.foldl (fun (acc : List (Nat × List Byte) × List Byte) e =>
      (acc.1 ++ [(e.1, acc.2.take e.2)], acc.2.drop e.2)) ([], data)).1
    let o : OutStore := ⟨parts, ea, pc⟩
    let t := s.modSlot s.cur fun x => { x with out := x.out ++ [o] }
    f (if s.slow || s.storeHeld o then t else t.flushWhere s.cur fun q => q == o)

/-- R156, R157: store bytes at ea, aligned to al. -/
def State.store (s : State) (i : Instr) (ea : W64) (al : Nat) (m : StOrd) (data : List Byte) (f : State → State) : State :=
  let n := data.length
  if ea.toNat % al ≠ 0 then s.trap 0x03 ea
  else
    match s.spans ea n false true with
    | .error l => s.elsewhere i ea l
    | .ok l =>
      let own := l.all fun e => isOwn s.core e.1
      if s.hitsDesc l then s.trap 0x0F ea
      else if m = .relaxed ∧ !own then s.relaxedStore i ea l data f
      else
        s.afterStores i (s.waitsFor (stMode m) own l) l fun s =>
          match s.narrowBad ea n l with
          | some v => s.trap 0x09 v
          | none => f (s.storeSpans l data)

/-- R145, R158, R159, R254: read the n bytes of one item at pa, write what op makes of it, and pass on the old value. -/
def State.rmw (s : State) (ea : W64) (pa n : Nat) (op : Nat → Nat) (f : Nat → State → State) : State :=
  match s.badWord ea [(pa, n)] with
  | some v => s.trap 0x09 v
  | none =>
    let old := s.readN pa n
    f old ((s.correct pa n).storeBytes pa (leBytes n (op old)))

/-- R35, R158: the operations of `tam` and `amo`. -/
def atomApply (op : AtomOp) (old b : W64) : W64 :=
  match op with
  | .add => old + b
  | .and => old &&& b
  | .or => old ||| b
  | .xor => old ^^^ b
  | .min => if old.slt b then old else b
  | .max => if old.slt b then b else old
  | .minu => if old.ult b then old else b
  | .maxu => if old.ult b then b else old
  | .swap => b

/-! ## Parking at issue -/

/-- A C-half of variable latency (R53), but for the cases that p names, which are of fixed latency. When the
schedule says so, a half that raises nothing at issue parks as it was, and the same meaning runs when its arbiter
takes it. -/
def halfPark (gd : Guard) (i : Instr) (s : State) (p : Bool) (f : State → State) : Res :=
  half gd s fun s =>
    if s.slow && !p then
      let t := f s
      if t.trapped.isSome || (match t.me.wait with | some (.migrate _ _ _ _) => true | _ => false) then t
      else s.parkAt s.cur .flight i []
    else f s

end Sys2Proof.Machine
end

