-- ==== Sys2Proof/Machine/Issue.lean ====
section
/-!
DEFINITION. How a slot issues: its turns (R52), fetch (R100 to R103), the repetition buffer (R181 to R184), the
encodings that a core kind refuses (R166, R208), and the commit of a bundle (R22, R25, R53).
-/

namespace Sys2Proof.Machine

/-! ## Turns -/

/-- R52: the period of a slot's turns and its first turn, in package cycles. -/
def turnPeriod (k : Nat) : Nat := match caKind k with | .station => 4 | _ => 16
def turnPhase (k : Nat) : Nat :=
  match caKind k with
  | .compute => caSlot k
  | .bank => 2 * caSlot k
  | .station => caSlot k

/-- R52: the first turn of a slot at cycle c or later. -/
def nextTurn (k c : Nat) : Nat := c + (turnPhase k + turnPeriod k - c % turnPeriod k) % turnPeriod k

/-! ## Fetch -/

/-- R100, R326: where the bundle at pc is fetched from. A pc that names another core's TCM or another cluster's scratchpad
traps with cause 0x04 as R100 and R102 have it, against the 0x0D of R152 (DEDUCED, log entry 73). -/
def State.fetchFrom (s : State) (c : Ctx) (core : Nat) (r : Option PureRec) : Except Trap Nat :=
  let pc := c.pc
  let bad : Except Trap Nat := .error ⟨0x04, pc⟩
  let code := match r with | some p => p.code.has pc 8 | none => false
  if c.pure && !c.inh && !code then .error ⟨0x0B, pc⟩
  else
    match bitsAt pc 63 60 with
    | 0 =>
      if caKind core != .compute || bitsAt pc 59 17 != 0 then bad
      else match s.tcmAt core c.ten pc with
        | .at_ pa => .ok pa
        | .trap t => .error t
        | .migrate _ => bad
    | 3 =>
      if caKind core != .compute || pc &&& formBad3 != 0 || (bitAt pc 35 && bitsAt pc 34 32 != 0) ||
          (!bitAt pc 35 && bitsAt pc 34 32 != caDie core) then bad
      else match s.sharedAt (caDie core) c.ten pc false with
        | .at_ pa => .ok pa
        | .trap t => .error t
        | .migrate _ => bad
    | 4 => s.resolve c.ten pc rightX
    | _ => bad

/-- The key of a bundle in the instruction cache of a core (R101). -/
def icKey (core pa : Nat) : Nat := pa * 2 ^ 20 + caCore core

/-- R100, R102: the bundle at the pc of a slot as memory holds it. -/
def State.fetchFresh (s : State) (k : Nat) : Except Trap W64 :=
  let x := s.slot k
  match s.fetchFrom x.ctx (caCore k) x.pure.head? with
  | .error t => .error t
  | .ok pa => if s.isBad pa then .error ⟨0x09, x.ctx.pc⟩ else .ok (s.readW pa)

/-- R103: the bundle that the instruction cache of the core holds, or else the one in memory. -/
def State.fetchCached (s : State) (k : Nat) : Except Trap W64 :=
  let x := s.slot k
  match s.fetchFrom x.ctx (caCore k) x.pure.head? with
  | .error t => .error t
  | .ok pa =>
    match smGet none s.icache (icKey k pa) with
    | some w => .ok w
    | none => s.fetchFresh k

/-- R242, R243: memory holds the fetch of a slot's bundle. -/
def State.fetchHeld (s : State) (k : Nat) : Bool :=
  let x := s.slot k
  match s.fetchFrom x.ctx (caCore k) x.pure.head? with
  | .error _ => false
  | .ok pa => s.isHeld pa

/-- R101, R103: the instruction cache of the core holds the bundle at the pc of a slot. -/
def State.isCached (s : State) (k : Nat) : Bool :=
  let x := s.slot k
  match s.fetchFrom x.ctx (caCore k) x.pure.head? with
  | .error _ => false
  | .ok pa => smGet none s.icache (icKey k pa) != none

/-- R148: the fetch of a slot's bundle from SRAM corrects the word. -/
def State.fetched (s : State) (k : Nat) : State :=
  let x := s.slot k
  match s.fetchFrom x.ctx (caCore k) x.pure.head? with
  | .error _ => s
  | .ok pa => s.correct pa 8

/-- R101, R102, R148: the line that a slot waits for arrives: the cache holds its bundle as memory has it now, unless the word
is bad. -/
def State.fillCache (s : State) (k : Nat) : State :=
  let x := s.slot k
  match s.fetchFrom x.ctx (caCore k) x.pure.head? with
  | .error _ => s
  | .ok pa =>
    let t := s.correct pa 8
    if s.isBad pa then s else { t with icache := smSet none t.icache (icKey k pa) (some (s.readW pa)) }

/-- R104: discard every line of a core's instruction cache. -/
def State.dropCache (s : State) (core : Nat) : State :=
  { s with icache := s.icache.filter fun e => e.1 % 2 ^ 20 != caCore core }

/-! ## The repetition buffer -/

/-- R182: the sizes of the register files that the fields d, a and b of an A-word name; none where the word has no
such field, or it holds a number. -/
def stepFiles (major fn : Nat) : Option Nat × Option Nat × Option Nat :=
  let g := some 32
  let v := some 16
  let b := some 8
  let m := some 4
  match major with
  | 0x01 => if 0x13 ≤ fn then (g, g, none) else (g, g, g)
  | 0x02 | 0x03 | 0x04 | 0x05 | 0x06 | 0x07 => (g, g, none)
  | 0x0C => (b, g, g)
  | 0x0D =>
    match fn with
    | 0 | 1 | 2 => (b, b, b)
    | 3 | 4 => (b, b, none)
    | 5 => (g, none, none)
    | 6 => (none, g, none)
    | _ => (none, none, none)
  | 0x0E => (g, g, g)
  | 0x10 =>
    match fn % 64 with
    | 0x04 | 0x07 | 0x08 | 0x0A | 0x0B | 0x0C | 0x0D => (g, g, none)
    | _ => (g, g, g)
  | 0x11 => (g, g, g)
  | 0x12 => (b, g, g)
  | 0x20 =>
    match fn % 16 with
    | 0x5 | 0x6 | 0xD => (v, v, none)
    | _ => (v, v, v)
  | 0x21 => (m, v, v)
  | 0x22 => (v, v, v)
  | 0x23 =>
    match fn % 16 with
    | 0x0 | 0x2 => (v, g, none)
    | 0x1 => (g, v, none)
    | 0x3 => (v, v, v)
    | _ => (v, v, none)
  | 0x24 => (v, v, none)
  | 0x25 =>
    match fn with
    | 0 | 1 => (m, m, m)
    | 2 => (m, m, none)
    | 3 => (g, m, none)
    | _ => (none, none, none)
  | 0x28 | 0x29 => (v, v, none)
  | _ => (none, none, none)

/-- R182: one field of a word, at bit pos, stepped by n in a file of the size given. -/
def stepField (w pos n : Nat) (size : Option Nat) (on : Bool) : Nat :=
  let old := (w / 2 ^ pos) % 32
  match size with
  | some z => if on then w - old * 2 ^ pos + ((old + n) % z) * 2 ^ pos else w
  | none => w

/-- R182: an A-word stepped by i strides in the fields that steps marks. -/
def stepWord (w : BitVec 32) (i stride : Nat) (steps : BitVec 3) : BitVec 32 :=
  let n := w.toNat
  let f := stepFiles (bitsAt w 31 26) (bitsAt w 6 0)
  let n := stepField n 17 (i * stride) f.1 (bitAt steps 0)
  let n := stepField n 12 (i * stride) f.2.1 (bitAt steps 1)
  BitVec.ofNat 32 (stepField n 7 (i * stride) f.2.2 (bitAt steps 2))

/-- R181, R184: the buffer takes part in the slot's bundles. -/
def RepBuf.live (r : RepBuf) : Bool := r.act && !r.susp

/-- The word of the buffer at its position, stepped (R182). -/
def RepBuf.word (r : RepBuf) : BitVec 32 :=
  stepWord ((r.words.toList)[r.k]?.getD 0) r.i (r.stride.toNat + 1) r.steps

/-- R39, R183, R184: the buffer refuses this fetched bundle. -/
def RepBuf.refuses (r : RepBuf) (w : W64) : Bool :=
  let long := bitAt w 31
  let isRep := !long && decide (bitsAt w 63 58 = 0x26)
  if r.susp then isRep
  else if !r.act then false
  else if r.cap then long || isRep
  else !long && (w >>> 32) &&& 0xFC3FFFFF#64 != 0

/-- R181, R184: the buffer after the commit of a bundle whose fetched A-word is w. What an inactive buffer holds, and a word that
is not captured yet, R185 does not say: 0 is the model's choice (log entry 90). -/
def RepBuf.advance (r : RepBuf) (w : BitVec 32) : RepBuf :=
  let last (r : RepBuf) : RepBuf := if r.i = r.count.toNat + 1 then RepBuf.empty else r
  if !r.live then r
  else
    let words := if r.cap then r.words.setIfInBounds r.k w else r.words
    if r.k = r.len.toNat then last { r with words := words, cap := false, k := 0, i := r.i + 1 }
    else { r with words := words, k := r.k + 1 }

/-! ## Core kinds -/

/-- R166, R208 and the entries of the mesh, queue and copy instructions: an encoding that traps with cause 0x01 on
a bank core and on a station core. -/
def computeOnly (i : Instr) : Bool :=
  match i with
  | .dtld _ _ _ | .dtst _ _ _ => true
  | .recv _ _ _ _ | .mbc _ _ _ | .waitc _ _ _ _ | .mbclr _ _ _ | .mcast _ _ _ => true
  | .mclaim _ _ _ | .mrel _ | .mzero _ _ | .mload _ _ _ _ | .mdrain _ _ _ _ | .mdrainr _ _ _ _ | .mcmd _ _ _ _
  | .mstat _ _ _ | .mmac _ _ _ _ _ _ _ _ _ => true
  | .qpush _ _ _ _ _ _ | .qpop _ _ _ _ _ _ => true
  | .cpyq _ _ _ _ | .permit _ _ _ _ | .cpst _ _ _ _ | .uiret _ => true
  | .vadd _ _ _ _ _ | .vsub _ _ _ _ _ | .vmul _ _ _ _ _ | .vmin _ _ _ _ _ | .vmax _ _ _ _ _ | .vabs _ _ _ _
  | .vneg _ _ _ _ | .vand _ _ _ _ _ | .vor _ _ _ _ _ | .vxor _ _ _ _ _ | .vsll _ _ _ _ _ | .vsrl _ _ _ _ _
  | .vsra _ _ _ _ _ | .vmov _ _ _ _ | .vfma _ _ _ _ _ | .vfms _ _ _ _ _ | .vcmp _ _ _ _ _ _ | .vsel _ _ _ _ _
  | .vbc _ _ _ _ | .vext _ _ _ _ _ | .vins _ _ _ _ _ | .vperm _ _ _ _ _ | .vslide _ _ _ _ _ | .vredAdd _ _ _ _
  | .vredMin _ _ _ _ | .vredMax _ _ _ _ | .vscanAdd _ _ _ _ | .vwid _ _ _ _ _ | .vnar _ _ _ _ _ => true
  | .vexp2 _ _ _ _ | .vlog2 _ _ _ _ | .vrcp _ _ _ _ | .vrsq _ _ _ _ | .vsqrt _ _ _ _ | .vsin _ _ _ _
  | .vcos _ _ _ _ | .vtanh _ _ _ _ => true
  | .mand _ _ _ _ | .mor _ _ _ _ | .mnot _ _ _ | .mpop _ _ _ | .rep _ _ _ _ _ => true
  | .t8enc _ _ _ _ _ _ _ | .t8dec _ _ _ _ _ _ | .vcvt _ _ _ _ _ _ _ => true
  | _ => false

/-- R53: the A-halves of variable latency. -/
def slowA (i : Instr) : Option Guard :=
  match i with
  | .div gd _ _ _ | .divu gd _ _ _ | .rem gd _ _ _ | .remu gd _ _ _ => some gd
  | .fdiv gd _ _ _ _ | .fsqrt gd _ _ _ => some gd
  | .vexp2 gd _ _ _ | .vlog2 gd _ _ _ | .vrcp gd _ _ _ | .vrsq gd _ _ _ | .vsqrt gd _ _ _ | .vsin gd _ _ _
  | .vcos gd _ _ _ | .vtanh gd _ _ _ => some gd
  | _ => none

/-! ## Decode and commit -/

/-- The halves of the bundle w that a slot with this buffer on a core of this kind executes; none traps with cause
0x01 (R41, R42, R166, R183). -/
def halves (kind : CoreKind) (r : RepBuf) (w : W64) : Option (Instr × Instr) :=
  if r.refuses w then none
  else
    match decodeBundle w with
    | none => none
    | some b =>
      let a := if r.live && !r.cap then decodeA (AFmt.unpack r.word) else some b.a
      match a with
      | none => none
      | some a =>
        if clash b.c a || (kind != .compute && (computeOnly b.c || computeOnly a)) then none else some (b.c, a)

/-- R25, R181: what a bundle with the fetched word w leaves when it commits: the registers new, and the buffer, which
stood as in old, advanced. -/
def commitCtx (old : Ctx) (w : W64) (new : Ctx) : Ctx :=
  if old.rep.live then { new with rep := old.rep.advance (hi 32 32 w) } else new

/-- R53, R55: the bundle of a slot commits: its registers are the ones kept for it, and the pc is that of the next
bundle. The slot is in the rotation. -/
def Slot.rejoin (x : Slot) : Slot :=
  { x with st := .run, ctx := { x.after.getD x.ctx with pc := x.npc }, after := none }

/-- R53: the operation of a parked slot is over. -/
def State.rejoin (s : State) (k : Nat) : State :=
  s.modSlot k fun x => { x.rejoin with due := s.cycle + 1 }

end Sys2Proof.Machine
end

