-- ==== Sys2Proof/Machine/Control.lean ====
section
/-!
DEFINITION. Control flow, frames, traps and returns (R104 to R119).
-/

namespace Sys2Proof.Machine

/-- R118: the bundle that executes, as `tval` receives it. -/
def State.bundle (s : State) : W64 := s.raw

/-- R105: the target of a relative branch of n bundles. -/
def branchTo (pc : W64) {w : Nat} (off : BitVec w) : W64 := pc + sext off * 8

/-- CNOP, R119. -/
def execCnop (gd : Guard) (s : State) : Res := half gd s fun s => s

/-- ISYNC, R104: wait for every earlier store, then discard the lines of the core's instruction cache. -/
def execIsync (gd : Guard) (s : State) : Res :=
  halfPark gd (.isync gd) s false fun s =>
    s.afterStores (.isync gd) (fun _ => true) [] fun s => s.dropCache s.core

/-- ERET, R117. -/
def execEret (gd : Guard) (s : State) : Res :=
  half gd s fun s =>
    if !s.rd.priv then s.trap 0x02 s.bundle
    else (s.upd Ctx.leaveTrap).setNpc s.rd.cr.epc

/-- BRK, R118. -/
def execBrk (gd : Guard) (s : State) : Res := half gd s fun s => s.trap 0x11 s.bundle

/-- TRAP, R118. -/
def execTrap (gd : Guard) (i : BitVec 11) (s : State) : Res := half gd s fun s => s.trap 0x12 (zext i)

/-- R32, R106: a jump to an address in a register. -/
def jumpTo (s : State) (t : W64) (f : State → State) : State :=
  if t.toNat % 8 ≠ 0 then s.trap 0x03 t else (f s).setNpc t

/-- RET, R106. -/
def execRet (gd : Guard) (s : State) : Res := half gd s fun s => jumpTo s (s.g 30) fun s => s

/-- JR, R106. -/
def execJr (gd : Guard) (a : GReg) (s : State) : Res := half gd s fun s => jumpTo s (s.g a) fun s => s

/-- JLR, R106. -/
def execJlr (gd : Guard) (a : GReg) (s : State) : Res :=
  half gd s fun s => jumpTo s (s.g a) fun s => s.setG 30 (s.pc + 8)

/-- B, R105. -/
def execBr (gd : Guard) (off : BitVec 21) (s : State) : Res := half gd s fun s => s.setNpc (branchTo s.pc off)

/-- JL, R105. -/
def execJl (gd : Guard) (off : BitVec 21) (s : State) : Res :=
  half gd s fun s => (s.setG 30 (s.pc + 8)).setNpc (branchTo s.pc off)

/-- J, R105: imm holds the upper 32 bits of the 53-bit offset. -/
def execJ (gd : Guard) (off : BitVec 21) (imm : BitVec 32) (s : State) : Res :=
  half gd s fun s => s.setNpc (branchTo s.pc (imm ++ off))

/-- LPD, R107. -/
def execLpd (gd : Guard) (d : GReg) (off : BitVec 16) (s : State) : Res :=
  half gd s fun s =>
    let n := s.g d - 1
    let t := s.setG d n
    if n = 0 then t else t.setNpc (branchTo s.pc off)

/-- R152: `enter`, `leave`, `dtld` and `dtst` never migrate: an address that would move them traps. -/
def stayPut (ea : W64) : Loc → Loc
  | .migrate _ => .trap ⟨0x0D, ea⟩
  | .trap t => .trap t
  | .at_ pa => .at_ pa

/-- The form of an address: the core's own TCM. -/
def State.ownForm (s : State) (ea : W64) : Bool := ownTcmForm s.core ea

/-- R142, R152: where an access that never migrates goes. Only the causes that stand before a migration come first. On a
station core no access migrates, so that the 0x0D of R152 is that of compute and bank cores (DEDUCED, log entry 85). -/
def State.locateHere (s : State) (ea : W64) (n : Nat) (ld st : Bool) : Loc :=
  if s.impure ea n st then .trap ⟨0x0B, ea⟩
  else if caKind s.core == .station then s.locate ea n ld st
  else
    let core := s.core
    match bitsAt ea 63 60 with
    | 1 => if ea &&& formBad1 == 0 && !ownTcmForm core ea then .trap ⟨0x0D, ea⟩ else s.locate ea n ld st
    | 2 =>
      let foreign := caKind core == .bank || bitsAt ea 36 32 != caX core / 4 || bitsAt ea 43 40 != caY core / 4
      if ea &&& formBad2 == 0 && !bitAt ea 47 && foreign then .trap ⟨0x0D, ea⟩ else s.locate ea n ld st
    | _ => s.locate ea n ld st

/-- ENTER, R111. -/
def execEnter (gd : Guard) (i : BitVec 11) (s : State) : Res :=
  halfPark gd (.enter gd i) s (s.ownForm (s.g 29)) fun s =>
    let sp := s.g 29
    let size := 16 * i.toNat + 16
    if sp.toNat % 16 ≠ 0 then s.trap 0x03 sp
    else if sp.toNat < size + 128 ∨ sp.toNat - size - 128 < s.rd.cr.stklim.toNat then s.trap 0x07 (sp - w64 size)
    else
      let ea := sp - 16
      match stayPut ea (s.locateHere ea 16 false true) with
      | .trap t => s.takeTrap s.cur t
      | .migrate _ => s
      | .at_ pa =>
        let l := [(pa, 16)]
        if s.hitsDesc l then s.trap 0x0F ea
        else
          s.afterStores (.enter gd i) (s.waitsFor .all (isOwn s.core pa) l) l fun s =>
            let t := s.storeBytes pa (leBytes 8 (s.g 28).toNat ++ leBytes 8 (s.g 30).toNat)
            (t.setG 28 ea).setG 29 (sp - w64 size)

/-- LEAVE, R112. -/
def execLeave (gd : Guard) (s : State) : Res :=
  halfPark gd (.leave gd) s (s.ownForm (s.g 28)) fun s =>
    let f := s.g 28
    if f.toNat % 16 ≠ 0 then s.trap 0x03 f
    else
      match stayPut f (s.locateHere f 16 true false) with
      | .trap t => s.takeTrap s.cur t
      | .migrate _ => s
      | .at_ pa =>
        let l := [(pa, 16)]
        s.afterStores (.leave gd) (s.waitsFor .all (isOwn s.core pa) l) l fun s =>
          match s.badWord f l with
          | some v => s.trap 0x09 v
          | none =>
            let t := ((s.correctSpans l).setG 28 (s.readW pa)).setG 30 (s.readW (pa + 8))
            t.setG 29 (f + 16)

end Sys2Proof.Machine
end

