-- ==== Sys2Proof/Machine/Landing.lean ====
section
/-!
DEFINITION. Arrivals at a core: the order of packets (R189), the landing buffer and the slots that arrivals take (R71, R154,
R191 to R193), and operations that are over within the step that issues them.
-/

namespace Sys2Proof.Machine

/-! ## The order of packets (R189) -/

/-- The tiles of a rectangle, row by row. -/
def Rect.tiles (r : Rect) : List Nat :=
  (List.range (r.yhi + 1 - r.ylo)).flatMap fun j => (List.range (r.xhi + 1 - r.xlo)).map fun i => caTile (r.xlo + i) (r.ylo + j)

/-- R187: the virtual network on which a C-half of a slot of a core, with these registers, sends its packets to other cores,
and those cores. -/
def packetsOf (core : Nat) (i : Instr) (c : Ctx) : Option (Nat × List Nat) :=
  let foreign (a : GReg) : Option (Nat × List Nat) := if bitsAt (c.getG a) 63 60 = 8 then some (0, [caCobbler (caDie core)]) else none
  match i with
  | .send _ _ a _ _ => some (3, [caTileOf (c.getG a).toNat])
  | .sendL _ a _ _ _ => some (3, [caTile (bitsAt (c.getG a) 38 32) (bitsAt (c.getG a) 45 40)])
  | .mcast _ _ a => some (3, (rectOf (c.getGAt a 2)).tiles)
  | .mcmd _ _ a _ => some (4, [caTileOf (c.getG a).toNat])
  | .rdr _ _ a _ =>
    if bitsAt (c.getG a) 63 60 = 1 then some (0, [caTile (bitsAt (c.getG a) 38 32) (bitsAt (c.getG a) 45 40)]) else none
  | .amo _ _ a _ _ _ | .afadd _ _ a _ _ | .acas _ _ a _ _ => foreign a
  | _ => none

/-- The operation that a slot has in flight, with its snapshot and its place in the order of arrival. -/
def Slot.flight (x : Slot) : Option (Instr × List Byte × Nat) :=
  match x.st with
  | .park .flight i sn n | .drain _ .flight i sn n => some (i, sn, n)
  | _ => none

/-- R161: a slot parked in `rdr` that has a reply slot, and so has sent its request. -/
def rdrSent (i : Instr) (snap : List Byte) : Bool :=
  match i with
  | .rdr _ _ _ _ => !snap.isEmpty
  | _ => true

/-- R189: a packet that a core sends on a virtual network, with n packets and accesses before it, waits for an earlier one to
one of its destinations. -/
def State.overtakes (s : State) (vn core n : Nat) (dests : List Nat) : Bool :=
  (s.slots.any fun e =>
    caCore e.1 == caCore core &&
      match e.2.flight with
      | some (i, snap, m) =>
        decide (m < n) && rdrSent i snap &&
          (match packetsOf core i e.2.ctx with | some (v, l) => v == vn && l.any dests.contains | none => false)
      | none => false) ||
    vn == 3 && s.wakes.any fun w => caCore w.sender.toNat == caCore core && decide (w.id < n) && dests.contains (caTileOf w.core)

/-- R189: the packets of the C-half i of a bundle that issues now must wait for earlier ones. An arbiter that takes an
operation in flight has asked before. -/
def State.mustQueue (s : State) (i : Instr) : Bool :=
  s.src.isSome &&
    match packetsOf s.core i s.rd with
    | some (vn, l) => s.overtakes vn s.core s.stamp l
    | none => false

/-- R189: no earlier packet of virtual network 2 from the same core to the same core is still on its way. -/
def State.inOrder (s : State) (p : Pkt) : Bool :=
  p.sender.isNone || s.pkts.all fun q => q.landed || decide (p.id ≤ q.id) || q.core != p.core || q.sender != p.sender

/-! ## Landing (R191) -/

/-- The landing buffer of a core, oldest first (R191). -/
def State.landed (s : State) (core : Nat) : List Pkt := s.pkts.filter fun p => p.landed && p.core == core

/-- R191: the slot that a packet names, and that of its gang partner. -/
def Pkt.named (p : Pkt) : List Nat :=
  match p.slot with
  | some k => if p.gang then [k, partner k] else [k]
  | none => []

/-- R191, R193: the slots that a packet leaves alone: those that entries before it name, and those evicted for others. -/
def State.claimed (s : State) (p : Pkt) : List Nat :=
  let l := s.landed p.core
  ((l.takeWhile fun q => q.id != p.id).flatMap Pkt.named) ++ (l.filter fun q => q.id != p.id).flatMap Pkt.evict

/-- R193: a slot that is FREE, and that was not evicted for an entry of the landing buffer, to which it goes. -/
def State.takable (s : State) (k : Nat) : Bool := (s.slot k).st.isFree && s.pkts.all fun q => !q.evict.contains k

/-- R191, R193: a slot that is FREE, and that no packet is to have. -/
def State.openSlot (s : State) (k : Nat) : Bool := s.takable k && s.pkts.all fun q => !q.named.contains k

/-- R71, R191: the slot that an arrival takes, if it is FREE. -/
def State.slotFor (s : State) (p : Pkt) : Option Nat :=
  let held := s.claimed p
  let free (k : Nat) : Bool := (s.slot k).st.isFree && !held.contains k
  match p.slot with
  | some k => if free k && (!p.gang || free (partner k)) then some k else none
  | none => (coreSlots p.core).find? fun k => free k && (!p.gang || (caSlot k % 2 == 0 && free (partner k)))

/-- R55, R71, R154: an arrival takes a slot, which loads its context. -/
def State.seat (s : State) (p : Pkt) (k : Nat) : State :=
  let x : Slot :=
    { Slot.free with st := .resv, tid := p.tid, ctx := p.ctx.setPs 2 p.gang, cls := p.cls, pend := p.pend, pure := p.pure }
  let t := (s.dropPkt p.id).setSlot k x
  let t := if p.gang then t.setSlot (partner k) { Slot.free with st := .ganghi } else t
  t.answerSpawn p (w64 k)

/-- R191: the entry that is admitted next: the oldest that can have a slot, where only one that names its slot is passed. -/
def State.admissible (s : State) : List Pkt → Option (Pkt × Nat)
  | [] => none
  | p :: l =>
    match s.slotFor p with
    | some k => some (p, k)
    | none => if p.slot.isSome then s.admissible l else none

/-- R191: an entry of a landing buffer takes its slot. -/
def State.admitOne (s : State) (core : Nat) : State :=
  match s.admissible (s.landed core) with
  | some (p, k) => s.seat p k
  | none => s

/-- R191: every entry of a landing buffer that can have a slot takes it, in order of arrival. -/
def State.admitAll (s : State) (core : Nat) : State := (List.range 4).foldl (fun t _ => t.admitOne core) s

/-- R191, R257: a packet enters the landing buffer, if it has room. The parent of a remote update goes on. -/
def State.land (s : State) (p : Pkt) : State :=
  if (s.landed p.core).length < 4 then
    let t := s.dropPkt p.id
    let t := { t with pkts := t.pkts ++ [{ p with landed := true, since := s.cycle }] }
    match p.kind with
    | .rupd _ _ => t.answerSpawn p 0
    | _ => t
  else s

/-- R71, R189, R191: an arriving packet takes a slot, or waits for one where it may (blk), or is answered BUSY. It stays in
the network behind an earlier packet, or while the landing buffer is full. One that may wait does so behind an entry that
names no slot. That a core which firmware has disabled meanwhile still seats it is the model's choice, where R69 has the check that R71
and R153 make at the origin (log entry 111). -/
def State.arrive (s : State) (p : Pkt) (blk : Bool) : State :=
  let t := s.admitAll p.core
  let l := t.landed p.core
  if !t.inOrder p || decide (4 ≤ l.length) then t
  else if blk && l.any fun q => q.slot.isNone then t.land p
  else
    match t.slotFor p with
    | some k => t.seat p k
    | none => if blk then t.land p else (t.dropPkt p.id).answerSpawn p allOnes

/-- The operation that the executing slot parked for is over within its own step: the bundle goes on, or takes the
trap of the reply. -/
def State.finish (s : State) : State :=
  match s.me.st with
  | .park (.reply none) _ _ _ => s.modSlot s.cur fun x => { x with st := .run }
  | .park (.reply (some t)) _ _ _ => s.takeTrap s.cur t
  | _ => s

end Sys2Proof.Machine
end

