-- ==== Sys2Proof/Machine/MailPort.lean ====
section
/-!
DEFINITION. The mailbox port of a core (R195 to R199): landings, what they count and record, and the parked slots
that they serve (R202, R203).
-/

namespace Sys2Proof.Machine

/-- R196: the answer to a landing. -/
inductive Landed where
  | accepted | full | prot | hole
  deriving DecidableEq, Repr

/-- Mailbox n of a core. -/
def State.box (s : State) (core n : Nat) : Mbox := smGet Mbox.empty s.mbox (caTileOf core * 16 + n)

/-- Write a mailbox. -/
def State.setBox (s : State) (core n : Nat) (b : Mbox) : State :=
  { s with mbox := smSet Mbox.empty s.mbox (caTileOf core * 16 + n) b }

/-- R197: an accepted packet is counted and recorded. -/
def Mbox.count (b : Mbox) (nanrd : Bool) (sender : BitVec 32) : Mbox :=
  let top : BitVec 32 := 0xFFFFFFFF#32
  { b with
    cnt := if b.cnt = top then top else b.cnt + 1
    sat := b.sat || b.cnt == top
    seen0 := b.seen0 || !nanrd
    seen1 := b.seen1 || nanrd
    fsnd0 := if !nanrd && !b.seen0 then sender else b.fsnd0
    fsnd1 := if nanrd && !b.seen1 then sender else b.fsnd1 }

/-- R197: the state that `mbc` reports. -/
def Mbox.word (b : Mbox) : W64 :=
  w64 (b.cnt.toNat + b.ents.length % 8 * 2 ^ 32 + (if b.sat then 2 ^ 35 else 0) + (if b.full then 2 ^ 36 else 0) +
    (if b.seen0 then 2 ^ 37 else 0) + (if b.seen1 then 2 ^ 38 else 0))

/-- R205: clear the counter of a mailbox, and its entries where all is set. -/
def Mbox.clear (b : Mbox) (all : Bool) : Mbox := { Mbox.empty with ents := if all then [] else b.ents }

/-- R199: the counter has seen the reading that is not this one. -/
def Mbox.mismatch (b : Mbox) (nanrd : Bool) : Bool := if nanrd then b.seen0 else b.seen1

/-- R118, R199: the trap of a reading that differs. -/
def readingTrap (n : Nat) (sender : Nat) : Trap := ⟨0x0C, w64 (n * 2 ^ 32 + sender % 2 ^ 32)⟩

/-- R199: the trap of `waitc`. -/
def Mbox.mismatchTrap (b : Mbox) (n : Nat) (nanrd : Bool) : Trap :=
  readingTrap n (if nanrd then b.fsnd0 else b.fsnd1).toNat

/-- R202: the lowest-numbered mailbox of a mask that holds an entry. -/
def State.firstMail (s : State) (core : Nat) (mask : W64) : Option Nat :=
  (List.range 16).find? fun n => bitAt mask n && !(s.box core n).ents.isEmpty

/-- R202: what `recv` finds: nothing, a trap, or an entry that leaves its mailbox. -/
inductive Mail where
  | none
  | trap (t : Trap)
  | entry (header : W64) (payload : BitVec 512) (s : State)

/-- R199, R202: the port serves a `recv`. -/
def State.takeMail (s : State) (core : Nat) (mask : W64) (nanrd : Bool) : Mail :=
  match s.firstMail core mask with
  | none => .none
  | some n =>
    let b := s.box core n
    match b.ents with
    | [] => .none
    | e :: t => if bitAt e.1 36 != nanrd then .trap (readingTrap n (bitsAt e.1 31 0)) else .entry e.1 e.2 (s.setBox core n { b with ents := t })

/-- R202: what `recv` writes. -/
def recvWrites (d : GReg) (v : VReg) (header : W64) (payload : BitVec 512) (c : Ctx) : Ctx :=
  (c.setG d header).setV v (payload.zeroExtend 1024)

/-- R203: what a parked `waitc` finds at the port: none where it still waits. -/
def State.takeCount (s : State) (core n : Nat) (want : BitVec 32) (nanrd : Bool) : Option (Except Trap (W64 × State)) :=
  let b := s.box core n
  if b.cnt < want then none
  else if b.mismatch nanrd then some (.error (b.mismatchTrap n nanrd))
  else
    let left := b.cnt - want
    some (.ok (zext left, s.setBox core n { b with cnt := left }))

/-- R202, R203: the port serves a parked or draining slot, if it can. -/
def State.serveMail (s : State) (k : Nat) : State :=
  let x := s.slot k
  let nanrd := bitAt x.ctx.cr.nanrd 0
  match x.waits with
  | some (.mailbox, .recv _ d a v) =>
    (match s.takeMail (caCore k) (x.ctx.getG a) nanrd with
     | .none => s
     | .trap t => s.reply k (some t)
     | .entry h p t => (t.deliver k (recvWrites d v h p)).reply k none)
  | some (.counter, .waitc _ d a n) =>
    (match s.takeCount (caCore k) n.toNat ((x.ctx.getG a).truncate 32) nanrd with
     | none => s
     | some (.error t) => s.reply k (some t)
     | some (.ok (v, t)) => (t.deliver k fun c => c.setG d v).reply k none)
  | _ => s

/-- R195, R202, R203: after a landing, the parked slots of the core, in slot order. -/
def State.wakeMail (s : State) (core : Nat) : State := (coreSlots core).foldl State.serveMail s

/-- R196: a tenant that may land packets at a core. -/
def State.mayLandAt (s : State) (core tenant : Nat) : Bool := tenant == 0 || (s.tcmOwner core).toNat == tenant

/-- R196: a message or a wake-up reaches mailbox n of a core. -/
def State.landMessage (s : State) (core n tenant : Nat) (nanrd : Bool) (sender : BitVec 32) (header : W64)
    (payload : BitVec 512) : Landed × State :=
  let b := s.box core n
  if !s.mayLandAt core tenant then (.prot, s)
  else if 4 ≤ b.ents.length then (.full, s.setBox core n { b with full := true })
  else
    let c := { b with ents := b.ents ++ [(header, payload)] }
    (.accepted, (s.setBox core n (c.count nanrd sender)).wakeMail core)

/-- R196: a run of at most 256 bytes lies in the part of a core's TCM that is in service. -/
def State.runOk (s : State) (core off len : Nat) : Bool :=
  decide (off + len ≤ 0x20000) && s.tcmOk core off && s.tcmOk core (off + len - 1)

/-- R196: a data landing with tag n reaches a core: the run is written, then counted. -/
def State.landRun (s : State) (core n tenant : Nat) (nanrd : Bool) (sender : BitVec 32) (off : Nat) (data : List Byte) :
    Landed × State :=
  if !s.mayLandAt core tenant then (.prot, s)
  else if !s.runOk core off data.length then (.hole, s)
  else
    let t := s.storeBytes (paTcm core off) data
    (.accepted, (t.setBox core n ((t.box core n).count nanrd sender)).wakeMail core)

end Sys2Proof.Machine
end

