-- ==== Sys2Proof/Machine/Threads.lean ====
section
/-!
DEFINITION. Threads and the hierarchy of work: `spawn`, `quit`, `wait`, `kill`, `gang`, `split`, `wfld` and `cmap`
(R71 to R77).
-/

namespace Sys2Proof.Machine

/-- R71: the context of a child. -/
def childCtx (c : Ctx) (entry : W64) (args : List W64) : Ctx :=
  let r := c.cr
  let cr := { CRs.zero with
    tenant := r.tenant, lnum := r.lnum, wid := r.wid, wshape := r.wshape, lrect := r.lrect, scope := r.scope,
    rmode := r.rmode, nanrd := r.nanrd, srseed := r.srseed, qwin := r.qwin, lmask := r.lmask, tvec := r.tvec,
    pstate := r.pstate &&& 1 }
  { Ctx.zero with
    pc := entry
    cr := cr
    g := (List.range args.length).foldl (fun g n => g.setIfInBounds (n + 1) (args[n]?.getD 0)) Ctx.zero.g }

/-- R326: an instruction that a pure task may not issue. v is the value its trap carries. -/
def State.unlessPure (s : State) (v : W64) (f : State → State) : State := if s.rd.pure then s.trap 0x0B v else f s

/-- SPAWN, R71. `coremask` disables compute cores only (R69): that no bank core counts as disabled, be its bank group retired or
the compute core over it disabled, is the model's choice (log entry 86). -/
def execSpawn (gd : Guard) (d a b : GReg) (opts : BitVec 3) (s : State) : Res :=
  half gd s fun s =>
    let tgt := s.g a
    let entry := s.g b
    let core := caCore tgt.toNat
    let bank := caKind tgt.toNat == .bank
    let any := bitAt opts 0
    let ganged := bitAt opts 2
    s.unlessPure tgt fun s =>
      if entry.toNat % 8 ≠ 0 then s.trap 0x03 entry
      else if !coreAddressOk tgt || caKind tgt.toNat == .station then s.trap 0x04 tgt
      else if ganged && (bank || (!any && bitAt tgt 20)) then s.trap 0x04 tgt
      else if !(rectOf s.rd.cr.lrect).hasCore core then s.trap 0x06 tgt
      else if !bank && (!s.coreEnabled core || (isCobbler core && s.rd.cr.tenant != 0)) then s.trap 0x06 tgt
      else
        s.afterStores (.spawn gd d a b opts) (fun _ => true) [] fun s =>
          let (id, s) := s.newId
          let (tid, s) := s.newTid
          let p : Pkt :=
            { id := id, kind := .spawn s.cur s.me.tid (bitAt opts 1), sender := some s.core, tid := tid
              ctx := childCtx s.rd entry ((List.range 4).map fun n => s.gAt b (n + 1))
              cls := s.me.cls, core := core, slot := if any then none else some tgt.toNat, gang := ganged
              landed := false, since := s.cycle, evict := [], pend := none, pure := [] }
          let t := State.parkAt { s with pkts := s.pkts ++ [p] } s.cur (.spawn id) (.spawn gd d a b opts) []
          if s.slow then t else (t.arrive p (bitAt opts 1)).finish

/-- R72: the thread of slot k ends. -/
def State.endThread (s : State) (k : Nat) : State :=
  let x := s.slot k
  ((((s.endProducer x.tid 0).releaseUnit k).vacate k).endTask x.tid).dropRecords x.tid

/-- R72, R227: nothing of a thread that quits is left to finish: no access, and no operation of a unit that it owns. -/
def State.mayEnd (s : State) (k : Nat) : Bool :=
  (s.slot k).out.isEmpty && !(s.owns k && (s.unit (caCore k)).op.isSome)

/-- QUIT, R72. The slot parks while accesses are outstanding, or while its matrix unit finishes. -/
def execQuit (gd : Guard) (s : State) : Res :=
  half gd s fun s =>
    let t := if s.slow then s else s.flushAll s.cur
    if t.mayEnd t.cur then t.endThread t.cur else (t.releaseUnit t.cur).parkAt t.cur .quit (.quit gd) []

/-- R73: the package cycle of a deadline n cycles of this core from now. -/
def State.deadline (s : State) (core n : Nat) : Nat :=
  if caKind core = .bank then 2 * (s.cycle / 2 + n) else s.cycle + n

/-- WAIT, R73. A thread that was spilled in this bundle waits out its deadline. -/
def execWait (gd : Guard) (a : GReg) (s : State) : Res :=
  half gd s fun s =>
    let n := (s.g a).toNat
    let t := s.modSlot s.cur fun x => { x with late := none }
    match s.me.late with
    | some (pc, dl) =>
      if pc ≠ s.pc then (if n = 0 then s else s.parkAt s.cur (.wait (s.deadline s.core n)) (.wait gd a) [])
      else if dl ≤ s.cycle ∧ dl < 2 ^ 64 then t
      else t.parkAt s.cur (.wait dl) (.wait gd a) []
    | none => if n = 0 then s else s.parkAt s.cur (.wait (s.deadline s.core n)) (.wait gd a) []

/-- R74: the threads that `kill` names by a level and a `wid`, for a caller with these registers. -/
def killMatches (c : Ctx) (level : Nat) (wid : W64) (key : ResvKey) : Bool :=
  inUnit c.cr.wshape (min level (shapeLevels c.cr.wshape)) ⟨c.cr.tenant, c.cr.lnum, wid⟩ key

/-- R74: the live threads that `kill` kills and counts: not one that has quit, nor one that is killed already. -/
def State.killable (s : State) (p : ResvKey → Bool) : Nat :=
  (s.liveSlots.filter fun e =>
    p e.2.ctx.key && (match e.2.st with | .park .quit _ _ _ => false | .drain false _ _ _ _ => false | _ => true)).length +
    (s.pkts.filter fun q => p q.ctx.key).length + (s.spilled.filter fun x => p ⟨x.tenant, x.lnum, x.wid⟩).length

/-- R74: the live threads that `kill` waits for. -/
def State.matched (s : State) (p : ResvKey → Bool) : List Nat := (s.threads.filter fun e => p e.2).map Prod.fst

/-- R74: one of these threads is still live. -/
def State.anyLive (s : State) (tids : List Nat) : Bool := s.threads.any fun e => tids.contains e.1

/-- KILL, R74. -/
def execKill (gd : Guard) (d a : GReg) (k : BitVec 5) (s : State) : Res :=
  halfPark gd (.kill gd d a k) s false fun s =>
    let p := killMatches s.rd k.toNat (s.g a)
    let n := s.killable p
    let t := s.killWhere p
    let left := t.matched p
    if p s.rd.key then t
    else if left.isEmpty then t.setG d (w64 n)
    else t.parkAt t.cur (.kill n left) (.kill gd d a k) []

/-- GANG, R75. A partner that is FREE and that goes to an entry of the landing buffer (R193) is not to be had: status 1, as
for one that is not FREE, which is the model's choice (log entry 97). -/
def execGang (gd : Guard) (d : GReg) (s : State) : Res :=
  half gd s fun s =>
    let p := partner s.cur
    if caKind s.core ≠ .compute then s.setG d 3
    else if caSlot s.cur % 2 = 1 then s.setG d 2
    else if s.rd.gang then s.setG d 0
    else
      let t := (s.setSlot p { Slot.free with st := .ganghi }).upd (Ctx.setPs 2 true)
      if s.takable p then (t.upd Ctx.dropUpper).setG d 0
      else if (s.slot p).st = .held then t.setG d 0
      else s.setG d 1

/-- SPLIT, R75. -/
def execSplit (gd : Guard) (s : State) : Res :=
  half gd s fun s =>
    let p := partner s.cur
    let t := (((s.setSlot p Slot.free).noteFree p).upd (Ctx.setPs 2 false)).upd Ctx.dropUpper
    if s.rd.gang then t
    else if caKind s.core = .compute ∧ caSlot s.cur % 2 = 0 then
      match (s.slot p).st with
      | .held => t
      | _ => s
    else s

/-- WFLD, R76. -/
def execWfld (gd : Guard) (d : GReg) (k : BitVec 5) (s : State) : Res :=
  half gd s fun s =>
    let sh := s.rd.cr.wshape
    s.setG d (w64 ((unitOf sh s.rd.cr.wid k.toNat).toNat % 2 ^ shapeWidth sh k.toNat))

/-- R77: the logical cores of a die, in order. -/
def State.logicalCores (s : State) (die : Nat) : List Nat :=
  ((List.range 1023).map (caOfIndex die)).filter s.coreEnabled

/-- CMAP, R77. -/
def execCmap (gd : Guard) (d a : GReg) (s : State) : Res :=
  half gd s fun s =>
    let v := s.g a
    let core := if bitsAt v 63 13 ≠ 0 then none else (s.logicalCores (bitsAt v 12 10))[bitsAt v 9 0]?
    s.setG d (match core with | some c => w64 c | none => allOnes)

end Sys2Proof.Machine
end

