-- ==== Sys2Proof/Machine/Mailbox.lean ====
section
/-!
DEFINITION. The instructions of the mesh (R200 to R207).
-/

namespace Sys2Proof.Machine

/-! ## Targets and sources -/

/-- R196, R200: the checks of a target core, with the trap value that they carry. -/
def State.targetCheck (s : State) (core : Nat) (v : W64) : Option Trap :=
  if !s.coreEnabled core then some ⟨0x04, v⟩
  else if !(rectOf s.rd.cr.lrect).hasCore core || (isCobbler core && s.rd.cr.tenant != 0) then some ⟨0x06, v⟩
  else none

/-- R200: a value that names a compute core; its slot field is ignored. -/
def meshTargetOk (t : W64) : Bool := t &&& ~~~0x00F03F7F#64 == 0

/-- The bytes of staging memory that a station core addresses as its own (R201). -/
def paStaging (core off : Nat) : Nat := 9 * 2 ^ 60 + caY core * 2 ^ 40 + caX core * 2 ^ 32 + off

/-- R201, R207: n bytes at s of the issuing core's own TCM. Which addresses name a station core's staging memory is not stated:
the offsets below 0x4000, and cause 0x04 for others, are the model's choice (log entry 92). -/
def State.ownRun (s : State) (ea : W64) (n : Nat) : Except Trap (List Byte) :=
  let off := bitsAt ea 16 0
  if caKind s.core = .station then
    if ea.toNat + n ≤ 0x4000 then .ok (s.readBytes (paStaging s.core ea.toNat) n) else .error ⟨0x04, ea⟩
  else if !ownTcmForm s.core ea || (bitsAt ea 63 60 == 0 && bitsAt ea 59 17 != 0) ||
      (bitsAt ea 63 60 == 1 && ea &&& formBad1 != 0) || decide (0x20000 < off + n) then .error ⟨0x04, ea⟩
  else
    match s.tcmAt s.core s.rd.ten ea, s.tcmAt s.core s.rd.ten (ea + w64 (n - 1)) with
    | .at_ pa, .at_ _ =>
      (match s.badWord ea [(pa, n)] with
       | some v => .error ⟨0x09, v⟩
       | none => .ok (s.readBytes pa n))
    | .trap t, _ => .error ⟨t.cause, ea⟩
    | _, .trap t => .error ⟨t.cause, ea⟩
    | _, _ => .error ⟨0x04, ea⟩

/-- R148: the words that a run of the issuing core's own TCM reads are corrected. -/
def State.correctRun (s : State) (ea : W64) (n : Nat) : State :=
  if caKind s.core = .station then s else s.correct (paTcm s.core (bitsAt ea 16 0)) n

/-- The sender of a packet, as a mailbox records it. -/
def State.senderOf (s : State) : BitVec 32 := BitVec.ofNat 32 s.cur

/-- The reading in force as a bit. -/
def State.nanBit (s : State) : Bool := bitAt s.rd.cr.nanrd 0

/-! ## send and send.l -/

/-- R200: the message of the executing slot lands, and its answer arrives. -/
def sendLands (d a : GReg) (v : VReg) (mb : BitVec 4) (s : State) : State :=
  let t := s.g a
  match s.landMessage (caTileOf t.toNat) mb.toNat s.rd.ten s.nanBit s.senderOf
      (mailHeader s.cur mb.toNat 0 0 s.nanBit) ((s.rd.getV v).truncate 512) with
  | (.prot, _) => s.trap 0x06 t
  | (.accepted, u) => u.setG d 0
  | (_, u) => u.setG d 1

/-- SEND, R200. -/
def execSend (gd : Guard) (d a : GReg) (v : VReg) (mb : BitVec 4) (s : State) : Res :=
  half gd s fun s =>
    let t := s.g a
    s.unlessPure t fun s =>
      if !meshTargetOk t then s.trap 0x04 t
      else
        match s.targetCheck (caTileOf t.toNat) t with
        | some e => s.takeTrap s.cur e
        | none =>
          s.afterStores (.send gd d a v mb) (fun _ => true) [] fun s =>
            if s.slow || s.mustQueue (.send gd d a v mb) then s.parkAt s.cur .flight (.send gd d a v mb) [] else sendLands d a v mb s

/-- R201: the data of the executing slot land, and their answer arrives. -/
def runLands (dst : W64) (n : Nat) (data : List Byte) (s : State) : State :=
  let core := caTile (bitsAt dst 38 32) (bitsAt dst 45 40)
  match s.landRun core n s.rd.ten s.nanBit s.senderOf (bitsAt dst 16 0) data with
  | (.prot, _) => s.trap 0x06 dst
  | (.hole, _) => s.trap 0x04 dst
  | (_, u) => u

/-- SEND_L, R201. -/
def execSendL (gd : Guard) (a b : GReg) (tag : BitVec 4) (len : BitVec 12) (s : State) : Res :=
  half gd s fun s =>
    let src := s.g b
    let dst := s.g a
    let n := len.toNat
    let core := caTile (bitsAt dst 38 32) (bitsAt dst 45 40)
    s.unlessPure dst fun s =>
      if src.toNat % 8 ≠ 0 then s.trap 0x03 src
      else if dst.toNat % 8 ≠ 0 then s.trap 0x03 dst
      else
        let run := s.ownRun src n
        match run with
        | .error ⟨0x04, v⟩ => s.trap 0x04 v
        | _ =>
          if bitsAt dst 63 60 ≠ 1 ∨ dst &&& formBad1 ≠ 0 ∨ 0x20000 < bitsAt dst 16 0 + n then s.trap 0x04 dst
          else
            match s.targetCheck core dst with
            | some e => s.takeTrap s.cur e
            | none =>
              match run with
              | .error e => s.takeTrap s.cur e
              | .ok data =>
                (s.correctRun src n).afterStoresWith (.sendL gd a b tag len) data (fun _ => true) [] fun s =>
                  if s.slow || s.mustQueue (.sendL gd a b tag len) then s.parkAt s.cur .flight (.sendL gd a b tag len) data else runLands dst tag.toNat data s

/-! ## recv, waitc, mbc and mbclr -/

/-- RECV, R202. -/
def execRecv (gd : Guard) (d a : GReg) (v : VReg) (s : State) : Res :=
  halfPark gd (.recv gd d a v) s false fun s =>
    let m := s.g a
    if bitsAt m 15 0 = 0 then s.setG d 0
    else
      match s.takeMail s.core m s.nanBit with
      | .none => if bitAt m 16 then s.setG d 0 else s.parkAt s.cur .mailbox (.recv gd d a v) []
      | .trap t => s.takeTrap s.cur t
      | .entry h p t => (t.setG d h).setV v (p.zeroExtend 1024)

/-- WAITC, R203. -/
def execWaitc (gd : Guard) (d a : GReg) (k : BitVec 4) (s : State) : Res :=
  halfPark gd (.waitc gd d a k) s false fun s =>
    let want : BitVec 32 := (s.g a).truncate 32
    let b := s.box s.core k.toNat
    if b.mismatch s.nanBit then s.takeTrap s.cur (b.mismatchTrap k.toNat s.nanBit)
    else if want = 0 then s.setG d (zext b.cnt)
    else
      match s.takeCount s.core k.toNat want s.nanBit with
      | none => s.parkAt s.cur .counter (.waitc gd d a k) []
      | some (.error t) => s.takeTrap s.cur t
      | some (.ok (v, t)) => t.setG d v

/-- MBC, R204. -/
def execMbc (gd : Guard) (d : GReg) (k : BitVec 4) (s : State) : Res :=
  half gd s fun s => s.setG d (s.box s.core k.toNat).word

/-- MBCLR, R205. -/
def execMbclr (gd : Guard) (d a : GReg) (s : State) : Res :=
  half gd s fun s =>
    let m := s.g a
    let l := (List.range 16).filter fun n => bitAt m n
    let n := if bitAt m 16 then l.foldl (fun acc k => acc + (s.box s.core k).ents.length) 0 else 0
    (l.foldl (fun t k => t.setBox s.core k ((t.box s.core k).clear (bitAt m 16))) s).setG d (w64 n)

/-! ## mcast -/

/-- R206: the cores that a multicast reaches. -/
def State.castTargets (s : State) (r : Rect) (off len : Nat) : List Nat :=
  r.tiles.filter fun t =>
    t != s.core && s.coreEnabled t && (!isCobbler t || s.rd.cr.tenant == 0) && s.mayLandAt t s.rd.ten && s.runOk t off len

/-- R206: every copy lands; the count of those accepted. That all copies land in one step, and that an `mcast` waits behind the earlier
packets to any of its targets, is the model's choice (log entry 105). -/
def castLands (d : GReg) (off n : Nat) (r : Rect) (data : List Byte) (s : State) : State :=
  let res := (s.castTargets r off data.length).foldl (fun (acc : Nat × State) t =>
    match acc.2.landRun t n s.rd.ten s.nanBit s.senderOf off data with
    | (.accepted, u) => (acc.1 + 1, u)
    | (_, u) => (acc.1, u)) (0, s)
  res.2.setG d (w64 res.1)

/-- MCAST, R206, R207. -/
def execMcast (gd : Guard) (d a : GReg) (s : State) : Res :=
  half gd s fun s =>
    let src := s.g a
    let off := s.gAt a 1
    let rect := s.gAt a 2
    let lw := s.gAt a 3
    let r := rectOf rect
    let n := bitsAt lw 8 0
    let bad1 := decide (0x20000 ≤ off.toNat) || decide (0x20000 < off.toNat + n)
    s.unlessPure src fun s =>
      if src.toNat % 8 ≠ 0 then s.trap 0x03 src
      else if off.toNat % 8 ≠ 0 then s.trap 0x03 off
      else
        let run := s.ownRun src n
        match run with
        | .error ⟨0x04, v⟩ => s.trap 0x04 v
        | _ =>
          if bad1 then s.trap 0x04 off
          else if rect &&& rectReserved ≠ 0 ∨ bitAt rect 31 then s.trap 0x04 rect
          else if lw &&& ~~~0xF01FF#64 ≠ 0 ∨ n % 8 ≠ 0 ∨ n < 8 ∨ 256 < n then s.trap 0x04 lw
          else if r.isEmpty then s.trap 0x04 rect
          else if !((rectOf s.rd.cr.lrect).has r.xlo r.ylo && (rectOf s.rd.cr.lrect).has r.xhi r.yhi) then s.trap 0x06 rect
          else
            match run with
            | .error e => s.takeTrap s.cur e
            | .ok data =>
              let s := s.correctRun src n
              if (s.castTargets r off.toNat n).isEmpty then s.setG d 0
              else
                s.afterStoresWith (.mcast gd d a) data (fun _ => true) [] fun s =>
                  if s.slow || s.mustQueue (.mcast gd d a) then s.parkAt s.cur .flight (.mcast gd d a) data
                  else castLands d off.toNat (bitsAt lw 19 16) r data s

end Sys2Proof.Machine
end

