-- ==== Sys2Proof/Machine/Flags.lean ====
section
/-!
DEFINITION. The sticky exception flags of `fpflags` (R89) and how an instruction raises them.
-/

namespace Sys2Proof.Machine

/-- R89: a set of exception flags in the layout of `fpflags`. -/
abbrev FlagSet := BitVec 5

/-- R89: invalid operation. -/
def flagNv : FlagSet := 1
/-- R89: division of a finite nonzero value by zero. -/
def flagDz : FlagSet := 2
/-- R89: overflow. -/
def flagOf : FlagSet := 4
/-- R89: underflow. -/
def flagUf : FlagSet := 8
/-- R89: inexact. -/
def flagNx : FlagSet := 16

/-- The flags f where b holds. -/
def flagIf (b : Bool) (f : FlagSet) : FlagSet := if b then f else 0

/-- R24, R89: OR flags into `fpflags`. A bundle's C-half has written it before. -/
def Ctx.raise (c : Ctx) (f : FlagSet) : Ctx := c.onCr fun r => { r with fpflags := r.fpflags ||| f.zeroExtend 64 }

/-- R24, R89: the executing bundle raises flags. -/
def State.raise (s : State) (f : FlagSet) : State := s.upd fun c => c.raise f

/-- R136: the executing bundle used stochastic rounding. -/
def State.bumpSrctr (s : State) : State := s.upd fun c => c.onCr fun r => { r with srctr := r.srctr + 1 }

end Sys2Proof.Machine
end

