-- ==== Sys2Proof/Machine/Fp.lean ====
section
/-!
DEFINITION. Floating point: the formats and their two readings (R122 to R126), exact values, one rounding (R88 to
R91, R135), the arithmetic of R91 to R97, and the conversions of R137. Every result is formed exactly, on integers,
and rounded once.
-/

namespace Sys2Proof.Machine

/-! ## Formats and values -/

/-- R122, R126: a format by the widths of its exponent and fraction, and its reading of the top exponent code. -/
structure Fmt where
  exp    : Nat
  frac   : Nat
  finite : Bool
  deriving DecidableEq, Repr

/-- R127: FP64 and FP32 take the IEEE reading. -/
def fmt64 : Fmt := ⟨11, 52, false⟩
def fmt32 : Fmt := ⟨8, 23, false⟩
/-- R126: FP16, BF16 and E8M10 take the reading of `nanrd`. -/
def fmt16 (finite : Bool) : Fmt := ⟨5, 10, finite⟩
def fmtB16 (finite : Bool) : Fmt := ⟨8, 7, finite⟩
def fmtE8M10 (finite : Bool) : Fmt := ⟨8, 10, finite⟩

/-- The width of a format. -/
def Fmt.width (f : Fmt) : Nat := 1 + f.exp + f.frac
/-- The bias of a format (R122). -/
def Fmt.bias (f : Fmt) : Nat := 2 ^ (f.exp - 1) - 1
/-- The sign bit of a format. -/
def Fmt.signBit (f : Fmt) : Nat := 2 ^ (f.exp + f.frac)
/-- The top exponent code. -/
def Fmt.top (f : Fmt) : Nat := 2 ^ f.exp - 1
/-- R122, R126: the canonical NaN. -/
def Fmt.nan (f : Fmt) : Nat := if f.finite then 2 ^ f.width - 1 else f.top * 2 ^ f.frac + 2 ^ (f.frac - 1)
/-- The pattern of an infinity of the IEEE reading. -/
def Fmt.inf (f : Fmt) (neg : Bool) : Nat := f.top * 2 ^ f.frac + (if neg then f.signBit else 0)
/-- R122, R126: the magnitude bits of the largest finite value of a sign. -/
def Fmt.maxMag (f : Fmt) (neg : Bool) : Nat :=
  if f.finite then (if neg then f.signBit - 2 else f.signBit - 1) else f.top * 2 ^ f.frac - 1

/-- An exact value: a NaN, an infinity, or (-1)^neg · m · 2^e. -/
inductive FVal where
  | nan (signalling : Bool)
  | inf (neg : Bool)
  | fin (neg : Bool) (m : Nat) (e : Int)
  deriving DecidableEq, Repr

/-- R123: the format has signalling NaNs: every E8M10 NaN is quiet. -/
def Fmt.signals (f : Fmt) : Bool := f.exp != 8 || f.frac != 10

/-- R123, R126: the value of a pattern. -/
def Fmt.value (f : Fmt) (x : Nat) : FVal :=
  let neg := decide (x / f.signBit % 2 = 1)
  let e := x / 2 ^ f.frac % 2 ^ f.exp
  let m := x % 2 ^ f.frac
  let low : Int := 1 - (f.bias : Int) - f.frac
  if f.finite && x % 2 ^ f.width == 2 ^ f.width - 1 then .nan false
  else if e = f.top ∧ f.finite = false then
    if m = 0 then .inf neg else .nan (f.signals && decide (m < 2 ^ (f.frac - 1)))
  else if e = 0 then .fin neg m low
  else .fin neg (m + 2 ^ f.frac) (low + (e - 1 : Nat))

/-- A NaN. -/
def FVal.isNan : FVal → Bool
  | .nan _ => true
  | _ => false
/-- A signalling NaN. -/
def FVal.isSnan : FVal → Bool
  | .nan b => b
  | _ => false
/-- An infinity. -/
def FVal.isInf : FVal → Bool
  | .inf _ => true
  | _ => false
/-- A zero of either sign. -/
def FVal.isZero : FVal → Bool
  | .fin _ m _ => m == 0
  | _ => false
/-- The sign of a value that is not a NaN. -/
def FVal.sign : FVal → Bool
  | .nan _ => false
  | .inf n => n
  | .fin n _ _ => n
/-- The value with its sign inverted. -/
def FVal.negate : FVal → FVal
  | .nan b => .nan b
  | .inf n => .inf !n
  | .fin n m e => .fin (!n) m e

/-! ## Rounding -/

/-- R88, R135: the rounding of one result. The stochastic rule carries its 32 bits. -/
inductive Rnd where
  | rne | rtz | rup | rdn
  | sr (r : Nat)
  deriving DecidableEq, Repr

/-- R88: the mode that `rmode` selects. -/
def rndOf (m : W64) : Rnd :=
  match m.toNat % 4 with
  | 0 => .rne
  | 1 => .rtz
  | 2 => .rup
  | _ => .rdn

/-- The number of binary digits of a number. -/
def bitLen (n : Nat) : Nat := if n = 0 then 0 else n.log2 + 1

/-- R88, R135: whether a magnitude is rounded up, away from zero. `kept` are its units, `rem` of 2^shift parts of a
unit are left, and `sticky` says that something smaller is left as well. -/
def Rnd.up (rm : Rnd) (neg : Bool) (kept rem shift : Nat) (sticky : Bool) : Bool :=
  let inexact := rem != 0 || sticky
  match rm with
  | .rne => decide (2 ^ shift < 2 * rem) || (2 * rem == 2 ^ shift && (sticky || kept % 2 == 1))
  | .rtz => false
  | .rup => !neg && inexact
  | .rdn => neg && inexact
  | .sr r => decide (r < 2 ^ 32 * rem / 2 ^ shift)

/-- R91, R126: what an overflow delivers. -/
def Fmt.overflow (f : Fmt) (rm : Rnd) (neg : Bool) : Nat :=
  let big := match rm with
    | .rne | .sr _ => true
    | .rtz => false
    | .rup => !neg
    | .rdn => neg
  let s := if neg then f.signBit else 0
  if big && !f.finite then f.inf neg else f.maxMag neg + s

/-- The units of a magnitude m · 2^e at the quantum 2^q, with the parts left over: kept, rem and shift. -/
def quantise (m : Nat) (e q : Int) : Nat × Nat × Nat :=
  if q ≤ e then (m * 2 ^ (e - q).toNat, 0, 0)
  else
    let sh := (q - e).toNat
    (m / 2 ^ sh, m % 2 ^ sh, sh)

/-- R89 to R91, R126, R135: round the magnitude m · 2^e, plus something smaller than 2^e where sticky holds, with a
sign, into a format. A BF16 or E8M10 value of the finite reading from 2^128 up overflows FP32 here, though R137 calls the
conversion exact: the model's choice (DEDUCED, log entry 82). -/
def Fmt.round (f : Fmt) (rm : Rnd) (neg : Bool) (m : Nat) (e : Int) (sticky : Bool) : Nat × FlagSet :=
  let s := if neg then f.signBit else 0
  if m = 0 ∧ sticky = false then (s, 0)
  else
    let top : Int := e + (bitLen m : Int) - 1
    let emin : Int := 1 - (f.bias : Int)
    let q := max (top - f.frac) (emin - f.frac)
    let (kept, rem, sh) := quantise m e q
    let inexact := rem != 0 || sticky
    let base := (q - (emin - f.frac)).toNat * 2 ^ f.frac
    let beyond := decide (f.maxMag neg < base + kept) || (f.maxMag neg == base + kept && inexact)
    let rm := match rm with
      | .sr r => if beyond then .rne else .sr r
      | r => r
    let mag := base + kept + (if rm.up neg kept rem sh sticky then 1 else 0)
    if f.maxMag neg < mag then (f.overflow rm neg, flagOf ||| flagNx)
    else
      let tiny :=
        if emin ≤ top then false
        else if top < emin - 1 then true
        else
          let (k, r, sh2) := quantise m e (top - f.frac)
          decide (k + (if rm.up neg k r sh2 sticky then 1 else 0) < 2 ^ (f.frac + 1))
      (mag + s, flagIf inexact flagNx ||| flagIf (inexact && tiny) flagUf)

/-- R91, R126: an infinite result. Under the finite reading it saturates. -/
def Fmt.infinite (f : Fmt) (neg : Bool) : Nat × FlagSet :=
  if f.finite then (f.maxMag neg + (if neg then f.signBit else 0), flagOf ||| flagNx) else (f.inf neg, 0)

/-- Deliver an exact value in a format. -/
def Fmt.deliver (f : Fmt) (rm : Rnd) : FVal → Nat × FlagSet
  | .nan _ => (f.nan, 0)
  | .inf n => f.infinite n
  | .fin n m e => f.round rm n m e false

/-! ## Exact arithmetic -/

/-- Two finite magnitudes as integers at one exponent, with their signs. -/
def alignTo (n1 : Bool) (m1 : Nat) (e1 : Int) (n2 : Bool) (m2 : Nat) (e2 : Int) : Int × Int × Int :=
  let e := min e1 e2
  let a : Int := (m1 * 2 ^ (e1 - e).toNat : Nat)
  let b : Int := (m2 * 2 ^ (e2 - e).toNat : Nat)
  (if n1 then -a else a, if n2 then -b else b, e)

/-- R91: the exact sum; an exact zero sum takes its sign from the mode. The flags are those of an invalid operation. -/
def FVal.add (rm : Rnd) (x y : FVal) : FVal × FlagSet :=
  match x, y with
  | .nan a, .nan b => (.nan false, flagIf (a || b) flagNv)
  | .nan a, _ => (.nan false, flagIf a flagNv)
  | _, .nan b => (.nan false, flagIf b flagNv)
  | .inf a, .inf b => if a = b then (.inf a, 0) else (.nan false, flagNv)
  | .inf a, _ => (.inf a, 0)
  | _, .inf b => (.inf b, 0)
  | .fin n1 m1 e1, .fin n2 m2 e2 =>
    let (a, b, e) := alignTo n1 m1 e1 n2 m2 e2
    let t := a + b
    if t = 0 then
      let neg := if m1 = 0 ∧ m2 = 0 ∧ n1 = n2 then n1 else rm == .rdn
      (.fin neg 0 0, 0)
    else (.fin (decide (t < 0)) t.natAbs e, 0)

/-- R91: the exact product. -/
def FVal.mul (x y : FVal) : FVal × FlagSet :=
  match x, y with
  | .nan a, .nan b => (.nan false, flagIf (a || b) flagNv)
  | .nan a, _ => (.nan false, flagIf a flagNv)
  | _, .nan b => (.nan false, flagIf b flagNv)
  | .inf a, .inf b => (.inf (a != b), 0)
  | .inf a, .fin n m _ => if m = 0 then (.nan false, flagNv) else (.inf (a != n), 0)
  | .fin n m _, .inf b => if m = 0 then (.nan false, flagNv) else (.inf (n != b), 0)
  | .fin n1 m1 e1, .fin n2 m2 e2 => (.fin (n1 != n2) (m1 * m2) (e1 + e2), 0)

/-- R91: a sum or product in a format. -/
def Fmt.sum (f : Fmt) (rm : Rnd) (x y : FVal) : Nat × FlagSet :=
  let (v, fl) := x.add rm y
  let (r, g) := f.deliver rm v
  (r, fl ||| g)
def Fmt.product (f : Fmt) (rm : Rnd) (x y : FVal) : Nat × FlagSet :=
  let (v, fl) := x.mul y
  let (r, g) := f.deliver rm v
  (r, fl ||| g)

/-- R91, R92: x · y + z with one rounding. -/
def Fmt.fused (f : Fmt) (rm : Rnd) (x y z : FVal) (negProduct : Bool) : Nat × FlagSet :=
  let (p, fl) := x.mul y
  let (v, fl2) := (if negProduct then p.negate else p).add rm z
  let (r, g) := f.deliver rm v
  (r, fl ||| fl2 ||| g)

/-- The places that a quotient or a root is computed to beyond the precision of a format. -/
def extraBits (f : Fmt) : Nat := 2 * f.frac + 8

/-- R91: the quotient. -/
def Fmt.quotient (f : Fmt) (rm : Rnd) (x y : FVal) : Nat × FlagSet :=
  match x, y with
  | .nan a, .nan b => (f.nan, flagIf (a || b) flagNv)
  | .nan a, _ => (f.nan, flagIf a flagNv)
  | _, .nan b => (f.nan, flagIf b flagNv)
  | .inf _, .inf _ => (f.nan, flagNv)
  | .inf a, .fin n _ _ => f.infinite (a != n)
  | .fin n _ _, .inf b => (if n != b then f.signBit else 0, 0)
  | .fin n1 m1 e1, .fin n2 m2 e2 =>
    let neg := n1 != n2
    if m2 = 0 then
      if m1 = 0 then (f.nan, flagNv)
      else
        let (r, g) := f.infinite neg
        (r, flagDz ||| g)
    else if m1 = 0 then (if neg then f.signBit else 0, 0)
    else
      let k := extraBits f + bitLen m2
      let n := m1 * 2 ^ k
      f.round rm neg (n / m2) (e1 - e2 - k) (n % m2 != 0)

/-- One binary digit of a square root: r is the root so far of the upper digits of n. -/
def sqrtStep (n r i : Nat) : Nat := if (r + 2 ^ i) * (r + 2 ^ i) ≤ n then r + 2 ^ i else r

/-- The integer square root of n, by the digits below place i. -/
def sqrtFrom (n : Nat) : Nat → Nat → Nat
  | 0, r => r
  | i + 1, r => sqrtFrom n i (sqrtStep n r i)

/-- The integer square root. -/
def natSqrt (n : Nat) : Nat := sqrtFrom n (bitLen n / 2 + 1) 0

/-- R91: the square root. -/
def Fmt.root (f : Fmt) (rm : Rnd) : FVal → Nat × FlagSet
  | .nan a => (f.nan, flagIf a flagNv)
  | .inf n => if n then (f.nan, flagNv) else f.infinite false
  | .fin n m e =>
    if m = 0 then (if n then f.signBit else 0, 0)
    else if n then (f.nan, flagNv)
    else
      let k := 2 * extraBits f + (if e % 2 = 0 then 0 else 1)
      let v := m * 2 ^ k
      let r := natSqrt v
      f.round rm false r ((e - k) / 2) (r * r != v)

/-! ## Comparison -/

/-- R96: x < y for values that are not NaNs. -/
def FVal.lt (x y : FVal) : Bool :=
  match x, y with
  | .inf a, .inf b => a && !b
  | .inf a, _ => a
  | _, .inf b => !b
  | .fin n1 m1 e1, .fin n2 m2 e2 =>
    let (a, b, _) := alignTo n1 m1 e1 n2 m2 e2
    decide (a < b)
  | _, _ => false

/-- R96: equality of values that are not NaNs, with +0 = -0. -/
def FVal.eqv (x y : FVal) : Bool :=
  match x, y with
  | .nan _, _ => false
  | _, .nan _ => false
  | _, _ => !x.lt y && !y.lt x

/-- R93: the order of `fmin` and `fmax`, in which -0 is below +0. -/
def FVal.below (x y : FVal) : Bool := x.lt y || (x.isZero && y.isZero && x.sign && !y.sign)

/-- R93: the lesser or the greater of two patterns. -/
def Fmt.least (f : Fmt) (x y : Nat) : Nat × FlagSet :=
  let a := f.value x
  let b := f.value y
  let fl := flagIf (a.isSnan || b.isSnan) flagNv
  if a.isNan then (if b.isNan then f.nan else y, fl)
  else if b.isNan then (x, fl)
  else (if b.below a then y else x, fl)
def Fmt.greatest (f : Fmt) (x y : Nat) : Nat × FlagSet :=
  let a := f.value x
  let b := f.value y
  let fl := flagIf (a.isSnan || b.isSnan) flagNv
  if a.isNan then (if b.isNan then f.nan else y, fl)
  else if b.isNan then (x, fl)
  else (if a.below b then y else x, fl)

/-- R96, R174: the conditions of `fcmp` and `vcmp` on floating-point values, with their flags. -/
def fpEq (a b : FVal) : Bool × FlagSet := (a.eqv b, flagIf (a.isSnan || b.isSnan) flagNv)
def fpUn (a b : FVal) : Bool × FlagSet := (a.isNan || b.isNan, flagIf (a.isSnan || b.isSnan) flagNv)
def fpLt (a b : FVal) : Bool × FlagSet := (!a.isNan && !b.isNan && a.lt b, flagIf (a.isNan || b.isNan) flagNv)
def fpLe (a b : FVal) : Bool × FlagSet :=
  (!a.isNan && !b.isNan && (a.lt b || a.eqv b), flagIf (a.isNan || b.isNan) flagNv)

/-! ## Bits -/

/-- R94, R173: clear the sign. Under the finite reading the NaN pattern is kept. -/
def Fmt.absBits (f : Fmt) (x : Nat) : Nat :=
  if f.finite && x == f.nan then x else x % f.signBit

/-- R94, R126, R173: invert the sign. Under the finite reading the NaN pattern is kept, and the negation that would
be the NaN pattern gives the most negative value. -/
def Fmt.negBits (f : Fmt) (x : Nat) : Nat :=
  if f.finite && x == f.nan then x
  else
    let r := if x / f.signBit % 2 = 1 then x % f.signBit else x % f.signBit + f.signBit
    if f.finite && r == f.nan then r - 1 else r

/-- R95: the class of a pattern, one bit set. -/
def Fmt.classOf (f : Fmt) (x : Nat) : Nat :=
  let sub := decide (x % f.signBit < 2 ^ f.frac)
  match f.value x with
  | .nan b => if b then 2 else 1
  | .inf n => if n then 2 ^ 9 else 2 ^ 2
  | .fin n m _ =>
    if m = 0 then (if n then 2 ^ 6 else 2 ^ 5)
    else if sub then (if n then 2 ^ 7 else 2 ^ 4)
    else if n then 2 ^ 8 else 2 ^ 3

/-! ## Conversions -/

/-- R97, R135, R137: a value rounded to an integer of w bits, saturated to its range. That a stochastic rounding to the nearest
starts beyond the limit of the value's own sign is the model's reading (DEDUCED, log entry 121). -/
def FVal.toInt (v : FVal) (rm : Rnd) (w : Nat) (unsigned : Bool) : Nat × FlagSet :=
  let lo : Int := if unsigned then 0 else -(2 ^ (w - 1) : Nat)
  let hi : Int := if unsigned then (2 ^ w - 1 : Nat) else (2 ^ (w - 1) - 1 : Nat)
  let put (n : Int) : Nat := (n % (2 ^ w : Nat)).toNat
  match v with
  | .nan _ => (0, flagNv)
  | .inf n => (put (if n then lo else hi), flagNv)
  | .fin n m e =>
    let (kept, rem, sh) := quantise m e 0
    let lim := if n then (-lo).toNat else hi.toNat
    let rm : Rnd := match rm with
      | .sr r => if lim < kept ∨ lim = kept ∧ rem ≠ 0 then .rne else .sr r
      | r => r
    let mag := kept + (if rm.up n kept rem sh false then 1 else 0)
    let r : Int := if n then -(mag : Int) else mag
    if r < lo then (put lo, flagNv)
    else if hi < r then (put hi, flagNv)
    else (put r, flagIf (rem != 0) flagNx)

/-- An integer as an exact value. -/
def FVal.ofInt (n : Int) : FVal := .fin (decide (n < 0)) n.natAbs 0

/-- R97, R137: a value of one format in another, rounded once. -/
def Fmt.convert (f : Fmt) (rm : Rnd) (v : FVal) : Nat × FlagSet :=
  let (r, g) := f.deliver rm v
  (r, g ||| flagIf v.isSnan flagNv)

/-- R97, R137: an integer in a format; the only flags are nx, and of where the result overflows. -/
def Fmt.ofInt (f : Fmt) (rm : Rnd) (n : Int) : Nat × FlagSet := f.deliver rm (.ofInt n)

/-- R135: the 32 bits drawn for element i. -/
def srBits (seed ctr : W64) (i : Nat) : Nat :=
  let z := seed ^^^ (ctr * 0x9E3779B97F4A7C15#64) ^^^ (w64 i * 0xD1B54A32D192ED03#64)
  let z := (z ^^^ (z >>> 30)) * 0xBF58476D1CE4E5B9#64
  let z := (z ^^^ (z >>> 27)) * 0x94D049BB133111EB#64
  (z ^^^ (z >>> 31)).toNat / 2 ^ 32

/-- R137: the format of a floating-point element type under a reading. -/
def etyFmt (t : ETy) (finite : Bool) : Fmt :=
  match t with
  | .f16 => fmt16 finite
  | .bf16 => fmtB16 finite
  | .f32 => fmt32
  | _ => fmt64

/-- The signed value of a w-bit pattern. -/
def signedOf (w x : Nat) : Int := if x < 2 ^ (w - 1) then x else (x : Int) - (2 ^ w : Nat)

/-- R137: convert one element. -/
def convertElem (ts td : ETy) (finite : Bool) (rm : Rnd) (x : Nat) : Nat × FlagSet :=
  match ts.isFp, td.isFp with
  | true, true => (etyFmt td finite).convert rm ((etyFmt ts finite).value x)
  | true, false => ((etyFmt ts finite).value x).toInt rm td.width false
  | false, true => (etyFmt td finite).ofInt rm (signedOf ts.width x)
  | false, false =>
    let n := signedOf ts.width x
    let hi : Int := (2 ^ (td.width - 1) - 1 : Nat)
    let lo : Int := -(2 ^ (td.width - 1) : Nat)
    ((max lo (min hi n) % (2 ^ td.width : Nat)).toNat, 0)

end Sys2Proof.Machine
end

