-- ==== Sys2Proof/Machine/LoadStore.lean ====
section
/-!
DEFINITION. Loads and stores (R156, R157).
-/

namespace Sys2Proof.Machine

/-- R156: the address of a load or store: base plus displacement in units of its size. -/
def memEa (s : State) (a : GReg) (i : BitVec 9) (size : Nat) : W64 := s.g a + sext i * w64 size

/-- R156: a load of one item of n bytes, which ext makes into a register value. -/
def loadItem (gd : Guard) (i : Instr) (d a : GReg) (o : LdOrd) (off : BitVec 9) (n : Nat) (ext : Nat → W64) (s : State) : Res :=
  halfPark gd i s (s.ownForm (memEa s a off n)) fun s =>
    s.load i (memEa s a off n) n n (ldMode o) fun l s => s.setG d (ext (leNat l))

/-- R156: a store of the low n bytes of a register. -/
def storeItem (gd : Guard) (i : Instr) (d a : GReg) (o : StOrd) (off : BitVec 9) (n : Nat) (s : State) : Res :=
  halfPark gd i s (s.ownForm (memEa s a off n) || o == .relaxed) fun s =>
    s.store i (memEa s a off n) n o (leBytes n (s.g d).toNat) fun s => s

/-- A value of n bytes, sign-extended. -/
def sextBytes (n v : Nat) : W64 := wrap64 (signedOf (8 * n) v)

/-- LDB, R156. -/
def execLdb (gd : Guard) (d a : GReg) (o : LdOrd) (i : BitVec 9) (s : State) : Res :=
  loadItem gd (.ldb gd d a o i) d a o i 1 (sextBytes 1) s

/-- LDH, R156. -/
def execLdh (gd : Guard) (d a : GReg) (o : LdOrd) (i : BitVec 9) (s : State) : Res :=
  loadItem gd (.ldh gd d a o i) d a o i 2 (sextBytes 2) s

/-- LDW, R156. -/
def execLdw (gd : Guard) (d a : GReg) (o : LdOrd) (i : BitVec 9) (s : State) : Res :=
  loadItem gd (.ldw gd d a o i) d a o i 4 (sextBytes 4) s

/-- LDD, R156. -/
def execLdd (gd : Guard) (d a : GReg) (o : LdOrd) (i : BitVec 9) (s : State) : Res :=
  loadItem gd (.ldd gd d a o i) d a o i 8 w64 s

/-- LDBZ, R156. -/
def execLdbz (gd : Guard) (d a : GReg) (o : LdOrd) (i : BitVec 9) (s : State) : Res :=
  loadItem gd (.ldbz gd d a o i) d a o i 1 w64 s

/-- LDHZ, R156. -/
def execLdhz (gd : Guard) (d a : GReg) (o : LdOrd) (i : BitVec 9) (s : State) : Res :=
  loadItem gd (.ldhz gd d a o i) d a o i 2 w64 s

/-- LDWZ, R156. -/
def execLdwz (gd : Guard) (d a : GReg) (o : LdOrd) (i : BitVec 9) (s : State) : Res :=
  loadItem gd (.ldwz gd d a o i) d a o i 4 w64 s

/-- STB, R156. -/
def execStb (gd : Guard) (d a : GReg) (o : StOrd) (i : BitVec 9) (s : State) : Res :=
  storeItem gd (.stb gd d a o i) d a o i 1 s

/-- STH, R156. -/
def execSth (gd : Guard) (d a : GReg) (o : StOrd) (i : BitVec 9) (s : State) : Res :=
  storeItem gd (.sth gd d a o i) d a o i 2 s

/-- STW, R156. -/
def execStw (gd : Guard) (d a : GReg) (o : StOrd) (i : BitVec 9) (s : State) : Res :=
  storeItem gd (.stw gd d a o i) d a o i 4 s

/-- STD, R156. -/
def execStd (gd : Guard) (d a : GReg) (o : StOrd) (i : BitVec 9) (s : State) : Res :=
  storeItem gd (.std gd d a o i) d a o i 8 s

/-- LDV, R157: 64 bytes, or 128 in a ganged thread. -/
def execLdv (gd : Guard) (d : VReg) (a : GReg) (o : LdOrd) (i : BitVec 9) (s : State) : Res :=
  halfPark gd (.ldv gd d a o i) s (s.ownForm (memEa s a i 64)) fun s =>
    s.load (.ldv gd d a o i) (memEa s a i 64) 64 (s.rd.vlen / 8) (ldMode o) fun l s => s.setV d (ofVBytes l)

/-- STV, R157. -/
def execStv (gd : Guard) (d : VReg) (a : GReg) (o : StOrd) (i : BitVec 9) (s : State) : Res :=
  halfPark gd (.stv gd d a o i) s (s.ownForm (memEa s a i 64) || o == .relaxed) fun s =>
    s.store (.stv gd d a o i) (memEa s a i 64) 64 o (vBytes (s.rd.getV d) (s.rd.vlen / 8)) fun s => s

end Sys2Proof.Machine
end

