-- ==== Sys2Proof/Machine/BankPort.lean ====
section
/-!
DEFINITION. The bank port (R240) and the allocator: full/empty requests with their waiter lists (R249 to R251),
reservations (R252, R253), waiters that are woken with a trap, and the room that `halloc` finds (R241, R246).
-/

namespace Sys2Proof.Machine

/-! ## Full/empty words -/

/-- R249: the condition under which a full/empty instruction is served. -/
def feServed (i : Instr) (full : Bool) : Bool :=
  match i with
  | .ldfe _ _ _ _ | .ldff _ _ _ _ => full
  | .stef _ _ _ _ => !full
  | _ => true

/-- R249: a full/empty instruction that loads. -/
def feLoads (i : Instr) : Bool :=
  match i with
  | .ldfe _ _ _ _ | .ldff _ _ _ _ => true
  | _ => false

/-- R249: serve the full/empty instruction of slot k on the word at pa. -/
def State.feServe (s : State) (k : Nat) (i : Instr) (pa : Nat) : State :=
  let v := s.readW pa
  match i with
  | .ldfe _ d _ _ => (s.setFull pa false).deliver k fun c => c.setG d v
  | .ldff _ d _ _ => s.deliver k fun c => c.setG d v
  | .stef _ _ b _ | .stff _ _ b _ => (s.storeBytes pa (leBytes 8 ((s.slot k).ctx.getG b).toNat)).setFull pa true
  | _ => s

/-- The slots in the waiter list of a word, head first (R250). -/
def State.feWaiters (s : State) (pa : Nat) : List Nat :=
  s.waiting fun w => match w with | .fullEmpty a => a == pa | _ => false

/-- R250: one waiter as a scan meets it: served if its condition holds at that moment, else left in place. A load
of a poisoned word leaves the list with a trap (R245). -/
def State.feScanOne (s : State) (pa k : Nat) : State :=
  match (s.slot k).instr with
  | some i =>
    if !feServed i (s.isFull pa) then s
    else if feLoads i && s.isBad pa then s.reply k (some ⟨0x09, paEa pa⟩)
    else (s.feServe k i pa).reply k none
  | none => s

/-- R250: the scan of a word's waiter list. -/
def State.feScan (s : State) (pa : Nat) : State := (s.feWaiters pa).foldl (fun t k => t.feScanOne pa k) s

/-- The word that a parked slot waits at, in stacked memory. -/
def Wait.word (w : Wait) : Option Nat :=
  match w with
  | .fullEmpty a | .reservation a | .phase a => some a
  | _ => none

/-- R250, R252, R358: the 4,096 waiter entries that the bank groups of the station of a word share are all in use. -/
def State.waitersFull (s : State) (pa : Nat) : Bool :=
  let tile := caTileOf (s.bankOf pa)
  decide (4096 ≤ (s.waiting fun w => match w.word with | some a => caTileOf (s.bankOf a) == tile | none => false).length)

/-- R250: the executing slot's request i joins a list of waiters of the word at pa. Without a free entry it is held at the
station, and taken again later. -/
def State.joinWaiters (s : State) (w : Wait) (i : Instr) (pa : Nat) : State :=
  s.parkAt s.cur (if s.waitersFull pa then .flight else w) i []

/-- R249, R250: the bank port takes the full/empty instruction of the executing slot. -/
def State.feTake (s : State) (i : Instr) (pa : Nat) : State :=
  let full := s.isFull pa
  if !feServed i full then s.joinWaiters (.fullEmpty pa) i pa
  else if feLoads i && s.isBad pa then s.trap 0x09 (paEa pa)
  else
    let t := s.feServe s.cur i pa
    if t.isFull pa == full then t else t.feScan pa

/-! ## Waiters that are woken -/

/-- Wake every thread parked on a word that p names, with a trap of this cause (R243, R247). -/
def State.wakeWords (s : State) (p : Nat → Bool) (cause : BitVec 8) : State :=
  (s.waiting fun w => match w.word with | some a => p a | none => false).foldl (fun t k =>
    match (t.slot k).waits with
    | some (w, _) => (match w.word with | some a => t.reply k (some ⟨cause, paEa a⟩) | none => t)
    | none => t) s

/-! ## Reservations -/

/-- R252: the bank port takes an `lrw` of the executing slot, with destination d. The poison of a word counts at the grant. -/
def State.lrwTake (s : State) (i : Instr) (d : GReg) (pa : Nat) : State :=
  match s.holder pa with
  | some _ => s.joinWaiters (.reservation pa) i pa
  | none => if s.isBad pa then s.trap 0x09 (paEa pa) else (s.setHolder pa (some s.rd.key)).setG d (s.readW pa)

/-- R252: the bank port takes an `sch` (with its data) or an `sdrop` of the executing slot. -/
def State.holderTake (s : State) (pa : Nat) (data : Option W64) : State :=
  if s.holder pa != some s.rd.key then s.trap 0x06 (paEa pa)
  else
    let t := match data with
      | some v => s.storeBytes pa (leBytes 8 v.toNat)
      | none => s
    t.grantNext pa

/-! ## Room for blocks -/

/-- The blocks of an object. -/
def Obj.blocks (o : Obj) : Nat := o.size / 4096

/-- How many of the numbers below n are r modulo m. -/
def countMod (n r m : Nat) : Nat := (n + m - 1 - r % m) / m

/-- The sum of a number over all objects. -/
def State.sumObjs (s : State) (f : Nat → Obj → Nat) : Nat :=
  s.objs.foldl (fun n e => if e.2.used then n + f (e.1 / 2 ^ 20) e.2 else n) 0

/-- The blocks of a tenant's objects. -/
def State.blocksOf (s : State) (tenant : Nat) : Nat := s.sumObjs fun t o => if t = tenant then o.blocks else 0

/-- R244, R248: the bank groups in service on a stack. -/
def State.groupsInService (s : State) (die : Nat) : Nat :=
  16384 - (s.retired.filter fun e => e.2 && caDie e.1 == die).length

/-- The blocks of all objects that are not lost: tenant, handle, block. -/
def State.liveBlocks (s : State) : List (Nat × Nat × Nat) :=
  s.objs.flatMap fun e =>
    let (t, h) := (e.1 / 2 ^ 20, e.1 % 2 ^ 20)
    if e.2.used then (List.range e.2.blocks).filterMap fun b => if (s.blk t h b).lost then none else some (t, h, b) else []

/-- R240: the bank groups in which blocks take room, once for each block: its own, and the one to which it is in motion. -/
def State.placesTaken (s : State) : List Nat :=
  s.liveBlocks.flatMap fun x => s.blockHome x.1 x.2.1 x.2.2 :: (s.blk x.1 x.2.1 x.2.2).dest.toList

/-- R240: the free blocks of a bank group, of 8 MiB, where taken are the places that blocks take. -/
def State.groupRoom (s : State) (taken : List Nat) (bank : Nat) : Nat := if s.groupUsable bank then 2048 - taken.count bank else 0

/-- The bank groups tapped by the station under a tile. -/
def stationBanks (tile : Nat) : List Nat := (List.range 16).map (groupOf tile)

/-- The free blocks under a station. -/
def State.stationRoom (s : State) (taken : List Nat) (tile : Nat) : Nat :=
  (stationBanks tile).foldl (fun n g => n + s.groupRoom taken g) 0

/-- The stations of a stack that have room, each with its free blocks, beginning with the one of index n. -/
def State.stationRooms (s : State) (taken : List Nat) (die n : Nat) : List (Nat × Nat) :=
  (((List.range 1024).map fun j => caOfIndex die ((n + j) % 1024)).map fun t => (t, s.stationRoom taken t)).filter fun e => e.2 != 0

/-- The free blocks of stations. -/
def roomOf (l : List (Nat × Nat)) : Nat := l.foldl (fun n e => n + e.2) 0

/-- R241: n blocks can stand under these stations, successive ones under different stations. -/
def spreadOk (l : List (Nat × Nat)) (n : Nat) : Bool := decide (n ≤ l.foldl (fun k e => k + min e.2 ((n + 1) / 2)) 0)

/-- The station with the most room but for one that is left out; of equals, the first. -/
def roomiest (l : List (Nat × Nat)) (but : Option Nat) : Option Nat :=
  (l.foldl (fun (best : Option (Nat × Nat)) e =>
    if some e.1 == but then best
    else match best with
      | some b => if b.2 < e.2 then some e else best
      | none => some e) none).map Prod.fst

/-- One place is taken under a station. -/
def takeRoom (l : List (Nat × Nat)) (tile : Nat) : List (Nat × Nat) :=
  (l.map fun e => if e.1 = tile then (e.1, e.2 - 1) else e).filter fun e => e.2 != 0

/-- R241: bank groups for n blocks, which go to lists of stations in turn; apart says that successive blocks stand under
different stations. The group of each block, among those of its station that have room, is a free value of seed. -/
def State.layOut (s : State) (seed : Nat) (apart : Bool) : Nat → List (List (Nat × Nat)) → List Nat → Option Nat → List Nat
  | 0, _, _, _ => []
  | n + 1, turns, taken, last =>
    let tile := ((turns.head?.bind fun l => roomiest l (if apart then last else none))).getD 0
    let free := (stationBanks tile).filter fun g => s.groupRoom taken g != 0
    let g := free[Config.freePlace seed n % free.length]?.getD (groupOf tile 0)
    let turns := match turns with | l :: t => t ++ [takeRoom l tile] | [] => []
    g :: s.layOut seed apart n turns (g :: taken) (some tile)

/-- R241, R246: where `halloc` of a core lays n blocks out with these options; none where the bounds of the placement have
too few free blocks. What the device chooses is a free value of seed (log entry 32). -/
def State.placements (s : State) (core n : Nat) (opts : W64) (seed : Nat) : Option (List Nat) :=
  let tile := caTile (bitsAt opts 14 8) (bitsAt opts 21 16)
  let taken := s.placesTaken
  let pick (l : List Nat) : Option Nat := l[Config.freePlace seed n % l.length]?
  match bitsAt opts 6 5 with
  | 0 =>
    let l := s.stationRooms taken (caDie core) (Config.freePlace seed n)
    if spreadOk l n then some (s.layOut seed true n [l] taken none) else none
  | 1 => (pick ((stationBanks tile).filter fun g => decide (n ≤ s.groupRoom taken g))).map (List.replicate n)
  | 2 =>
    let rooms := (List.range 8).map fun d => s.stationRooms taken d (Config.freePlace seed n)
    let fits (a : Nat) : Bool := (List.range 8).all fun j => decide (countMod n j 8 ≤ roomOf (rooms[(a + j) % 8]?.getD []))
    (pick ((List.range 8).filter fits)).map fun a => s.layOut seed false n (rooms.rotateLeft a) taken none
  | _ =>
    let l := [(tile, s.stationRoom taken tile)]
    if n ≤ roomOf l then some (s.layOut seed false n [l] taken none) else none

/-- R240, R244: the blocks that the bank groups in service hold. -/
def State.blocksInService (s : State) : Nat := 2048 * ((List.range 8).foldl (fun n d => n + s.groupsInService d) 0)

/-- R246: a free handle of a tenant, which one being a free value. -/
def State.freeHandle (s : State) (tenant : Nat) : Option Nat × State :=
  let (n, t) := s.takeFree
  let key (j : Nat) : Nat := (n + j) % 1048575 + 1
  let used := (s.objs.filter fun e => e.1 / 2 ^ 20 == tenant).length
  (((List.range (used + 1)).map key).find? fun h => !(s.obj tenant h).used, t)

/-- R246: the options that `halloc` accepts. -/
def hallocOk (size opts : W64) : Bool :=
  size != 0 && decide (size.toNat ≤ 2 ^ 40) && opts &&& 0xFFFFFFFFFFC08080#64 == 0

/-- R247, R370: the object of a handle is freed: its waiters wake with cause 0x04, its reservations are dropped, its
blocks are zero, and its handle is free. -/
def State.freeObject (s : State) (tenant handle : Nat) : State :=
  let o := s.obj tenant handle
  let lo := paStack tenant (handle * 2 ^ 40 + 4 * 2 ^ 60)
  let inside (a : Nat) : Bool := decide (lo ≤ a) && decide (a < lo + 2 ^ 40)
  let out {α : Type} (m : SMap α) : SMap α := m.filter fun e => !inside e.1
  let t := (s.wakeWords inside 0x04).watch lo o.size
  { t with
    resv := out t.resv, mem := out t.mem, bad := out t.bad, feFlip := out t.feFlip
    blks := t.blks.filter fun e => e.1 / 2 ^ 28 != tenant * 2 ^ 20 + handle
    objs := smSet Obj.none t.objs (tenant * 2 ^ 20 + handle) Obj.none }

/-- R247, R348: the object of a handle is freed, and the stores that were on their way to it are discarded. -/
def State.releaseObject (s : State) (tenant handle : Nat) : State := (s.freeObject tenant handle).shedStores

/-- R247: the object holds the descriptor of a live queue. -/
def State.holdsQueue (s : State) (tenant handle : Nat) : Bool :=
  s.queues.any fun e => e.2.live && paTenant e.1 == some tenant && paHandle e.1 == handle

end Sys2Proof.Machine
end

