-- ==== Sys2Proof/Machine/Parked.lean ====
section
/-!
DEFINITION. The operation of a parked or draining slot as its arbiter takes it (R53, R55): it runs on the registers
that its bundle read at issue, and its reply waits until the slot rejoins.
-/

namespace Sys2Proof.Machine

/-- R55, R290: a draining slot takes no handler entry: its registers as they must stand while its operation runs. -/
def Ctx.sheltered (c : Ctx) : Ctx := (c.onCr fun r => { r with tvec := 8 }).setPs 1 false

/-- R55: the operation i of a draining slot, for whose end w its arbiter has it wait, goes on. One that only waits is withdrawn
(R251, R253, R273), and so is one for a matrix unit, but for `mdrainr` (R224, R232). -/
def drainsOn (w : Wait) (i : Instr) : Bool :=
  match w, i with
  | .flight, _ | .welt _, _ | .matrix, .mdrainr _ _ _ _ => true
  | .matrix, _ => false
  | w, i => mustFinish w i

/-- R99, R171: the operation of a slot that is spilled drains on beside a divide, a root or a special function, for whose sake the
bundle commits, whatever it waits for, but for an operation of the matrix unit, whose bundle R224 has run again. -/
def Slot.holdsOn (x : Slot) (w : Wait) : Bool := x.slowA && w != .matrix

/-- The end of an operation that a draining slot x had under way, on slot k of t, which stood as y beside it. -/
def State.drained (t : State) (k : Nat) (x y : Slot) (spill : Bool) (i : Instr) (snap : List Byte) : State :=
  let back (st : SlotSt) (u : Slot) : Slot :=
    { u with st := st, ctx := (u.ctx.onCr fun r => { r with tvec := x.ctx.cr.tvec }).setPs 1 x.ctx.inh }
  match t.trapped with
  | some tr => (t.setSlot k { x with st := .drain spill (.reply (some tr)) i snap 0, after := none }).setSlot (partner k) y
  | none =>
    match (t.slot k).st with
    | .run => t.modSlot k (back (.drain spill (.reply none) i snap 0))
    | .park w j sn n =>
      if drainsOn w i || (spill && x.holdsOn w) then t.modSlot k (back (.drain spill w i sn n))
      else (t.modSlot k fun u => { back (.drain spill (.reply none) i snap 0) u with after := none }).withdrawn k (.park w j sn n)
    | _ => t

/-- Run f for slot k, whose operation its arbiter takes now. -/
def State.serveWith (s : State) (k : Nat) (f : State → State) : State :=
  let x := s.slot k
  let go (c : Ctx) : State :=
    f ({ s with cur := k, src := none, trapped := none, slow := false, raw := 0 }.modSlot k fun u => { u with st := .run, ctx := c })
  let quiet (t : State) : State := { t with src := none, trapped := none, slow := false }
  match x.st with
  | .park _ i snap n =>
    let t := go x.ctx
    quiet (if t.trapped.isNone && (t.slot k).st.isRun && (t.slot k).tid == x.tid then
      t.modSlot k fun u => { u with st := .park (.reply none) i snap n } else t)
  | .drain spill _ i snap _ => quiet ((go x.ctx.sheltered).drained k x (s.slot (partner k)) spill i snap)
  | _ => s

end Sys2Proof.Machine
end

