-- ==== Sys2Proof/Machine/QueuePort.lean ====
section
/-!
DEFINITION. Queue operations as the home takes them (R268, R272 to R274), and the Welt: its switches (R258 to
R261), combining (R263) and elimination (R269).
-/

namespace Sys2Proof.Machine

/-! ## The home -/

/-- R264: the home of a reference, as the physical address of its descriptor. -/
def paDesc (tenant : Nat) (r : W64) : Nat := paStack tenant (r.toNat - r.toNat % 64)

/-- R268: the executing slot's blocking operation parks at the home. -/
def State.parkAtHome (s : State) (i : Instr) (pa : Nat) : State := (s.parkAt s.cur (.queue pa) i []).syncDesc pa

/-- R268, R273, R274: the home takes the queue operation of the executing slot, whose reference is q. -/
def State.queueTake (s : State) (i : Instr) (q : W64) (pa : Nat) : State :=
  if s.isLost pa then s.trap 0x14 q
  else if s.offline pa then s.trap 0x0A q
  else
    match i with
    | .qpush _ d _ v _ blk =>
      (match s.homePush pa ((s.rd.getV v).truncate 512) with
       | some t => t.setG d 0
       | none => if blk then s.parkAtHome i pa else s.setG d 1)
    | .qpop _ d _ v _ blk =>
      (match s.homePop pa with
       | (some e, t) => if e.2 then t.trap 0x09 q else (t.setG d 0).setV v (e.1.zeroExtend 1024)
       | (none, t) => if blk then t.parkAtHome i pa else t.setG d 2)
    | .qcnt _ d _ => s.setG d (w64 (s.queue pa).entries.length)
    | _ => s

/-! ## The Welt -/

/-- R258: the switch that a request from source s to station t passes at stage k. -/
def weltSwitch (src dst k : Nat) : Nat := src % 2 ^ (9 - k) * 2 ^ k + dst % 1024 / 2 ^ (10 - k)

/-- R260: a request to this byte stays on the bus of its own station. -/
def State.ownBus (s : State) (core pa : Nat) : Bool :=
  caKind core != .compute && decide (caTileOf core = caTileOf (s.bankOf pa))

/-- R259, R260: the request of the executing slot enters the Welt of its home's stack. -/
def State.weltEnter (s : State) (i : Instr) (pa win : Nat) (data : BitVec 512) : State :=
  let (id, t) := s.newId
  let b := s.bankOf pa
  let r : WeltReq :=
    { id := id, slots := [(s.cur, 0)], pa := pa, i := i, tenant := s.rd.cr.tenant, win := win, data := data
      src := caIndex s.core, dst := 1024 * caDie b + caIndex b, stage := 0, held := false, expires := 0 }
  State.parkAt { t with welt := t.welt ++ [r] } s.cur (.welt id) i []

/-- R261: the snapshot of a pairable request with a window, parked until earlier stores are accepted. -/
def weltBound : List Byte := [1]

/-- R263, R269: two requests that pair where they meet. -/
def WeltReq.pairs (r h : WeltReq) : Bool :=
  r.tenant == h.tenant && decide (r.pa = h.pa) &&
    match r.i, h.i with
    | .amo _ _ _ _ o _, .amo _ _ _ _ p _ => o == p
    | .qpush _ _ _ _ _ _, .qpop _ _ _ _ _ _ => true
    | .qpop _ _ _ _ _ _, .qpush _ _ _ _ _ _ => true
    | _, _ => false

/-- The requests held in the switch that a request has reached, the one held longest first. -/
def State.heldWith (s : State) (r : WeltReq) : List WeltReq :=
  sortBy (fun h => h.expires - h.win) (s.welt.filter fun h =>
    h.held && decide (h.stage = r.stage) && decide (h.dst / 1024 = r.dst / 1024) &&
      decide (weltSwitch h.src h.dst h.stage = weltSwitch r.src r.dst r.stage))

/-- A request leaves the Welt. -/
def State.weltDrop (s : State) (id : Nat) : State := { s with welt := s.welt.filter fun r => r.id != id }

/-- Change a request. -/
def State.weltMod (s : State) (id : Nat) (f : WeltReq → WeltReq) : State :=
  { s with welt := s.welt.map fun r => if r.id = id then f r else r }

/-- R258: the input of its switch at which a request from source s arrives at stage k: the bit that the shuffle brings
to the end. -/
def weltInput (src k : Nat) : Nat := src / 2 ^ (9 - k) % 2

/-- R263: two adds leave their switch as one, h being the first of the pair. -/
def WeltReq.combine (h r : WeltReq) : WeltReq :=
  let a1 : W64 := h.data.truncate 64
  { h with
    slots := h.slots ++ r.slots.map fun e => (e.1, e.2 + a1)
    data := (a1 + r.data.truncate 64).zeroExtend 512
    win := min h.win r.win
    stage := h.stage + 1
    held := false }

/-- R269: the status and the entry with which a switch of stage k answers one of a pair. -/
def State.answerPair (s : State) (r : WeltReq) (k : Nat) (e : BitVec 512) : State :=
  r.slots.foldl (fun t p => t.answerSlot p.1 (queueStatus 0 (k + 1)) (some e)) s

/-- R263: of a request r that arrives and a request h that its switch holds, h is the first of the pair, unless both
have arrived in this cycle, h on input 1 and r on input 0. -/
def State.leads (s : State) (h r : WeltReq) : Bool :=
  decide (h.expires ≠ s.cycle + h.win) || weltInput r.src r.stage != 0 || weltInput h.src h.stage == 0

/-- R263, R269: a request meets its partner, which the switch holds. -/
def State.weltPair (s : State) (r h : WeltReq) : State :=
  let t := (s.weltDrop r.id).weltDrop h.id
  match r.i with
  | .amo _ _ _ _ _ _ => { t with welt := t.welt ++ [if s.leads h r then h.combine r else r.combine h] }
  | .qpush _ _ _ _ _ _ => (t.answerPair h r.stage r.data).answerPair r r.stage 0
  | _ => (t.answerPair r r.stage h.data).answerPair h r.stage 0

/-- R261: a request reaches the switch of its stage. -/
def State.weltArrive (s : State) (id : Nat) : State :=
  match s.welt.find? fun r => r.id == id && !r.held && decide (r.stage < 10) with
  | none => s
  | some r =>
    let l := s.heldWith r
    match l.find? fun h => r.pairs h with
    | some h => s.weltPair r h
    | none =>
      if l.length < 8 then s.weltMod id fun r => { r with held := true, expires := s.cycle + r.win }
      else s.weltMod id fun r => { r with stage := r.stage + 1 }

/-- R261: the window of a held request has run out. -/
def State.weltExpire (s : State) (id : Nat) : State :=
  s.weltMod id fun r => if r.held && decide (r.expires ≤ s.cycle) then { r with held := false, stage := r.stage + 1 } else r

/-- R263: what one thread of a combined add receives: the old value, with the operands before its own, or the trap. -/
def State.answerAdd (s : State) (p : Nat × W64) (old : W64) (tr : Option Trap) : State :=
  match (s.slot p.1).instr, tr with
  | some (.amo _ d _ _ _ _), none => (s.deliver p.1 fun c => c.setG d (old + p.2)).reply p.1 none
  | _, some x => s.reply p.1 (some x)
  | _, _ => s

/-- R254, R263: the reply to an add that came through the Welt. That of a combined add is split on its way. -/
def State.replyAdd (s : State) (r : WeltReq) (old : W64) (tr : Option Trap) : State :=
  match r.slots with
  | [p] => s.answerAdd p old tr
  | l =>
    let t := l.foldl (fun (t : State) p => t.modSlot p.1 fun x =>
      match x.st with
      | .park (.welt _) i sn n => { x with st := .park (.combined r.id) i sn n }
      | .drain spill (.welt _) i sn n => { x with st := .drain spill (.combined r.id) i sn n }
      | _ => x) s
    { t with replies := t.replies ++ [⟨r.id, l, old, tr.map Trap.cause⟩] }

/-- R263: a switch of the reply path splits a combined reply: its first thread is answered. -/
def State.splitReply (s : State) (id : Nat) : State :=
  match s.replies.find? fun r => r.id == id with
  | none => s
  | some r =>
    let rest := s.replies.filter fun q => q.id != id
    match r.slots with
    | [] => { s with replies := rest }
    | p :: l =>
      let ea := match (s.slot p.1).instr with
        | some (.amo _ _ a _ _ _) => (s.slot p.1).ctx.getG a
        | _ => 0
      State.answerAdd { s with replies := if l.isEmpty then rest else rest ++ [{ r with slots := l }] } p r.old
        (r.trap.map fun c => ⟨c, ea⟩)

/-- R254, R268: a request that has passed every stage is taken at its home. -/
def State.weltHome (s : State) (id : Nat) : State :=
  match s.welt.find? fun r => r.id == id && decide (10 ≤ r.stage) with
  | none => s
  | some r =>
    if s.isHeld r.pa then s
    else
      let t := s.weltDrop id
      match r.i with
      | .amo _ _ _ _ _ _ =>
        let ea := paEa r.pa
        (match t.resolve (r.tenant.toNat % 256) ea (rightR ||| rightW ||| rightS) with
         | .error x => t.replyAdd r 0 (some x)
         | .ok pa =>
           if t.isBad pa then t.replyAdd r 0 (some ⟨0x09, ea⟩)
           else if t.inDesc pa then t.replyAdd r 0 (some ⟨0x0F, ea⟩)
           else
             let old := t.readW pa
             (t.storeBytes pa (leBytes 8 (old + r.data.truncate 64).toNat)).replyAdd r old none)
      | i =>
        match r.slots with
        | [p] => t.serveWith p.1 fun u =>
            u.queueTake i (match i with | .qpush _ _ a _ _ _ => u.g a | .qpop _ _ a _ _ _ => u.g a | _ => 0) r.pa
        | _ => t

end Sys2Proof.Machine
end

