-- ==== Sys2Proof/Machine/CtrlReg.lean ====
section
/-!
DEFINITION. Control registers (R40, R65 to R69, R78): what each index reads, the checks of a write, and the fields
that it changes.
-/

namespace Sys2Proof.Machine

/-- R40: a thread may not reach this index. -/
def classDenied (n : Nat) (priv : Bool) (tenant : W64) : Bool :=
  if n < 0x200 then false
  else if n < 0x600 then !priv
  else !priv || tenant != 0

/-- R40: a write that the class ignores. -/
def userIgnored (n : Nat) (priv : Bool) : Bool := decide (0x100 ≤ n) && decide (n ≤ 0x17F) && !priv

/-- R68: the states of the slots of a core. -/
def State.slst (s : State) (core : Nat) : W64 :=
  w64 ((coreSlots core).foldr (fun k acc => (s.slot k).st.code + 16 * acc) 0)

/-- R73: the package count of cycles as this core reads it. -/
def State.cycleOf (s : State) (core : Nat) : W64 := w64 (if caKind core = .bank then s.cycle / 2 else s.cycle)

/-- R66: the value of a per-slot register by its index; `slotid` is no storage of the slot. -/
def CRs.read (r : CRs) (n : Nat) : W64 :=
  match n with
  | 0x000 => r.rmode
  | 0x001 => r.fpflags
  | 0x002 => r.nanrd
  | 0x003 => r.srseed
  | 0x004 => r.srctr
  | 0x005 => r.fmta
  | 0x006 => r.fmtb
  | 0x007 => r.fmtc
  | 0x008 => r.scla
  | 0x009 => r.sclb
  | 0x00A => r.mkstep
  | 0x00B => r.qwin
  | 0x00C => r.lmask
  | 0x00D => r.stklim
  | 0x00E => r.scope
  | 0x00F => r.uivec
  | 0x010 => r.uixid
  | 0x100 => r.wid
  | 0x101 => r.wshape
  | 0x102 => r.tenant
  | 0x104 => r.pstate
  | 0x105 => r.tabent
  | 0x106 => r.tabst
  | 0x107 => r.lnum
  | 0x200 => r.tvec
  | 0x201 => r.cause
  | 0x202 => r.epc
  | 0x203 => r.tval
  | 0x204 => r.lrect
  | _ => 0

/-- R66: the value of a control register as a bundle reads it at issue. -/
def State.readCr (s : State) (n : Nat) : W64 :=
  let c := s.rd
  if 0x011 ≤ n ∧ n ≤ 0x014 then (c.h.toList)[n - 0x011]?.getD 0
  else if n = 0x103 then slotidOf s.cur
  else if n = 0x180 then s.cycleOf s.core
  else if n = 0x400 then s.slst s.core
  else if n = 0x401 then smGet 0 s.mcapk s.core
  else if 0x600 ≤ n then smGet allOnes s.coremask (caDie s.core * 16 + (n - 0x600))
  else c.cr.read n

/-- R7 and the register layouts: the reserved bits of a register. -/
def reservedBits (n : Nat) : W64 :=
  match n with
  | 0x000 => ~~~0x3#64
  | 0x001 => ~~~0x1F#64
  | 0x002 => ~~~0x1#64
  | 0x005 | 0x006 => ~~~0x7F#64
  | 0x007 => ~~~0x7#64
  | 0x008 | 0x009 => 0x1F#64
  | 0x00A => 0x7FFFFFFFFFFFF000#64
  | 0x00B => ~~~0x7#64
  | 0x00C => 0xFFFF000000000001#64
  | 0x00D => 0xF#64
  | 0x00F => 0x7#64
  | 0x010 => ~~~0xFFFF#64
  | 0x101 => 0xFC00000000000000#64
  | 0x102 => ~~~0xFF#64
  | 0x103 => 0xFFFFFFFF00000000#64
  | 0x104 => ~~~0x1F#64
  | 0x105 => 0xFFFFFFFF80000000#64
  | 0x106 => 0xFFFFFFFF800000F0#64
  | 0x107 => 0xFFFFFFFF00000000#64
  | 0x200 | 0x202 => 0x7#64
  | 0x201 => ~~~0x7FF#64
  | _ => 0

/-- R7, R59, R211, R212, R352: a value that a write accepts. -/
def crValueOk (n : Nat) (v : W64) : Bool :=
  match n with
  | 0x00E | 0x204 => rectOk v
  | 0x005 | 0x006 => v &&& reservedBits n == 0 && decide (bitsAt v 3 0 ≤ 5)
  | 0x007 => v &&& reservedBits n == 0 && decide (bitsAt v 2 0 ≤ 2)
  | 0x101 => v &&& reservedBits n == 0 && shapeOk v
  | _ => v &&& reservedBits n == 0

/-- R65: a per-slot register after a write; read-only fields keep their value. -/
def CRs.write (r : CRs) (n : Nat) (v : W64) : CRs :=
  match n with
  | 0x000 => { r with rmode := v }
  | 0x001 => { r with fpflags := v }
  | 0x002 => { r with nanrd := v }
  | 0x003 => { r with srseed := v }
  | 0x004 => { r with srctr := v }
  | 0x005 => { r with fmta := v }
  | 0x006 => { r with fmtb := v }
  | 0x007 => { r with fmtc := v }
  | 0x008 => { r with scla := v }
  | 0x009 => { r with sclb := v }
  | 0x00A => { r with mkstep := setBit v 63 (bitAt r.mkstep 63) }
  | 0x00B => { r with qwin := v }
  | 0x00C => { r with lmask := v }
  | 0x00D => { r with stklim := v }
  | 0x00E => { r with scope := rectNorm v }
  | 0x00F => { r with uivec := v }
  | 0x010 => { r with uixid := v }
  | 0x100 => { r with wid := v }
  | 0x101 => { r with wshape := v }
  | 0x200 => { r with tvec := v }
  | 0x201 => { r with cause := v }
  | 0x202 => { r with epc := v }
  | 0x203 => { r with tval := v }
  | 0x204 => { r with lrect := rectNorm v }
  | _ => r

/-- R78: write a control register. -/
def State.writeCr (s : State) (n : Nat) (v : W64) : State :=
  if 0x011 ≤ n ∧ n ≤ 0x014 then s.upd fun c => { c with h := c.h.setIfInBounds (n - 0x011) v }
  else if n = 0x401 then { s with mcapk := smSet 0 s.mcapk s.core v }
  else if 0x600 ≤ n then { s with coremask := smSet allOnes s.coremask (caDie s.core * 16 + (n - 0x600)) v }
  else s.upd fun c => c.onCr fun r => r.write n v

/-- R78: an access to a control register. `d` receives the value at issue; `new` is what is written, if anything. -/
def crAccess (gd : Guard) (i : BitVec 11) (s : State) (d : Option GReg) (new : Option (W64 → W64)) : Res :=
  half gd s fun s =>
    let n := i.toNat
    let priv := s.rd.priv
    if !Cr.assigned i then s.trap 0x01 s.bundle
    else if classDenied n priv s.rd.cr.tenant then s.trap 0x02 s.bundle
    else
      let old := s.readCr n
      let put (t : State) : State := match d with | some r => t.setG r old | none => t
      match new with
      | none => put s
      | some f =>
        if userIgnored n priv then put s
        else if !crValueOk n (f old) then s.trap 0x01 s.bundle
        else (put s).writeCr n (f old)

/-- CRD, R78. -/
def execCrd (gd : Guard) (d : GReg) (i : BitVec 11) (s : State) : Res := crAccess gd i s (some d) none

/-- CWR, R78. -/
def execCwr (gd : Guard) (a : GReg) (i : BitVec 11) (s : State) : Res :=
  crAccess gd i s none (some fun _ => s.g a)

/-- CRSET, R78. -/
def execCrset (gd : Guard) (d a : GReg) (i : BitVec 11) (s : State) : Res :=
  crAccess gd i s (some d) (some fun old => old ||| s.g a)

/-- CRCLR, R78. -/
def execCrclr (gd : Guard) (d a : GReg) (i : BitVec 11) (s : State) : Res :=
  crAccess gd i s (some d) (some fun old => old &&& ~~~s.g a)

end Sys2Proof.Machine
end

