-- ==== Sys2Proof/Machine/LocalMem.lean ====
section
/-!
DEFINITION. The instructions of the SRAM levels: atomics on them (R158, R159), remote reads (R160, R161), shapes and
cursors (R162, R163), `migr` (R164) and `lea` (R165).
-/

namespace Sys2Proof.Machine

/-! ## Atomics on SRAM -/

/-- R158, R159: an atomic on one item of n bytes in spaces 0x0 to 0x3. That cause 0x04 for another space comes before the 0x0B of a
pure task is the model's choice (log entry 103). -/
def sramAtomic (gd : Guard) (i : Instr) (d : GReg) (ea : W64) (n : Nat) (op : Nat → Nat) (s : State) : Res :=
  halfPark gd i s (s.ownForm ea) fun s =>
    if ea.toNat % n ≠ 0 then s.trap 0x03 ea
    else if 3 < bitsAt ea 63 60 then s.trap 0x04 ea
    else
      match s.locate ea n true true with
      | .trap t => s.takeTrap s.cur t
      | .migrate core => s.startMigration i core ea false
      | .at_ pa =>
        s.afterStores i (s.waitsFor .all (isOwn s.core pa) [(pa, n)]) [] fun s =>
          s.rmw ea pa n op fun old s => s.setG d (w64 old)

/-- TAM, R158. -/
def execTam (gd : Guard) (d a b : GReg) (op : AtomOp) (s : State) : Res :=
  sramAtomic gd (.tam gd d a b op) d (s.g a) 8 (fun old => (atomApply op (w64 old) (s.g b)).toNat) s

/-- R159: the FP32 sum of two patterns, to nearest with ties to even, whatever `rmode` and `nanrd` hold. -/
def sum32 (x y : Nat) : Nat := (fmt32.sum .rne (fmt32.value x) (fmt32.value y)).1

/-- TFADD, R159. -/
def execTfadd (gd : Guard) (d a b : GReg) (s : State) : Res :=
  sramAtomic gd (.tfadd gd d a b) d (s.g a) 4 (fun old => sum32 old ((s.g b).toNat % 2 ^ 32)) s

/-! ## Remote reads -/

/-- R161: a slot whose `rdr` holds a reply slot: it has sent its request, which its snapshot tells, or has its reply. -/
def SlotSt.holdsReply (st : SlotSt) : Bool :=
  match st with
  | .park .flight (.rdr _ _ _ _) sn _ | .drain _ .flight (.rdr _ _ _ _) sn _ => !sn.isEmpty
  | .park (.reply _) (.rdr _ _ _ _) _ _ | .drain _ (.reply _) (.rdr _ _ _ _) _ _ => true
  | _ => false

/-- R161: a reply slot is free for the executing slot, or it holds one. -/
def State.replySlot (s : State) : Bool :=
  decide (((coreSlots s.core).filter fun k => k != s.cur && (s.slot k).st.holdsReply).length < 8)

/-- R161: the snapshot of an `rdr` that holds a reply slot. -/
def replyHeld : List Byte := [1]

/-- R160: the dwords of a run lie in one memory unit: its kind and number, none where they do not. -/
def State.rdrUnit (s : State) (ea : W64) (n : Nat) : Bool :=
  let fits (cap off : Nat) : Bool := decide (off + 8 * n ≤ cap)
  match bitsAt ea 63 60 with
  | 0 => caKind s.core == .compute && decide (bitsAt ea 59 17 = 0) && fits 0x20000 (bitsAt ea 16 0)
  | 1 => ea &&& formBad1 == 0 && fits 0x20000 (bitsAt ea 16 0)
  | 2 => ea &&& formBad2 == 0 && (!bitAt ea 47 || (bitsAt ea 44 32 == 0 && caKind s.core != .bank)) && fits 0x200000 (bitsAt ea 20 0)
  | 3 => ea &&& formBad3 == 0 && (!bitAt ea 35 || bitsAt ea 34 32 == 0) && fits 0x4000000 (bitsAt ea 25 0)
  | _ => false

/-- R160: where one dword of a run lies, with the checks made at its owner. -/
def State.rdrAt (s : State) (ea : W64) : Loc :=
  let ten := s.rd.ten
  let core := s.core
  match bitsAt ea 63 60 with
  | 0 => s.tcmAt core ten ea
  | 1 => s.tcmAt (caTile (bitsAt ea 38 32) (bitsAt ea 45 40)) ten ea
  | 2 =>
    if bitAt ea 47 then s.spadAt (caX core / 4) (caY core / 4) ten ea
    else s.spadAt (bitsAt ea 36 32) (bitsAt ea 43 40) ten ea
  | _ => s.sharedAt (if bitAt ea 35 then caDie core else bitsAt ea 34 32) ten ea false

/-- R160: the spans of a run of n dwords, or its first trap. That a trap of a later dword, in a hole or of another owner, reports the
address of that dword is the model's choice (log entry 104). -/
def State.rdrSpans (s : State) (ea : W64) : Nat → Except Trap (List (Nat × Nat))
  | 0 => .ok []
  | n + 1 =>
    match s.rdrAt ea with
    | .at_ pa =>
      (match s.rdrSpans (ea + 8) n with
       | .ok l => .ok ((pa, 8) :: l)
       | .error t => .error t)
    | .trap t => .error t
    | .migrate _ => .error ⟨0x04, ea⟩

/-- RDR, R160, R161: n holds the number of dwords less 1. A run in a scratchpad or in shared SRAM is read in one step too,
which the rule does not ask for (log entry 72). That cause 0x04 for a run that is not in one unit comes before the 0x0B of a pure
task is the model's choice (log entry 103). -/
def execRdr (gd : Guard) (d : VReg) (a : GReg) (n : BitVec 4) (s : State) : Res :=
  half gd s fun s =>
    let ea := s.g a
    let k := n.toNat + 1
    if 8 < k ∧ s.rd.gang = false then s.trap 0x01 s.bundle
    else if ea.toNat % 8 ≠ 0 then s.trap 0x03 ea
    else if !s.rdrUnit ea k then s.trap 0x04 ea
    else if s.impure ea (8 * k) false then s.trap 0x0B ea
    else if !s.replySlot then s.parkAt s.cur .flight (.rdr gd d a n) []
    else if s.slow || s.mustQueue (.rdr gd d a n) then s.parkAt s.cur .flight (.rdr gd d a n) replyHeld
    else
      match s.rdrSpans ea k with
      | .error t => s.takeTrap s.cur t
      | .ok l =>
        s.afterStoresWith (.rdr gd d a n) replyHeld (s.waitsFor .all (l.all fun e => isOwn s.core e.1) l) [] fun s =>
          match s.badWord ea l with
          | some v => s.trap 0x09 v
          | none => (s.correctSpans l).setV d (ofVBytes (s.readSpans l))

/-! ## Shapes and cursors -/

/-- R37: the bytes of an element type by its code. -/
def typeSize (t : Nat) : Nat :=
  match t with
  | 0 => 1
  | 1 | 4 | 5 => 2
  | 2 | 6 => 4
  | _ => 8

/-- The spans of n dwords at ea, each located by itself, for one access whose traps name ea. -/
def State.dwordSpans (s : State) (ea : W64) (ld st : Bool) : Nat → Except Loc (List (Nat × Nat))
  | 0 => .ok []
  | n + 1 =>
    match s.locate ea 8 ld st with
    | .at_ pa =>
      (match s.dwordSpans (ea + 8) ld st n with
       | .ok l => .ok ((pa, 8) :: l)
       | .error e => .error e)
    | l => .error l

/-- R162: a shape record that `shp` accepts. -/
def shapeRecordOk (t e0 e1 p : Nat) : Bool :=
  decide (t ≤ 7) && e0 != 0 && e1 != 0 && decide (e0 < 2 ^ 32) && decide (e1 < 2 ^ 32) && decide (p < 2 ^ 48) &&
    decide (p % typeSize t = 0)

/-- SHP, R162. -/
def execShp (gd : Guard) (d a b : GReg) (s : State) : Res :=
  halfPark gd (.shp gd d a b) s (s.ownForm (s.g a)) fun s =>
    let r := s.g a
    if r.toNat % 8 ≠ 0 then s.trap 0x03 r
    else
      match s.dwordSpans r true false 4 with
      | .error (.trap t) => s.takeTrap s.cur ⟨t.cause, r⟩
      | .error (.migrate core) => s.startMigration (.shp gd d a b) core r false
      | .error (.at_ _) => s
      | .ok l =>
        s.afterStores (.shp gd d a b) (s.waitsFor .all (l.all fun e => isOwn s.core e.1) l) l fun s =>
          match s.badWord r l with
          | some v => s.trap 0x09 v
          | none =>
            let bytes := s.readSpans l
            let w (k : Nat) : Nat := leNat ((bytes.drop (8 * k)).take 8)
            let t := w 0
            let base := s.g b
            if !shapeRecordOk t (w 1) (w 2) (w 3) then s.trap 0x04 r
            else if base.toNat % typeSize t ≠ 0 then s.trap 0x03 base
            else
              let u := ((s.correctSpans l).setG d base).setG (gNext d 1) 0
              (u.setG (gNext d 2) (w64 (w 2 * 2 ^ 32 + w 1))).setG (gNext d 3) (w64 (t * 2 ^ 48 + w 3))

/-- R163: the cursor one element on: the address and the two indices. -/
def cursorNext (ad i0 i1 e0 e1 p sz : Int) : Int × Int × Int :=
  if i0 + 1 < e0 then (ad + sz, i0 + 1, i1)
  else if i1 + 1 < e1 then (ad - i0 * sz + p, 0, i1 + 1)
  else (ad - i0 * sz - i1 * p, 0, 0)

/-- R163: advance the cursor in a to a + 3. -/
def State.advanceCursor (s : State) (a : GReg) : State :=
  let w1 := s.gAt a 1
  let w2 := s.gAt a 2
  let w3 := s.gAt a 3
  let (ad, i0, i1) := cursorNext (s.g a).toNat (bitsAt w1 31 0) (bitsAt w1 63 32) (bitsAt w2 31 0) (bitsAt w2 63 32)
    (bitsAt w3 47 0) (typeSize (bitsAt w3 50 48))
  let lowOf (x : Int) : Nat := (x % (2 ^ 32 : Nat)).toNat
  (s.setG a (wrap64 ad)).setG (gNext a 1) (w64 (lowOf i1 * 2 ^ 32 + lowOf i0))

/-- R163: the type code of a cursor. -/
def State.cursorType (s : State) (a : GReg) : Nat := bitsAt (s.gAt a 3) 50 48

/-- LDS, R163. -/
def execLds (gd : Guard) (d a : GReg) (s : State) : Res :=
  halfPark gd (.lds gd d a) s (s.ownForm (s.g a)) fun s =>
    let t := s.cursorType a
    let n := typeSize t
    if bitsAt (s.gAt a 3) 63 51 ≠ 0 then s.trap 0x04 (s.gAt a 3)
    else
      s.load (.lds gd d a) (s.g a) n n .all fun l s =>
        (s.setG d (if t ≤ 3 then sextBytes n (leNat l) else w64 (leNat l))).advanceCursor a

/-- STS, R163. -/
def execSts (gd : Guard) (d a : GReg) (s : State) : Res :=
  halfPark gd (.sts gd d a) s (s.ownForm (s.g a)) fun s =>
    let n := typeSize (s.cursorType a)
    if bitsAt (s.gAt a 3) 63 51 ≠ 0 then s.trap 0x04 (s.gAt a 3)
    else s.store (.sts gd d a) (s.g a) n .plain (leBytes n (s.g d).toNat) fun s => s.advanceCursor a

/-! ## Moving and naming -/

/-- R164: where `migr` moves a thread: nowhere (.at_), to a core, or a trap. An own-cluster form with bits 44:32 nonzero, or on
a bank core, names no place (R141, R142): that it traps with cause 0x04 is the model's choice, where the table of R164 has the
own cluster without effect (log entry 74). A station core never migrates (R142): what `migr` would do there is not stated, and
in the model an address of another core or cluster, or of stacked memory, has no effect, whether it resolves or not (log
entry 75). -/
def State.migrTo (s : State) (ea : W64) : Loc :=
  let core := s.core
  let stay : Loc := .at_ 0
  let bad : Loc := .trap ⟨0x04, ea⟩
  let pure (l : Loc) : Loc := if s.impure ea 1 false then .trap ⟨0x0B, ea⟩ else if caKind core == .station then stay else l
  match bitsAt ea 63 60 with
  | 0 | 3 => stay
  | 1 =>
    let t := caTile (bitsAt ea 38 32) (bitsAt ea 45 40)
    if ea &&& formBad1 != 0 then bad
    else if caKind core == .compute && t == core then stay
    else pure (s.moveTo t ea)
  | 2 =>
    let cx := bitsAt ea 36 32
    let cy := bitsAt ea 43 40
    if ea &&& formBad2 != 0 then bad
    else if bitAt ea 47 then (if bitsAt ea 44 32 != 0 || caKind core == .bank then bad else stay)
    else if caKind core == .compute && cx == caX core / 4 && cy == caY core / 4 then stay
    else pure (s.moveToCluster cx cy ea)
  | 4 =>
    match s.resolve s.rd.ten ea 0 with
    | .error t => pure (.trap t)
    | .ok pa =>
      let t := s.bankOf pa
      if t = core then stay
      else pure (
        if s.migrationRefused s.cur s.rd || bitsAt s.rd.pc 63 60 != 4 then .trap ⟨0x0D, ea⟩
        else if !(rectOf s.rd.cr.lrect).hasCore t then .trap ⟨0x06, ea⟩
        else .migrate t)
  | _ => bad

/-- MIGR, R164. -/
def execMigr (gd : Guard) (a : GReg) (s : State) : Res :=
  half gd s fun s =>
    match s.migrTo (s.g a) with
    | .at_ _ => s
    | .trap t => s.takeTrap s.cur t
    | .migrate core => s.startMigration (.migr gd a) core (s.g a) true

/-- R165: the form of an address that names the same byte from every core. -/
def leaForm (core : Nat) (e : W64) : W64 :=
  let sp := bitsAt e 63 60
  let low (h : Nat) : W64 := w64 (bitsAt e h 0)
  if sp = 0 ∧ bitsAt e 59 17 = 0 ∧ caKind core ≠ .bank then
    0x1000000000000000#64 ||| (w64 (core % 2 ^ 14) <<< 32) ||| low 16
  else if sp = 2 ∧ bitAt e 47 ∧ bitsAt e 46 21 = 0 then
    (setBit e 47 false) ||| (w64 (caX core / 4) <<< 32) ||| (w64 (caY core / 4) <<< 40)
  else if sp = 3 ∧ bitAt e 35 ∧ bitsAt e 34 26 = 0 then
    (setBit e 35 false) ||| (w64 (caDie core) <<< 32)
  else e

/-- LEA, R165. -/
def execLea (gd : Guard) (d a : GReg) (i : BitVec 11) (s : State) : Res :=
  half gd s fun s => s.setG d (leaForm s.core (s.g a + sext i))

end Sys2Proof.Machine
end

