-- ==== Sys2Proof/Machine/DecodeTables.lean ====
section
/-!
DEFINITION. Decode tables and the conversions through them (R130 to R133, R138, R139), and `vcvt` (R140).
-/

namespace Sys2Proof.Machine

/-! ## Tables and images -/

/-- Table t of a core. -/
def State.dt (s : State) (core t : Nat) : DecTab := smGet DecTab.zero s.dts (4 * caTileOf core + t)

/-- R130: the entry of a code. -/
def DecTab.ent (x : DecTab) (c : Nat) : BitVec 20 := smGet 0 x.ents c

/-- R131: a slot of this tenant may use the table. -/
def DecTab.usable (x : DecTab) (tenant : Nat) : Bool := tenant == 0 || x.owner.toNat == tenant

/-- R130: dword q of the image of a table. -/
def DecTab.dword (x : DecTab) (q : Nat) : W64 :=
  if q < 128 then w64 ((x.ent (2 * q)).toNat + (x.ent (2 * q + 1)).toNat * 2 ^ 32) else x.attr

/-- R130: the table that an image holds, its reserved bits cleared. That bits 7:2 of the attribute word, which R130 does not list, are
cleared too is the model's choice (log entry 112). -/
def DecTab.ofImage (l : List Byte) (tenant : Nat) : DecTab :=
  let ents := (List.range 256).foldl (fun m c => smSet 0 m c (BitVec.ofNat 20 (leNat ((l.drop (4 * c)).take 4)))) []
  ⟨ents, w64 (leNat ((l.drop 1024).take 8)) &&& 0xFFFFFF03#64, BitVec.ofNat 8 tenant⟩

/-- The formats of a command name the table. -/
def MatRegs.names (r : MatRegs) (t : Nat) : Bool :=
  (bitsAt r.fmta 3 0 == 3 && bitsAt r.fmta 5 4 == t) || (bitsAt r.fmtb 3 0 == 3 && bitsAt r.fmtb 5 4 == t)

/-- R131, R216: an operation that a matrix unit performs holds the table. A remote command holds it in the core that performs
it and in the sender's, whose table it carries (log entry 22). -/
def State.tableHeld (s : State) (core t : Nat) : Bool :=
  s.mat.any fun e =>
    match e.2.op with
    | some o => o.cmd.regs.names t && (e.1 == caTileOf core || caTileOf o.cmd.sender == caTileOf core)
    | none => false

/-- R138: the spans of n dwords from ea on, for accesses that never migrate, or the first trap. -/
def State.imageSpans (s : State) (ea : W64) (ld st : Bool) : Nat → Except Trap (List (Nat × Nat))
  | 0 => .ok []
  | n + 1 =>
    match s.locateHere ea 8 ld st with
    | .at_ pa =>
      if st && s.hitsDesc [(pa, 8)] then .error ⟨0x0F, ea⟩
      else
        (match s.imageSpans (ea + 8) ld st n with
         | .ok l => .ok ((pa, 8) :: l)
         | .error t => .error t)
    | .trap t => .error t
    | .migrate _ => .error ⟨0x0D, ea⟩

/-- DTLD, R131, R138. One that finds the table held reads its image when it is taken after the operation; so of two that wait the one
taken later stands. When an image arrives is not stated: the model's choice (log entry 101). -/
def execDtld (gd : Guard) (t : MReg) (a : GReg) (s : State) : Res :=
  halfPark gd (.dtld gd t a) s false fun s =>
    let ad := s.g a
    if ad.toNat % 8 ≠ 0 then s.trap 0x03 ad
    else
      match s.imageSpans ad true false 129 with
      | .error e => s.takeTrap s.cur e
      | .ok l =>
        s.afterStores (.dtld gd t a) (s.waitsFor .all (l.all fun e => isOwn s.core e.1) l) l fun s =>
          match s.badWord ad l with
          | some v => s.trap 0x09 v
          | none =>
            if s.tableHeld s.core t.toNat then s.parkAt s.cur .flight (.dtld gd t a) []
            else
              let x := DecTab.ofImage (s.readSpans l) s.rd.ten
              let u := s.correctSpans l
              { u with dts := smSet DecTab.zero u.dts (4 * caTileOf s.core + t.toNat) x }

/-- R130: the image of a table. -/
def DecTab.image (x : DecTab) : List Byte := (List.range 129).flatMap fun q => leBytes 8 (x.dword q).toNat

/-- R138: the stores of a `dtst` i to the image at ad, of the table as it stood at issue. -/
def dtstLands (i : Instr) (ad : W64) (image : List Byte) (s : State) : State :=
  match s.imageSpans ad false true 129 with
  | .error e => s.takeTrap s.cur e
  | .ok l => s.afterStoresWith i image (s.waitsFor .all (l.all fun e => isOwn s.core e.1) l) l fun s => s.storeSpans l image

/-- DTST, R131, R138: the table is read at issue. -/
def execDtst (gd : Guard) (t : MReg) (a : GReg) (s : State) : Res :=
  half gd s fun s =>
    let ad := s.g a
    let x := s.dt s.core t.toNat
    if ad.toNat % 8 ≠ 0 then s.trap 0x03 ad
    else if !x.usable s.rd.ten then s.trap 0x06 (slotidOf s.cur)
    else
      match s.imageSpans ad false true 129 with
      | .error e => s.takeTrap s.cur e
      | .ok _ => if s.slow then s.parkAt s.cur .flight (.dtst gd t a) x.image else dtstLands (.dtst gd t a) ad x.image s

/-! ## Decoding and encoding one code -/

/-- R130: the fields of an attribute word. -/
def DecTab.sm (x : DecTab) : Bool := bitAt x.attr 0
def DecTab.iv (x : DecTab) : Bool := bitAt x.attr 1
def DecTab.nanCode (x : DecTab) : Nat := bitsAt x.attr 15 8
def DecTab.pinf (x : DecTab) : Nat := bitsAt x.attr 23 16
def DecTab.ninf (x : DecTab) : Nat := bitsAt x.attr 31 24

/-- R132: the E8M10 pattern that a code decodes to. -/
def DecTab.decodePat (x : DecTab) (finite : Bool) (c : Nat) : Nat :=
  let val (n : Nat) : Nat := (x.ent n).toNat % 2 ^ 19
  if x.sm then (if 128 ≤ c then (fmtE8M10 finite).negBits (val (c % 128)) else val c) else val c

/-- R132: the value that a code decodes to. -/
def DecTab.decode (x : DecTab) (finite : Bool) (c : Nat) : FVal := (fmtE8M10 finite).value (x.decodePat finite c)

/-- R133: the value of an entry. -/
def DecTab.entVal (x : DecTab) (finite : Bool) (c : Nat) : FVal := (fmtE8M10 finite).value ((x.ent c).toNat % 2 ^ 19)

/-- A finite value. -/
def FVal.isFin : FVal → Bool
  | .fin _ _ _ => true
  | _ => false

/-- The magnitude of a value. -/
def FVal.abs : FVal → FVal
  | .fin _ m e => .fin false m e
  | .inf _ => .inf false
  | v => v

/-- The exact difference of two finite values. -/
def FVal.minus (x y : FVal) : FVal := (x.add .rne y.negate).1

/-- x ≤ y for values that are not NaNs. -/
def FVal.le (x y : FVal) : Bool := !y.lt x

/-- R133: the codes that the encoder may choose, ascending. -/
def DecTab.codes (x : DecTab) (finite : Bool) : List Nat :=
  (List.range (if x.sm then 128 else 256)).filter fun c => !bitAt (x.ent c) 19 && (x.entVal finite c).isFin

/-- R133: the search: the number of codes, by the halvings of the rule, whose value is found not above y. -/
def DecTab.search (x : DecTab) (finite : Bool) (l : List Nat) (y : FVal) : Nat → Nat → Nat → Nat
  | 0, lo, _ => lo
  | k + 1, lo, hi =>
    if hi ≤ lo then lo
    else
      let mid := (lo + hi) / 2
      if (x.entVal finite (l[mid]?.getD 0)).le y then x.search finite l y k (mid + 1) hi
      else x.search finite l y k lo mid

/-- R135: floor(2^32 · p / q) for magnitudes p and q at one exponent. -/
def ratio32 (p q : FVal) : Nat :=
  match p, q with
  | .fin n1 m1 e1, .fin n2 m2 e2 =>
    let (a, b, _) := alignTo n1 m1 e1 n2 m2 e2
    if b ≤ 0 ∨ a ≤ 0 then 0 else (2 ^ 32 * a.toNat) / b.toNat
  | _, _ => 0

/-- R133: `pick`, between entries a and b with a below y and b above it. Where two entries are equally near zero and
the rule asks for the nearer or the farther, which one is not stated: `tie` chooses b (log entry 1). -/
def DecTab.pick (x : DecTab) (finite : Bool) (rm : Rnd) (a b : Nat) (y : FVal) (neg tie : Bool) : Nat :=
  let va := x.entVal finite a
  let vb := x.entVal finite b
  let aNear := va.abs.lt vb.abs
  let bNear := vb.abs.lt va.abs
  match rm with
  | .rne =>
    let da := y.minus va
    let db := vb.minus y
    if da.lt db then a
    else if db.lt da then b
    else if a % 2 == 0 && b % 2 == 1 then a
    else if a % 2 == 1 && b % 2 == 0 then b
    else min a b
  | .rtz => if aNear then a else if bNear then b else if tie then b else a
  | .rup => if x.sm && neg then a else b
  | .rdn => if x.sm && neg then b else a
  | .sr r =>
    if aNear || bNear then
      let (t, w) := if aNear then (a, b) else (b, a)
      let vt := (x.entVal finite t).abs
      let vw := (x.entVal finite w).abs
      if r < ratio32 (y.abs.minus vt) (vw.minus vt) then w else t
    else if tie then b else a

/-- R133: a subnormal value of E8M10. -/
def e8m10Subnormal (v : Nat) : Bool := bitsAt (BitVec.ofNat 19 v) 17 10 == 0 && v % 1024 != 0

/-- R133: the code for a value, with its flags. -/
def DecTab.encode (x : DecTab) (finite : Bool) (rm : Rnd) (v : FVal) (tie : Bool) : Nat × FlagSet :=
  if v.isNan then (x.nanCode, flagIf v.isSnan flagNv)
  else
    let neg := x.sm && v.sign
    let y := if x.sm then v.abs else v
    let sgn := if neg then 128 else 0
    if v.isInf && x.iv then (if x.sm then x.pinf ||| sgn else if v.sign then x.ninf else x.pinf, 0)
    else
      let l := x.codes finite
      let n := l.length
      if n = 0 then (x.nanCode, flagNv)
      else
        let j := x.search finite l y 9 0 n
        let at_ (k : Nat) : Nat := l[k]?.getD 0
        if 0 < j ∧ (x.entVal finite (at_ (j - 1))).eqv y then (at_ (j - 1) ||| sgn, 0)
        else if j = n then (at_ (n - 1) ||| sgn, flagOf ||| flagNx)
        else if j = 0 then (at_ 0 ||| sgn, (if x.sm then flagUf else flagOf) ||| flagNx)
        else
          let c := x.pick finite rm (at_ (j - 1)) (at_ j) y neg tie
          (c ||| sgn, flagNx ||| flagIf (e8m10Subnormal ((x.ent c).toNat % 2 ^ 19)) flagUf)

/-! ## Conversions on vectors -/

/-- R127: the reading in force. -/
def State.finite (s : State) : Bool := bitAt s.rd.cr.nanrd 0

/-- R88, R135, R136: the rounding of element i of a conversion. -/
def State.rndElem (s : State) (sr : Bool) (i : Nat) : Rnd :=
  if sr then .sr (srBits s.rd.cr.srseed s.rd.cr.srctr i) else rndOf s.rd.cr.rmode

/-- The OR of the flags of a list of results. -/
def orFlags (l : List (Nat × FlagSet)) : FlagSet := l.foldl (fun f e => f ||| e.2) 0

/-- A list with the elements from place k on replaced by others. -/
def replaceAt {α : Type} (l : List α) (k : Nat) (r : List α) : List α := l.take k ++ r ++ l.drop (k + r.length)

/-- R136, R139, R140: write the result of a conversion, with its flags and the step of `srctr`. -/
def State.setConv (s : State) (d : VReg) (w : Nat) (l : List Nat) (fl : FlagSet) (sr : Bool) : State :=
  let t := (s.setV d (ofLanes w l)).raise fl
  if sr then t.bumpSrctr else t

/-- T8ENC, R139. -/
def execT8enc (gd : Guard) (d a : VReg) (k : BitVec 5) (sr : Bool) (t : ETy) (dt : MReg) (s : State) : Res :=
  half gd s fun s =>
    let x := s.dt s.core dt.toNat
    if !x.usable s.rd.ten then s.trap 0x06 (slotidOf s.cur)
    else
      let n := s.rd.lanes t.width
      let first := k.toNat * n
      let (f, s) := s.takeFree
      let r := (List.range n).map fun j =>
        x.encode s.finite (s.rndElem sr (first + j)) ((etyFmt t s.finite).value (lane (s.rd.getV a) t.width j))
          (f / 2 ^ j % 2 == 1)
      let old := lanesOf (s.rd.getV d) 8 (s.rd.vlen / 8)
      s.setConv d 8 (replaceAt old first (r.map Prod.fst)) (orFlags r) sr

/-- T8DEC, R139. -/
def execT8dec (gd : Guard) (d a : VReg) (k : BitVec 5) (t : ETy) (dt : MReg) (s : State) : Res :=
  half gd s fun s =>
    let x := s.dt s.core dt.toNat
    if !x.usable s.rd.ten then s.trap 0x06 (slotidOf s.cur)
    else
      let n := s.rd.lanes t.width
      let r := (List.range n).map fun j =>
        (etyFmt t s.finite).convert (rndOf s.rd.cr.rmode) (x.decode s.finite (lane (s.rd.getV a) 8 (k.toNat * n + j)))
      s.setConv d t.width (r.map Prod.fst) (orFlags r) false

/-- R140: convert lanes of vA into lanes of vD. -/
def convertLanes (s : State) (d a : VReg) (k : Nat) (ts td : ETy) (sr : Bool) : State :=
  let ws := ts.width
  let wd := td.width
  let n := s.rd.lanes (max ws wd)
  let src := if ws < wd then k * n else 0
  let dst := if wd < ws then k * n else 0
  let r := (List.range n).map fun j =>
    convertElem ts td s.finite (s.rndElem sr (dst + j)) (lane (s.rd.getV a) ws (src + j))
  let old := lanesOf (s.rd.getV d) wd (s.rd.lanes wd)
  s.setConv d wd (replaceAt old dst (r.map Prod.fst)) (orFlags r) sr

/-- VCVT, R140. -/
def execVcvt (gd : Guard) (d a : VReg) (k : BitVec 5) (ts td : ETy) (sr : Bool) (s : State) : Res :=
  half gd s fun s => convertLanes s d a k.toNat ts td sr

end Sys2Proof.Machine
end

