-- ==== Sys2Proof/Machine/MatrixUnit.lean ====
section
/-!
DEFINITION. The matrix unit of a core: operands (R217, R218), semirings and the K-step (R219 to R222), the checks
of its operations, and how an operation starts, goes on and ends (R210, R223, R224, R227 to R233).
-/

namespace Sys2Proof.Machine

/-! ## Operands -/

/-- R217: the width of an element by its format code. -/
def matWidth (fmt : Nat) : Nat :=
  match fmt with
  | 0 => 32
  | 1 | 2 => 16
  | _ => 8

/-- R211: the format code, the table and the scale bit of `fmta` or `fmtb`. -/
def fmtCode (r : W64) : Nat := bitsAt r 3 0
def fmtTable (r : W64) : Nat := bitsAt r 5 4
def fmtScaled (r : W64) : Bool := bitAt r 6

/-- R218: a scratchpad pair. -/
structure MatPair where
  base : Nat
  rot : Nat
  rpitch : Nat
  tpitch : Nat
  /-- A reserved bit is set. -/
  bad : Bool
  deriving DecidableEq, Repr

/-- R218: the pair in two registers. -/
def pairOf (g0 g1 : W64) : MatPair :=
  ⟨bitsAt g0 20 0, bitsAt g0 23 21, bitsAt g0 51 32, bitsAt g1 20 0, g0 &&& 0xFFF00000FF000000#64 != 0 || bitsAt g1 63 21 != 0⟩

/-- R218: the own-cluster address of a scratchpad offset. -/
def ownSpad (off : Nat) : W64 := 0x2000800000000000#64 + w64 off

/-- R218: an offset of a pair that is no multiple of 8. -/
def MatPair.unaligned (p : MatPair) : Bool := p.base % 8 != 0 || p.rpitch % 8 != 0 || p.tpitch % 8 != 0

/-- R218: where the dwords of n steps end. -/
def MatPair.extent (p : MatPair) (w n : Nat) : Nat := p.base + (n - 1) * p.tpitch + 31 * p.rpitch + 4 * w

/-- The cluster of a core. -/
def clusterX (core : Nat) : Nat := caX core / 4
def clusterY (core : Nat) : Nat := caY core / 4

/-- R213, R228: n bytes at ea, in the TCM of a core or in the scratchpad of its cluster, for a tenant. -/
def State.localAt (s : State) (core ten : Nat) (ea : W64) (n : Nat) : Except Trap Nat :=
  let one (a : W64) : Except Trap Nat :=
    let l : Loc :=
      match bitsAt a 63 60 with
      | 0 => if bitsAt a 59 17 = 0 then s.tcmAt core ten a else .trap ⟨0x04, a⟩
      | 1 => if a &&& formBad1 = 0 ∧ bitsAt a 45 32 = caTileOf core then s.tcmAt core ten a else .trap ⟨0x04, a⟩
      | 2 =>
        if a &&& formBad2 = 0 ∧ bitAt a 47 ∧ bitsAt a 44 32 = 0 then s.spadAt (clusterX core) (clusterY core) ten a
        else .trap ⟨0x04, a⟩
      | _ => .trap ⟨0x04, a⟩
    match l with
    | .at_ pa => .ok pa
    | .trap t => .error ⟨t.cause, ea⟩
    | .migrate _ => .error ⟨0x04, ea⟩
  match one ea, one (ea + w64 (n - 1)) with
  | .ok pa, .ok _ => .ok pa
  | .error t, _ => .error t
  | _, .error t => .error t

/-- The trap of a check. -/
def trapOf {α : Type} : Except Trap α → Option Trap
  | .ok _ => none
  | .error t => some t

/-- The first trap of a list of checks. -/
def firstOf (l : List (Option Trap)) : Option Trap := l.findSome? id

/-- R213: the form of a scale vector's address. -/
def scaleForm (a : W64) : Bool := bitsAt a 63 60 == 0 || (bitsAt a 63 60 == 2 && bitAt a 47)

/-- R213, R223: the scale vector of n steps at a. -/
def State.scaleTrap (s : State) (core ten : Nat) (a : W64) (n : Nat) : Option Trap :=
  if !scaleForm a then some ⟨0x04, a⟩
  else
    (firstOf ((List.range n).map fun j => trapOf (s.localAt core ten (a + w64 (32 * j)) 32))).map fun t => ⟨t.cause, a⟩

/-! ## Semirings -/

/-- R220: a NaN operand raises no flag of its own. -/
def FVal.quiet : FVal → FVal
  | .nan _ => .nan false
  | v => v

/-- R129: an element under a block scale. -/
def scaled (e : Nat) (v : FVal) : FVal :=
  if e = 0xFF then .nan false
  else
    match v with
    | .fin n m x => .fin n m (x + (e : Int) - 127)
    | v => v

/-- R219: the value of a floating-point operand. -/
def matVal (fmt : Nat) (finite : Bool) (t : DecTab) (x : Nat) : FVal :=
  (match fmt with
   | 0 => fmt32.value x
   | 1 => (fmt16 finite).value x
   | 2 => (fmtB16 finite).value x
   | _ => t.decode finite x).quiet

/-- R219: the value of an integer operand. -/
def matInt (fmt x : Nat) : Int := if fmt = 4 then signedOf 8 x else x

/-- R219, R220: the exact sum of a step's products. -/
def stepSum (l : List FVal) : FVal × FlagSet :=
  if l.any FVal.isNan then (.nan false, 0)
  else l.foldl (fun a v => let r := a.1.add .rne v; (r.1, a.2 ||| r.2)) (.fin false 0 0, 0)

/-- R219, R220: the least and the greatest of a step's values. -/
def stepLeast : List FVal → FVal
  | [] => .inf false
  | v :: t => if (v :: t).any FVal.isNan then .nan false else t.foldl (fun a x => if x.below a then x else a) v
def stepGreatest : List FVal → FVal
  | [] => .inf true
  | v :: t => if (v :: t).any FVal.isNan then .nan false else t.foldl (fun a x => if a.below x then x else a) v

/-- R219, R220: the new element from the old one and a step value by choice of the lesser or the greater. -/
def chooseElem (rm : Rnd) (old : Nat) (v : FVal) (less : Bool) : Nat × FlagSet :=
  let c := (fmt32.value old).quiet
  if c.isNan || v.isNan then (fmt32.nan, 0)
  else if (if less then v.below c else c.below v) then fmt32.deliver rm v
  else (old, 0)

/-- R219: the new element for a row of A and a column of B, in floating point. -/
def stepElem (sr : Nat) (rm : Rnd) (old : Nat) (a b : List FVal) : Nat × FlagSet :=
  let prods := List.zipWith FVal.mul a b
  let sums := List.zipWith (FVal.add rm) a b
  let flags (l : List (FVal × FlagSet)) : FlagSet := l.foldl (fun f e => f ||| e.2) 0
  match sr with
  | 0 =>
    let (v, f) := stepSum (prods.map Prod.fst)
    let c := (fmt32.value old).quiet
    if v.isZero && !c.isNan then (old, flags prods ||| f)
    else
      let (r, g) := fmt32.sum rm c v
      (r, flags prods ||| f ||| g)
  | 2 =>
    let (r, g) := chooseElem rm old (stepLeast (sums.map Prod.fst)) true
    (r, flags sums ||| g)
  | 3 =>
    let (r, g) := chooseElem rm old (stepGreatest (sums.map Prod.fst)) false
    (r, flags sums ||| g)
  | 4 =>
    let (r, g) := chooseElem rm old (stepGreatest (prods.map Prod.fst)) false
    (r, flags prods ||| g)
  | _ =>
    let any := (List.zipWith (fun x y => !FVal.isZero x && !FVal.isZero y) a b).any id
    (if old % 2 ^ 31 != 0 || any then 0x3F800000 else 0, 0)

/-- R219: the new element of the integer semiring. -/
def stepInt (old : Nat) (a b : List Int) : Nat :=
  (((old : Int) + (List.zipWith (· * ·) a b).foldl (· + ·) 0) % (2 ^ 32 : Nat)).toNat

/-! ## Tiles -/

/-- R209: the elements of tile t, row by row. -/
def MatUnit.tile (u : MatUnit) (t : Nat) : List Nat :=
  (List.range 1024).map fun n => (smGet 0 u.tiles (t * 1024 + n)).toNat

/-- Write the elements of tile t. -/
def MatUnit.setTile (u : MatUnit) (t : Nat) (l : List Nat) : MatUnit :=
  let mid : List (Nat × BitVec 32) :=
    ((List.range 1024).map fun n => (t * 1024 + n, BitVec.ofNat 32 (l[n]?.getD 0))).filter fun e => e.2 != 0
  { u with tiles := (u.tiles.filter fun e => e.1 < t * 1024) ++ mid ++ u.tiles.filter fun e => (t + 1) * 1024 ≤ e.1 }

/-- R209: the image of tile t. -/
def MatUnit.tileBytes (u : MatUnit) (t : Nat) : List Byte := (u.tile t).flatMap fun x => leBytes 4 x

/-- R212: the bytes of an element in a drain. -/
def drainSize (r : MatRegs) : Nat := if bitsAt r.fmtc 2 0 = 0 then 4 else 2

/-- R212, R230: row i of tile t as a drain writes it, with its flags. -/
def MatUnit.drainRow (u : MatUnit) (t i : Nat) (r : MatRegs) : List Byte × FlagSet :=
  let row := ((u.tile t).drop (32 * i)).take 32
  if bitsAt r.fmtc 2 0 = 0 then (row.flatMap fun x => leBytes 4 x, 0)
  else
    let fin := bitAt r.nanrd 0
    let f := if bitsAt r.fmtc 2 0 = 1 then fmt16 fin else fmtB16 fin
    let l := row.map fun x => f.convert (rndOf r.rmode) (fmt32.value x)
    (l.flatMap fun e => leBytes 2 e.1, orFlags l)

/-! ## The checks of an operation -/

/-- R219: the formats that a semiring takes. -/
def formatsOk (sr : Nat) (r : MatRegs) : Bool :=
  let a := fmtCode r.fmta
  let b := fmtCode r.fmtb
  if sr = 1 then (a == 4 || a == 5) && (b == 4 || b == 5) && !fmtScaled r.fmta && !fmtScaled r.fmtb
  else decide (sr ≤ 5) && decide (a ≤ 3) && decide (b ≤ 3)

/-- R217: an operand in registers is whole. -/
def runOk (o : Option (List Byte)) (w : Nat) : Bool :=
  match o with
  | some l => l.length == 128 * w
  | none => true

/-- R219, R217: the format and register checks of `mmac`. -/
def MatCmd.formsOk (c : MatCmd) : Bool :=
  c.kind != 1 ||
    (formatsOk c.sr c.regs && runOk c.ra (matWidth (fmtCode c.regs.fmta)) && runOk c.rb (matWidth (fmtCode c.regs.fmtb)))

/-- The operands of `mmac` in scratchpad, with their widths. -/
def MatCmd.pairs (c : MatCmd) : List (MatPair × Nat) :=
  (if c.ra.isSome then [] else [(pairOf c.a0 c.a1, matWidth (fmtCode c.regs.fmta))]) ++
    (if c.rb.isSome then [] else [(pairOf c.b0 c.b1, matWidth (fmtCode c.regs.fmtb))])

/-- The size of a row of a load or a drain. -/
def MatCmd.rowSize (c : MatCmd) : Nat := if c.kind = 4 then 128 else 32 * drainSize c.regs

/-- R230: the parameters of `mdrainr`. -/
def drainPitch (prm : W64) : Nat := bitsAt prm 17 0
def drainBox (prm : W64) : Nat := bitsAt prm 23 20
def drainId (prm : W64) : Nat := bitsAt prm 39 24

/-- The first check of an operation: alignment (R218, R228, R232). -/
def MatCmd.alignTrap (c : MatCmd) : Option Trap :=
  match c.kind with
  | 1 => firstOf (c.pairs.map fun p => if p.1.unaligned then some ⟨0x03, ownSpad p.1.base⟩ else none)
  | 2 | 4 =>
    if c.da.toNat % 8 ≠ 0 ∨ c.db.toNat % 8 ≠ 0 ∨ c.db.toNat < c.rowSize then some ⟨0x03, c.da⟩ else none
  | 3 =>
    if c.da.toNat % 8 ≠ 0 then some ⟨0x03, c.da⟩
    else if drainPitch c.db % 8 ≠ 0 then some ⟨0x03, c.db⟩
    else none
  | _ => none

/-- R223: ranges, ownership and tables of `mmac`. -/
def State.mmacTrap (s : State) (core ten : Nat) (c : MatCmd) : Option Trap :=
  let size := s.spadSize (clusterX core) (clusterY core)
  let owner := smGet 0 s.sowner (clusterY core * 32 + clusterX core)
  let scales := (if fmtScaled c.regs.fmta then [s.scaleTrap core ten c.regs.scla c.steps] else []) ++
    (if fmtScaled c.regs.fmtb then [s.scaleTrap core ten c.regs.sclb c.steps] else [])
  let range (p : MatPair × Nat) : Option Trap :=
    if p.1.bad || decide (p.1.rpitch < 4 * p.2) || decide (size < p.1.extent p.2 c.steps) then some ⟨0x04, ownSpad p.1.base⟩
    else none
  let own (p : MatPair × Nat) : Option Trap := if ownerOk ten owner then none else some ⟨0x06, ownSpad p.1.base⟩
  let table (r : W64) (x : DecTab) : Option Trap :=
    if fmtCode r = 3 ∧ !x.usable ten then some ⟨0x06, slotidOf (s.unit core).owner⟩ else none
  firstOf (c.pairs.map range ++ (scales.map fun t => t.filter fun t => t.cause == 0x04) ++ c.pairs.map own ++ scales ++
    [table c.regs.fmta c.regs.ta, table c.regs.fmtb c.regs.tb])

/-- R232: the checks of `mdrainr` after those of alignment, for a thread with the registers x. -/
def State.drainTrap (s : State) (x : Ctx) (ten : Nat) (c : MatCmd) : Option Trap :=
  let dst := c.da
  let prm := c.db
  let n := c.rowSize
  let core := caTile (bitsAt dst 38 32) (bitsAt dst 45 40)
  let off := bitsAt dst 16 0
  let pitch := drainPitch prm
  if bitsAt dst 63 60 ≠ 1 ∨ dst &&& formBad1 ≠ 0 then some ⟨0x04, dst⟩
  else if pitch < n ∨ prm &&& 0xFFFFFC00000C0000#64 ≠ 0 then some ⟨0x04, prm⟩
  else if 0x20000 < off + 31 * pitch + n then some ⟨0x04, dst⟩
  else if !s.coreEnabled core then some ⟨0x04, dst⟩
  else if !(rectOf x.cr.lrect).hasCore core || (isCobbler core && ten != 0) then some ⟨0x06, dst⟩
  else if !s.mayLandAt core ten then some ⟨0x06, dst⟩
  else if !(List.range 32).all fun i => s.runOk core (off + i * pitch) n then some ⟨0x04, dst⟩
  else none

/-- The checks of an operation after those of alignment (R223, R228, R230, R232). -/
def State.cmdTrap (s : State) (core ten : Nat) (x : Ctx) (c : MatCmd) : Option Trap :=
  match c.kind with
  | 1 => s.mmacTrap core ten c
  | 2 | 4 => firstOf ((List.range 32).map fun i => trapOf (s.localAt core ten (c.da + w64 i * c.db) c.rowSize))
  | 3 => s.drainTrap x ten c
  | _ => none

/-! ## The K-step -/

/-- R148, R218: read dwords of the scratchpad of a cluster, in order, for a tenant; the first that faults traps. -/
def State.spadDwords (s : State) (core ten : Nat) : List Nat → Except Trap (List Byte)
  | [] => .ok []
  | off :: t =>
    let pa := paSpad (clusterX core) (clusterY core) off
    if !ownerOk ten (smGet 0 s.sowner (clusterY core * 32 + clusterX core)) then .error ⟨0x06, ownSpad off⟩
    else if s.isBad pa then .error ⟨0x09, ownSpad off⟩
    else
      match s.spadDwords core ten t with
      | .ok l => .ok (s.readBytes pa 8 ++ l)
      | .error e => .error e

/-- R218: the offsets of the dwords of row r of step n. -/
def MatPair.rowOffsets (p : MatPair) (w n r : Nat) : List Nat :=
  let d := w / 2
  (List.range d).map fun q => p.base + n * p.tpitch + r * p.rpitch + 8 * ((q + r * p.rot) % d)

/-- The elements of w bits in bytes. -/
def elements (w n : Nat) (l : List Byte) : List Nat :=
  let v := leNat l
  (List.range n).map fun j => v / 2 ^ (w * j) % 2 ^ w

/-- R217, R218: the 32 rows of an operand in step n. -/
def State.blockOf (s : State) (core ten : Nat) (reg : Option (List Byte)) (p : MatPair) (w n : Nat) :
    Except Trap (List (List Nat)) :=
  let cut (l : List Byte) : List (List Nat) := (List.range 32).map fun r => elements w 32 ((l.drop (4 * w * r)).take (4 * w))
  match reg with
  | some l => .ok (cut l)
  | none =>
    match s.spadDwords core ten ((List.range 32).flatMap fun r => p.rowOffsets w n r) with
    | .ok l => .ok (cut l)
    | .error e => .error e

/-- R213: the 32 scales of step n, or none where no scales apply. -/
def State.scalesOf (s : State) (core ten : Nat) (r a : W64) (n : Nat) : Except Trap (Option (List Nat)) :=
  if !fmtScaled r then .ok none
  else
    let ea := a + w64 (32 * n)
    match s.localAt core ten ea 32 with
    | .error t => .error t
    | .ok pa =>
      match s.badWord ea [(pa, 32)] with
      | some v => .error ⟨0x09, v⟩
      | none => .ok (some ((s.readBytes pa 32).map BitVec.toNat))

/-- Rows as columns. -/
def columns (l : List (List Nat)) : List (List Nat) := (List.range 32).map fun j => l.map fun r => r[j]?.getD 0

/-- R219: apply step n of an `mmac` to the elements of a tile, or the fault that strikes it (R223). -/
def State.kstep (s : State) (core ten : Nat) (c : MatCmd) (n : Nat) (old : List Nat) : Except Trap (List Nat × FlagSet) :=
  let r := c.regs
  let fa := fmtCode r.fmta
  let fb := fmtCode r.fmtb
  match s.blockOf core ten c.ra (pairOf c.a0 c.a1) (matWidth fa) n with
  | .error t => .error t
  | .ok a =>
    match s.blockOf core ten c.rb (pairOf c.b0 c.b1) (matWidth fb) n with
    | .error t => .error t
    | .ok b =>
      match s.scalesOf core ten r.fmta r.scla n with
      | .error t => .error t
      | .ok sa =>
        match s.scalesOf core ten r.fmtb r.sclb n with
        | .error t => .error t
        | .ok sb =>
          let cols := columns b
          if c.sr = 1 then
            let ia := a.map fun l => l.map (matInt fa)
            let ib := cols.map fun l => l.map (matInt fb)
            let l := ((ia.flatMap fun x => ib.map fun y => (x, y)).zip old).map fun e => stepInt e.2 e.1.1 e.1.2
            .ok (l, 0)
          else
            let fin := bitAt r.nanrd 0
            let scale (o : Option (List Nat)) (j : Nat) (v : FVal) : FVal :=
              match o with
              | some l => scaled (l[j]?.getD 0) v
              | none => v
            let vals (l : List (List Nat)) (f : W64) (t : DecTab) (o : Option (List Nat)) : List (List FVal) :=
              (List.range 32).map fun j => (l[j]?.getD []).map fun x => scale o j (matVal (fmtCode f) fin t x)
            let va := vals a r.fmta r.ta sa
            let vb := vals cols r.fmtb r.tb sb
            let l := ((va.flatMap fun x => vb.map fun y => (x, y)).zip old).map fun e =>
              stepElem c.sr (rndOf r.rmode) e.2 e.1.1 e.1.2
            .ok (l.map Prod.fst, orFlags l)

/-- R148: what step n of an `mmac` reads of a cluster's scratchpad and of TCM. -/
def State.stepSpans (s : State) (core ten : Nat) (c : MatCmd) (n : Nat) : List (Nat × Nat) :=
  let rows (e : MatPair × Nat) : List (Nat × Nat) :=
    (List.range 32).flatMap fun r => (e.1.rowOffsets e.2 n r).map fun off => (paSpad (clusterX core) (clusterY core) off, 8)
  let scale (r a : W64) : List (Nat × Nat) :=
    if !fmtScaled r then [] else match s.localAt core ten (a + w64 (32 * n)) 32 with | .ok pa => [(pa, 32)] | .error _ => []
  c.pairs.flatMap rows ++ scale c.regs.fmta c.regs.scla ++ scale c.regs.fmtb c.regs.sclb

/-! ## Operations of the unit -/

/-- R216: the decode table that a format register names, of a core; an empty one where it names none. -/
def State.tableOf (s : State) (core : Nat) (f : W64) : DecTab := if fmtCode f = 3 then s.dt core (fmtTable f) else DecTab.zero

/-- R216: what an operation of a slot of a core samples, with the slot's registers c. -/
def State.matRegs (s : State) (core : Nat) (c : Ctx) : MatRegs :=
  ⟨c.cr.fmta, c.cr.fmtb, c.cr.fmtc, c.cr.scla, c.cr.sclb, c.cr.nanrd, c.cr.rmode, s.tableOf core c.cr.fmta, s.tableOf core c.cr.fmtb⟩

/-- R217: the bytes of the registers from v on that an operand of w-bit elements takes. -/
def regRun (c : Ctx) (v : BitVec 5) (w : Nat) : List Byte :=
  (((List.range 16).drop v.toNat).flatMap fun n => vBytes (c.getV (BitVec.ofNat 4 n)) (c.vlen / 8)).take (128 * w)

/-- A command with nothing in it. -/
def MatCmd.blank (k : Nat) (r : MatRegs) (stamp : Nat) : MatCmd :=
  ⟨0, 0, 0, false, 1, 0, 0, 0, 0, none, none, 0, 0, r, k, 0, 0, 0, false, stamp⟩

/-- R210: the operation of an owner's instruction. -/
def State.ownCmd (s : State) (i : Instr) (k : Nat) (c : Ctx) (stamp : Nat) : MatCmd :=
  let r := s.matRegs (caCore k) c
  let x := { MatCmd.blank k r stamp with tenant := c.ten }
  match i with
  | .mload _ t a b => { x with kind := 4, tile := t.toNat, da := c.getG a, db := c.getG b }
  | .mdrain _ t a b => { x with kind := 2, tile := t.toNat, da := c.getG a, db := c.getG b }
  | .mdrainr _ _ a b => { x with kind := 3, tile := bitsAt (c.getG b) 41 40, da := c.getG a, db := c.getG b }
  | .mmac _ t a b z bv av sr steps =>
    { x with
      kind := 1, tile := t.toNat, sr := sr.toNat, z := z, steps := steps.toNat + 1
      a0 := c.getG a, a1 := c.getGAt a 1, b0 := c.getG b, b1 := c.getGAt b 1
      ra := if av then some (regRun c a (matWidth (fmtCode r.fmta))) else none
      rb := if bv then some (regRun c b (matWidth (fmtCode r.fmtb))) else none }
  | .mzero _ t => { x with tile := t.toNat }
  | _ => x

/-- R214: the step that `mkstep` holds. -/
def Ctx.mkstepNo (c : Ctx) : Nat := bitsAt c.cr.mkstep 11 0
/-- R214: write the step of `mkstep`. -/
def Ctx.setMkstep (n : Nat) (c : Ctx) : Ctx :=
  c.onCr fun r => { r with mkstep := (r.mkstep &&& ~~~0xFFF#64) ||| w64 (n % 2 ^ 12) }

/-- The operation of a unit is over. A claim that is being given up ends now (R224, R227). -/
def State.opOver (s : State) (core : Nat) : State := State.settleClaim (s.setUnit core { s.unit core with op := none }) core

/-- The operation of a unit completes: the owner's bundle gets the status of a drain; a sender is notified. -/
def State.opDone (s : State) (core : Nat) (o : MatOp) (status : W64) : State :=
  let u := s.unit core
  if o.own then
    let t := match (s.slot u.owner).st with
      | .park .matrix i _ _ | .drain _ .matrix i _ _ =>
        (match i with
         | .mmac _ _ _ _ _ _ _ _ _ => s.deliver u.owner (Ctx.setMkstep 0)
         | .mdrainr _ d _ _ => s.deliver u.owner fun c => c.setG d status
         | _ => s)
      | _ => s
    (t.reply u.owner none).opOver core
  else (s.notify core o.cmd (if o.refused then 3 else 0) 0 0).opOver core

/-- R223, R233: a fault strikes the operation of a unit in a step. That a remote drain reports its row as the step, of which R231
speaks for `mmac` alone, is the model's choice (log entry 106). -/
def State.opFault (s : State) (core : Nat) (o : MatOp) (t : Trap) : State :=
  let u := s.unit core
  if o.own then
    let s1 := if o.cmd.kind = 1 then s.modSlot u.owner fun x => { x with ctx := x.ctx.setMkstep o.step } else s
    (s1.reply u.owner (some t)).opOver core
  else
    let s0 := s.countError core t
    let s1 := s0.setUnit core { u with fault := true, fcause := t.cause, fstep := o.step, ftile := o.cmd.tile, queue := [] }
    let s2 := s1.notify core o.cmd 2 t.cause o.step
    (u.queue.foldl (fun x c => x.notify core c 1 0 0) s2).opOver core

/-- R227, R224: an `mmac` that is given up before step n. -/
def State.opCut (s : State) (core : Nat) (o : MatOp) (n : Nat) : State :=
  let u := s.unit core
  if o.own then
    ((s.modSlot u.owner fun x => { x with ctx := x.ctx.setMkstep n, after := none }).reply u.owner none).opOver core
  else (s.notify core o.cmd 1 0 n).opOver core

/-- R210, R229: the unit takes an operation. -/
def State.opTake (s : State) (core : Nat) (c : MatCmd) (own : Bool) (step : Nat) : State :=
  let u := s.unit core
  let u := if c.kind = 1 ∧ c.z ∧ step = 0 then u.setTile c.tile [] else u
  s.setUnit core { u with op := some ⟨c, own, step, false⟩ }

/-- R230, R232: the wake-up that follows the rows of a remote drain; the status of the drain. For a wake-up that is answered PROT
after accepted rows the table of R232 has no line: 1, as for FULL, is the model's choice (log entry 94). -/
def State.drainWake (s : State) (core : Nat) (o : MatOp) : State × W64 :=
  let c := o.cmd
  let u := s.unit core
  let dst := caTile (bitsAt c.da 38 32) (bitsAt c.da 45 40)
  let mb := drainBox c.db
  let nr := bitAt c.regs.nanrd 0
  match s.landMessage dst mb u.tenant nr (BitVec.ofNat 32 u.owner) (mailHeader u.owner mb (drainId c.db) 1 nr)
      (wakePayload (if o.refused then 3 else 0) 0 0 c.tile c.da) with
  | (.accepted, t) => (t, if o.refused then 2 else 0)
  | (_, t) => (t, if o.refused then 2 else 1)

/-- One step of the operation of a unit: a K-step, a row of a drain, the wake-up after the rows, or a whole `mzero` or
`mload`. A row or a wake-up for another core waits behind the earlier packets of this core (R189). -/
def State.unitStep (s : State) (core : Nat) : State :=
  let u := s.unit core
  match u.op with
  | none => s
  | some o =>
    let c := o.cmd
    let s := if c.kind = 1 then s.correctSpans (s.stepSpans core u.tenant c o.step) else s
    let on (u : MatUnit) : State := s.setUnit core { u with op := some { o with step := o.step + 1 } }
    match c.kind with
    | 1 =>
      (match s.kstep core u.tenant c o.step (u.tile c.tile) with
       | .error t => s.opFault core o t
       | .ok (l, f) =>
         let u := { u.setTile c.tile l with flags := u.flags ||| f }
         if c.steps ≤ o.step + 1 then (s.setUnit core u).opDone core o 0
         else if u.ending then (s.setUnit core u).opCut core o (o.step + 1)
         else on u)
    | 2 =>
      let (l, f) := u.drainRow c.tile o.step c.regs
      (match s.localAt core u.tenant (c.da + w64 o.step * c.db) c.rowSize with
       | .error t => s.opFault core o t
       | .ok pa =>
         let t := (on { u with flags := u.flags ||| f }).storeBytes pa l
         if 31 ≤ o.step then t.opDone core o 0 else t)
    | 3 =>
      let dst := caTile (bitsAt c.da 38 32) (bitsAt c.da 45 40)
      if s.overtakes 3 core s.stamp [dst] then s
      else if 32 ≤ o.step then
        let (t, v) := s.drainWake core o
        t.opDone core o v
      else
        let (l, f) := u.drainRow c.tile o.step c.regs
        let (a, t) := s.landRun dst (drainBox c.db) u.tenant (bitAt c.regs.nanrd 0) (BitVec.ofNat 32 u.owner)
          (bitsAt c.da 16 0 + o.step * drainPitch c.db) l
        let u := t.unit core
        t.setUnit core
          { u with flags := u.flags ||| f, op := some { o with step := o.step + 1, refused := o.refused || a != .accepted } }
    | 4 =>
      let rows := (List.range 32).map fun i => s.localAt core u.tenant (c.da + w64 i * c.db) 128
      let spans := rows.filterMap fun r => match r with | .ok pa => some (pa, 128) | .error _ => none
      (match firstOf (rows.map trapOf) with
       | some t => s.opFault core o t
       | none =>
         match (List.range 32).findSome? fun i => s.badWord (c.da + w64 i * c.db) ((spans.drop i).take 1) with
         | some v => s.opFault core o ⟨0x09, v⟩
         | none => ((s.correctSpans spans).setUnit core (u.setTile c.tile (elements 32 1024 (s.readSpans spans)))).opDone core o 0)
    | _ => (s.setUnit core (u.setTile c.tile [])).opDone core o 0

/-- The operation of a unit goes on for at most n steps. -/
def State.unitRun (core : Nat) : Nat → State → State
  | 0, s => s
  | n + 1, s => if (s.unit core).op.isNone then s else State.unitRun core n (s.unitStep core)

/-- R210: the owner's instruction that waits for the unit, with its place in the order of arrival. From a unit that is being
released only an `mdrainr` of a draining owner is still taken (R232). -/
def State.ownWaiting (s : State) (core : Nat) : Option (Nat × Instr) :=
  let u := s.unit core
  match (s.slot u.owner).st with
  | .park .matrix i _ n | .drain _ .matrix i _ n =>
    (match i with
     | .mrel _ => none
     | _ => if u.claimed && (!u.ending || s.drainWaits u.owner) then some (n, i) else none)
  | _ => none

/-- R210, R233: the unit takes the operation that arrived first, the owner's or a remote command. -/
def State.unitStart (s : State) (core : Nat) : State :=
  let u := s.unit core
  let startOwn (n : Nat) (i : Instr) : State :=
    let x := s.slot u.owner
    let c := s.ownCmd i u.owner x.ctx n
    match s.cmdTrap core u.tenant x.ctx c with
    | some t => s.reply u.owner (some t)
    | none => s.opTake core c true (if c.kind = 1 then x.ctx.mkstepNo else 0)
  let startRemote (c : MatCmd) (t : List MatCmd) : State :=
    let s1 := s.setUnit core { u with queue := t }
    match firstOf [c.alignTrap, s1.cmdTrap core u.tenant (s.slot u.owner).ctx c] with
    | some e => s1.opFault core ⟨c, false, 0, false⟩ e
    | none => s1.opTake core c false 0
  if u.op.isSome then s
  else
    match s.ownWaiting core, if u.ending then [] else u.queue with
    | some (n, i), [] => startOwn n i
    | some (n, i), c :: t => if n ≤ c.stamp then startOwn n i else startRemote c t
    | none, c :: t => startRemote c t
    | none, [] => s

/-! ## Capabilities (R225) -/

/-- R225: the capability of the current claim of a core's unit. That it follows a later write of `mcapk` is the model's choice
(log entry 93). -/
def State.capability (s : State) (core : Nat) : W64 :=
  let u := s.unit core
  let bytes := leBytes 8 (smGet 0 s.mcapk core).toNat ++ leBytes 8 u.owner ++ leBytes 8 u.tenant ++ leBytes 8 u.epoch.toNat
  w64 (u.epoch.toNat * 2 ^ 48 + leNat ((Sha512.digest bytes).take 6))

/-- R225: the next epoch. -/
def nextEpoch (e : BitVec 16) : BitVec 16 := if e + 1 = 0 then 1 else e + 1

end Sys2Proof.Machine
end

