-- ==== Sys2Proof/Machine/SaveRecord.lean ====
section
/-!
DEFINITION. The record of a slot's context (R64, R185): the words that a spill writes, and the context that a record
holds.
-/

namespace Sys2Proof.Machine

/-- R64: the per-slot control registers of slot k in the order of their save offsets. -/
def CRs.words (r : CRs) (k : Nat) : List W64 :=
  [r.rmode, r.fpflags, r.nanrd, r.srseed, r.srctr, r.fmta, r.fmtb, r.fmtc, r.scla, r.sclb, r.mkstep, r.qwin, r.lmask,
    r.stklim, r.scope, r.uivec, r.uixid, r.wid, r.wshape, r.tenant, slotidOf k, r.pstate, r.tabent, r.tabst, r.lnum, r.tvec,
    r.cause, r.epc, r.tval, r.lrect]

/-- R7, R64: the bits of a control register that are zero in a record; `slotid` has none, since its dword is ignored. -/
def recordReserved (n : Nat) : W64 := if n = 0x00E ∨ n = 0x204 then rectReserved else if n = 0x103 then 0 else reservedBits n

/-- R64: the control registers that a record holds, w giving its dword j. Reserved bits read as zero (R7). Its `slotid`, dword
61, is ignored. -/
def CRs.ofWords (w : Nat → W64) : CRs :=
  let f (n j : Nat) : W64 := w j &&& ~~~recordReserved n
  ⟨f 0x000 41, f 0x001 42, f 0x002 43, f 0x003 44, f 0x004 45, f 0x005 46, f 0x006 47, f 0x007 48, f 0x008 49, f 0x009 50,
    f 0x00A 51, f 0x00B 52, f 0x00C 53, f 0x00D 54, f 0x00E 55, f 0x00F 56, f 0x010 57, f 0x100 58, f 0x101 59, f 0x102 60,
    f 0x104 62, f 0x105 63, f 0x106 64, f 0x107 65, f 0x200 66, f 0x201 67, f 0x202 68, f 0x203 69, f 0x204 70⟩

/-- R21, R64: the pc that a record holds. Its bits 2:0, of which no rule speaks, are ignored: the model's choice (log entry 99). -/
def recordPc (w : Nat → W64) : W64 := w 0 &&& ~~~7#64

/-- The dword of two words, the first lower. -/
def pairWord (lo hi : BitVec 32) : W64 := hi ++ lo

/-- R185: dword 0x2C0 of the repetition buffer. -/
def RepBuf.control (r : RepBuf) : W64 :=
  let bit (b : Bool) (n : Nat) : Nat := if b then 2 ^ n else 0
  w64 (bit r.act 0 + bit r.susp 1 + bit r.cap 2 + r.len.toNat * 2 ^ 3 + r.count.toNat * 2 ^ 7 + r.stride.toNat * 2 ^ 19 +
    r.steps.toNat * 2 ^ 22 + r.i % 2 ^ 12 * 2 ^ 25 + r.k % 2 ^ 4 * 2 ^ 37)

/-- R185: the buffer as a record holds it. -/
def RepBuf.ofWords (w : Nat → W64) : RepBuf :=
  let c := w 88
  ⟨Vector.ofFn fun (n : Fin 16) => (w (80 + n.val / 2) >>> (32 * (n.val % 2))).truncate 32, bitAt c 0, bitAt c 1, bitAt c 2,
    BitVec.ofNat 4 (bitsAt c 6 3), BitVec.ofNat 12 (bitsAt c 18 7), BitVec.ofNat 3 (bitsAt c 21 19),
    BitVec.ofNat 3 (bitsAt c 24 22), bitsAt c 36 25, bitsAt c 40 37⟩

/-- R185: i, k and the capture count lie inside len and count. -/
def RepBuf.inBounds (r : RepBuf) : Bool :=
  decide (r.i ≤ r.count.toNat) && decide (r.k ≤ r.len.toNat)

/-- Consecutive dwords from dword n on. -/
def wordsFrom (n : Nat) (l : List W64) : List (Nat × W64) := l.zipIdx.map fun e => (n + e.2, e.1)

/-- R194: a thread spilled while parked in `recv` or `waitc`, whose bundle has not committed, stays with its core. -/
def Slot.mailBound (x : Slot) : Bool :=
  let committed := match x.st with | .drain _ (.reply none) _ _ _ => x.after.isSome | _ => false
  !committed &&
    match x.instr with
    | some (.recv _ _ _ _) | some (.waitc _ _ _ _) => true
    | _ => false

/-- R64: the park record of the thread of slot k, in the model's layout (log entry 9): what the thread does first when it
resumes. 1 and 2 say that it goes on in its `wait` until a deadline, or for ever (R73); 3 that it waits for a mailbox of
its core (R194); 4 that it takes a trap (R192). -/
def Slot.parkRecord (x : Slot) (k : Nat) : W64 × W64 :=
  match x.pend with
  | some t => (w64 (4 + t.cause.toNat * 2 ^ 8), t.tval)
  | none =>
    if x.mailBound then (3, w64 (caCore k))
    else
      match x.late with
      | some (pc, d) => if pc ≠ x.ctx.pc then (0, 0) else if d < 2 ^ 64 then (1, w64 d) else (2, 0)
      | none => (0, 0)

/-- R64: the dwords of the record of a thread in slot k, those that are not listed being zero. park is the park record;
tiles are the elements of the four tiles, where it owns the unit. -/
def recordWords (c : Ctx) (k : Nat) (cls : BitVec 3) (park : W64 × W64) (tiles : SMap (BitVec 32)) : List (Nat × W64) :=
  let half (x : BitVec 1024) (h : Nat) : List W64 := (List.range 8).map fun j => w64 (lane x 64 (8 * h + j))
  let rep := (List.range 8).map fun j => pairWord ((c.rep.words.toList)[2 * j]?.getD 0) ((c.rep.words.toList)[2 * j + 1]?.getD 0)
  let tile (e : Nat × BitVec 32) : Nat × W64 := (512 + e.1 / 2, zext e.2 <<< (32 * (e.1 % 2)))
  let tileWords := tiles.foldl (fun (l : List (Nat × W64)) e =>
    let p := tile e
    match l with
    | (n, v) :: t => if n = p.1 then (n, v ||| p.2) :: t else p :: l
    | [] => [p]) []
  wordsFrom 0 [c.pc] ++ wordsFrom 1 (c.g.toList.tail) ++ wordsFrom 32 [zext c.b &&& 0xFE] ++ wordsFrom 33 c.m.toList ++
    wordsFrom 37 c.h.toList ++ wordsFrom 41 (c.cr.words k) ++ wordsFrom 71 [zext cls] ++
    wordsFrom 72 [park.1, park.2] ++ wordsFrom 80 rep ++ wordsFrom 88 [c.rep.control] ++
    wordsFrom 128 (c.v.toList.flatMap fun x => half x 0) ++ wordsFrom 256 (c.v.toList.flatMap fun x => half x 1) ++
    tileWords

/-- Fill n bytes from pa on with zeros and then with the dwords of a list. Poison is cleared, and pure entries that used
the blocks go (R245, R325). -/
def State.writeRecord (s : State) (pa n : Nat) (l : List (Nat × W64)) : State :=
  let t := (s.watch pa n).clearBad pa n
  (l.filter fun e => e.2 != 0).foldl (fun t e => t.writeW (pa + 8 * e.1) e.2)
    { t with mem := t.mem.filter fun e => !(decide (pa ≤ e.1) && decide (e.1 < pa + n)) }

/-- R64: the registers that a record holds. That a record of a save pool with a reserved bit set resumes with that bit zero is the
model's choice (log entry 99). -/
def recordCtx (w : Nat → W64) : Ctx :=
  let reg (n : Nat) : BitVec 1024 :=
    ofLanes 64 (((List.range 8).map fun j => (w (128 + 8 * n + j)).toNat) ++ ((List.range 8).map fun j => (w (256 + 8 * n + j)).toNat))
  { pc := recordPc w
    g := Vector.ofFn fun (n : Fin 32) => if n.val = 0 then 0 else w n.val
    b := (w 32).truncate 8 &&& 0xFE
    m := Vector.ofFn fun (n : Fin 4) => w (33 + n.val)
    h := Vector.ofFn fun (n : Fin 4) => w (37 + n.val)
    v := Vector.ofFn fun (n : Fin 16) => reg n.val
    cr := CRs.ofWords w
    rep := RepBuf.ofWords w }

/-- R64: the tiles that a record holds. -/
def recordTiles (w : Nat → W64) : SMap (BitVec 32) :=
  ((List.range 4096).map fun n => (n, (w (512 + n / 2) >>> (32 * (n % 2))).truncate 32)).filter fun e => e.2 != 0

/-- R224: the record holds the tiles of an owner. -/
def recordOwns (w : Nat → W64) : Bool := bitAt (w 51) 63

/-- R295: the record is of a ganged thread, or of one with held halves. R64 gives the record no mark of a HELD partner, so
that a thread whose held halves are all zero resumes without one: the model's choice (log entry 77). -/
def recordUpper (w : Nat → W64) : Bool := bitAt (w 62) 2 || (List.range 128).any fun j => w (256 + j) != 0

/-- R64, R295: a reserved area or bit of a record is zero, and its buffer fields lie in their bounds. Bits 2:0 of its pc are not
tested (log entry 99). -/
def recordOk (w : Nat → W64) : Bool :=
  let zeros (a b : Nat) : Bool := (List.range (b - a)).all fun j => w (a + j) == 0
  let idx := (List.range 0x11) ++ ((List.range 8).map (0x100 + ·)) ++ ((List.range 5).map (0x200 + ·))
  let crs := idx.zipIdx.all fun e => w (41 + e.2) &&& recordReserved e.1 == 0
  w 32 &&& ~~~0xFE#64 == 0 && w 71 &&& ~~~7#64 == 0 && w 72 &&& ~~~0xFF07#64 == 0 && zeros 74 80 && bitsAt (w 88) 63 41 == 0 &&
    zeros 89 128 && zeros 384 512 && (recordOwns w || zeros 512 2560) && crs && (RepBuf.ofWords w).inBounds

/-- The deadline of the `wait` that a record's thread was spilled in; one past 2^64 - 1 is never reached (R73). -/
def recordLate (w : Nat → W64) : Option (W64 × Nat) :=
  if w 72 = 1 then some (recordPc w, (w 73).toNat) else if w 72 = 2 then some (recordPc w, 2 ^ 64) else none

/-- The core to which the mailbox that a record's thread waits for binds it (R194). -/
def recordHome (w : Nat → W64) : Option Nat := if w 72 = 3 then some (caCore (w 73).toNat) else none

/-- The trap that a record's thread takes when it resumes (R192). -/
def recordPend (w : Nat → W64) : Option Trap :=
  if bitsAt (w 72) 7 0 = 4 then some ⟨BitVec.ofNat 8 (bitsAt (w 72) 15 8), w 73⟩ else none

end Sys2Proof.Machine
end

