-- ==== Sys2Proof/Machine/Spill.lean ====
section
/-!
DEFINITION. Spill and resume (R193, R289 to R295): what a spill does to a slot, the pools of records, the write of a
record, and a record that becomes a thread again.
-/

namespace Sys2Proof.Machine

/-! ## The start of a spill -/

/-- R71, R193, R289: a slot that the spill engine may choose: not one parked in `spawn`, whatever it waits for there, or in
`quit`. -/
def Slot.spillable (x : Slot) : Bool :=
  match x.st with
  | .run => true
  | .park _ (.spawn _ _ _ _ _) _ _ | .park .quit _ _ _ => false
  | .park _ _ _ _ => true
  | _ => false

/-- R104, R357: an instruction whose bundle commits on a spill, since its thread resumes after it. -/
def isFence (i : Instr) : Bool :=
  match i with
  | .fence _ | .fenceAcq _ | .fenceRel _ | .isync _ => true
  | _ => false

/-- R55, R290, R291: the state of a slot whose thread is to be spilled. It passes through DRAIN when its operation must
finish (keep), or when busy: its matrix unit or its stores must. -/
def SlotSt.spillingFrom (st : SlotSt) (keep busy : Bool) : SlotSt :=
  if keep || busy then st.draining keep true
  else
    match st with
    | .park _ i _ _ => .saving true i
    | _ => .saving false (.cnop .always)

/-- R55, R290, R291: the thread of a slot is to be spilled, with its operation finishing or withdrawn. A bundle whose
operation is withdrawn runs again on resume. One in which a divide, a root or a special function is in progress drains with its
C-half, whatever that waits for, and commits (R99, R171; log entry 65). -/
def State.spillSlot (s : State) (k : Nat) : State :=
  let x := s.slot k
  let u := s.unit (caCore k)
  let owns := s.owns k
  let t := if owns then s.setUnit (caCore k) { u with ending := true, keep := true } else s
  let busy := (owns && u.op.isSome) || !x.out.isEmpty || x.dividing
  let keep := s.unfinished k || match x.waits with | some (w, _) => x.holdsOn w | none => false
  let fence := match x.instr with | some i => isFence i | none => false
  match x.st with
  | .run | .park _ _ _ _ =>
    if keep then t.modSlot k fun y => { y with st := x.st.spillingFrom true busy }
    else
      (t.modSlot k fun y =>
        { y with
          st := x.st.spillingFrom false busy
          after := if fence then x.after else none
          late := match x.st with | .park (.wait d) _ _ _ => some (x.ctx.pc, d) | _ => x.late }).withdrawn k x.st
  | _ => s

/-! ## Records of the pools -/

/-- R290: the bytes of a record. -/
def recordSize : Nat := 0x5000

/-- R243, R244, R290: the free records of a pool, which an object of tenant 0 is, by its handle. -/
def State.poolRecords (s : State) (handle : Nat) : List Nat :=
  let o := s.obj 0 handle
  let base := paStack 0 (4 * 2 ^ 60 + handle * 2 ^ 40)
  if !o.used then []
  else ((List.range (o.size / recordSize)).map fun j => base + recordSize * j).filter fun pa =>
    (s.spilled.all fun x => x.soft || x.pa != pa) && !s.runGone pa recordSize && !s.runDesc pa recordSize

/-- R369: the handles of a tenant's primary and alternate save pools. -/
def State.spool (s : State) (tenant : Nat) : Nat := (s.tt tenant 4).toNat % 2 ^ 20
def State.apool (s : State) (tenant : Nat) : Nat := (s.tt tenant 5).toNat % 2 ^ 20

/-- R290, R292: where the record of a spilled thread goes after a number of failed writes. -/
def State.recordFor (s : State) (tenant fails : Nat) : Option Nat :=
  match (if fails = 0 then s.poolRecords (s.spool tenant) else []) with
  | pa :: _ => some pa
  | [] => (s.poolRecords (s.apool tenant)).head?

/-- R294: the `svsl` that waits for slot k, with the address of its record. -/
def State.saver (s : State) (k : Nat) : Option (Nat × W64) :=
  s.slots.findSome? fun e =>
    match e.2.st with
    | .park (.save n ea) _ _ _ | .drain _ (.save n ea) _ _ _ => if n = k then some (e.1, ea) else none
    | _ => none

/-- R290: the spill engine may start a spill: a pool has a record that no thread under way to its own is to take. -/
def State.poolRoom (s : State) (tenant : Nat) : Bool :=
  let free := s.poolRecords (s.spool tenant) ++ if s.apool tenant = s.spool tenant then [] else s.poolRecords (s.apool tenant)
  let due := s.slots.filter fun e => e.2.st.spilling && e.2.ctx.ten == tenant && (s.saver e.1).isNone
  decide (due.length < free.length)

/-- R193, R289, R290: the spill engine spills slot k, where it may. -/
def State.engineSpill (s : State) (k : Nat) : State :=
  if (s.slot k).spillable && s.poolRoom (s.slot k).ctx.ten then s.spillSlot k else s

/-! ## The record is written -/

/-- R294, R295: the status of a parked `svsl`. -/
def State.answerSave (s : State) (k : Nat) (v : W64) : State :=
  match (s.slot k).instr with
  | some (.svsl _ d _ _) => (s.deliver k fun c => c.setG d v).reply k none
  | _ => s

/-- R238: n bytes at ea of a tenant's stacked memory, block by block. -/
def State.resolveRange (s : State) (tenant : Nat) (ea : W64) (n : Nat) (need : BitVec 4) : Except Trap Nat :=
  let points := ea :: (((List.range (n / 4096 + 1)).map fun j => ea - w64 (ea.toNat % 4096) + w64 (4096 * (j + 1))).filter
    fun a => decide (a.toNat < ea.toNat + n))
  match points.findSome? fun a => match s.resolve tenant a need with | .error t => some t | .ok _ => none with
  | some t => .error t
  | none => .ok (paStack tenant ea.toNat)

/-- R55: the bundle of a spilled slot whose operation is over commits, unless its reply carries a trap (R290). -/
def Slot.settleDrain (x : Slot) : Slot :=
  match x.st with
  | .drain _ (.reply (some _)) _ _ _ => { x with after := none }
  | .drain _ (.reply none) _ _ _ | .saving _ _ =>
    (match x.after with
     | some c => { x with ctx := { c with pc := x.npc }, after := none }
     | none => x)
  | _ => { x with after := none }

/-- R290, R291: the operation of a spilled slot is over, its stores are accepted, and its unit is at rest: its record may be
written. -/
def State.drainedOut (s : State) (k : Nat) : Bool :=
  let x := s.slot k
  (match x.st with | .drain true (.reply _) _ _ _ | .saving _ _ => true | _ => false) && x.out.isEmpty &&
    !(s.owns k && (s.unit (caCore k)).op.isSome)

/-- R104: the operation of a slot that is saved is `isync`. -/
def Slot.syncing (x : Slot) : Bool := match x.instr with | some (.isync _) => true | _ => false

/-- The record of the thread of slot k is written at pa, with upper vector halves only of a ganged thread or one with a HELD
partner (R64), and the slot passes to FREE. An entry of the landing buffer that
can take it does (R193). -/
def State.saveThread (s : State) (k pa : Nat) (soft : Bool) : State :=
  let x := (s.slot k).settleDrain
  let park := (s.slot k).parkRecord k
  let core := caCore k
  let own := s.owns k
  let u := s.unit core
  let whole := x.ctx.gang || (s.slot (partner k)).st == .held
  let t := s.writeRecord pa recordSize (recordWords (if whole then x.ctx else x.ctx.dropUpper) k x.cls park (if own then u.tiles else []))
  let t := if own then t.endClaim core true else t
  let (n, t) := t.nextStamp
  let y : Spilled :=
    { tid := x.tid, tenant := x.ctx.cr.tenant, lnum := x.ctx.cr.lnum, wid := x.ctx.cr.wid, cls := x.cls, core := core
      pa := pa, soft := soft, fixed := (s.slot k).mailBound, sync := (s.slot k).syncing, pure := x.pure, order := n }
  (State.vacate { t with spilled := t.spilled ++ [y] } k).admitOne core

/-- R292: a thread outside a slot, with these registers, faults with cause 0x13. -/
def State.faultAway (s : State) (c : Ctx) (slot : Nat) : State :=
  let sh := c.cr.wshape
  let v := s.consult sh c.key (shapeLevels sh) 0
  (s.absorb sh c.key v).postEvent c.ten
    [w64 (0x13 + 1 * 2 ^ 8 + v.level * 2 ^ 16 + v.action * 2 ^ 19) ||| (c.cr.lnum <<< 32), c.pc, 0, c.cr.wid, w64 slot, w64 s.cycle, 0]

/-- R294: `svsl` gives up the slot k that it was to save, whose thread goes on as x; past an `isync`, whose core fetches its lines
anew (R104). -/
def State.keepThread (s : State) (k : Nat) (x : Slot) : State :=
  let t := (if (s.slot k).syncing then s.dropCache k else s).setSlot k { x with st := .run }
  if t.owns k then t.setUnit (caCore k) { t.unit (caCore k) with ending := false, keep := false } else t

/-- R290, R292, R294: the write of the record of slot k is over, after some failures. A record whose blocks are held waits
for them (R242, R243). -/
def State.recordWritten (s : State) (k fails : Nat) : State :=
  let s := s.flushAll k
  if !s.drainedOut k then s
  else
    let x := (s.slot k).settleDrain
    match s.saver k with
    | some (j, ea) =>
      if fails ≠ 0 then (s.keepThread k x).answerSave j 2
      else
        (match s.resolveRange (s.slot j).ctx.ten ea recordSize rightW with
         | .error e => (s.keepThread k x).reply j (some e)
         | .ok pa =>
           if s.runHeld pa recordSize then s
           else if s.runDesc pa recordSize then (s.keepThread k x).reply j (some ⟨0x0F, ea⟩)
           else (s.saveThread k pa true).answerSave j 0)
    | none =>
      if fails < 2 then
        match s.recordFor x.ctx.ten fails with
        | some pa => if s.runHeld pa recordSize then s else s.saveThread k pa false
        | none => s
      else (s.setSlot k { x with st := .run }).faultSlot k ⟨0x13, 0⟩

/-! ## Resume -/

/-- R193, R194, R224, R295: a slot that a record can take. -/
def State.slotFits (s : State) (w : Nat → W64) (k : Nat) : Bool :=
  let upper := recordUpper w
  s.takable k && (!upper || (caKind k == .compute && caSlot k % 2 == 0 && s.takable (partner k))) &&
    (!recordOwns w || (caKind k == .compute && !(s.unit (caCore k)).claimed))

/-- R224: the resumed owner claims the unit, with its tiles. -/
def State.reclaim (s : State) (k : Nat) (tenant : Nat) (tiles : SMap (BitVec 32)) : State :=
  let u := s.unit (caCore k)
  s.setUnit (caCore k)
    { MatUnit.idle with claimed := true, owner := k, tenant := tenant, epoch := nextEpoch u.epoch, tiles := tiles }

/-- R55, R293, R295: the thread of a record enters slot k through RESV. For one that was spilled in `isync` the core fetches
its lines anew (R104). -/
def State.enterRecord (s : State) (k : Nat) (w : Nat → W64) (cls : BitVec 3) (x : Spilled) : State :=
  let c := recordCtx w
  let t := s.setSlot k
    { Slot.free with
      st := .resv, tid := x.tid, ctx := c, cls := cls, pure := x.pure, late := recordLate w, pend := recordPend w }
  let t := if recordUpper w then
      t.setSlot (partner k) { Slot.free with st := if bitAt (w 62) 2 then .ganghi else .held } else t
  let t := if recordOwns w then t.reclaim k c.ten (recordTiles w) else t
  let t := if x.sync then t.dropCache k else t
  { t with spilled := t.spilled.filter fun y => y.tid != x.tid }

/-- R293: the header of a launch lets its threads move. -/
def State.mobile (s : State) (tenant lnum : W64) : Bool :=
  match s.launch tenant lnum with
  | some l => bitAt ((l.hdr.toList)[4]?.getD 0) 5
  | none => false

/-- R244, R293: a core on which a spilled thread may run no longer. -/
def State.coreGone (s : State) (core : Nat) : Bool :=
  match caKind core with
  | .compute => !s.coreEnabled core
  | .bank => !s.inService core
  | .station => false

/-- R293: a spilled thread may leave its core: its launch is mobile, or the core is disabled or retired; but not one that a
mailbox binds (R194). -/
def State.mayMove (s : State) (x : Spilled) : Bool := !x.fixed && (s.coreGone x.core || s.mobile x.tenant x.lnum)

/-- R143, R293: the tenant of a thread owns this compute core, and may use it. -/
def State.ownCore (s : State) (tenant : W64) (core : Nat) : Bool :=
  caKind core == .compute && (s.tcmOwner core).toNat == tenant.toNat && (!isCobbler core || tenant == 0)

/-- R194, R293: a slot that a spilled thread may resume in. The core that it left may have passed to another tenant only
where the thread may move (R143). -/
def State.mayResume (s : State) (x : Spilled) (w : Nat → W64) (k : Nat) : Bool :=
  let core := caCore k
  let back := core == x.core && !s.coreGone core &&
    (caKind core != .compute || !s.mobile x.tenant x.lnum || s.ownCore x.tenant core)
  let moved := core != x.core && s.mayMove x && (rectOf (w 70)).hasCore core && s.coreEnabled core && s.ownCore x.tenant core
  decide (caSlot k < slotCount (caKind k)) && (back || moved) && s.slotFits w k && s.openSlot k &&
    (!recordUpper w || s.openSlot (partner k))

/-- R242, R243, R293: a thread of the resume list may resume in slot k now: its record can be read. -/
def State.canResume (s : State) (x : Spilled) (k : Nat) : Bool :=
  !x.soft && s.mayResume x (fun j => s.readW (x.pa + 8 * j)) k && !s.runHeld x.pa recordSize

/-- R293: a thread that may resume does, in slot k. An uncorrectable word in its record kills it (R292); so does, as the
model's choice, a record in a block that is lost or offline (log entry 78). -/
def State.resumeThread (s : State) (x : Spilled) (k : Nat) : State :=
  let w (j : Nat) : W64 := s.readW (x.pa + 8 * j)
  if (s.firstBad x.pa recordSize).isSome || s.runGone x.pa recordSize then
    (s.killSpilled 0x13 x).faultAway ((recordCtx w).onCr fun r => { r with tenant := x.tenant, lnum := x.lnum, wid := x.wid }) k
  else s.enterRecord k w x.cls x

end Sys2Proof.Machine
end

