-- ==== Sys2Proof/Machine/AnswerTable.lean ====
section
/-!
DEFINITION. The Answer Table's instructions (R309 to R316, R322 to R326): keys and their homes, merges and the wait walk,
tabled calls, and pure tasks.
-/

namespace Sys2Proof.Machine

/-! ## Keys (R306, R322, R323) -/

/-- Dwords as bytes, the least significant byte of each first. -/
def dwordBytes (l : List W64) : List Byte := l.flatMap fun w => leBytes 8 w.toNat

/-- R306: the home die and the home set of a digest. -/
def homeOf (digest : List Byte) : Nat × Nat :=
  let h := leNat (digest.take 8)
  (h % 8, h / 8 % 2 ^ 15)

/-- R306: the home of a tabled call. -/
def callHome (tenant callee : W64) (args : List W64) : Nat × Nat :=
  homeOf (Sha512.digest (dwordBytes (tenant :: callee :: w64 args.length :: args)))

/-- R322: the addresses of the blocks of a tile. -/
def Tile.blocks (x : Tile) : List W64 := (List.range (x.len.toNat / 4096)).map fun j => x.addr + w64 (4096 * j)

/-- R322: the hash of a tile of a tenant. -/
def State.tileHash (s : State) (tenant : Nat) (x : Tile) : List Byte :=
  let leaf (a : W64) : List Byte := Sha512.digest256 (0 :: s.readBytes (paStack tenant a.toNat) 4096)
  Sha512.digest256 ([1] ++ dwordBytes [w64 x.blocks.length] ++ x.blocks.flatMap leaf)

/-- R323, R369: the content key of a pure task. -/
def State.contentKey (s : State) (tenant : Nat) (code : Tile) (args : List Tile) (out : Tile) : List Byte :=
  Sha512.digest256 ([2] ++ s.tileHash tenant code ++ dwordBytes [w64 args.length] ++ args.flatMap (s.tileHash tenant) ++
    dwordBytes (out.len :: (List.range 4).map fun j => s.tt tenant (17 + j)))

/-! ## Entries and groups -/

/-- R306: the entry of a set that a lookup of a tenant matches. -/
def State.lookup (s : State) (home : Nat × Nat) (tenant : W64) (key : AtKey) : Option Nat :=
  ((List.range 8).map fun j => home.1 * 2 ^ 18 + j * 2 ^ 15 + home.2).find? fun w =>
    let e := s.entry w
    e.st != .free && e.tenant == tenant && e.key == key

/-- R307, R308: a new entry in EVAL, a group of its own. -/
def State.newEntry (s : State) (way : Nat) (tenant : W64) (key : AtKey) : State :=
  (s.setEntry way { AtEntry.free with
    st := .eval, adv := (s.entry way).adv, tenant := tenant, key := key, group := way, created := s.cycle
    lastUse := s.cycle }).setGroup way ⟨0, false⟩

/-- R309: the ways of a thread's chain, from `tabent` on; n bounds its length. -/
def State.chain (s : State) (tenant : Nat) : Nat → W64 → List Nat
  | 0, _ => []
  | n + 1, r =>
    match (if r = 0 then none else s.wayOf tenant r) with
    | none => []
    | some w => w :: s.chain tenant n (s.entry w).parent

/-- R309: the chain of the executing thread. -/
def State.myChain (s : State) : List Nat := s.chain s.rd.ten (s.entries.length + 1) s.rd.cr.tabent

/-- R309, R310: the group of the caller's `tabent`. -/
def State.myGroup (s : State) : Option Nat :=
  match s.rd.cr.tabent, s.wayOf s.rd.ten s.rd.cr.tabent with
  | 0, _ => none
  | _, some w => if (s.entry w).st = .eval then some (s.entry w).group else none
  | _, none => none

/-- R308: the oldest of some leaders; ties go to the lower reference. -/
def State.oldest (s : State) (gs : List Nat) : Option Nat :=
  (sortBy (fun g => (s.entry g).created * 2 ^ 31 + s.refOf g) gs).head?

/-- R308: groups merge. Their leaders are given. -/
def State.mergeGroups (s : State) (gs : List Nat) : State :=
  match s.oldest gs with
  | none => s
  | some lead =>
    let round := (s.group lead).round
    let t := (gs.filter (· != lead)).foldl (fun t g =>
      let d := (t.group g).dirty
      let u := (t.members g).foldl (fun u w => u.setEntry w { u.entry w with group := lead, mround := round }) t
      (u.setGroup g ⟨0, false⟩).setGroup lead ⟨round, (u.group lead).dirty || d⟩) s
    t

/-- R313 produce: the executing thread is the producer of an entry. -/
def State.produce (s : State) (way : Nat) : State :=
  let e := s.entry way
  let t := s.setEntry way { e with
    producer := some s.me.tid, parent := s.rd.cr.tabent, mround := (s.group e.group).round }
  t.upd fun c =>
    (c.onCr fun r => { r with tabent := w64 (t.refOf way) }).setTabst (tabstOf .produce 0 e.answers.length)

/-- R309, R313: the caller receives a snapshot of an entry in EVAL, whose read flag is set. -/
def State.loopOn (s : State) (k : Nat) (d : GReg) (way : Nat) : State :=
  (s.setEntry way { s.entry way with readF := true }).deliverCall k d way (s.entry way).answers.length .loop

/-! ## The wait walk (R310) -/

/-- The entry on which a thread waits as a consumer, with its slot. -/
def State.waitsOn (s : State) (tid : Nat) : Option (Nat × Nat) :=
  s.slots.findSome? fun e =>
    match e.2.waits with
    | some (.entry w, _) => if e.2.tid = tid then some (e.1, w) else none
    | _ => none

/-- The producers of the members of a group that are parked as consumers: their slots and the entries they wait for. -/
def State.waiters (s : State) (g : Nat) : List (Nat × Nat) :=
  (s.members g).filterMap fun w =>
    match (s.entry w).producer with
    | some tid => s.waitsOn tid
    | none => none

/-- How a wait walk ends. -/
inductive Walk where
  | deep
  /-- The groups of the path, from the caller's own back to the first. -/
  | cycle (path : List Nat)
  | clear
  deriving DecidableEq, Repr

/-- R310: the groups that a walk finds from one that it visits by path; seen are the groups already found. -/
def walkEdges (mine : Option Nat) (path : List Nat) :
    List Nat → List (List Nat) × List Nat → Except Walk (List (List Nat) × List Nat)
  | [], acc => .ok acc
  | g :: t, (todo, seen) =>
    if seen.contains g then walkEdges mine path t (todo, seen)
    else if 8 ≤ seen.length then .error .deep
    else if mine = some g then .error (.cycle (g :: path))
    else walkEdges mine path t (todo ++ [g :: path], seen ++ [g])

/-- R310: the walk, group by group in the order in which they are found. -/
def State.walkGroups (s : State) (mine : Option Nat) : Nat → List (List Nat) → List Nat → Walk
  | 0, _, _ => .clear
  | _ + 1, [], _ => .clear
  | n + 1, p :: todo, seen =>
    let gs := (s.waiters (p.head?.getD 0)).map fun e => (s.entry e.2).group
    match walkEdges mine p gs (todo, seen) with
    | .error w => w
    | .ok (todo, seen) => s.walkGroups mine n todo seen

/-- R310: the walk closes a cycle: the groups of its path merge, and every call along it completes as a looping call, the
caller's own on the entry in a way. -/
def State.closeCycle (s : State) (d : GReg) (way : Nat) (path : List Nat) : State :=
  let parked := (path.reverse.flatMap s.waiters).filter fun e => path.contains (s.entry e.2).group
  let t := parked.foldl (fun t e =>
    match (t.slot e.1).waits with
    | some (.entry w, .tcall _ d _ _) => (t.loopOn e.1 d w).reply e.1 none
    | _ => t) (s.mergeGroups path)
  (t.loopOn t.cur d way).settle

/-- R310: a caller that reaches an entry in EVAL without a looping call. -/
def State.waitFor (s : State) (i : Instr) (d : GReg) (way : Nat) : State :=
  let g := (s.entry way).group
  match s.walkGroups s.myGroup 9 [[g]] [g] with
  | .deep => s.trap 0x0E (w64 (s.refOf way))
  | .cycle path => s.closeCycle d way path
  | .clear => s.parkAt s.cur (.entry way) i []

/-! ## tcall (R313) -/

/-- R313: the caller enters the callee as `jl` would. -/
def State.enterCall (s : State) (d : GReg) (way : Nat) (callee : W64) : State :=
  (((s.produce way).setG d (w64 (s.refOf way + 2 ^ 63))).setG 30 (s.pc + 8)).setNpc callee

/-- R313: a `tcall` finds an entry. -/
def State.callFound (s : State) (i : Instr) (d : GReg) (callee : W64) (way : Nat) : State :=
  let e := s.entry way
  let own := s.myGroup == some e.group
  let chain := s.myChain
  match e.st with
  | .complete => s.deliverCall s.cur d way e.answers.length .hit
  | .failed => (s.setG d (w64 (s.refOf way))).upd (Ctx.setTabst (tabstOf .failed e.cause 0))
  | _ =>
    if own && e.producer.isNone && e.mround != (s.group e.group).round then s.enterCall d way callee
    else if chain.contains way then
      let part := (chain.takeWhile (· != way) ++ [way]).filter fun w => (s.entry w).st == .eval
      ((s.mergeGroups (part.map fun w => (s.entry w).group)).loopOn s.cur d way).settle
    else if own then s.loopOn s.cur d way
    else s.waitFor i d way

/-- TCALL, R313. That the arguments in g1 to gn and the answer in g1 and g2, which no field names, are h registers while uih is 1 is
the model's choice: R81 speaks of fields (log entry 100). -/
def execTcall (gd : Guard) (d a : GReg) (n : BitVec 3) (s : State) : Res :=
  half gd s fun s =>
    let i : Instr := .tcall gd d a n
    let callee := s.g a
    let args := (List.range n.toNat).map fun j => s.gAt 1 j
    if callee.toNat % 8 ≠ 0 then s.trap 0x03 callee
    else if s.rd.pure then s.trap 0x0B callee
    else if s.slow then s.parkAt s.cur .flight i []
    else
      let home := callHome s.rd.cr.tenant callee args
      match s.lookup home s.rd.cr.tenant (.call callee args) with
      | some w => s.callFound i d callee w
      | none =>
        match s.takeWay s.rd.ten home.1 home.2 with
        | (none, t) => (t.setG d 0).upd (Ctx.setTabst (tabstOf .noroom 0 0))
        | (some w, t) => (t.newEntry w s.rd.cr.tenant (.call callee args)).enterCall d w callee

/-! ## tans, tend and tfail (R314) -/

/-- R314: the entry that the executing thread produces, as `tabent` names it. -/
def State.production (s : State) : Option Nat :=
  match (if s.rd.cr.tabent = 0 then none else s.wayOf s.rd.ten s.rd.cr.tabent) with
  | some w => if (s.entry w).producer = some s.me.tid then some w else none
  | none => none

/-- R312: the answer count of the entry in `tabent`. -/
def State.tabCount (s : State) : Nat :=
  match (if s.rd.cr.tabent = 0 then none else s.wayOf s.rd.ten s.rd.cr.tabent) with
  | some w => (s.entry w).held.length
  | none => 0

/-- R314: the common part of `tans`, `tend` and `tfail`: they wait for earlier stores (R321), and act on a production whose
group has not failed; what FAILED does is given by leave. -/
def onProduction (gd : Guard) (i : Instr) (leave : Bool) (f : Nat → State → State) (s : State) : Res :=
  half gd s fun s =>
    s.afterStores i (fun _ => true) [] fun s =>
      if s.slow then s.parkAt s.cur .flight i []
      else
        match s.production with
        | none => s.upd (Ctx.setTabst (tabstOf .noentry 0 s.tabCount))
        | some w =>
          let e := s.entry w
          if e.st = .failed then
            (if leave then (s.leaveEntry w).leaveCtx s.cur e.parent (tabstOf .failed e.cause 0) false
             else s.upd (Ctx.setTabst (tabstOf .failed e.cause 0)))
          else f w s

/-- TANS, R314. -/
def execTans (gd : Guard) (a b : GReg) (s : State) : Res :=
  onProduction gd (.tans gd a b) false
    (fun w s =>
      let e := s.entry w
      let x := (s.g a, s.g b)
      let n := e.answers.length
      let say (c : TabCode) (n : Nat) (t : State) : State := t.upd (Ctx.setTabst (tabstOf c 0 n))
      if e.pure.isSome || e.answers.contains x then say .dup n s
      else if 32767 ≤ n ∨ s.answerRoom s.rd.ten (w / 2 ^ 18) = false then say .full n s
      else
        let t := s.setEntry w { e with answers := e.answers ++ [x] }
        let g := t.group e.group
        say .new (n + 1) (if e.readF then t.setGroup e.group { g with dirty := true } else t)) s

/-- TEND, R311, R314. -/
def execTend (gd : Guard) (a : GReg) (s : State) : Res :=
  onProduction gd (.tend gd a) true
    (fun w s =>
      let e := s.entry w
      if w64 (bitsAt (s.g a) 30 0) ≠ s.rd.cr.tabent then s.upd (Ctx.setTabst (tabstOf .noentry 0 e.answers.length))
      else if e.group ≠ w then (s.memberTend s.cur w).settle
      else if 1 < s.pending w then s.parkAt s.cur (.leader w) (.tend gd a) []
      else s.decideTend s.cur w) s

/-- TFAIL, R314, R319. -/
def execTfail (gd : Guard) (a : GReg) (s : State) : Res :=
  onProduction gd (.tfail gd a) true
    (fun w s =>
      let e := s.entry w
      let cause : BitVec 8 := (s.g a).truncate 8
      (((s.failGroup e.group cause).leaveEntry w).leaveCtx s.cur e.parent (tabstOf .failed cause 0) false).settle) s

/-! ## tnext, tinv and tstat (R315, R316) -/

/-- R318: release one pin of an entry, one of the thread's own launch first. -/
def State.unpin (s : State) (way : Nat) : State :=
  let own := s.pins.findIdx fun p => p.way == way && p.tenant == s.rd.cr.tenant && p.lnum == s.rd.cr.lnum
  let any := s.pins.findIdx fun p => p.way == way
  { s with pins := if own < s.pins.length then s.pins.eraseIdx own else s.pins.eraseIdx any }

/-- R315: answer n of an entry, of which the spec says nothing where the entry has none: two free values. -/
def State.answerAt (s : State) (way n : Nat) : (W64 × W64) × State :=
  match (s.entry way).answers[n]? with
  | some x => (x, s)
  | none => ((w64 s.takeFree.1, w64 s.takeFree.2.takeFree.1), s.takeFree.2.takeFree.2)

/-- R315: the set serves a `tnext`. -/
def State.nextAnswer (s : State) (d a : GReg) (close : Bool) : State :=
  let it := s.g a
  match s.wayOf s.rd.ten it with
  | none => s.upd (Ctx.setTabst (tabstOf .stale 0 0))
  | some w =>
    let e := s.entry w
    let lim := if bitAt it 63 then e.answers.length else bitsAt it 62 48
    let idx := bitsAt it 47 32
    if e.st = .failed then s.upd (Ctx.setTabst (tabstOf .failed e.cause 0))
    else if close || decide (lim ≤ idx) then
      ((if bitAt it 31 then s.unpin w else s).setG a (setBit it 31 false)).upd (Ctx.setTabst (tabstOf .ended 0 lim))
    else
      let (x, t) := s.answerAt w idx
      ((((t.touch w).setG d x.1).setG (gNext d 1) x.2).setG a (it + w64 (2 ^ 32))).upd (Ctx.setTabst (tabstOf .answer 0 lim))

/-- TNEXT, R315. -/
def execTnext (gd : Guard) (d a : GReg) (c : Bool) (s : State) : Res :=
  halfPark gd (.tnext gd d a c) s false fun s => s.nextAnswer d a c

/-- R316: the number of a state. -/
def AtSt.num : AtSt → Nat
  | .free => 0 | .eval => 1 | .complete => 2 | .failed => 3

/-- TINV, R316. -/
def execTinv (gd : Guard) (d a : GReg) (s : State) : Res :=
  halfPark gd (.tinv gd d a) s false fun s =>
    match s.wayOf s.rd.ten (s.g a) with
    | none => (s.setG d 0).upd (Ctx.setTabst (tabstOf .stale 0 0))
    | some w =>
      let n := (s.entry w).st.num
      if n = 2 then (s.freeWay w).setG d (w64 (n + 4)) else s.setG d (w64 n)

/-- R316: an item of `tstat` about an entry; a COMPLETE entry that led its group still shows it (R328). -/
def State.entryItem (s : State) (w : Nat) (leader : Bool) : W64 :=
  let e := s.entry w
  let g := s.group e.group
  let bit (b : Bool) (n : Nat) : Nat := if b then 2 ^ n else 0
  if leader then
    (if e.st = .eval then
      w64 (s.refOf e.group + bit g.dirty 31 + g.round.toNat * 2 ^ 32 + min (s.pending e.group) 65535 * 2 ^ 48)
     else 0)
  else
    let pins := (s.pins.filter fun p => p.way == w).length
    w64 (e.st.num + bit e.pure.isSome 2 + bit (e.group == w) 3 + bit e.producer.isSome 4 + bit e.readF 5 +
      e.cause.toNat * 2 ^ 8 + e.held.length % 2 ^ 15 * 2 ^ 16 + e.mround.toNat * 2 ^ 32 + min pins 65535 * 2 ^ 48)

/-- TSTAT, R316. -/
def execTstat (gd : Guard) (d a : GReg) (item : BitVec 2) (s : State) : Res :=
  halfPark gd (.tstat gd d a item) s false fun s =>
    let die := bitsAt (s.g a) 2 0
    let ten := s.rd.ten
    s.setG d
      (match item.toNat with
       | 2 => let n := s.atCount ten die; w64 (n.1 % 2 ^ 32 + n.2 * 2 ^ 32)
       | 3 => if s.rd.cr.tenant = 0 then allOnes else s.tt ten (9 + die)
       | n =>
         match s.wayOf ten (s.g a) with
         | some w => s.entryItem w (n == 1)
         | none => 0)

/-! ## ptask (R322 to R326) -/

/-- R324: the check of one descriptor, for loads or for stores (st). -/
def State.tileCheck (s : State) (x : Tile) (need : BitVec 4) (st : Bool) : Option Trap :=
  if x.addr.toNat % 4096 ≠ 0 then some ⟨0x03, x.addr⟩
  else if bitsAt x.addr 63 60 ≠ 4 ∨ x.len.toNat % 4096 ≠ 0 ∨ x.len.toNat < 4096 ∨ 4096 * 4096 < x.len.toNat then
    some ⟨0x04, x.addr⟩
  else
    match s.resolveRange s.rd.ten x.addr x.len.toNat need with
    | .error t => some t
    | .ok _ => if s.impure x.addr x.len.toNat st then some ⟨0x0B, x.addr⟩ else none

/-- R324: the checks of every descriptor, code first. -/
def State.tilesCheck (s : State) (code : Tile) (args : List Tile) (out : Tile) : Option Trap :=
  match s.tileCheck code (rightR ||| rightX) false with
  | some t => some t
  | none =>
    match args.findSome? fun x => s.tileCheck x rightR false with
    | some t => some t
    | none => s.tileCheck out rightW true

/-- R322: the snapshot of the argument list at issue: k descriptors of 16 bytes at b. -/
def State.argList (s : State) (b : W64) (k : Nat) : Except Trap (List Byte) :=
  if k = 0 then .ok []
  else if b.toNat % 8 ≠ 0 then .error ⟨0x03, b⟩
  else if caKind s.core ≠ .compute then .error ⟨0x04, b⟩
  else s.ownRun b (16 * k)

/-- The descriptors in the bytes of an argument list. -/
def tilesOf (k : Nat) (l : List Byte) : List Tile :=
  (List.range k).map fun j => ⟨w64 (leNat ((l.drop (16 * j)).take 8)), w64 (leNat ((l.drop (16 * j + 8)).take 8))⟩

/-- R322: the first poisoned word of the leaves of some tiles, as its address. -/
def State.badLeaf (s : State) (tenant : Nat) (l : List Tile) : Option W64 :=
  l.findSome? fun x => (s.firstBad (paStack tenant x.addr.toNat) x.len.toNat).map fun j => x.addr + w64 j

/-- R324 produce_pure: the caller runs the task. -/
def State.enterPure (s : State) (d : GReg) (way : Nat) (r : PureRec) : State :=
  let t := s.setEntry way { s.entry way with pure := some r }
  let t := (((t.produce way).setG d r.out.addr).setG 30 (s.pc + 8)).setNpc r.code.addr
  (t.upd (Ctx.setPs 3 true)).modSlot t.cur fun x => { x with pure := r :: x.pure }

/-- R324: the home set serves a `ptask`. -/
def State.pureTake (s : State) (i : Instr) (d : GReg) (snap : List Byte) (r : PureRec) : State :=
  let ten := s.rd.ten
  match s.badLeaf ten (r.code :: r.args) with
  | some v => s.trap 0x09 v
  | none =>
    let digest := s.contentKey ten r.code r.args r.out
    let home := homeOf digest
    let key : AtKey := .pure (BitVec.ofNat 256 (leNat digest))
    match s.lookup home s.rd.cr.tenant key with
    | some w =>
      let e := s.entry w
      (match e.st with
       | .complete =>
         ((s.touch w).setG d (match e.pure with | some p => p.out.addr | none => 0)).upd (Ctx.setTabst (tabstOf .reuse 0 0))
       | .failed => (s.setG d 0).upd (Ctx.setTabst (tabstOf .failed e.cause 0))
       | _ =>
         if s.myChain.contains w then s.trap 0x0E (w64 (s.refOf w)) else s.parkAt s.cur (.entry w) i snap)
    | none =>
      match s.takeWay ten home.1 home.2 with
      | (none, t) => (t.setG d 0).upd (Ctx.setTabst (tabstOf .noroom 0 0))
      | (some w, t) => (t.newEntry w s.rd.cr.tenant key).enterPure d w r

/-- R324: a `ptask` whose argument list was read at issue. -/
def pureRun (gd : Guard) (d a b : GReg) (k : BitVec 4) (e : GReg) (snap : List Byte) (s : State) : State :=
  let i : Instr := .ptask gd d a b k e
  let code : Tile := ⟨s.g a, s.gAt a 1⟩
  let out : Tile := ⟨s.g e, s.gAt e 1⟩
  let args := tilesOf k.toNat snap
  match s.tilesCheck code args out with
  | some t => s.takeTrap s.cur t
  | none =>
    let blocks := (code :: args).flatMap fun x => x.blocks.map fun v => (paStack s.rd.ten v.toNat, 4096)
    s.afterStoresWith i snap (fun _ => true) blocks fun s =>
      if s.slow then s.parkAt s.cur .flight i snap else s.pureTake i d snap ⟨code, args, out, s.g 29⟩

/-- PTASK, R324. -/
def execPtask (gd : Guard) (d a b : GReg) (k : BitVec 4) (e : GReg) (s : State) : Res :=
  half gd s fun s =>
    match s.argList (s.g b) k.toNat with
    | .error t => s.takeTrap s.cur t
    | .ok l => pureRun gd d a b k e l (if k = 0 then s else s.correctRun (s.g b) (16 * k.toNat))

end Sys2Proof.Machine
end

