-- ==== Sys2Proof/Machine/Atomics.lean ====
section
/-!
DEFINITION. Single-instruction atomics on stacked memory and on the translated window (R254 to R256), and
remote-update threads (R257).
-/

namespace Sys2Proof.Machine

/-- R254: the arbiter performs an atomic on the n bytes at pa. -/
def State.atomicAt (s : State) (ea : W64) (pa n : Nat) (op : Nat → Nat) (d : GReg) : State :=
  if s.isBad pa then s.trap 0x09 ea
  else
    let old := s.readN pa n
    (s.storeBytes pa (leBytes n (op old))).setG d (w64 old)

/-- R254, R261: an add of x with the pairing window win, which has passed its checks, enters the Welt once the stores that it
waits for are accepted. A block that is held holds it at its station, past the Welt (R242). -/
def addTravels (i : Instr) (pa : Nat) (o : AmOrd) (win : Nat) (x : W64) (s : State) : State :=
  s.afterStoresWith i weltBound (s.waitsFor (amMode o) false [(pa, 8)]) [] fun s => s.weltEnter i pa win (x.zeroExtend 512)

/-- R254 to R256: an atomic on n bytes. An add with a pairing window win may enter the Welt. -/
def farAtomic (gd : Guard) (i : Instr) (d : GReg) (ea : W64) (n : Nat) (o : AmOrd) (op : Nat → Nat)
    (add : Option (Nat × W64)) (s : State) : Res :=
  half gd s fun s =>
    if ea.toNat % n ≠ 0 then s.trap 0x03 ea
    else if s.impureSync ea then s.trap 0x0B ea
    else
      match bitsAt ea 63 60 with
      | 4 =>
          (match s.resolve s.rd.ten ea (rightR ||| rightW ||| rightS) with
           | .error t => s.takeTrap s.cur t
           | .ok pa =>
             if s.inDesc pa then s.trap 0x0F ea
             else
               let waits := s.waitsFor (amMode o) false [(pa, n)]
               let pairs := match add with | some (win, _) => win != 0 && !s.ownBus s.core pa | none => false
               match add with
               | some (win, x) =>
                 if pairs && (s.slow || s.isHeld pa || s.me.out.any fun o => waits o && s.storeHeld o) then addTravels i pa o win x s
                 else
                   s.afterStores i waits [(pa, n)] fun s =>
                     if s.slow then s.parkAt s.cur .flight i [] else s.atomicAt ea pa n op d
               | none =>
                 s.afterStores i waits [(pa, n)] fun s =>
                   if s.slow then s.parkAt s.cur .flight i [] else s.atomicAt ea pa n op d)
      | 8 =>
          (match s.translate (caDie s.core) s.rd.ten ea true true with
           | .error t => s.takeTrap s.cur t
           | .ok pa =>
             if pa / 2 ^ 60 = 8 ∧ s.mgmt.atomics = false then s.trap 0x06 ea
             else
               s.afterStores i (s.waitsFor (amMode o) false [(pa, n)]) [(pa, n)] fun s =>
                 if s.slow || s.mustQueue i then s.parkAt s.cur .flight i [] else s.atomicAt ea pa n op d)
      | _ => s.trap 0x04 ea

/-- AMO, R254. -/
def execAmo (gd : Guard) (d a b : GReg) (o : AmOrd) (op : AtomOp) (s : State) : Res :=
  farAtomic gd (.amo gd d a b o op) d (s.g a) 8 o (fun old => (atomApply op (w64 old) (s.g b)).toNat)
    (if op = .add then some (windowOf .qwin s.rd, s.g b) else none) s

/-- AFADD, R254. -/
def execAfadd (gd : Guard) (d a b : GReg) (o : AmOrd) (s : State) : Res :=
  farAtomic gd (.afadd gd d a b o) d (s.g a) 4 o (fun old => sum32 old ((s.g b).toNat % 2 ^ 32)) none s

/-- ACAS, R254. -/
def execAcas (gd : Guard) (d a b : GReg) (o : AmOrd) (s : State) : Res :=
  farAtomic gd (.acas gd d a b o) d (s.g a) 8 o
    (fun old => if w64 old = s.g d then (s.g b).toNat else old) none s

/-- RUPD, R257. -/
def execRupd (gd : Guard) (a b : GReg) (imm : BitVec 32) (s : State) : Res :=
  half gd s fun s =>
    let tgt := s.g a + sext imm
    let ent := s.g b
    s.unlessPure tgt fun s =>
      if tgt.toNat % 8 ≠ 0 then s.trap 0x03 tgt
      else if ent.toNat % 8 ≠ 0 then s.trap 0x03 ent
      else if bitsAt tgt 63 60 ≠ 4 then s.trap 0x04 tgt
      else if bitsAt ent 63 60 ≠ 4 then s.trap 0x04 ent
      else
        match s.resolve s.rd.ten tgt rightS with
        | .error t => s.takeTrap s.cur t
        | .ok pa =>
          s.afterStores (.rupd gd a b imm) (fun _ => true) [] fun s =>
            let (id, s) := s.newId
            let (tid, s) := s.newTid
            let p : Pkt :=
              { id := id, kind := .rupd s.cur s.me.tid, sender := some s.core, tid := tid
                ctx := childCtx s.rd ent (((List.range 4).map fun n => s.gAt b (n + 1)) ++ [tgt])
                cls := s.me.cls, core := s.bankOf pa, slot := none, gang := false
                landed := false, since := s.cycle, evict := [], pend := none, pure := [] }
            let t := State.parkAt { s with pkts := s.pkts ++ [p] } s.cur (.spawn id) (.rupd gd a b imm) []
            if s.slow then t else (t.arrive p true).finish

end Sys2Proof.Machine
end

