-- ==== Sys2Proof/Machine/Copy.lean ====
section
/-!
DEFINITION. Copy engines (R334 to R347): requests and their checks, permits, the chunks of a transfer, completion and
its delivery, and the instructions `cpyq`, `permit`, `cpst` and `uiret`.
-/

namespace Sys2Proof.Machine

/-! ## Engines -/

/-- The engine beneath a core. -/
def State.eng (s : State) (core : Nat) : CopyEng := smGet CopyEng.idle s.copy (caTileOf core)

/-- Write the engine beneath a core. -/
def State.setEng (s : State) (core : Nat) (e : CopyEng) : State :=
  { s with copy := smSet CopyEng.idle s.copy (caTileOf core) e }

/-- A request of a core's FIFO. -/
def State.copyReq (s : State) (core id : Nat) : Option CopyReq := (s.eng core).reqs.find? fun r => r.id == id

/-- Change a request. -/
def State.modReq (s : State) (core id : Nat) (f : CopyReq → CopyReq) : State :=
  let e := s.eng core
  s.setEng core { e with reqs := e.reqs.map fun r => if r.id = id then f r else r }

/-- R342: the result of a transfer: 0 OK, 1 POISONED, 2 FAULT. -/
def CopyReq.result (r : CopyReq) : Nat := if r.fault.isSome then 2 else if 0 < r.pcnt then 1 else 0

/-- R342: the status word of a transfer, whose state is 1 to 3. -/
def CopyReq.status (r : CopyReq) (state : Nat) : W64 :=
  w64 (r.id + state * 2 ^ 16 + (if state = 3 then r.result * 2 ^ 24 + (r.fault.getD 0).toNat * 2 ^ 32 else 0) +
    min r.pcnt 0xFFFFFF * 2 ^ 40)

/-! ## Where a transfer writes (R334, R338) -/

/-- One chunk: its source offset, its length, the core that it lands on, if it lands, and its destination: an offset in
that core's TCM, or an address. -/
structure Chunk where
  off  : Nat
  n    : Nat
  core : Option Nat
  dst  : W64
  deriving DecidableEq, Repr

/-- R338: the length of block i of a dealt transfer. -/
def CopyReq.blockLen (r : CopyReq) (i : Nat) : Nat := min r.bsize (r.len - i * r.bsize)

/-- R338: the number of blocks. -/
def CopyReq.blocks (r : CopyReq) : Nat := (r.len + r.bsize - 1) / r.bsize

/-- The next chunk of a transfer. -/
def CopyReq.chunk (r : CopyReq) : Chunk :=
  if r.dist then
    let i := r.done / r.bsize
    let within := r.done % r.bsize
    ⟨r.done, min 256 (r.blockLen i - within), r.targets[i % r.targets.length]?,
      w64 (bitsAt r.dst 16 0 + i / r.targets.length * r.bsize + within)⟩
  else
    match r.targets.head? with
    | some t => ⟨r.done, min 256 (r.len - r.done), some t, w64 (bitsAt r.dst 16 0 + r.done)⟩
    | none => ⟨r.done, min 256 (r.len - r.done), none, r.dst + w64 r.done⟩

/-- R337: the chunks, sixteen at most, that are still to land on the core of the next one. -/
def CopyReq.need (r : CopyReq) : Nat :=
  let ceil (n : Nat) : Nat := (n + 255) / 256
  if r.dist then
    let i := r.done / r.bsize
    let here := ceil (r.blockLen i - r.done % r.bsize)
    min 16 ((List.range 16).foldl (fun acc j =>
      let b := i + (j + 1) * r.targets.length
      if b < r.blocks then acc + ceil (r.blockLen b) else acc) here)
  else min 16 (ceil (r.len - r.done))

/-- R338: the bytes that a transfer lands on target j. -/
def CopyReq.bytesAt (r : CopyReq) (j : Nat) : Nat :=
  if r.dist then
    let n := r.targets.length
    let m := countMod r.blocks j n
    if m = 0 then 0
    else (m - 1) * r.bsize + (if (r.blocks - 1) % n = j then r.blockLen (r.blocks - 1) else r.bsize)
  else r.len

/-! ## Addresses of a transfer -/

/-- A place as an address. -/
def Loc.toExcept (ea : W64) : Loc → Except Trap Nat
  | .at_ pa => .ok pa
  | .trap t => .error t
  | .migrate _ => .error ⟨0x04, ea⟩

/-- The word at ea as the station beneath a core reaches it for a transfer, which stores (st) or loads. -/
def State.copyAt (s : State) (core : Nat) (r : CopyReq) (ea : W64) (st : Bool) : Except Trap Nat :=
  let ten := r.tenant.toNat % 256
  match bitsAt ea 63 60 with
  | 1 => (s.tcmAt (caTile (bitsAt ea 38 32) (bitsAt ea 45 40)) ten ea).toExcept ea
  | 2 =>
    let c := if bitAt ea 47 then (caX core / 4, caY core / 4) else (bitsAt ea 36 32, bitsAt ea 44 40)
    (s.spadAt c.1 c.2 ten ea).toExcept ea
  | 3 => (s.sharedAt (if bitAt ea 35 then caDie core else bitsAt ea 34 32) ten ea st).toExcept ea
  | 4 => s.resolve ten ea (if st then rightW else rightR)
  | 8 => s.translate (caDie core) ten ea (!st) st
  | _ => .error ⟨0x04, ea⟩

/-- R141, R149: n bytes from an offset of a core's TCM are in service. That no byte at all lies in no bank is the model's
reading (DEDUCED, log entry 122). -/
def State.tcmRangeOk (s : State) (core off n : Nat) : Bool :=
  decide (off + n ≤ 0x20000) && (List.range 16).all fun b =>
    decide (n = 0) || decide (off + n ≤ 0x2000 * b) || decide (0x2000 * (b + 1) ≤ off) || s.tcmOk core (0x2000 * b)

/-- R344: a core that data may land on: 0x04 before 0x06. -/
def State.landingOk (s : State) (core off n : Nat) (v : W64) : Option Trap :=
  if !s.tcmRangeOk core off n || !s.coreEnabled core then some ⟨0x04, v⟩
  else if !ownerOk s.rd.ten (s.tcmOwner core) || !(rectOf s.rd.cr.lrect).hasCore core ||
      (isCobbler core && s.rd.cr.tenant != 0) then some ⟨0x06, v⟩
  else none

/-- R344: the check of a whole range at issue: n bytes at ea, which v names, as a source or as a destination (st). A range
in space 0x8 is translated during the copy. -/
def State.copyRange (s : State) (ea v : W64) (n : Nat) (st : Bool) : Option Trap :=
  let core := s.core
  let ten := s.rd.ten
  let bad : Option Trap := some ⟨0x04, v⟩
  let prot : Option Trap := some ⟨0x06, v⟩
  match bitsAt ea 63 60 with
  | 1 =>
    let t := caTile (bitsAt ea 38 32) (bitsAt ea 45 40)
    let off := bitsAt ea 16 0
    if ea &&& formBad1 != 0 then bad
    else if st then s.landingOk t off n v
    else if !s.tcmRangeOk t off n then bad
    else if !ownerOk ten (s.tcmOwner t) then prot
    else none
  | 2 =>
    let own := bitAt ea 47
    let c := if own then (caX core / 4, caY core / 4) else (bitsAt ea 36 32, bitsAt ea 44 40)
    if ea &&& formBad2 != 0 || (own && bitsAt ea 44 32 != 0) || decide (s.spadSize c.1 c.2 < bitsAt ea 20 0 + n) then bad
    else if !ownerOk ten (smGet 0 s.sowner (c.2 * 32 + c.1)) then prot
    else none
  | 3 =>
    let own := bitAt ea 35
    let die := if own then caDie core else bitsAt ea 34 32
    let off := bitsAt ea 25 0
    if ea &&& formBad3 != 0 || (own && bitsAt ea 34 32 != 0) then bad
    else if 0x3FFF000 ≤ off then (if 0x4000000 < off + n then bad else if st then prot else none)
    else if 0x3000000 < off + n then bad
    else if (List.range 768).all fun g =>
        decide (off + n ≤ 2 ^ 16 * g) || decide (2 ^ 16 * (g + 1) ≤ off) || ownerOk ten (smGet 0 s.gowner (die * 768 + g)) then none
    else prot
  | 4 => trapOf (s.resolveRange ten ea n (if st then rightW else rightR))
  | 8 => none
  | _ => bad

/-! ## Permits (R337, R345) -/

/-- A permit counter. -/
def State.permit (s : State) (core mb : Nat) : BitVec 16 := smGet 0 s.permits (16 * caTileOf core + mb)

/-- Write a permit counter. -/
def State.setPermit (s : State) (core mb : Nat) (v : BitVec 16) : State :=
  { s with permits := smSet 0 s.permits (16 * caTileOf core + mb) v }

/-- The permit queue of a core. -/
def State.permitQueue (s : State) (core : Nat) : List PermitReq := smGet [] s.permitQ (caTileOf core)

/-- R337: one entry of a permit queue, as the port meets it: granted if the counter allows. -/
def State.grantPermit (s : State) (core : Nat) (q : PermitReq) : State :=
  let have_ := (s.permit core q.mb).toNat
  if have_ = 0 then s
  else
    let g := min have_ q.n
    let t := s.setPermit core q.mb (BitVec.ofNat 16 (have_ - g))
    let t := { t with permitQ := smMod [] t.permitQ (caTileOf core) fun l => l.filter (· != q) }
    t.modReq q.core q.id fun r => { r with held := smMod 0 r.held (caTileOf core) (· + g), asked := none }

/-- R337: the port grants in the order of its queue. -/
def State.grantPermits (s : State) (core : Nat) : State := (s.permitQueue core).foldl (fun t q => t.grantPermit core q) s

/-- A transfer that runs and has chunks left to move. -/
def CopyReq.moving (r : CopyReq) : Bool := r.running && r.fault.isNone && r.wakes.isNone && decide (r.done < r.len)

/-- R337: a station asks the core of its next chunk for permits. -/
def State.askPermits (s : State) (core id : Nat) : State :=
  match s.copyReq core id with
  | none => s
  | some r =>
    match r.chunk.core with
    | none => s
    | some t =>
      let n := r.need - smGet 0 r.held t
      if !r.moving || r.asked.isSome || r.retry.isSome || n == 0 then s
      else if 32 ≤ (s.permitQueue t).length then s.modReq core id fun r => { r with retry := some (s.cycle + 256) }
      else
        let u := s.modReq core id fun r => { r with asked := some t }
        State.grantPermits
          { u with permitQ := smMod [] u.permitQ t fun l => l ++ [⟨caTileOf core, id, r.tag, n⟩] } t

/-- R337: 256 cycles have passed since the port refused a request. -/
def State.retryPermits (s : State) (core id : Nat) : State :=
  s.modReq core id fun r =>
    match r.retry with
    | some c => if c ≤ s.cycle then { r with retry := none } else r
    | none => r

/-- PERMIT, R345. -/
def execPermit (gd : Guard) (d a : GReg) (n : BitVec 4) (s : State) : Res :=
  half gd s fun s =>
    let k := bitsAt (s.g a) 15 0
    let old := (s.permit s.core n.toNat).toNat
    let new := if bitAt (s.g a) 16 then k else min 65535 (old + k)
    let t := (s.setPermit s.core n.toNat (BitVec.ofNat 16 new)).grantPermits s.core
    t.setG d (zext (t.permit s.core n.toNat))

/-! ## Chunks (R334, R343) -/

/-- R334: a station takes the oldest request that no slot runs; it runs four at most. -/
def State.startCopy (s : State) (core : Nat) : State :=
  let l := (s.eng core).reqs
  match l.find? fun r => !r.running with
  | some r => if (l.filter fun r => r.running).length < 4 then s.modReq core r.id fun r => { r with running := true } else s
  | none => s

/-- R346: the bytes that a transfer has written so far. -/
def CopyReq.written (r : CopyReq) : Nat := r.done + 8 * r.wrote

/-- R343: a transfer stops at its chunk. -/
def State.copyFault (s : State) (core id : Nat) (cause : BitVec 8) : State :=
  s.modReq core id fun r => { r with fault := some cause, bad := some r.done, staged := [] }

/-- R334: read at most n words from ea on, each with its place and a mark that it is bad; words that are held are left. -/
def State.stageWords (s : State) (core : Nat) (r : CopyReq) : Nat → W64 → Except Trap (List (Nat × W64 × Bool))
  | 0, _ => .ok []
  | n + 1, ea =>
    match s.copyAt core r ea false with
    | .error t => .error t
    | .ok pa =>
      if s.isHeld pa then .ok []
      else
        match s.stageWords core r n (ea + 8) with
        | .error t => .error t
        | .ok l => .ok ((pa, s.readW pa, s.isBad pa) :: l)

/-- R148, R150: the words that a station has read are corrected or counted. -/
def State.staged (s : State) (l : List (Nat × W64 × Bool)) : State :=
  l.foldl (fun t e => if e.2.2 then t.countBad e.1 else t.correct e.1 8) s

/-- R343: mark the words of a run that are poisoned. -/
def State.markWords (s : State) (pa : Nat) (l : List (W64 × Bool)) : State :=
  l.zipIdx.foldl (fun t e => if e.1.2 then t.setBad (pa + 8 * e.2) true else t) s

/-- R343: write words from ea on, each at its arbiter; what stops the write, and how many were written. -/
def State.storeWords (core : Nat) (r : CopyReq) : List (W64 × Bool) → W64 → Nat → State → Option Trap × Nat × State
  | [], _, k, s => (none, k, s)
  | w :: l, ea, k, s =>
    match s.copyAt core r ea true with
    | .error t => (some t, k, s)
    | .ok pa =>
      if s.isHeld pa then (none, k, s)
      else if (paTenant pa).isSome && s.inDesc pa then (some ⟨0x0F, ea⟩, k, s)
      else State.storeWords core r l (ea + 8) (k + 1) ((s.storeBytes pa (leBytes 8 w.1.toNat)).markWords pa [w])

/-- R342, R343: k more words of the chunk in staging have been written, and those that are poisoned count. -/
def CopyReq.wroteWords (r : CopyReq) (k : Nat) : CopyReq :=
  let bads := ((r.staged.zipIdx.drop r.wrote).take k).filter fun e => e.1.2
  { r with
    wrote := r.wrote + k
    pcnt := r.pcnt + bads.length
    bad := match r.bad, bads.head? with
      | none, some e => some (r.done + 8 * e.2)
      | b, _ => b }

/-- R334: the chunk in staging has been written. -/
def CopyReq.chunkDone (r : CopyReq) : CopyReq := { r with done := r.done + r.chunk.n, staged := [], wrote := 0 }

/-- R337, R189, R196: the chunk in staging lands on a core, after the station's earlier packets to it, and a permit is
spent. -/
def State.landChunk (s : State) (core : Nat) (r : CopyReq) (t : Nat) : State :=
  let station := caTileOf core + 2 ^ 19
  if smGet 0 r.held t = 0 || s.overtakes 3 station s.stamp [t] then s
  else
    let off := r.chunk.dst.toNat
    let s1 := s.modReq core r.id fun r => { r with held := smMod 0 r.held t (· - 1) }
    match s1.landRun t r.tag (r.tenant.toNat % 256) r.nanrd (BitVec.ofNat 32 station) off (dwordsOf (r.staged.map Prod.fst)) with
    | (.hole, u) => u.copyFault core r.id 0x04
    | (.prot, u) => u.copyFault core r.id 0x06
    | (_, u) => (u.markWords (paTcm t off) r.staged).modReq core r.id fun r => (r.wroteWords r.staged.length).chunkDone
where
  /-- Words as bytes. -/
  dwordsOf (l : List W64) : List Byte := l.flatMap fun w => leBytes 8 w.toNat

/-- R334: a station moves at most n more words of the chunk of a transfer: into staging, and, when the chunk stands there
whole, out of it. A TCM is read, and written, in one step. -/
def State.moveChunk (s : State) (core id n : Nat) : State :=
  match s.copyReq core id with
  | none => s
  | some r =>
    let c := r.chunk
    let n := max n 1
    if !r.moving then s
    else if 8 * r.staged.length < c.n then
      let left := c.n / 8 - r.staged.length
      let ea := r.src + w64 (r.done + 8 * r.staged.length)
      match s.stageWords core r (if bitsAt r.src 63 60 = 1 then left else min n left) ea with
      | .error t => s.copyFault core id t.cause
      | .ok l => (s.staged l).modReq core id fun r => { r with staged := r.staged ++ l.map Prod.snd }
    else
      match c.core with
      | some t => s.landChunk core r t
      | none =>
        match State.storeWords core r ((r.staged.drop r.wrote).take n) (c.dst + w64 (8 * r.wrote)) 0 s with
        | (some t, k, u) => (u.modReq core id fun r => r.wroteWords k).copyFault core id t.cause
        | (none, k, u) =>
          u.modReq core id fun r =>
            let q := r.wroteWords k
            if q.wrote < q.staged.length then q else q.chunkDone

/-! ## cpyq (R335, R336, R344) -/

/-- A dword of a snapshot. -/
def snapWord (l : List Byte) (n : Nat) : W64 := w64 (leNat ((l.drop (8 * n)).take 8))

/-- R336: the parameter block is well formed. -/
def pblkOk (l : List Byte) (dist : Bool) : Bool :=
  let b := snapWord l 2
  bitsAt (snapWord l 0) 2 0 == 0 && ((l.drop 24).take 40).all (· == 0) &&
    (!dist || (snapWord l 1 &&& rectReserved == 0 && !bitAt (snapWord l 1) 31 && bitsAt b 2 0 == 0 && decide (8 ≤ b.toNat) &&
      decide (b.toNat ≤ 2 ^ 20)))

/-- R338: the targets of a dealt transfer. -/
def State.dealTargets (s : State) (rect : W64) : List Nat :=
  (rectOf rect).tiles.filter fun t =>
    s.coreEnabled t && (s.tcmOwner t).toNat == s.rd.ten && (!isCobbler t || s.rd.cr.tenant == 0)

/-- R344: the request in g[a] to g[a + 3], with the snapshot of its parameter block and the targets after it. -/
def State.copyRequest (s : State) (a : GReg) (snap : List Byte) : CopyReq :=
  let w2 := s.gAt a 2
  let norm (w : W64) : W64 := if bitsAt w 63 60 = 0 then leaForm s.core w else w
  let dst := norm (s.gAt a 1)
  let dist := bitAt w2 44
  let h := snapWord snap 0
  { id := 0, tid := s.me.tid, tenant := s.rd.cr.tenant, lrect := s.rd.cr.lrect, nanrd := s.nanBit, src := norm (s.g a), dst := dst
    len := bitsAt w2 39 0, tag := bitsAt w2 43 40, dist := dist, wake := bitAt w2 45, intr := bitAt w2 46
    handler := if h = 0 then s.rd.cr.uivec else h
    bsize := (snapWord snap 2).toNat
    targets :=
      if dist then (List.range ((snap.length - 64) / 2)).map fun j => leNat ((snap.drop (64 + 2 * j)).take 2)
      else if bitsAt dst 63 60 = 1 then [caTile (bitsAt dst 38 32) (bitsAt dst 45 40)] else []
    running := false, done := 0, staged := [], wrote := 0, held := [], asked := none, retry := none, pcnt := 0, bad := none
    fault := none, wakes := none }

/-- R335: a space that a request may name. -/
def copySpace (w : W64) : Bool := decide (bitsAt w 63 60 ≤ 4) || bitsAt w 63 60 == 8

/-- R344: the checks of a request but for those of its parameter block. -/
def State.copyFields (w0 w1 w2 : W64) : Option Trap :=
  let len := bitsAt w2 39 0
  if w0.toNat % 8 ≠ 0 then some ⟨0x03, w0⟩
  else if w1.toNat % 8 ≠ 0 then some ⟨0x03, w1⟩
  else if bitsAt w2 63 47 ≠ 0 ∨ len = 0 ∨ len % 8 ≠ 0 then some ⟨0x04, w0⟩
  else if !copySpace w0 then some ⟨0x04, w0⟩
  else if !copySpace w1 || (bitAt w2 44 && bitsAt w1 63 60 != 1) then some ⟨0x04, w1⟩
  else none

/-- R336: the snapshot of the parameter block at issue; none where there is no block. -/
def State.pblk (s : State) (w3 : W64) (dist : Bool) : Except Trap (List Byte) :=
  if w3 = 0 then (if dist then .error ⟨0x04, w3⟩ else .ok [])
  else if w3.toNat % 64 ≠ 0 then .error ⟨0x04, w3⟩
  else
    match s.ownRun w3 64 with
    | .error t => .error t
    | .ok l => if pblkOk l dist then .ok l else .error ⟨0x04, w3⟩

/-- R344: the checks of the ranges of a request and of its targets. w0, w1 and w3 are as the program gave them. -/
def State.copyRanges (s : State) (r : CopyReq) (w0 w1 w3 : W64) : Option Trap :=
  match s.copyRange r.src w0 r.len false with
  | some t => some t
  | none =>
    if r.dist then
      match r.targets.zipIdx.findSome? fun e => s.landingOk e.1 (bitsAt r.dst 16 0) (r.bytesAt e.2) w1 with
      | some t => some t
      | none => if r.targets.isEmpty then some ⟨0x04, w3⟩ else none
    else s.copyRange r.dst w1 r.len true

/-- R334, R344: the request enters the FIFO, or waits for an entry. -/
def cpyqPlace (i : Instr) (d a : GReg) (blk : Bool) (snap : List Byte) (s : State) : State :=
  let e := s.eng s.core
  if 8 ≤ e.reqs.length then (if blk then s.parkAt s.cur .copyFifo i snap else s.setG d 0)
  else
    let id := (Config.firstId (2 * caTileOf s.core + 1) + e.count) % 65535 + 1
    (s.setEng s.core { e with reqs := e.reqs ++ [{ s.copyRequest a snap with id := id }], count := e.count + 1 }).setG d (w64 id)

/-- CPYQ, R344. -/
def execCpyq (gd : Guard) (d a : GReg) (blk : Bool) (s : State) : Res :=
  half gd s fun s =>
    let w0 := s.g a
    let w1 := s.gAt a 1
    let w2 := s.gAt a 2
    let w3 := s.gAt a 3
    let dist := bitAt w2 44
    s.unlessPure w0 fun s =>
      match State.copyFields w0 w1 w2 with
      | some t => s.takeTrap s.cur t
      | none =>
        match s.pblk w3 dist with
        | .error t => s.takeTrap s.cur t
        | .ok l =>
          let snap := if dist then l ++ (s.dealTargets (snapWord l 1)).flatMap (leBytes 2) else l
          match s.copyRanges (s.copyRequest a snap) w0 w1 w3 with
          | some t => s.takeTrap s.cur t
          | none =>
            let i : Instr := .cpyq gd d a blk
            let s := if w3 = 0 then s else s.correctRun w3 64
            s.afterStoresWith i snap (fun _ => true) [] fun s =>
              if s.slow then s.parkAt s.cur .flight i snap else cpyqPlace i d a blk snap s

/-! ## Completion (R338, R340, R343) -/

/-- R338: the wake-ups of a transfer. That the station's address names its slot 0 is the model's choice (log entry 115). -/
def State.copyWakes (s : State) (core : Nat) (r : CopyReq) : State :=
  let station := caTileOf core + 2 ^ 19
  let t := r.targets.zipIdx.foldl (fun (acc : List Nat × State) e =>
    (acc.1 ++ [acc.2.stamp],
      acc.2.sendWake e.1 r.tag (mailHeader station r.tag r.id 2 r.nanrd)
        (entryOf [r.status 3, w64 (r.bytesAt e.2), 0, 0, 0, 0, 0, 0]) (r.tenant.toNat % 256) r.nanrd station)) ([], s)
  t.2.modReq core r.id fun r => { r with wakes := some t.1 }

/-- R334, R340, R346: the record of a transfer is stored, and its entry of the FIFO is free. -/
def State.storeRecord (s : State) (core : Nat) (r : CopyReq) : State :=
  let e := s.eng core
  let bad := w64 (if r.result = 0 then 0 else r.bad.getD 0)
  let tell := r.intr && r.handler != 0 && r.tid != 0
  if tell && decide (16 ≤ e.recs.length) then s
  else
    let (n, t) := if tell then s.nextStamp else (0, s)
    t.setEng core { e with
      reqs := e.reqs.filter fun q => q.id != r.id
      recs := if tell then e.recs ++ [(⟨r.id, r.tid, r.handler, r.status 3, w64 r.written, bad, n⟩ : CopyRec)] else e.recs
      past := (e.past ++ [(⟨r.id, r.tenant, r.status 3, w64 r.written, bad⟩ : CopyPast)]).drop (e.past.length - 15) }

/-- R344: the oldest `cpyq` that waits for an entry of a core's FIFO takes it. -/
def State.wakeCpyq (s : State) (core : Nat) : State :=
  match (s.waiting (· == Wait.copyFifo)).find? fun k => caCore k == caTileOf core with
  | none => s
  | some k =>
    match (s.slot k).st with
    | .park _ (.cpyq gd d a blk) snap _ | .drain _ _ (.cpyq gd d a blk) snap _ => s.serveWith k (cpyqPlace (.cpyq gd d a blk) d a blk snap)
    | _ => s

/-- R343: a transfer whose last chunk is written, or that has stopped, sends its wake-ups, and when they are answered its
record is stored. -/
def State.endCopy (s : State) (core id : Nat) : State :=
  match s.copyReq core id with
  | none => s
  | some r =>
    if !r.running || (r.fault.isNone && decide (r.done < r.len)) then s
    else if r.fault.isNone && r.wake && !r.targets.isEmpty && r.wakes.isNone then s.copyWakes core r
    else if (r.wakes.getD []).any fun w => s.wakes.any fun x => x.id == w then s
    else
      let t := s.storeRecord core r
      if (t.copyReq core id).isSome then t else t.wakeCpyq core

/-- R291, R340: the record for a thread that was stored first, with the core whose store holds it: a resumed thread may have
left it. -/
def State.recordOf (s : State) (tid : Nat) : Option (Nat × CopyRec) :=
  (sortBy (fun e : Nat × CopyRec => e.2.order) <|
    s.copy.flatMap fun e => (e.2.recs.filter fun r => r.tid == tid).map fun r => (e.1, r)).head?

/-- R340: the record that may be delivered to the thread of a slot now, with the core whose store holds it. -/
def State.readyRecord (s : State) (k : Nat) : Option (Nat × CopyRec) :=
  let x := s.slot k
  let c := x.ctx
  let still :=
    match x.st with
    | .run => true
    | .park w i _ _ =>
      (match w with
       | .reply _ => false
       | _ =>
         match i with
         | .recv _ _ _ _ | .waitc _ _ _ _ | .wait _ _ => true
         | _ => false)
    | _ => false
  if still && !c.uih && !c.inh && !c.rep.act then s.recordOf x.tid else none

/-- R340: the registers of a thread when a completion is delivered. -/
def Ctx.enterHandler (c : Ctx) (r : CopyRec) : Ctx :=
  let d := (c.onCr fun x => { x with uixid := w64 (r.id % 2 ^ 16) }).setPs 4 true
  { d with pc := r.handler, h := #v[r.status, r.bytes, r.bad, c.pc] }

/-- R340: deliver a completion to the thread of a slot, if one is ready. A parked bundle is abandoned, and with it a `wait` that a
resumed thread has still to go on with (R73). -/
def State.deliverRecord (s : State) (k : Nat) : State :=
  match s.readyRecord k with
  | none => s
  | some (core, r) =>
    let e := s.eng core
    (s.setEng core { e with recs := e.recs.erase r }).modSlot k fun x =>
      { x with st := .run, ctx := x.ctx.enterHandler r, after := none, late := none }

/-! ## cpst and uiret -/

/-- R346: the latest transfer of a core with an id, for a tenant: status, first bad offset and bytes. -/
def State.copyState (s : State) (core : Nat) (tenant : W64) (id : Nat) : Option (W64 × W64 × W64) :=
  let e := s.eng core
  match e.reqs.find? fun r => r.id == id && r.tenant == tenant with
  | some r => some (r.status (if r.running then 2 else 1), 0, w64 r.written)
  | none =>
    match e.past.reverse.find? fun p => p.id == id && p.tenant == tenant with
    | some p => some (p.status, p.bad, p.bytes)
    | none => none

/-- CPST, R342, R346: the status word of an unknown id has the id and state 0. -/
def execCpst (gd : Guard) (d a : GReg) (item : BitVec 2) (s : State) : Res :=
  halfPark gd (.cpst gd d a item) s false fun s =>
    match s.copyState s.core s.rd.cr.tenant (bitsAt (s.g a) 15 0) with
    | none => s.setG d (if item = 0 then w64 (bitsAt (s.g a) 15 0) else 0)
    | some x =>
      s.setG d (match item.toNat with
        | 0 => x.1
        | 1 => x.2.1
        | _ => x.2.2)

/-- UIRET, R347. -/
def execUiret (gd : Guard) (s : State) : Res :=
  half gd s fun s =>
    let t := s.rd.h[3]
    if !s.rd.uih then s.trap 0x01 s.bundle
    else if t.toNat % 8 ≠ 0 then s.trap 0x03 t
    else (s.upd (Ctx.setPs 4 false)).setNpc t

end Sys2Proof.Machine
end

