-- ==== Sys2Proof/Machine/Matrix.lean ====
section
/-!
DEFINITION. The matrix instructions (R226 to R234).
-/

namespace Sys2Proof.Machine

/-- MCLAIM, R226. -/
def execMclaim (gd : Guard) (d : GReg) (soft : Bool) (s : State) : Res :=
  half gd s fun s =>
    let core := s.core
    let u := s.unit core
    if !u.claimed then
      let v : MatUnit := { MatUnit.idle with claimed := true, owner := s.cur, tenant := s.rd.ten, epoch := nextEpoch u.epoch }
      let t := (s.setUnit core v).upd fun c => c.onCr fun r => { r with mkstep := setBit r.mkstep 63 true }
      t.setG d (t.capability core)
    else if u.owner = s.cur then s.setG d (s.capability core)
    else if soft then s.setG d 0
    else s.trap 0x10 (w64 u.owner)

/-- MREL, R227. It parks while an operation is in progress. -/
def execMrel (gd : Guard) (s : State) : Res :=
  half gd s fun s =>
    if !s.owns s.cur then s
    else if (s.unit s.core).op.isSome then (s.parkAt s.cur .matrix (.mrel gd) []).releaseUnit s.cur
    else if s.slow then s.parkAt s.cur .flight (.mrel gd) []
    else (s.releaseUnit s.cur).upd fun c => c.onCr fun r => { r with mkstep := 0 }

/-- R208: a slot that is not the owner traps. -/
def State.ifOwner (s : State) (f : State → State) : State :=
  if s.owns s.cur then f s
  else
    let u := s.unit s.core
    s.trap 0x10 (if u.claimed then w64 u.owner else 0)

/-- R326: what an operation reads or writes outside a pure task's regions. -/
def State.cmdImpure (s : State) (c : MatCmd) : Option Trap :=
  let one (ea : W64) (n : Nat) (st : Bool) : Option Trap := if s.impure ea n st then some ⟨0x0B, ea⟩ else none
  let scale (r a : W64) : Option Trap := if fmtScaled r then one a (32 * c.steps) false else none
  match c.kind with
  | 1 =>
    firstOf ((c.pairs.map fun p => one (ownSpad p.1.base) (p.1.extent p.2 c.steps - p.1.base) false) ++
      [scale c.regs.fmta c.regs.scla, scale c.regs.fmtb c.regs.sclb])
  | 2 | 4 => firstOf ((List.range 32).map fun i => one (c.da + w64 i * c.db) c.rowSize (c.kind == 2))
  | _ => none

/-- R349: the earlier stores that an operation waits for: all, unless it stays within registers and own TCM. -/
def State.cmdWaits (s : State) (c : MatCmd) (o : OutStore) : Bool :=
  let own (a : W64) : Bool := s.ownForm a
  let stored := o.parts.any fun e => isOwn s.core e.1
  match c.kind with
  | 0 => false
  | 1 =>
    !c.pairs.isEmpty || (fmtScaled c.regs.fmta && !own c.regs.scla) || (fmtScaled c.regs.fmtb && !own c.regs.sclb) ||
      stored
  | 3 => true
  | _ => !own c.da || stored

/-- R208, R210, R229: an owner's operation: the checks at issue, then the unit takes it when it is free. -/
def matOp (gd : Guard) (i : Instr) (s : State) : Res :=
  half gd s fun s =>
    s.ifOwner fun s =>
      let core := s.core
      let c := s.ownCmd i s.cur s.rd s.stamp
      let step := if c.kind = 1 then s.rd.mkstepNo else 0
      if c.kind = 3 ∧ s.rd.pure then s.trap 0x0B c.da
      else if !c.formsOk then s.trap 0x01 s.bundle
      else
        match firstOf [c.alignTrap, s.cmdImpure c, s.cmdTrap core s.rd.ten s.rd c] with
        | some t => s.takeTrap s.cur t
        | none =>
          if c.kind = 1 ∧ c.steps ≤ step then s.upd (Ctx.setMkstep 0)
          else
            s.afterStores i (s.cmdWaits c) [] fun s =>
              let u := s.unit core
              let t := s.parkAt s.cur .matrix i []
              if s.slow || u.op.isSome || !u.queue.isEmpty then t
              else (State.unitRun core (c.steps + 33) (t.unitStart core)).finish

/-- MZERO, R228. -/
def execMzero (gd : Guard) (t : MReg) (s : State) : Res := matOp gd (.mzero gd t) s

/-- MLOAD, R228. -/
def execMload (gd : Guard) (t : MReg) (a b : GReg) (s : State) : Res := matOp gd (.mload gd t a b) s

/-- MDRAIN, R230. -/
def execMdrain (gd : Guard) (t : MReg) (a b : GReg) (s : State) : Res := matOp gd (.mdrain gd t a b) s

/-- MDRAINR, R230, R232. -/
def execMdrainr (gd : Guard) (d a b : GReg) (s : State) : Res := matOp gd (.mdrainr gd d a b) s

/-- MMAC, R229. -/
def execMmac (gd : Guard) (t : MReg) (a b : BitVec 5) (z bv av : Bool) (sr : BitVec 3) (steps : BitVec 12) (s : State) : Res :=
  matOp gd (.mmac gd t a b z bv av sr steps) s

/-- MSTAT, R234. That clr makes the cause, step and tile of the fault 0 with it is the model's choice (log entry 107). -/
def execMstat (gd : Guard) (d : GReg) (clr : Bool) (s : State) : Res :=
  half gd s fun s =>
    let core := s.core
    let u := s.unit core
    let bit (b : Bool) (n : Nat) : Nat := if b then 2 ^ n else 0
    let v := (if u.claimed then caSlot u.owner else 0) + bit u.claimed 4 + bit u.op.isSome 5 + u.queue.length % 8 * 2 ^ 6 +
      bit u.fault 9 + u.fcause.toNat * 2 ^ 10 + u.fstep % 2 ^ 12 * 2 ^ 18 + u.ftile % 4 * 2 ^ 30 +
      u.epoch.toNat * 2 ^ 32 + u.flags.toNat * 2 ^ 48
    let t := if clr ∧ s.owns s.cur then
        s.setUnit core { u with flags := 0, fault := false, fcause := 0, fstep := 0, ftile := 0 }
      else s
    t.setG d (w64 v)

/-! ## Remote commands -/

/-- R233: dword n of a command block. -/
def blkWord (l : List Byte) (n : Nat) : W64 := w64 (leNat ((l.drop (8 * n)).take 8))

/-- R233: the command that a block holds, with the sender's sampled registers. -/
def blkCmd (l : List Byte) (r : MatRegs) (sender stamp : Nat) : MatCmd :=
  let w := blkWord l 1
  { MatCmd.blank sender r stamp with
    kind := bitsAt w 2 0, tile := bitsAt w 4 3, sr := bitsAt w 7 5, z := bitAt w 8, steps := bitsAt w 20 9 + 1
    id := bitsAt w 36 21, nmb := bitsAt w 40 37, notify := bitAt w 41
    a0 := blkWord l 2, a1 := blkWord l 3, b0 := blkWord l 4, b1 := blkWord l 5, da := blkWord l 6, db := blkWord l 7 }

/-- R230, R233: the tile of a command is that of its block, or, for a remote drain, of its parameters: which of the two names it
there is not stated, and the model's choice (log entry 95). -/
def MatCmd.settled (c : MatCmd) : MatCmd := if c.kind = 3 then { c with tile := bitsAt c.db 41 40 } else c

/-- R233: the answers to a command: 0 ACCEPTED, 1 BUSY, 2 FAULTED, 3 REFUSED; none is BADCAP. Where several of the
refusals hold, which one answers is not stated (log entry 1). -/
def State.cmdAnswer (s : State) (core ten : Nat) (l : List Byte) (c : MatCmd) : Option Nat × State :=
  let u := s.unit core
  if !u.claimed || blkWord l 0 != s.capability core || !(ten == 0 || ten == u.tenant) then (none, s)
  else
    let refused := decide (4 ≤ c.kind) || bitsAt (blkWord l 1) 63 42 != 0 || !c.formsOk
    let all := (if decide (4 ≤ u.queue.length) then [1] else []) ++ (if u.fault then [2] else []) ++ (if refused then [3] else [])
    match s.choose all with
    | (some n, t) => (some n, t)
    | (none, t) => (some 0, t.setUnit core { u with queue := u.queue ++ [c.settled] })

/-- R216: the bytes of a decode table as a remote command carries it: its image and its owner. -/
def DecTab.packed (x : DecTab) : List Byte := x.image ++ [x.owner]

/-- R216: the decode table in such bytes. -/
def DecTab.unpacked (l : List Byte) : DecTab := DecTab.ofImage l ((l.drop 1032).head?.getD 0).toNat

/-- R216, R233: what a command carries from its issue on: its block, and the decode tables that the sender's formats name. -/
def State.cmdSnap (s : State) (l : List Byte) : List Byte :=
  let r := s.matRegs s.core s.rd
  l ++ r.ta.packed ++ r.tb.packed

/-- R233: the command of the executing slot, which carries l, reaches its unit, and its answer arrives. -/
def cmdLands (d a : GReg) (l : List Byte) (s : State) : State :=
  let (n, s) := s.nextStamp
  let r := { s.matRegs s.core s.rd with ta := DecTab.unpacked (l.drop 64), tb := DecTab.unpacked (l.drop 1097) }
  match s.cmdAnswer (caTileOf (s.g a).toNat) s.rd.ten l (blkCmd l r s.cur n) with
  | (none, _) => s.trap 0x06 (blkWord l 0)
  | (some v, t) => t.setG d (w64 v)

/-- MCMD, R233. -/
def execMcmd (gd : Guard) (d a b : GReg) (s : State) : Res :=
  half gd s fun s =>
    let t := s.g a
    let src := s.g b
    s.unlessPure t fun s =>
      if src.toNat % 8 ≠ 0 then s.trap 0x03 src
      else
        match s.ownRun src 64 with
        | .error e => s.takeTrap s.cur e
        | .ok blk =>
          let l := s.cmdSnap blk
          let s := s.correctRun src 64
          if !meshTargetOk t then s.trap 0x04 t
          else
            match s.targetCheck (caTileOf t.toNat) t with
            | some e => s.takeTrap s.cur e
            | none =>
              s.afterStoresWith (.mcmd gd d a b) l (fun _ => true) [] fun s =>
                if s.slow || s.mustQueue (.mcmd gd d a b) then s.parkAt s.cur .flight (.mcmd gd d a b) l else cmdLands d a l s

end Sys2Proof.Machine
end

