-- ==== Sys2Proof/Machine/Ordering.lean ====
section
/-!
DEFINITION. The fences (R357) and phase objects (R358, R359).
-/

namespace Sys2Proof.Machine

/-! ## Fences -/

/-- R349, R352: an outstanding store to a word within the scope of the executing thread. -/
def State.scoped (s : State) (o : OutStore) : Bool := s.storeInScope s.rd.cr.scope o

/-- R357: a fence i parks until the stores that p names are accepted; without any it does not park. -/
def fenceOn (gd : Guard) (i : Instr) (s : State) (p : OutStore → Bool) : Res :=
  half gd s fun s =>
    if !s.me.out.any p then s
    else if s.slow then s.parkAt s.cur .flight i []
    else s.afterStores i p [] fun s => s

/-- FENCE, R357. -/
def execFence (gd : Guard) (s : State) : Res := fenceOn gd (.fence gd) s fun _ => true

/-- FENCE_ACQ, R357. -/
def execFenceAcq (gd : Guard) (s : State) : Res := fenceOn gd (.fenceAcq gd) s s.scoped

/-- FENCE_REL, R357. -/
def execFenceRel (gd : Guard) (s : State) : Res := fenceOn gd (.fenceRel gd) s s.scoped

/-! ## Phase objects -/

/-- R358: arrivals, bytes and phase of a dword of a phase object. -/
def phaseArr (w : W64) : Nat := bitsAt w 15 0
def phaseBytes (w : W64) : Nat := bitsAt w 47 16
def phaseNo (w : W64) : Nat := bitsAt w 63 48

/-- R358: dword 0 of a phase object. -/
def phaseWord (arr bytes ph : Nat) : W64 := w64 (arr % 2 ^ 16 + bytes % 2 ^ 32 * 2 ^ 16 + ph % 2 ^ 16 * 2 ^ 48)

/-- The slots in the waiter list of a phase object, in order. -/
def State.phaseWaiters (s : State) (pa : Nat) : List Nat :=
  s.waiting fun w => match w with | .phase a => a == pa | _ => false

/-- R359: the scan serves every waiting `pwait` whose phase value differs from that of the object. -/
def State.phaseScan (s : State) (pa : Nat) : State :=
  let w := s.readW pa
  (s.phaseWaiters pa).foldl (fun t k =>
    match (t.slot k).instr with
    | some (.pwait _ d _ b) =>
      if bitsAt ((t.slot k).ctx.getG b) 15 0 ≠ phaseNo w then (t.deliver k fun c => c.setG d w).reply k none else t
    | _ => t) s

/-- R359: the port writes dword 0 of a phase object. -/
def State.setPhase (s : State) (pa : Nat) (w : W64) : State := s.storeBytes pa (leBytes 8 w.toNat)

/-- R359: the checks of a phase instruction, then its request at the bank port of its object. -/
def phaseOp (gd : Guard) (i : Instr) (ea : W64) (need : BitVec 4) (st : Bool) (f : Nat → State → State) (s : State) : Res :=
  halfPark gd i s false fun s =>
    if ea.toNat % 16 ≠ 0 then s.trap 0x03 ea
    else if s.impureSync ea then s.trap 0x0B ea
    else if bitsAt ea 63 60 ≠ 4 then s.trap 0x04 ea
    else
      match s.resolve s.rd.ten ea need with
      | .error t => s.takeTrap s.cur t
      | .ok pa =>
        if st && s.inDesc pa then s.trap 0x0F ea
        else
          s.afterStores i s.scoped [(pa, 16)] fun s =>
            match s.badWord ea [(pa, 16)] with
            | some v => s.trap 0x09 v
            | none => f pa s

/-- PINIT, R359. -/
def execPinit (gd : Guard) (d a b : GReg) (s : State) : Res :=
  phaseOp gd (.pinit gd d a b) (s.g a) (rightW ||| rightS) true
    (fun pa s =>
      let u := s.g b
      if phaseNo u ≠ 0 ∨ bitsAt u 47 0 = 0 then s.setG d 1
      else (((s.setPhase (pa + 8) u).setPhase pa u).phaseScan pa).setG d 0) s

/-- PARR, R359. -/
def execParr (gd : Guard) (d a b : GReg) (s : State) : Res :=
  phaseOp gd (.parr gd d a b) (s.g a) (rightR ||| rightW ||| rightS) true
    (fun pa s =>
      let u := s.g b
      let w := s.readW pa
      let r := s.readW (pa + 8)
      let ph := phaseNo w
      if phaseNo u ≠ 0 ∨ phaseArr w < phaseArr u ∨ phaseBytes w < phaseBytes u then s.setG d (w64 (ph + 2 ^ 17))
      else
        let arr := phaseArr w - phaseArr u
        let bytes := phaseBytes w - phaseBytes u
        if arr = 0 ∧ bytes = 0 then
          ((s.setPhase pa (phaseWord (phaseArr r) (phaseBytes r) (ph + 1))).phaseScan pa).setG d (w64 (ph + 2 ^ 16))
        else (s.setPhase pa (phaseWord arr bytes ph)).setG d (w64 ph)) s

/-- PWAIT, R359. -/
def execPwait (gd : Guard) (d a b : GReg) (s : State) : Res :=
  phaseOp gd (.pwait gd d a b) (s.g a) (rightR ||| rightS) false
    (fun pa s =>
      let w := s.readW pa
      if phaseNo w ≠ bitsAt (s.g b) 15 0 then s.setG d w else s.joinWaiters (.phase pa) (.pwait gd d a b) pa) s

end Sys2Proof.Machine
end

