-- ==== Sys2Proof/Machine/Queues.lean ====
section
/-!
DEFINITION. The queue instructions (R272 to R276).
-/

namespace Sys2Proof.Machine

/-- R272: the checks of a reference at issue: the queue that it names, as the physical address of its descriptor. -/
def State.queueRef (s : State) (q : W64) : Except Trap Nat :=
  if bitsAt q 63 60 ≠ 4 ∨ bitsAt q 5 3 ≠ 0 ∨ bitsAt q 1 0 = 3 then .error ⟨0x04, q⟩
  else
    match s.resolve s.rd.ten (q &&& ~~~0x3F#64) rightS with
    | .error t => .error t
    | .ok _ =>
      match s.liveQueue s.rd.ten q with
      | some pa => .ok pa
      | none => .error ⟨0x0F, q⟩

/-- R271: a request that has passed its checks reaches the home once every earlier access is accepted. -/
def queueLands (i : Instr) (q : W64) (s : State) : State :=
  let pa := paDesc s.rd.ten q
  s.afterStores i (fun _ => true) [(pa, 64)] fun s => s.queueTake i q pa

/-- R261, R271: a request on an eliminable queue, with a pairing window and past its checks, enters the Welt once every
earlier access is accepted. A block that is held holds it at its station, past the Welt (R242). -/
def queueTravels (i : Instr) (q : W64) (win : Nat) (data : BitVec 512) (s : State) : State :=
  s.afterStoresWith i weltBound (fun _ => true) [] fun s => s.weltEnter i (paDesc s.rd.ten q) win data

/-- R272, R274: a queue operation with the entry that it pushes. With a pairing window it enters the Welt where its
queue is eliminable. -/
def queueOp (gd : Guard) (i : Instr) (q : W64) (win : Nat) (data : BitVec 512) (s : State) : Res :=
  half gd s fun s =>
    s.unlessPure q fun s =>
      match s.queueRef q with
      | .error t => s.takeTrap s.cur t
      | .ok pa =>
        if win != 0 && bitAt q 2 && (s.slow || s.isHeld pa || s.me.out.any s.storeHeld) then queueTravels i q win data s
        else
          s.afterStores i (fun _ => true) [(pa, 64)] fun s =>
            if s.slow then s.parkAt s.cur .flight i [] else s.queueTake i q pa

/-- QPUSH, R272. -/
def execQpush (gd : Guard) (d a : GReg) (v : VReg) (w : Win) (blk : Bool) (s : State) : Res :=
  queueOp gd (.qpush gd d a v w blk) (s.g a) (windowOf w s.rd) ((s.rd.getV v).truncate 512) s

/-- QPOP, R272. -/
def execQpop (gd : Guard) (d a : GReg) (v : VReg) (w : Win) (blk : Bool) (s : State) : Res :=
  queueOp gd (.qpop gd d a v w blk) (s.g a) (windowOf w s.rd) 0 s

/-- QCNT, R274. -/
def execQcnt (gd : Guard) (d a : GReg) (s : State) : Res := queueOp gd (.qcnt gd d a) (s.g a) 0 0 s

/-- R275: options that `qmake` accepts. -/
def qmakeOk (o : W64) : Bool :=
  o &&& ~~~0xFF07#64 == 0 && bitsAt o 1 0 != 3 && !(bitAt o 2 && bitsAt o 1 0 == 0) && bitsAt o 15 8 != 0

/-- R265, R275: a new queue with its descriptor at pa. -/
def State.makeQueue (s : State) (pa : Nat) (o : W64) : State :=
  ((s.watch pa 64).clearBad pa 64).setQueue pa
    { Queue.none with live := true, tenant := s.rd.cr.tenant, mode := bitsAt o 1 0, elim := bitAt o 2, base := bitsAt o 15 8 }

/-- QMAKE, R275. -/
def execQmake (gd : Guard) (d a b : GReg) (s : State) : Res :=
  halfPark gd (.qmake gd d a b) s false fun s =>
    let ea := s.g a
    let o := s.g b
    s.unlessPure ea fun s =>
      if ea.toNat % 64 ≠ 0 then s.trap 0x03 ea
      else if bitsAt ea 63 60 ≠ 4 then s.trap 0x04 ea
      else
        match s.resolve s.rd.ten ea (rightW ||| rightS) with
        | .error t => s.takeTrap s.cur t
        | .ok pa =>
          s.afterStores (.qmake gd d a b) (fun _ => true) [(pa, 64)] fun s =>
            if !qmakeOk o then s.setG d 3
            else if (s.queue pa).live then s.setG d 2
            else if s.poolFree s.rd.ten < bitsAt o 15 8 then s.setG d 1
            else (s.makeQueue pa o).setG d (ea ||| (o &&& 7))

/-- R276: requests to a queue that have passed their check are still to be answered or taken at the home. -/
def State.queueBusy (s : State) (pa : Nat) : Bool :=
  s.slots.any fun e =>
    let named (a : GReg) : Bool := paDesc e.2.ctx.ten (e.2.ctx.getG a) == pa
    let travels : Bool :=
      match e.2.st with
      | .park .flight _ _ _ | .park (.welt _) _ _ _ | .drain _ .flight _ _ _ | .drain _ (.welt _) _ _ _ => true
      | _ => false
    travels &&
      match e.2.instr with
      | some (.qpush _ _ a _ _ _) | some (.qpop _ _ a _ _ _) | some (.qcnt _ _ a) => named a
      | _ => false

/-- R243, R276: wake every operation parked at the home of a queue, with a trap of this cause. -/
def State.wakeQueue (s : State) (pa : Nat) (cause : BitVec 8) : State :=
  (s.parkedAt pa true ++ s.parkedAt pa false).foldl (fun t k =>
    let ea := match (t.slot k).instr with
      | some (.qpush _ _ a _ _ _) | some (.qpop _ _ a _ _ _) => (t.slot k).ctx.getG a
      | _ => 0
    t.reply k (some ⟨cause, ea⟩)) s

/-- R276 step 3: the queue is gone: its parked waiters trap, its blocks are free, its descriptor is zero. That
the home's writes leave the poison of a word as it is (R243, R245) is the model's choice (log entry 117). -/
def State.closeQueue (s : State) (pa : Nat) : State :=
  let t := s.wakeQueue pa 0x0F
  State.writeBytes { t with queues := smSet Queue.none t.queues pa Queue.none } pa (List.replicate 64 0)

/-- R276 steps 2 and 3: `qfree` goes on once no request is under way and memory does not hold the descriptor (R242, R243). -/
def qfreeDone (i : Instr) (d : GReg) (pa : Nat) (s : State) : State :=
  if s.slow || s.queueBusy pa || s.isHeld pa then s.parkAt s.cur .flight i [1]
  else
    let n := (s.queue pa).entries.length
    (s.closeQueue pa).setG d (w64 n)

/-- QFREE, R276. -/
def execQfree (gd : Guard) (d a : GReg) (s : State) : Res :=
  half gd s fun s =>
    let q := s.g a
    s.unlessPure q fun s =>
      match s.queueRef q with
      | .error t => s.takeTrap s.cur t
      | .ok pa =>
        s.afterStores (.qfree gd d a) (fun _ => true) [(pa, 64)] fun s =>
          qfreeDone (.qfree gd d a) d pa
            { s with queues := smSet Queue.none s.queues pa { s.queue pa with closing := true } }

end Sys2Proof.Machine
end

