-- ==== Sys2Proof/Machine/Tasks.lean ====
section
/-!
DEFINITION. The dispatch unit (R277 to R288, R298, R367): task records, launches, the order of dispatch, and the end
of a launch.
-/

namespace Sys2Proof.Machine

/-! ## Task records (R281, R282) -/

/-- The record of a die with this index. -/
def State.task (s : State) (key : Nat) : Task := smGet Task.free s.tasks key

/-- Write a task record; the key is 2^16 · die + index. -/
def State.setTask (s : State) (key : Nat) (x : Task) : State := { s with tasks := smSet Task.free s.tasks key x }

/-- R282, R379: the generation of a record. -/
def taskGen (key adv : Nat) : Nat := (Config.firstGen (2 ^ 24 + key) + adv) % 2 ^ 16

/-- R282: the handle of a record. -/
def State.taskHandle (s : State) (key : Nat) : W64 := w64 (key + taskGen key (s.task key).adv * 2 ^ 32)

/-- R282: the record that a handle of a tenant names, if it is live. -/
def State.taskOf (s : State) (tenant : W64) (h : W64) : Option Nat :=
  let key := bitsAt h 18 0
  let x := s.task key
  if bitsAt h 31 19 = 0 ∧ bitsAt h 63 48 = 0 ∧ x.st ≠ .free ∧ x.tenant = tenant ∧ bitsAt h 47 32 = taskGen key x.adv then
    some key
  else none

/-- A field of a task record. -/
def Task.at_ (x : Task) (n : Nat) : W64 := (x.f.toList)[n]?.getD 0

/-- R281: the class and the dependence count of a record. -/
def Task.cls (x : Task) : Nat := bitsAt (x.at_ 6) 2 0
def Task.deps (x : Task) : Nat := bitsAt (x.at_ 6) 31 16

/-- R281: a record with its dependence count set. -/
def Task.setDeps (x : Task) (n : Nat) : Task :=
  { x with f := x.f.setIfInBounds 6 ((x.at_ 6 &&& ~~~0xFFFF0000#64) ||| w64 (n % 2 ^ 16 * 2 ^ 16)) }

/-- R282, R298: the records of a tenant in a die's task table, with the copies that count against its quota. -/
def State.taskCount (s : State) (tenant : W64) (die : Nat) : Nat :=
  (s.tasks.filter fun e => e.2.st != .free && e.2.tenant == tenant && decide (e.1 / 2 ^ 16 = die)).length +
    (s.launches.map fun l => if l.tenant = tenant then (l.copies.filter fun c => caDie c.slot == die).length else 0).foldl (· + ·) 0

/-- R282: the records in use of a die's task table. -/
def State.tasksIn (s : State) (die : Nat) : Nat :=
  (s.tasks.filter fun e => e.2.st != .free && decide (e.1 / 2 ^ 16 = die)).length

/-- R282: a free index of a die's task table, which one being a free value (R379). -/
def State.freeIndex (s : State) (die : Nat) : Option Nat × State :=
  let (n, t) := s.takeFree
  (((List.range (s.tasksIn die + 1)).map fun j => die * 2 ^ 16 + (n + j) % 2 ^ 16).find? fun key => (s.task key).st == .free, t)

/-- R282: one more record of a tenant fits the quota and the table of a die. -/
def State.taskRoom (s : State) (tenant : W64) (die : Nat) : Bool :=
  decide (s.taskCount tenant die < (s.tt (tenant.toNat % 256) 8).toNat) && decide (s.tasksIn die < 65536)

/-- R282: a task enters the table of a die: READY at once when it depends on nothing. -/
def State.enterTask (s : State) (die : Nat) (tenant lnum : W64) (f : Vector W64 8) (bound : Option Nat) : Option Nat × State :=
  match s.freeIndex die with
  | (none, t) => (none, t)
  | (some key, t) =>
    let (n, t) := t.nextStamp
    let x : Task :=
      { st := .wait, adv := (t.task key).adv, tenant := tenant, lnum := lnum, f := f, bound := bound, since := t.cycle
        order := n, tid := 0, slot := 0 }
    (some key, t.setTask key { x with st := if x.deps = 0 then .ready else .wait })

/-- R282: a record becomes READY. -/
def State.readyTask (s : State) (key : Nat) : State :=
  let (n, t) := s.nextStamp
  t.setTask key { (t.task key).setDeps 0 with st := .ready, since := t.cycle, order := n }

/-! ## Launches -/

/-- A dword of a launch header (R277). -/
def Launch.at_ (l : Launch) (n : Nat) : W64 := (l.hdr.toList)[n]?.getD 0

/-- R278, R281: an entry address that a task may have. -/
def entryOk (e : W64) : Bool := bitsAt e 2 0 == 0 && (bitsAt e 63 60 == 0 || bitsAt e 63 60 == 3 || bitsAt e 63 60 == 4)

/-- R278: a header that the dispatch unit accepts for a tenant. -/
def State.headerOk (s : State) (tenant : W64) (h : Nat → W64) : Bool :=
  let r := rectOf (rectNorm (h 1))
  entryOk (h 0) && rectOk (h 1) && bitsAt (h 2) 63 58 == 0 && shapeOk (h 2) && bitsAt (h 3) 2 0 == 0 && bitsAt (h 4) 63 6 == 0 &&
    (!bitAt (h 4) 3 || tenant == 0) && rectOk (h 5) && (h 6 == 0 || bitsAt (h 6) 63 60 == 4 || bitsAt (h 6) 63 60 == 8) &&
    !bitAt (h 7) 63 && bitsAt (h 8) 3 0 == 0 && bitsAt (h 9) 3 0 == 0 && h 14 == 0 && h 15 == 0 && !r.isEmpty &&
    (Rect.tiles r).all fun t => (s.tcmOwner t).toNat == tenant.toNat

/-- R280: the dies that a rectangle touches. -/
def Rect.dies (r : Rect) : List Nat :=
  (List.range 8).filter fun d =>
    !r.isEmpty && decide (r.xlo ≤ 32 * (d % 4) + 31) && decide (32 * (d % 4) ≤ r.xhi) && decide (r.ylo ≤ 32 * (d / 4) + 31) &&
      decide (32 * (d / 4) ≤ r.yhi)

/-- R280, R379: a tenant's lnum after n launches. -/
def lnumAfter (tenant n : Nat) : W64 := w64 ((Config.firstId (2 * tenant) + n) % 2 ^ 32)

/-- R297: an event that is no containment: kind, cause, lnum and the fields f1 to f6. -/
def eventOf (kind cause : Nat) (lnum : W64) (f : List W64) : List W64 :=
  (w64 (cause + kind * 2 ^ 8 + 7 * 2 ^ 16 + 4 * 2 ^ 19) ||| (lnum <<< 32)) :: f

/-- R280 steps 1 and 2: the lead dispatch unit takes a header of a tenant. -/
def State.startLaunch (s : State) (tenant : Nat) (hdr : Vector W64 16) : State :=
  let h (n : Nat) : W64 := (hdr.toList)[n]?.getD 0
  let n := smGet 0 s.lnums tenant
  let lnum := lnumAfter tenant n
  let ok := s.headerOk (w64 tenant) h
  let l : Launch :=
    { tenant := w64 tenant, lnum := lnum, hdr := (hdr.setIfInBounds 1 (rectNorm (h 1))).setIfInBounds 5 (rectNorm (h 5))
      refused := !ok, failed := !ok, done := false, toDies := if ok then (rectOf (rectNorm (h 1))).dies else []
      retries := [], copies := [], redo := [] }
  let t := { s with lnums := smSet 0 s.lnums tenant (n + 1), launches := s.launches ++ [l] }
  if ok then t else t.postEvent tenant (eventOf 3 0 lnum [0, 0, 0, 0, w64 t.cycle, h 0])

/-- R280: the lead dispatch unit pops both entries of the oldest record of a tenant's launch queue. A record whose
slots are uncorrectable is discarded (R273). The pop waits while memory holds the home (R242, R243). -/
def State.popLaunch (s : State) (die tenant : Nat) : State :=
  match s.liveQueue tenant (s.tt tenant 1) with
  | none => s
  | some pa =>
    if caDie (s.bankOf pa) ≠ die ∨ (s.queue pa).entries.length < 2 ∨ s.isHeld pa ∨ s.runGone pa 64 then s
    else
      match s.homePop pa with
      | (some e0, t) =>
        (match t.homePop pa with
         | (some e1, u) =>
           if e0.2 || e1.2 then u
           else
             let dw (e : BitVec 512) : List W64 := (List.range 8).map fun j => w64 (lane e 64 j)
             let l := dw e0.1 ++ dw e1.1
             u.startLaunch tenant (Vector.ofFn fun (n : Fin 16) => l[n.val]?.getD 0)
         | (none, u) => u)
      | (none, t) => t

/-- R280 step 3: the tasks that a die makes of a header, each with the core that it is bound to. -/
def State.headerTasks (s : State) (l : Launch) (die : Nat) : List (Vector W64 8 × Option Nat) :=
  let r := rectOf (l.at_ 1)
  let f (wid : W64) : Vector W64 8 :=
    #v[l.at_ 0, wid, l.at_ 10, l.at_ 11, l.at_ 12, l.at_ 13, l.at_ 4 &&& 7, l.at_ 1]
  if bitAt (l.at_ 4) 4 then
    (if caDie (caTile r.xlo r.ylo) = die then [(f 0, none)] else [])
  else
    (r.tiles.filter fun t => decide (caDie t = die) && s.coreEnabled t && !isCobbler t).map fun t => (f (w64 t), some t)

/-- R280 steps 2 to 4: a header reaches the dispatch unit of a die, in the order in which the lead unit sent those of
its tenant, and becomes tasks. That it waits whole while its tasks do not fit the quota or the table is the model's choice (log entry 118);
that of a launch that has failed is dropped (R286). -/
def State.headerArrives (s : State) (die idx : Nat) : State :=
  match s.launches[idx]? with
  | none => s
  | some l =>
    let earlier := (s.launches.take idx).any fun m => m.tenant == l.tenant && m.toDies.contains die
    let l1 := s.headerTasks l die
    if !l.toDies.contains die || earlier then s
    else if l.failed then s.modLaunch l.tenant l.lnum fun m => { m with toDies := m.toDies.filter (· != die) }
    else if decide ((s.tt (l.tenant.toNat % 256) 8).toNat < s.taskCount l.tenant die + l1.length) ||
        decide (65536 < s.tasksIn die + l1.length) then s
    else
      let t := s.modLaunch l.tenant l.lnum fun m => { m with toDies := m.toDies.filter (· != die) }
      l1.foldl (fun t p => (t.enterTask die l.tenant l.lnum p.1 p.2).2) t

/-! ## Dispatch (R283 to R285) -/

/-- The slots of a core that a dispatch may take. -/
def State.dispatchSlots (s : State) (core : Nat) (bound : Bool) : List Nat :=
  (coreSlots core).filter fun k => s.openSlot k && (!bound || caSlot k == 0)

/-- R11, R283: a core that a task may be placed on; a Cobbler runs firmware only. -/
def State.taskFits (s : State) (die : Nat) (x : Task) (core : Nat) : Bool :=
  decide (caDie core = die) && s.ownCore x.tenant core && s.coreEnabled core && (rectOf (x.at_ 7)).hasCore core &&
    (match x.bound with | some c => c == core | none => true) &&
    !(s.dispatchSlots core x.bound.isSome).isEmpty

/-- R283: a READY task can be placed. -/
def State.placeable (s : State) (die : Nat) (x : Task) : Bool :=
  match x.bound with
  | some c => s.taskFits die x c
  | none => (List.range 1024).any fun i => s.taskFits die x (caOfIndex die i)

/-- R293: the slots in which a spilled thread may resume; the core that it left comes first. -/
def State.resumeSlots (s : State) (x : Spilled) : List Nat :=
  let w (j : Nat) : W64 := s.readW (x.pa + 8 * j)
  let cores := if s.mayMove x then (rectOf (w 70)).tiles else []
  ((x.core :: cores).flatMap coreSlots).filter fun k => s.mayResume x w k

/-- What a dispatch unit can start: class, tenant, 0 for a spilled thread and 1 for a task, and its order. -/
structure Start where
  cls    : Nat
  tenant : Nat
  kind   : Nat
  order  : Nat
  deriving DecidableEq, Repr

/-- R283: everything that a die's dispatch unit can start now. -/
def State.starts (s : State) (die : Nat) : List Start :=
  (s.spilled.filter fun x => !x.soft && decide (caDie x.core = die) && !(s.resumeSlots x).isEmpty).map
      (fun x => ⟨x.cls.toNat, x.tenant.toNat, 0, x.order⟩) ++
    (s.tasks.filter fun e => e.2.st == .ready && decide (e.1 / 2 ^ 16 = die) && s.placeable die e.2).map
      fun e => ⟨e.2.cls, e.2.tenant.toNat, 1, e.2.order⟩

/-- R283: the weight of a tenant. That 0 counts as 1 is the model's choice (log entry 119). -/
def State.weight (s : State) (tenant : Nat) : Nat := max 1 (bitsAt (s.tt tenant 0) 15 8)

/-- R283: what the dispatch unit starts next: the lowest class; the tenant that it visits, in ascending number; a
spilled thread before a task; and the oldest. -/
def State.nextStart (s : State) (die : Nat) : Option Start :=
  let l := s.starts die
  match sortBy Start.cls l with
  | [] => none
  | a :: _ =>
    let l := l.filter fun x => x.cls == a.cls
    let (cur, n) := smGet (0, 0) s.visits (8 * die + a.cls)
    let stay := l.any (fun x => x.tenant == cur) && decide (n < s.weight cur)
    let rank (x : Start) : Nat := if stay then (if x.tenant = cur then 0 else 1) else (x.tenant + 256 - (cur + 1) % 256) % 256
    (sortBy (fun x => (rank x * 2 + x.kind) * 2 ^ 64 + x.order) l).head?

/-- R283: a visit goes on, or the next one begins. That a resumed thread counts in it is the model's choice (log entry 119). -/
def State.countVisit (s : State) (die : Nat) (x : Start) : State :=
  let key := 8 * die + x.cls
  let (cur, n) := smGet (0, 0) s.visits key
  { s with visits := smSet (0, 0) s.visits key (x.tenant, if cur = x.tenant ∧ n < s.weight cur then n + 1 else 1) }

/-- R285: the registers of a dispatched thread. -/
def taskCtx (x : Task) (l : Launch) : Ctx :=
  let cr := { CRs.zero with
    wid := x.at_ 1, stklim := l.at_ 9, wshape := l.at_ 2, tvec := l.at_ 3, lrect := l.at_ 1, tenant := x.tenant, lnum := x.lnum
    pstate := ofBool (bitAt (l.at_ 4) 3) }
  let g := (List.range 4).foldl (fun (g : Vector W64 32) n => g.setIfInBounds (n + 1) (x.at_ (n + 2))) Ctx.zero.g
  { Ctx.zero with pc := x.at_ 0, cr := cr, g := g.setIfInBounds 29 (l.at_ 8) }

/-- R298: the launch keeps a copy of each record that it dispatched. -/
def retryShape (sh : W64) : Bool := (List.range 6).any fun k => shapePolicy sh k == 1

/-- R280 step 5, R283, R285: a READY task leaves for a core, if it is what the dispatch unit starts next. -/
def State.dispatchTask (s : State) (die idx core : Nat) : State :=
  let key := die * 2 ^ 16 + idx
  let x := s.task key
  match s.launch x.tenant x.lnum, s.nextStart die, s.dispatchSlots core x.bound.isSome with
  | some l, some n, k :: _ =>
    if x.st ≠ .ready ∨ n ≠ ⟨x.cls, x.tenant.toNat, 1, x.order⟩ ∨ s.taskFits die x core = false then s
    else
      let (id, t) := s.newId
      let (tid, t) := t.newTid
      let p : Pkt :=
        { id := id, kind := .task, sender := none, tid := tid, ctx := taskCtx x l, cls := BitVec.ofNat 3 x.cls, core := core, slot := some k
          gang := false, landed := false, since := t.cycle, evict := [], pend := none, pure := [] }
      let y := { x with st := .dispatched, tid := tid, slot := k }
      let t := { t with pkts := t.pkts ++ [p] }.setTask key y
      let t := if retryShape (l.at_ 2) then t.modLaunch x.tenant x.lnum fun m => { m with copies := m.copies ++ [y] } else t
      t.countVisit die n
  | _, _, _ => s

/-- R283, R293: a spilled thread resumes in a slot, if it is what the dispatch unit of its die starts next. -/
def State.resumeNext (s : State) (idx k : Nat) : State :=
  match s.spilled[idx]? with
  | none => s
  | some x =>
    let die := caDie x.core
    let me : Start := ⟨x.cls.toNat, x.tenant.toNat, 0, x.order⟩
    if !s.canResume x k || s.nextStart die != some me then s
    else (s.resumeThread x k).countVisit die me

/-! ## Retry and the end of a launch -/

/-- R62, R298: a unit that containment killed is dead: the records of its work are dispatched again, once every table that
is to hold them has room for all of them. -/
def State.retryUnit (s : State) (idx : Nat) : State :=
  match s.launches[idx]? with
  | none => s
  | some l =>
    match l.redo with
    | [] => s
    | (level, u) :: rest =>
      let sh := l.at_ 2
      let inside (key : ResvKey) : Bool := key.tenant == l.tenant && key.lnum == l.lnum && unitOf sh key.wid level == u
      if s.threads.any fun t => inside t.2 then s
      else
        let mine (x : Task) : Bool := unitOf sh (x.at_ 1) level == u
        let again := l.copies.filter mine
        let full (die : Nat) : Bool :=
          decide (65536 < s.tasksIn die + (again.filter fun c => caDie c.slot == die).length)
        if again.any fun c => full (caDie c.slot) then s
        else
          let t := s.modLaunch l.tenant l.lnum fun m => { m with
            redo := rest, copies := m.copies.filter fun c => !mine c
            retries := m.retries.map fun r => if r.1 = level ∧ r.2.1 = u then (level, u, r.2.2 + 1) else r }
          again.foldl (fun t c => (t.enterTask (caDie c.slot) l.tenant l.lnum (c.setDeps 0).f c.bound).2) t

/-- R286: a launch has no live thread and no task that waits or is ready, and its header has reached every die. -/
def State.launchOver (s : State) (l : Launch) : Bool :=
  l.toDies.isEmpty && l.redo.isEmpty &&
    (s.threads.all fun t => !(t.2.tenant == l.tenant && t.2.lnum == l.lnum)) &&
    s.tasks.all fun e => !((e.2.st == .wait || e.2.st == .ready) && e.2.tenant == l.tenant && e.2.lnum == l.lnum)

/-- R367: where the completion store of a launch goes, or the trap that it would take. -/
def State.completionAt (s : State) (die tenant : Nat) (ea : W64) : Except Trap Nat :=
  if ea.toNat % 8 ≠ 0 then .error ⟨0x03, ea⟩
  else if bitsAt ea 63 60 = 4 then
    match s.resolve tenant ea rightW with
    | .ok pa => if s.inDesc pa then .error ⟨0x0F, ea⟩ else .ok pa
    | .error t => .error t
  else s.translate die tenant ea false true

/-- R286, R318: the lead unit decides that a launch is complete. A caddr in no space that R278 allows, which only a refused
launch has, gets no store and posts no event. It waits while memory holds the word at caddr (R242, R243). -/
def State.completeLaunch (s : State) (die idx : Nat) : State :=
  match s.launches[idx]? with
  | none => s
  | some l =>
    if !s.launchOver l then s
    else
      let ten := l.tenant.toNat % 256
      let t := (s.resv.filter fun e => match e.2 with | some k => k.tenant == l.tenant && k.lnum == l.lnum | none => false).foldl
        (fun t e => t.grantNext e.1) s
      let t := { t with
        pins := t.pins.filter fun p => !(p.tenant == l.tenant && p.lnum == l.lnum)
        launches := t.launches.eraseIdx idx }
      let ea := l.at_ 6
      if ea = 0 ∨ (bitsAt ea 63 60 ≠ 4 ∧ bitsAt ea 63 60 ≠ 8) then t
      else
        match t.completionAt die ten ea with
        | .ok pa => if s.isHeld pa then s else t.storeBytes pa (leBytes 8 (setBit (l.at_ 7) 63 l.failed).toNat)
        | .error e => t.postEvent ten (eventOf 1 e.cause.toNat l.lnum [0, ea, 0, 0, w64 t.cycle, 0])

/-! ## Spill for a class (R289) -/

/-- R289: the slot that is spilled for a READY task: of the same tenant, of greatest class above that of the task, then
of lowest core index, then of lowest slot; none while a slot of its rectangle is FREE or about to be. -/
def State.classVictim (s : State) (die : Nat) (x : Task) : Option Nat :=
  let r := rectOf (x.at_ 7)
  let inside (k : Nat) : Bool := caKind k == .compute && decide (caDie k = die) && r.hasCore (caCore k)
  let cores := (r.tiles.filter fun t => decide (caDie t = die))
  if cores.any fun c => (coreSlots c).any fun k => (s.slot k).st.isFree || (s.slot k).st.spilling then none
  else
    let l := s.slots.filter fun e =>
      inside e.1 && e.2.spillable && e.2.ctx.cr.tenant == x.tenant && decide (x.cls < e.2.cls.toNat)
    (sortBy (fun e => ((7 - e.2.cls.toNat) * 1024 + caIndex e.1) * 16 + caSlot e.1) l).head?.map Prod.fst

/-- R289: a READY task has waited for 16,384 cycles, and this slot is the one spilled for it. -/
def State.spillForTask (s : State) (k : Nat) : State :=
  if s.tasks.any fun e =>
      e.2.st == .ready && decide (e.2.since + 16384 ≤ s.cycle) && s.classVictim (e.1 / 2 ^ 16) e.2 == some k then
    s.engineSpill k
  else s

/-- R193: the cycle from which an entry of a core's landing buffer has waited without a slot becoming FREE. -/
def State.waitsSince (s : State) (p : Pkt) : Nat := max p.since (smGet 0 s.freedAt (caCore p.core))

/-- R193: a slot is parked in `recv`, `waitc` or `wait`, be its instruction with the mailbox port yet or still on its way. -/
def Slot.idleWait (x : Slot) : Bool :=
  match x.st with
  | .park .mailbox _ _ _ | .park .counter _ _ _ | .park (.wait _) _ _ _ => true
  | .park .flight (.recv _ _ _ _) _ _ | .park .flight (.waitc _ _ _ _) _ _ => true
  | _ => false

/-- R193: the slot that is evicted for the oldest entry of a core's landing buffer, one at a time. -/
def State.landingVictim (s : State) (core : Nat) : Option Nat :=
  let unit := if caKind core = .bank then 2 else 1
  match (s.landed core).head? with
  | none => none
  | some p =>
    let waited := s.cycle - s.waitsSince p
    let parked := (coreSlots core).find? fun k => (s.slot k).spillable && (s.slot k).idleWait
    if (s.slotFor p).isSome || decide (waited < 4096 * unit) || (coreSlots core).any fun k => (s.slot k).st.spilling then none
    else
      match parked with
      | some k => some k
      | none => if waited < 8192 * unit then none else (coreSlots core).find? fun k => (s.slot k).spillable

/-- R193: the slot k is evicted for the oldest entry of a core's landing buffer, which is to have it where it can. -/
def State.evictFor (s : State) (core k : Nat) : State :=
  let t := s.engineSpill k
  match (s.landed core).head? with
  | some p =>
    let freed := if (s.slot k).ctx.gang then [k, partner k] else [k]
    let kept := if p.slot.isSome then freed.filter p.named.contains else freed
    if !(t.slot k).st.spilling then t
    else { t with pkts := t.pkts.map fun q => if q.id = p.id then { q with evict := q.evict ++ kept } else q }
  | none => t

end Sys2Proof.Machine
end

