-- ==== Sys2Proof/Machine/Sched.lean ====
section
/-!
DEFINITION. The task instructions (R287, R288), `svsl` and `ldsl` (R294, R295), and `tinvl` and `hinv` (R302).
-/

namespace Sys2Proof.Machine

/-! ## Tasks -/

/-- The eight fields of a record in a vector register (R281). -/
def taskFields (e : BitVec 512) : Vector W64 8 := Vector.ofFn fun (n : Fin 8) => w64 (lane e 64 n.val)

/-- R287: a record that `tenq` enters, its rectangle lying in one die. -/
def taskOk (f : Vector W64 8) : Bool :=
  let r := rectOf f[7]
  entryOk f[0] && bitsAt f[6] 15 3 == 0 && bitsAt f[6] 63 32 == 0 && f[7] &&& rectReserved == 0 && !r.isEmpty &&
    decide (r.xlo / 32 = r.xhi / 32) && decide (r.ylo / 32 = r.yhi / 32)

/-- R287: the corners of a record's rectangle lie inside `lrect`. -/
def State.taskInside (s : State) (f7 : W64) : Bool :=
  let r := rectOf (rectNorm f7)
  let l := rectOf s.rd.cr.lrect
  l.has r.xlo r.ylo && l.has r.xhi r.yhi

/-- TENQ, R287. -/
def execTenq (gd : Guard) (d : GReg) (v : VReg) (s : State) : Res :=
  halfPark gd (.tenq gd d v) s false fun s =>
    let f := taskFields ((s.rd.getV v).truncate 512)
    let r := rectOf f[7]
    let die := caDie (caTile r.xlo r.ylo)
    s.unlessPure f[0] fun s =>
      if !s.taskInside f[7] then s.trap 0x06 f[7]
      else if !taskOk f then s.setG d 0x8000000000000002#64
      else
        s.afterStores (.tenq gd d v) (fun _ => true) [] fun s =>
          if !s.taskRoom s.rd.cr.tenant die then s.setG d 0x8000000000000001#64
          else
            match s.enterTask die s.rd.cr.tenant s.rd.cr.lnum f none with
            | (some key, t) => t.setG d (t.taskHandle key)
            | (none, t) => t.setG d 0x8000000000000001#64

/-- R288: a status of `tdep` or `tcan`. -/
def taskStatus (code low : Nat) : W64 := w64 (code * 2 ^ 32 + low)

/-- TDEP, R288. -/
def execTdep (gd : Guard) (d a : GReg) (s : State) : Res :=
  halfPark gd (.tdep gd d a) s false fun s =>
    let h := s.g a
    s.unlessPure h fun s =>
      s.afterStores (.tdep gd d a) (fun _ => true) [] fun s =>
        match s.taskOf s.rd.cr.tenant h with
        | none => s.setG d (taskStatus 3 0)
        | some key =>
          let x := s.task key
          if x.st = .wait then
            (if 1 < x.deps then (s.setTask key (x.setDeps (x.deps - 1))).setG d (taskStatus 0 0)
             else (s.readyTask key).setG d (taskStatus 1 0))
          else
            (s.postEvent s.rd.ten (eventOf 2 0 s.rd.cr.lnum [s.pc, h, s.rd.cr.wid, 0, w64 s.cycle, h])).setG d (taskStatus 2 0)

/-- TCAN, R288. -/
def execTcan (gd : Guard) (d a : GReg) (s : State) : Res :=
  halfPark gd (.tcan gd d a) s false fun s =>
    let h := s.g a
    s.unlessPure h fun s =>
      match s.taskOf s.rd.cr.tenant h with
      | none => s.setG d (taskStatus 3 0)
      | some key =>
        let x := s.task key
        if x.st = .dispatched then s.setG d (taskStatus 1 x.slot)
        else (s.freeTask (key / 2 ^ 16) (key % 2 ^ 16)).setG d (taskStatus 0 0)

/-! ## svsl and ldsl -/

/-- R294, R295, R326: the checks of both: the record address, for a record that is written (st) or read, and the slot. R11
keeps the Cobbler for firmware: that another tenant's threads meet cause 0x06 there, as in R71, is the model's choice, and so
is the record's address as the value for a record that would cover a live descriptor (R265; log entry 96). -/
def State.saveCheck (s : State) (slot ea : W64) (st : Bool) : Except Trap Nat :=
  if !s.rd.priv then .error ⟨0x02, s.bundle⟩
  else if ea.toNat % 64 ≠ 0 then .error ⟨0x03, ea⟩
  else if s.impure ea recordSize st then .error ⟨0x0B, ea⟩
  else if bitsAt ea 63 60 ≠ 4 then .error ⟨0x04, ea⟩
  else
    match s.resolveRange s.rd.ten ea recordSize (if st then rightW else rightR) with
    | .error t => .error t
    | .ok pa =>
      let k := slot.toNat
      if !coreAddressOk slot || caKind k == .station || (caKind k == .compute && !s.coreEnabled (caCore k)) then .error ⟨0x04, slot⟩
      else if isCobbler (caCore k) && s.rd.cr.tenant != 0 then .error ⟨0x06, slot⟩
      else if st && s.runDesc pa recordSize then .error ⟨0x0F, ea⟩
      else .ok pa

/-- R294: the status that `svsl` of slot k gives at once. -/
def State.saveRefused (s : State) (k : Nat) : Option W64 :=
  let x := s.slot k
  if k = s.cur ∨ (s.rd.gang ∧ k = partner s.cur) then some 3
  else if !x.st.live || x.ctx.cr.tenant != s.rd.cr.tenant then some 1
  else none

/-- SVSL, R294. It waits for a slot that loads its context, that is being spilled or killed, or that is parked in `spawn` or
`quit`. -/
def execSvsl (gd : Guard) (d a b : GReg) (s : State) : Res :=
  half gd s fun s =>
    match s.saveCheck (s.g a) (s.g b) true with
    | .error t => s.takeTrap s.cur t
    | .ok _ =>
      let k := (s.g a).toNat
      s.afterStores (.svsl gd d a b) (fun _ => true) [] fun s =>
        match s.saveRefused k with
        | some v => s.setG d v
        | none =>
          if !(s.slot k).spillable then s.parkAt s.cur .flight (.svsl gd d a b) []
          else
            let t := (s.spillSlot k).parkAt s.cur (.save k (s.g b)) (.svsl gd d a b) []
            if s.slow then t else (t.recordWritten k 0).finish

/-- R295: the launch of a record is live and has a record saved by `svsl`: the one at this address, if it is there. -/
def State.savedFor (s : State) (tenant lnum wid : W64) (pa : Nat) : Option Spilled :=
  let l := s.spilled.filter fun x => x.soft && x.tenant == tenant && x.lnum == lnum
  if (s.launch tenant lnum).isNone then none
  else
    match l.find? fun x => x.pa == pa && x.wid == wid with
    | some x => some x
    | none =>
      match l.find? fun x => x.wid == wid with
      | some x => some x
      | none => l.head?

/-- LDSL, R295. A record bound to another core by R194 gets the answer of a slot that is not FREE: the model's choice (log
entry 76). -/
def execLdsl (gd : Guard) (d a b : GReg) (s : State) : Res :=
  halfPark gd (.ldsl gd d a b) s false fun s =>
    match s.saveCheck (s.g a) (s.g b) false with
    | .error t => s.takeTrap s.cur t
    | .ok pa =>
      s.afterStores (.ldsl gd d a b) (fun _ => true) ((blocksOfRun pa recordSize).map fun p => (p, 1)) fun s =>
        let w (j : Nat) : W64 := s.readW (pa + 8 * j)
        let k := (s.g a).toNat
        match s.firstBad pa recordSize with
        | some j => s.trap 0x09 (s.g b + w64 j)
        | none =>
          if !recordOk w || w 60 != s.rd.cr.tenant then s.setG d 2
          else
            match s.savedFor (w 60) (w 65) (w 58) pa with
            | none => s.setG d 2
            | some x =>
              let bound := match recordHome w with | some core => core != caCore k | none => false
              if s.slotFits w k && !bound then (s.enterRecord k w s.me.cls x).setG d 0 else s.setG d 1

/-! ## tinvl and hinv -/

/-- R302: the stores of any thread that used a removed translation are accepted. -/
def State.flushWindow (s : State) (tenant : W64) : State :=
  s.slots.foldl (fun t e =>
    if e.2.ctx.cr.tenant == tenant then t.flushWhere e.1 fun o => bitsAt o.ea 63 60 == 8 else t) s

/-- TINVL, R302. -/
def execTinvl (gd : Guard) (a b : GReg) (s : State) : Res :=
  let ea := s.g a
  let n := (s.g b).toNat
  halfPark gd (.tinvl gd a b) s (n = 0) fun s =>
    if !s.rd.priv then s.trap 0x02 s.bundle
    else if bitsAt ea 63 60 ≠ 8 ∨ bitsAt ea 59 57 ≠ 0 then s.trap 0x04 ea
    else if n = 0 then s
    else
      s.afterStores (.tinvl gd a b) (fun _ => true) [] fun s =>
        let va := bitsAt ea 56 0
        let t := s.flushWindow s.rd.cr.tenant
        { t with tlb := t.tlb.filter fun e =>
            !(decide (e.tenant = s.rd.ten) && decide (e.va < va + n) && decide (va < e.va + 4096 * 2 ^ e.k)) }

/-- HINV, R302. -/
def execHinv (gd : Guard) (s : State) : Res :=
  halfPark gd (.hinv gd) s false fun s =>
    if !s.rd.priv then s.trap 0x02 s.bundle
    else
      s.afterStores (.hinv gd) (fun _ => true) [] fun s =>
        let t := s.flushWindow s.rd.cr.tenant
        { t with tlb := t.tlb.filter fun e => e.tenant != s.rd.ten }

end Sys2Proof.Machine
end

