-- ==== Sys2Proof/Machine/Stacked.lean ====
section
/-!
DEFINITION. Handles (R246 to R248), full/empty words (R249) and queued reservations (R252).
-/

namespace Sys2Proof.Machine

/-! ## Handles -/

/-- HALLOC, R246. -/
def execHalloc (gd : Guard) (d a b : GReg) (s : State) : Res :=
  halfPark gd (.halloc gd d a b) s false fun s =>
    let ten := s.rd.ten
    let n := ((s.g a).toNat + 4095) / 4096
    if !hallocOk (s.g a) (s.g b) then s.setG d 3
    else
      match s.freeHandle ten with
      | (none, t) => t.setG d 0
      | (some h, t) =>
        if (s.tt ten 6).toNat < s.blocksOf ten + n then t.setG d 1
        else
          match t.placements s.core n (s.g b) t.free with
          | none => t.setG d 2
          | some homes =>
            let o : Obj := ⟨true, 4096 * n, s.g b, homes⟩
            State.setG { t with free := t.free + 1, objs := smSet Obj.none t.objs (ten * 2 ^ 20 + h) o } d
              (w64 (4 * 2 ^ 60 + h * 2 ^ 40))

/-- HFREE, R247. -/
def execHfree (gd : Guard) (d a : GReg) (s : State) : Res :=
  halfPark gd (.hfree gd d a) s false fun s =>
    let ea := s.g a
    if bitsAt ea 63 60 ≠ 4 ∨ bitsAt ea 39 0 ≠ 0 then s.trap 0x04 ea
    else
      match s.resolve s.rd.ten ea 0 with
      | .error t => s.takeTrap s.cur t
      | .ok pa =>
        s.afterStores (.hfree gd d a) (fun _ => true) [] fun s =>
          if s.holdsQueue s.rd.ten (paHandle pa) then s.setG d 1
          else (s.releaseObject s.rd.ten (paHandle pa)).setG d 0

/-- R248: an item about the object that holds pa. -/
def State.objItem (s : State) (tenant pa item : Nat) : W64 :=
  let h := paHandle pa
  let o := s.obj tenant h
  match item with
  | 0 => w64 o.size
  | 1 => o.opts
  | 2 => if s.isLost pa then allOnes else w64 (s.bankOf pa)
  | _ => w64 (s.blks.filter fun e => e.1 / 2 ^ 28 == tenant * 2 ^ 20 + h && e.2.lost).length

/-- HQ, R248. Item 4 counts no more quota than the bank groups in service hold, which R244 has it report (DEDUCED, log
entry 81). -/
def execHq (gd : Guard) (d a : GReg) (item : BitVec 5) (s : State) : Res :=
  halfPark gd (.hq gd d a item) s false fun s =>
    let v := s.g a
    let ten := s.rd.ten
    let stack := bitsAt v 2 0
    match item.toNat with
    | 4 => s.setG d (w64 (min (s.tt ten 6).toNat s.blocksInService - s.blocksOf ten))
    | 5 => s.setG d (w64 (s.groupsInService stack))
    | 6 => s.setG d (w64 ((List.range 8).foldr (fun l acc => s.layer stack l + 4 * acc) 0))
    | n =>
      if 7 ≤ n then s.trap 0x01 s.bundle
      else if bitsAt v 63 60 ≠ 4 then s.trap 0x04 v
      else
        match s.resolveHandle ten v with
        | .error t => s.takeTrap s.cur t
        | .ok pa => s.setG d (s.objItem ten pa n)

/-! ## One word of stacked memory -/

/-- R249, R252, R326: the checks that every full/empty instruction and every reservation makes at issue, then its
request at the bank port of its word. -/
def wordOp (gd : Guard) (i : Instr) (ea : W64) (need : BitVec 4) (m : OrdMode) (f : Nat → State → State) (s : State) : Res :=
  halfPark gd i s false fun s =>
    if ea.toNat % 8 ≠ 0 then s.trap 0x03 ea
    else if s.impureSync ea then s.trap 0x0B ea
    else if bitsAt ea 63 60 ≠ 4 then s.trap 0x04 ea
    else
      match s.resolve s.rd.ten ea need with
      | .error t => s.takeTrap s.cur t
      | .ok pa =>
        if s.inDesc pa then s.trap 0x0F ea
        else s.afterStores i (s.waitsFor m false [(pa, 8)]) [(pa, 8)] (f pa)

/-- LDFE, R249. -/
def execLdfe (gd : Guard) (d a : GReg) (o : LdOrd) (s : State) : Res :=
  wordOp gd (.ldfe gd d a o) (s.g a) (rightR ||| rightW ||| rightS) (ldMode o)
    (fun pa s => s.feTake (.ldfe gd d a o) pa) s

/-- LDFF, R249. -/
def execLdff (gd : Guard) (d a : GReg) (o : LdOrd) (s : State) : Res :=
  wordOp gd (.ldff gd d a o) (s.g a) (rightR ||| rightS) (ldMode o) (fun pa s => s.feTake (.ldff gd d a o) pa) s

/-- STEF, R249. -/
def execStef (gd : Guard) (a b : GReg) (o : StOrd) (s : State) : Res :=
  wordOp gd (.stef gd a b o) (s.g a) (rightW ||| rightS) (stMode o) (fun pa s => s.feTake (.stef gd a b o) pa) s

/-- STFF, R249. -/
def execStff (gd : Guard) (a b : GReg) (o : StOrd) (s : State) : Res :=
  wordOp gd (.stff gd a b o) (s.g a) (rightW ||| rightS) (stMode o) (fun pa s => s.feTake (.stff gd a b o) pa) s

/-- LRW, R252. -/
def execLrw (gd : Guard) (d a : GReg) (o : LdOrd) (s : State) : Res :=
  wordOp gd (.lrw gd d a o) (s.g a) (rightR ||| rightS) (ldMode o) (fun pa s => s.lrwTake (.lrw gd d a o) d pa) s

/-- SCH, R252. -/
def execSch (gd : Guard) (a b : GReg) (o : StOrd) (s : State) : Res :=
  wordOp gd (.sch gd a b o) (s.g a) (rightW ||| rightS) (stMode o) (fun pa s => s.holderTake pa (some (s.g b))) s

/-- SDROP, R252. -/
def execSdrop (gd : Guard) (a : GReg) (o : StOrd) (s : State) : Res :=
  wordOp gd (.sdrop gd a o) (s.g a) rightS (stMode o) (fun pa s => s.holderTake pa none) s

end Sys2Proof.Machine
end

