-- ==== Sys2Proof/Machine/Serve.lean ====
section
/-!
DEFINITION. Arbiters that take the operation of a parked or draining slot (R15, R53): its meaning again, or what is left
of it once its checks are passed; and which event takes which operation.
-/

namespace Sys2Proof.Machine

/-- The meaning of a C-half that may park before its arbiter takes it. -/
def servedMeaning (i : Instr) (s : State) : Res :=
  match i with
  | .isync gd => execIsync gd s
  | .leave gd => execLeave gd s
  | .enter gd i => execEnter gd i s
  | .kill gd d a k => execKill gd d a k s
  | .spawn gd d a b o => execSpawn gd d a b o s
  | .rupd gd a b imm => execRupd gd a b imm s
  | .shp gd d a b => execShp gd d a b s
  | .ldb gd d a o i => execLdb gd d a o i s
  | .ldh gd d a o i => execLdh gd d a o i s
  | .ldw gd d a o i => execLdw gd d a o i s
  | .ldd gd d a o i => execLdd gd d a o i s
  | .ldbz gd d a o i => execLdbz gd d a o i s
  | .ldhz gd d a o i => execLdhz gd d a o i s
  | .ldwz gd d a o i => execLdwz gd d a o i s
  | .ldv gd d a o i => execLdv gd d a o i s
  | .stb gd d a o i => execStb gd d a o i s
  | .sth gd d a o i => execSth gd d a o i s
  | .stw gd d a o i => execStw gd d a o i s
  | .std gd d a o i => execStd gd d a o i s
  | .stv gd d a o i => execStv gd d a o i s
  | .lds gd d a => execLds gd d a s
  | .sts gd d a => execSts gd d a s
  | .tfadd gd d a b => execTfadd gd d a b s
  | .rdr gd d a n => execRdr gd d a n s
  | .tam gd d a b op => execTam gd d a b op s
  | .dtld gd t a => execDtld gd t a s
  | .recv gd d a v => execRecv gd d a v s
  | .waitc gd d a k => execWaitc gd d a k s
  | .mrel gd => execMrel gd s
  | .mzero gd t => execMzero gd t s
  | .mload gd t a b => execMload gd t a b s
  | .mdrain gd t a b => execMdrain gd t a b s
  | .mdrainr gd d a b => execMdrainr gd d a b s
  | .mmac gd t a b z bv av sr steps => execMmac gd t a b z bv av sr steps s
  | .ldfe gd d a o => execLdfe gd d a o s
  | .ldff gd d a o => execLdff gd d a o s
  | .stef gd a b o => execStef gd a b o s
  | .stff gd a b o => execStff gd a b o s
  | .lrw gd d a o => execLrw gd d a o s
  | .sch gd a b o => execSch gd a b o s
  | .sdrop gd a o => execSdrop gd a o s
  | .amo gd d a b o op => execAmo gd d a b o op s
  | .afadd gd d a b o => execAfadd gd d a b o s
  | .acas gd d a b o => execAcas gd d a b o s
  | .halloc gd d a b => execHalloc gd d a b s
  | .hfree gd d a => execHfree gd d a s
  | .hq gd d a item => execHq gd d a item s
  | .qmake gd d a b => execQmake gd d a b s
  | .tenq gd d v => execTenq gd d v s
  | .tdep gd d a => execTdep gd d a s
  | .tcan gd d a => execTcan gd d a s
  | .svsl gd d a b => execSvsl gd d a b s
  | .ldsl gd d a b => execLdsl gd d a b s
  | .tinvl gd a b => execTinvl gd a b s
  | .hinv gd => execHinv gd s
  | .tcall gd d a n => execTcall gd d a n s
  | .tnext gd d a c => execTnext gd d a c s
  | .tans gd a b => execTans gd a b s
  | .tend gd a => execTend gd a s
  | .tfail gd a => execTfail gd a s
  | .tinv gd d a => execTinv gd d a s
  | .tstat gd d a item => execTstat gd d a item s
  | .cpst gd d a item => execCpst gd d a item s
  | .fence gd => execFence gd s
  | .fenceAcq gd => execFenceAcq gd s
  | .fenceRel gd => execFenceRel gd s
  | .parr gd d a b => execParr gd d a b s
  | .pwait gd d a b => execPwait gd d a b s
  | .pinit gd d a b => execPinit gd d a b s
  | _ => .next s

/-- The state that a meaning answers; these never stop. -/
def Res.stateOr (s : State) : Res → State
  | .next t => t
  | _ => s

/-- R53: what an arbiter does with the operation i, whose bundle read snap at issue, of the executing slot. -/
def serveHalf (i : Instr) (snap : List Byte) (s : State) : State :=
  match i with
  | .send _ d a v mb => s.afterStores i (fun _ => true) [] (sendLands d a v mb)
  | .sendL _ a _ tag _ => s.afterStoresWith i snap (fun _ => true) [] (runLands (s.g a) tag.toNat snap)
  | .mcast _ d a =>
    let off := (s.gAt a 1).toNat
    s.afterStoresWith i snap (fun _ => true) [] (castLands d off (bitsAt (s.gAt a 3) 19 16) (rectOf (s.gAt a 2)) snap)
  | .mcmd _ d a _ => s.afterStoresWith i snap (fun _ => true) [] (cmdLands d a snap)
  | .dtst _ _ a => dtstLands i (s.g a) snap s
  | .amo gd d a b o op =>
    if snap = weltBound then addTravels i (paStack s.rd.ten (s.g a).toNat) o (windowOf .qwin s.rd) (s.g b) s
    else Res.stateOr s (execAmo gd d a b o op s)
  | .qpush _ _ a v w _ =>
    if snap = weltBound then queueTravels i (s.g a) (windowOf w s.rd) ((s.rd.getV v).truncate 512) s else queueLands i (s.g a) s
  | .qpop _ _ a _ w _ => if snap = weltBound then queueTravels i (s.g a) (windowOf w s.rd) 0 s else queueLands i (s.g a) s
  | .qcnt _ _ a => queueLands i (s.g a) s
  | .qfree gd d a =>
    if snap.isEmpty then Res.stateOr s (execQfree gd d a s) else qfreeDone i d (paDesc s.rd.ten (s.g a)) s
  | .ptask gd d a b k e => pureRun gd d a b k e snap s
  | .cpyq _ d a blk => s.afterStoresWith i snap (fun _ => true) [] (cpyqPlace i d a blk snap)
  | i => Res.stateOr s (servedMeaning i s)

/-- The arbiters that take operations in flight. -/
inductive Port where
  | access | fullEmpty | reservation | phase | queue | cobbler | matrix | message | data | remote | other
  deriving DecidableEq, Repr

/-- R15, R256: the arbiter that takes the operation i of a slot with these registers. -/
def portOf (i : Instr) (c : Ctx) : Port :=
  match i with
  | .ldfe _ _ _ _ | .ldff _ _ _ _ | .stef _ _ _ _ | .stff _ _ _ _ => .fullEmpty
  | .lrw _ _ _ _ | .sch _ _ _ _ | .sdrop _ _ _ => .reservation
  | .parr _ _ _ _ | .pwait _ _ _ _ | .pinit _ _ _ _ => .phase
  | .qpush _ _ _ _ _ _ | .qpop _ _ _ _ _ _ | .qcnt _ _ _ | .qmake _ _ _ _ | .qfree _ _ _ => .queue
  | .amo _ _ a _ _ _ | .afadd _ _ a _ _ | .acas _ _ a _ _ => if bitsAt (c.getG a) 63 60 = 8 then .cobbler else .access
  | .mcmd _ _ _ _ => .matrix
  | .send _ _ _ _ _ => .message
  | .sendL _ _ _ _ _ | .mcast _ _ _ => .data
  | .rdr _ _ _ _ => .remote
  | .recv _ _ _ _ | .waitc _ _ _ _ | .halloc _ _ _ _ | .hfree _ _ _ | .hq _ _ _ _ | .tenq _ _ _ | .tdep _ _ _
  | .tcan _ _ _ | .svsl _ _ _ _ | .ldsl _ _ _ _ | .tinvl _ _ _ | .hinv _ | .tcall _ _ _ _ | .tnext _ _ _ _
  | .tans _ _ _ | .tend _ _ | .tfail _ _ | .tinv _ _ _ | .tstat _ _ _ _ | .ptask _ _ _ _ _ _ | .cpyq _ _ _ _
  | .cpst _ _ _ _ | .kill _ _ _ _ | .fence _ | .fenceAcq _ | .fenceRel _ | .isync _ | .mzero _ _ | .mload _ _ _ _
  | .mdrain _ _ _ _ | .mdrainr _ _ _ _ | .mmac _ _ _ _ _ _ _ _ _ | .mclaim _ _ _ | .mrel _ | .dtld _ _ _ | .dtst _ _ _ => .other
  | _ => .access

/-- R15, R53: an arbiter of this kind takes the operation of slot k. -/
def State.servePort (s : State) (k : Nat) (p : Port) : State :=
  let x := s.slot k
  match x.flight with
  | some (i, snap, n) =>
    let late : Bool := match packetsOf (caCore k) i x.ctx with | some (vn, l) => s.overtakes vn k n l | none => false
    if portOf i x.ctx != p || late then s else s.serveWith k (serveHalf i snap)
  | none => s

end Sys2Proof.Machine
end

