-- ==== Sys2Proof/Machine/SlotEvents.lean ====
section
/-!
DEFINITION. What happens to slots and to threads that travel, besides their turns (R53 to R55, R71 to R74, R101, R154,
R191 to R193, R283, R289 to R293, R340): one meaning for each of these events.
-/

namespace Sys2Proof.Machine

/-- A step of the device answers a next state. -/
def event (s : State) : Res := .next s

/-- FETCH_MISS_FILL, R101: the slot issues again, and its cache holds the bundle, once memory gives it (R242, R243). -/
def execFetchMissFill (k : Nat) (s : State) : Res :=
  event <|
    match (s.slot k).wait with
    | some .fetch => if s.fetchHeld k then s else (s.fillCache k).modSlot k fun x => { x with st := .run, due := s.cycle + 1 }
    | _ => s

/-- R74: a parked `kill`, which has killed n threads, completes once every thread that it matched is dead. -/
def State.killOver (s : State) (k n : Nat) (tids : List Nat) : State :=
  if s.anyLive tids then s
  else
    match (s.slot k).instr with
    | some (.kill _ d _ _) => (s.deliver k fun c => c.setG d (w64 n)).reply k none
    | _ => s

/-- R294: `svsl` waits for a thread that is no longer being saved. -/
def State.saveOver (s : State) (k target : Nat) : State :=
  if (s.slot target).st.spilling then s else s.answerSave k 1

/-- OPERATION_COMPLETE, R53: the slot rejoins, or takes the trap of its reply; or an arbiter with no event of its own takes
the operation. -/
def execOperationComplete (k : Nat) (s : State) : Res :=
  event <|
    match (s.slot k).wait with
    | some (.reply none) => s.rejoin k
    | some (.reply (some t)) => (s.modSlot k fun x => { x with due := s.cycle + 1 }).takeTrap k t
    | some (.kill n tids) => s.killOver k n tids
    | some (.save target _) => s.saveOver k target
    | some .flight => s.servePort k .other
    | _ => s

/-- CONTEXT_LOADED, R55. -/
def execContextLoaded (k : Nat) (s : State) : Res :=
  event <|
    match (s.slot k).st with
    | .resv => s.modSlot k fun x => { x with st := .run, due := s.cycle + 1 }
    | _ => s

/-- DRAIN_COMPLETE, R55, R63: a killed slot with nothing left to finish is FREE; one whose operation has no event of its own
goes on with it. A spilled slot waits for its record (R290). -/
def execDrainComplete (k : Nat) (s : State) : Res :=
  event <|
    match (s.slot k).st with
    | .drain false (.reply _) _ _ _ => (s.flushAll k).killDone k
    | .drain false (.kill _ _) _ _ _ => s.reply k none
    | .drain true (.kill n tids) _ _ _ => s.killOver k n tids
    | .drain _ (.save target _) _ _ _ => s.saveOver k target
    | .drain _ .matrix _ _ _ => if s.owns k then s else s.reply k none
    | .drain _ .flight _ _ _ => s.servePort k .other
    | _ => s

/-- QUIT_COMPLETE, R72. -/
def execQuitComplete (k : Nat) (s : State) : Res :=
  event <|
    match (s.slot k).wait with
    | some .quit => if s.mayEnd k then s.endThread k else s
    | _ => s

/-- R53, R99: what a slot waits for is there: a parked slot rejoins; one that drains has its operation over. -/
def State.resume (s : State) (k : Nat) : State := if (s.slot k).wait.isSome then s.rejoin k else s.reply k none

/-- WAIT_DEADLINE, R73. -/
def execWaitDeadline (k : Nat) (s : State) : Res :=
  event <|
    match (s.slot k).waits with
    | some (.wait d, _) =>
      if d ≤ s.cycle ∧ d < 2 ^ 64 then (s.modSlot k fun x => { x with late := none }).resume k else s
    | _ => s

/-! ## Threads that travel -/

/-- R154: the registers that a migration packet carries; regs are those that the bundle reads. That b1 to b7 go with it is
the model's choice: so R154 has it, where R80 has them read 0 at every arrival but a resume (DEDUCED, log entry 80). The buffer that a `rep` beside `migr` arms stays behind:
the model's choice, where R184 and R154 leave it open (log entry 113). -/
def Ctx.carried (c : Ctx) (regs : List GReg) : Ctx :=
  let keep (n : Nat) : Bool := bitAt c.cr.lmask n || regs.contains (BitVec.ofNat 5 n)
  { Ctx.zero with
    pc := c.pc
    g := Vector.ofFn fun (n : Fin 32) => if n.val ≠ 0 ∧ keep n.val then c.g[n] else 0
    b := c.b
    cr := c.cr
    rep := { RepBuf.empty with susp := c.inh } }

/-- R55, R154: a thread that is to migrate leaves in its packet, and its slot is FREE, once every earlier access is accepted. -/
def State.sendMigrant (s : State) (k : Nat) : State :=
  let x := s.slot k
  match x.waits with
  | some (.migrate core ea committed regs, _) =>
    if !x.out.isEmpty then s
    else
      let (id, t) := s.newId
      let c := if committed then { x.after.getD x.ctx with pc := x.npc } else x.ctx
      let p : Pkt :=
        { id := id, kind := .migrant k ea committed, sender := some (caCore k), tid := x.tid, ctx := c.carried regs, cls := x.cls, core := core, slot := none
          gang := false, landed := false, since := t.cycle, evict := [], pend := none, pure := x.pure }
      State.dropRecords (State.vacate { t with pkts := t.pkts ++ [p] } k) x.tid
  | _ => s

/-- MIGRATION_PACKET_SEND, R55, R154: the packet of a slot that was put in PARK for its earlier accesses leaves. -/
def execMigrationPacketSend (k : Nat) (s : State) : Res := event (s.sendMigrant k)

/-- A packet on its way. -/
def State.travelling (s : State) (id : Nat) : Option Pkt := s.pkts.find? fun p => p.id == id && !p.landed

/-- R164, R192: what the target finds wrong with a migrant: the owner or the offset of the memory that moved it. -/
def State.migrantTrap (s : State) (p : Pkt) (ea : W64) : Option Trap :=
  let l :=
    match bitsAt ea 63 60 with
    | 1 => s.tcmAt (caTile (bitsAt ea 38 32) (bitsAt ea 45 40)) p.ctx.ten ea
    | 2 => s.spadAt (bitsAt ea 36 32) (bitsAt ea 43 40) p.ctx.ten ea
    | _ => .at_ 0
  match l with
  | .trap t => some t
  | _ => none

/-- MIGRANT_LANDING, R191, R192: a migrant enters the landing buffer, or is sent back to trap at its origin; so does a
blocking spawn packet that waits for room. -/
def execMigrantLanding (id : Nat) (s : State) : Res :=
  event <|
    match s.travelling id with
    | none => s
    | some p =>
      if !s.inOrder p then s
      else
        match p.kind with
        | .migrant origin ea _ =>
          (match (if p.pend.isSome then none else s.migrantTrap p ea) with
           | some t =>
             let (n, u) := (s.dropPkt id).newId
             { u with pkts := u.pkts ++ [{ p with id := n, sender := some p.core, core := caCore origin, pend := some t }] }
           | none => s.land p)
        | .spawn _ _ true => s.arrive p true
        | .rupd _ _ => s.arrive p true
        | _ => s

/-- LANDING_ADMIT, R191. -/
def execLandingAdmit (core : Nat) (s : State) : Res := event (s.admitOne core)

/-- SPAWN_PACKET_ARRIVAL, R71, R257, R280. -/
def execSpawnPacketArrival (id : Nat) (s : State) : Res :=
  event <|
    match s.travelling id with
    | none => s
    | some p =>
      if !s.inOrder p then s
      else
        match p.kind with
        | .spawn _ _ blk => s.arrive p blk
        | .rupd _ _ => s.arrive p true
        | .task => s.land p
        | .migrant _ _ _ => s

/-! ## Spill and resume -/

/-- SPILL_TO_ADMIT, R193. -/
def execSpillToAdmit (core : Nat) (s : State) : Res :=
  event <|
    match s.landingVictim core with
    | some k => s.evictFor core k
    | none => s

/-- SPILL_FOR_CLASS, R289. -/
def execSpillForClass (k : Nat) (s : State) : Res := event (s.spillForTask k)

/-- SPILL_RECORD_WRITTEN, R290, R292, R294. -/
def execSpillRecordWritten (k fails : Nat) (s : State) : Res := event (s.recordWritten k fails)

/-- RESUME, R293. -/
def execResume (idx k : Nat) (s : State) : Res := event (s.resumeNext idx k)

/-- COMPLETION_DELIVERY, R340. -/
def execCompletionDelivery (k : Nat) (s : State) : Res := event (s.deliverRecord k)

end Sys2Proof.Machine
end

