-- ==== Sys2Proof/Machine/BoardEvents.lean ====
section
/-!
DEFINITION. What the board does to the memories: blocks that move (R242), the power states of layers (R243), the retirement of
taps and buses (R244), and of TCM and scratchpad banks (R149): one meaning for each of these events.
-/

namespace Sys2Proof.Machine

/-! ## Blocks -/

/-- The physical address of the first byte of a block. -/
def paOfBlock (tenant handle b : Nat) : Nat := paStack tenant (4 * 2 ^ 60 + handle * 2 ^ 40 + b * 4096)

/-- Write how a block stands. -/
def State.setBlk (s : State) (tenant handle b : Nat) (x : Blk) : State :=
  { s with blks := smSet Blk.placed s.blks (blkKey tenant handle b) x }

/-- R242: the blocks in motion on a stack. -/
def State.inMotion (s : State) (stack : Nat) : Nat :=
  (s.blks.filter fun e => match e.2.dest with | some d => caDie d == stack | none => false).length

/-- BLOCK_RELOCATION, R14, R240, R242: an order to move a block within its stack, to a bank group that has room. -/
def execBlockRelocation (tenant handle block dest : Nat) (s : State) : Res :=
  event <|
    let o := s.obj tenant handle
    let x := s.blk tenant handle block
    let home := s.blockHome tenant handle block
    if s.mgmt.stalled || !o.used || decide (o.blocks ≤ block) || x.lost || x.dest.isSome || !coreAddressOk (w64 dest) ||
        caKind dest != .bank || caSlot dest != 0 || decide (2 ^ 24 ≤ dest) || s.groupRoom s.placesTaken dest == 0 || caDie dest != caDie home ||
        dest == home || s.layer (caDie home) (caLayer home) == 3 || decide (64 ≤ s.inMotion (caDie home)) then s
    else s.setBlk tenant handle block { x with dest := some dest }

/-- RELOCATION_CUTOVER, R242: the new bank port becomes the arbiter. -/
def execRelocationCutover (tenant handle block : Nat) (s : State) : Res :=
  event <|
    let x := s.blk tenant handle block
    match x.dest with
    | some d => (s.setBlk tenant handle block { x with home := some d, dest := none }).repost
    | none => s

/-! ## Layers -/

/-- Set the state of a layer. -/
def State.setLayer (s : State) (stack l : Nat) (v : BitVec 2) : State := { s with layers := smSet 0 s.layers (stack * 8 + l) v }

/-- A block stands on a layer. -/
def onLayer (stack l bank : Nat) : Bool := caDie bank == stack && caLayer bank == l

/-- Moves that p names, by home and destination, are given up: the block stays where it is. -/
def State.stopMoves (s : State) (p : Nat → Nat → Bool) : State :=
  (s.blks.filter fun e => e.2.dest.isSome).foldl (fun t e =>
    let (th, b) := (e.1 / 2 ^ 28, e.1 % 2 ^ 28)
    let home := t.blockHome (th / 2 ^ 20) (th % 2 ^ 20) b
    match e.2.dest with
    | some d => if p home d then t.setBlk (th / 2 ^ 20) (th % 2 ^ 20) b { e.2 with dest := none } else t
    | none => t) s

/-- Wake whatever is parked in blocks that p names, with a trap of this cause. -/
def State.wakeBlocks (s : State) (p : Nat → Bool) (cause : BitVec 8) : State :=
  (s.queues.filter fun e => p e.1).foldl (fun t e => t.wakeQueue e.1 cause) (s.wakeWords p cause)

/-- LAYER_FAULT, R243, R348. -/
def execLayerFault (stack layer : Nat) (s : State) : Res :=
  event <|
    if 8 ≤ stack ∨ 8 ≤ layer then s
    else
      let t := s.wakeBlocks (fun pa => onLayer stack layer (s.bankOf pa)) 0x0A
      ((t.stopMoves fun h d => onLayer stack layer h || onLayer stack layer d).setLayer stack layer 3).shedStores.repost

/-- LAYER_WAKE, R243: a layer in IDLE serves the accesses held for it. -/
def execLayerWake (stack layer : Nat) (s : State) : Res :=
  event (if s.layer stack layer = 1 then (s.setLayer stack layer 0).repost else s)

/-- LAYER_RETURN_ACTIVE, R243: every word of its blocks is poisoned. -/
def execLayerReturnActive (stack layer : Nat) (s : State) : Res :=
  event <|
    if s.layer stack layer ≠ 3 then s
    else
      (s.liveBlocks.filter fun x => onLayer stack layer (s.blockHome x.1 x.2.1 x.2.2)).foldl (fun t x =>
        (List.range 512).foldl (fun t j => t.setBad (paOfBlock x.1 x.2.1 x.2.2 + 8 * j) true) t) (s.setLayer stack layer 0)

/-- PLANNED_POWER_DOWN, R243: a layer that every block has left is OFF. -/
def execPlannedPowerDown (stack layer : Nat) (s : State) : Res :=
  event <|
    let stays (x : Nat × Nat × Nat) : Bool :=
      onLayer stack layer (s.blockHome x.1 x.2.1 x.2.2) ||
        match (s.blk x.1 x.2.1 x.2.2).dest with | some d => onLayer stack layer d | none => false
    if 8 ≤ stack ∨ 8 ≤ layer ∨ 2 ≤ s.layer stack layer ∨ s.liveBlocks.any stays then s else s.setLayer stack layer 2

/-! ## Bank groups -/

/-- R240, R244: the bank groups of a stack that have room. -/
def State.stackGroups (s : State) (stack : Nat) : List Nat :=
  let taken := s.placesTaken
  ((List.range 1024).flatMap fun i => stationBanks (caOfIndex stack i)).filter fun g => s.groupRoom taken g != 0

/-- R244, R348: a block is lost, whatever is parked in it wakes, and the stores on their way to it are discarded. -/
def State.loseBlock (s : State) (x : Nat × Nat × Nat) : State :=
  let lo := paOfBlock x.1 x.2.1 x.2.2
  ((s.wakeBlocks (fun pa => decide (lo ≤ pa) && decide (pa < lo + 4096)) 0x14).setBlk x.1 x.2.1 x.2.2 ⟨none, true, none⟩).shedStores

/-- R244: take bank groups out of service. -/
def State.retire (s : State) (groups : List Nat) : State :=
  State.stopMoves { s with retired := groups.foldl (fun m g => smSet false m g true) s.retired } fun _ d => groups.contains d

/-- R244: the live blocks that stand in these bank groups. -/
def State.blocksIn (s : State) (groups : List Nat) : List (Nat × Nat × Nat) :=
  s.liveBlocks.filter fun x => groups.contains (s.blockHome x.1 x.2.1 x.2.2)

/-- R244: a block moves to a bank group of its stack that is in service and has room; else it is lost. That one on a layer in FAULT
moves too, with its contents as they stand, is the model's choice (log entry 116). -/
def State.rehome (stack : Nat) (s : State) (x : Nat × Nat × Nat) : State :=
  match s.choose (s.stackGroups stack) with
  | (none, t) => t.loseBlock x
  | (some g, t) => t.setBlk x.1 x.2.1 x.2.2 ⟨some g, false, none⟩

/-- R244: a planned retirement of bank groups of one stack. Which blocks find no room is a free value. -/
def State.retireMoving (s : State) (stack : Nat) (groups : List Nat) : State :=
  match s.blocksIn groups with
  | [] => s.retire groups
  | moving =>
    let (n, t) := (s.retire groups).takeFree
    (moving.rotateLeft (n % moving.length)).foldl (State.rehome stack) t

/-- The slots of bank cores that hold a thread. -/
def State.bankThreads (s : State) (groups : List Nat) : List Nat :=
  (s.liveSlots.filter fun e => groups.contains (caCore e.1)).map Prod.fst

/-- R372: firmware appends a field repair of a unit to the repair record. -/
def State.addRepair (s : State) (kind unit : Nat) : State :=
  { s with mgmt := { s.mgmt with repairs := s.mgmt.repairs ++ [(kind, unit)] } }

/-- R244, R372: the field repairs of bank groups that were still in service. -/
def State.addGroups (s t : State) (groups : List Nat) : State := (groups.filter s.inService).foldl (fun t g => t.addRepair 3 g) t

/-- TAP_RETIREMENT, R244, R290: taps of the station under a tile, or both and with them its bus, are retired as planned. A
thread of their bank cores that finds no record, or that a spill cannot take yet, waits: the row comes again for it. -/
def execTapRetirement (tile : Nat) (taps : BitVec 2) (s : State) : Res :=
  event <|
    let groups := ((List.range 16).filter fun n => bitAt taps (n % 2)).map (groupOf (caTileOf tile))
    let t := s.addGroups (s.retireMoving (caDie tile) groups) groups
    ((t.bankThreads groups).foldl State.engineSpill t).repost

/-- BUS_FAILURE, R244: the bank groups of a bus fail at once. -/
def execBusFailure (tile : Nat) (s : State) : Res :=
  event <|
    let groups := stationBanks (caTileOf tile)
    let t := s.addGroups ((s.blocksIn groups).foldl State.loseBlock (s.retire groups)) groups
    ((t.bankThreads groups).foldl (fun t k => if (t.slot k).st.live then t.faultSlot k ⟨0x14, 0⟩ else t) t).repost

/-! ## SRAM banks -/

/-- R149: a compute core holds a live thread of a tenant that p names. -/
def State.coreHolds (s : State) (core : Nat) (p : Nat → Bool) : Bool :=
  (s.liveSlots.any fun e => caCore e.1 == core && p e.2.ctx.ten) ||
    (s.spilled.any fun x => !x.soft && x.core == core && (x.fixed || !s.mobile x.tenant x.lnum) && p (x.tenant.toNat % 256)) ||
    s.pkts.any fun q => q.core == core && p q.ctx.ten

/-- R149: a row of a TCM bank, numbered 16 · core + bank, has failed: it is remapped to a spare row, or the bank is retired. -/
def State.failRow (s : State) (b : Nat) : State :=
  if smGet 0 s.spareRows b < 4 then { s with spareRows := smMod 0 s.spareRows b (· + 1) }
  else { s with tbankOut := smMod 0 s.tbankOut (b / 16) fun m => m ||| (1#16 <<< (b % 16)) }

/-- TCM_BANK_RETIREMENT, R149, R372: a further row of a bank has failed. A bank without a spare row is retired once its core
holds no thread of another tenant than 0. -/
def execTcmBankRetirement (core bank : Nat) (s : State) : Res :=
  event <|
    let c := caTileOf core
    let b := 16 * c + bank
    if 16 ≤ bank ∨ s.tcmOk c (0x2000 * bank) = false then s
    else if smGet 0 s.spareRows b < 4 then (s.failRow b).addRepair 0 b
    else if s.coreHolds c (· != 0) then s
    else (s.failRow b).addRepair 1 b

/-- The cores of a cluster, numbered 32 · row + column. -/
def clusterCores (q : Nat) : List Nat :=
  (List.range 16).map fun p => caTile (4 * (q % 32) + p % 4) (4 * (q / 32) + p / 4)

/-- R149: a bank of a cluster's scratchpad has failed: it is remapped to one of four spare banks, or the cluster runs in
32-bank mode. -/
def State.failSpad (s : State) (q : Nat) : State :=
  if smGet 0 s.spadFails q < 4 then { s with spadFails := smMod 0 s.spadFails q (· + 1) }
  else { s with spad32 := smSet false s.spad32 q true }

/-- SCRATCHPAD_BANK_RETIREMENT, R149, R372: a further bank of a cluster's scratchpad has failed. The fifth takes effect once
the cluster holds no thread of another tenant than 0. -/
def execScratchpadBankRetirement (cluster : Nat) (s : State) : Res :=
  event <|
    if 512 ≤ cluster ∨ smGet false s.spad32 cluster then s
    else if smGet 0 s.spadFails cluster < 4 then (s.failSpad cluster).addRepair 2 cluster
    else if (clusterCores cluster).any fun c => s.coreHolds c (· != 0) then s
    else (s.failSpad cluster).addRepair 2 cluster

end Sys2Proof.Machine
end

