-- ==== Sys2Proof/Machine/FpScalar.lean ====
section
/-!
DEFINITION. Scalar floating point (R82, R88 to R97).
-/

namespace Sys2Proof.Machine

/-- R36, R82: the format that P selects. -/
def ftyFmt : FTy → Fmt
  | .s => fmt32
  | .d => fmt64

/-- R82: a scalar operand: bits 31:0 in FP32. -/
def fpRead (f : FTy) (x : W64) : Nat :=
  match f with
  | .s => x.toNat % 2 ^ 32
  | .d => x.toNat

/-- R88: the rounding in force. -/
def State.rnd (s : State) : Rnd := rndOf s.rd.cr.rmode

/-- R82, R89: write a scalar result, zero-extended, and raise its flags. -/
def State.setF (s : State) (d : GReg) (r : Nat × FlagSet) : State := (s.setG d (w64 r.1)).raise r.2

/-- An A-half on one scalar operand: its pattern and its value. -/
def fp1 (gd : Guard) (d a : GReg) (f : FTy) (s : State) (op : Fmt → Rnd → Nat → Nat × FlagSet) : Res :=
  half gd s fun s => s.setF d (op (ftyFmt f) s.rnd (fpRead f (s.g a)))

/-- An A-half on two scalar operands. -/
def fp2 (gd : Guard) (d a b : GReg) (f : FTy) (s : State) (op : Fmt → Rnd → Nat → Nat → Nat × FlagSet) : Res :=
  half gd s fun s => s.setF d (op (ftyFmt f) s.rnd (fpRead f (s.g a)) (fpRead f (s.g b)))

/-- R92: an A-half whose destination is the addend. -/
def fp3 (gd : Guard) (d a b : GReg) (f : FTy) (s : State) (op : Fmt → Rnd → FVal → FVal → FVal → Nat × FlagSet) : Res :=
  half gd s fun s =>
    let m := ftyFmt f
    let v (r : GReg) : FVal := m.value (fpRead f (s.g r))
    s.setF d (op m s.rnd (v a) (v b) (v d))

/-- FADD, R91. -/
def execFadd (gd : Guard) (d a b : GReg) (f : FTy) (s : State) : Res :=
  fp2 gd d a b f s fun m r x y => m.sum r (m.value x) (m.value y)

/-- FSUB, R91. -/
def execFsub (gd : Guard) (d a b : GReg) (f : FTy) (s : State) : Res :=
  fp2 gd d a b f s fun m r x y => m.sum r (m.value x) (m.value y).negate

/-- FMUL, R91. -/
def execFmul (gd : Guard) (d a b : GReg) (f : FTy) (s : State) : Res :=
  fp2 gd d a b f s fun m r x y => m.product r (m.value x) (m.value y)

/-- FDIV, R91. -/
def execFdiv (gd : Guard) (d a b : GReg) (f : FTy) (s : State) : Res :=
  fp2 gd d a b f s fun m r x y => m.quotient r (m.value x) (m.value y)

/-- FSQRT, R91. -/
def execFsqrt (gd : Guard) (d a : GReg) (f : FTy) (s : State) : Res :=
  fp1 gd d a f s fun m r x => m.root r (m.value x)

/-- FMIN, R93. -/
def execFmin (gd : Guard) (d a b : GReg) (f : FTy) (s : State) : Res := fp2 gd d a b f s fun m _ x y => m.least x y

/-- FMAX, R93. -/
def execFmax (gd : Guard) (d a b : GReg) (f : FTy) (s : State) : Res := fp2 gd d a b f s fun m _ x y => m.greatest x y

/-- FABS, R94. -/
def execFabs (gd : Guard) (d a : GReg) (f : FTy) (s : State) : Res := fp1 gd d a f s fun m _ x => (m.absBits x, 0)

/-- FNEG, R94. -/
def execFneg (gd : Guard) (d a : GReg) (f : FTy) (s : State) : Res := fp1 gd d a f s fun m _ x => (m.negBits x, 0)

/-- FSGNJ, R94. -/
def execFsgnj (gd : Guard) (d a b : GReg) (f : FTy) (s : State) : Res :=
  fp2 gd d a b f s fun m _ x y => (x % m.signBit + y / m.signBit % 2 * m.signBit, 0)

/-- FCLASS, R95. -/
def execFclass (gd : Guard) (d a : GReg) (f : FTy) (s : State) : Res := fp1 gd d a f s fun m _ x => (m.classOf x, 0)

/-- FCVT, R97: P = 0 converts FP64 to FP32, P = 1 converts FP32 to FP64. -/
def execFcvt (gd : Guard) (d a : GReg) (f : FTy) (s : State) : Res :=
  half gd s fun s =>
    let src : FTy := match f with | .s => .d | .d => .s
    s.setF d ((ftyFmt f).convert s.rnd ((ftyFmt src).value (fpRead src (s.g a))))

/-- FCVTI, R97. -/
def execFcvti (gd : Guard) (d a : GReg) (tr u : Bool) (f : FTy) (s : State) : Res :=
  fp1 gd d a f s fun m r x => (m.value x).toInt (if tr then .rtz else r) 64 u

/-- ICVTF, R97. -/
def execIcvtf (gd : Guard) (d a : GReg) (u : Bool) (f : FTy) (s : State) : Res :=
  half gd s fun s => s.setF d ((ftyFmt f).ofInt s.rnd (if u then ((s.g a).toNat : Int) else (s.g a).toInt))

/-- FMA, R91, R92. -/
def execFma (gd : Guard) (d a b : GReg) (f : FTy) (s : State) : Res :=
  fp3 gd d a b f s fun m r x y z => m.fused r x y z false

/-- FMS, R91, R92. -/
def execFms (gd : Guard) (d a b : GReg) (f : FTy) (s : State) : Res :=
  fp3 gd d a b f s fun m r x y z => m.fused r x y z.negate false

/-- FNMA, R91, R92. -/
def execFnma (gd : Guard) (d a b : GReg) (f : FTy) (s : State) : Res :=
  fp3 gd d a b f s fun m r x y z => m.fused r x y z true

/-- R96: a condition of `fcmp`. -/
def fcmpHolds (c : FCond) (x y : FVal) : Bool × FlagSet :=
  match c with
  | .eq => fpEq x y
  | .lt => fpLt x y
  | .le => fpLe x y
  | .un => fpUn x y

/-- FCMP, R96. -/
def execFcmp (gd : Guard) (d : PReg) (a b : GReg) (f : FTy) (c : FCond) (s : State) : Res :=
  half gd s fun s =>
    let m := ftyFmt f
    let r := fcmpHolds c (m.value (fpRead f (s.g a))) (m.value (fpRead f (s.g b)))
    (s.setB d r.1).raise r.2

end Sys2Proof.Machine
end

