-- ==== Sys2Proof/Machine/IntAlu.lean ====
section
/-!
DEFINITION. Integer arithmetic on registers (R83, R84) and `anop` (R119).
-/

namespace Sys2Proof.Machine

/-- An A-half that writes one general register with a function of two. -/
def binG (gd : Guard) (d a b : GReg) (s : State) (op : W64 → W64 → W64) : Res :=
  half gd s fun s => s.setG d (op (s.g a) (s.g b))

/-- An A-half that writes one general register with a function of another. -/
def unG (gd : Guard) (d a : GReg) (s : State) (op : W64 → W64) : Res :=
  half gd s fun s => s.setG d (op (s.g a))

/-- R83: a shift amount: the low six bits. -/
def shamt (b : W64) : Nat := b.toNat % 64

/-- R84: the quotient and the remainder of signed division. -/
def quoS (n q : Int) : Int := if q = 0 then 0 else if n = -(2 ^ 63 : Nat) ∧ q = -1 then n else n.tdiv q
def remS (n q : Int) : Int := if q = 0 then n else if n = -(2 ^ 63 : Nat) ∧ q = -1 then 0 else n - n.tdiv q * q
/-- R84: the quotient and the remainder of unsigned division. -/
def quoU (n q : Nat) : Nat := if q = 0 then 0 else n / q
def remU (n q : Nat) : Nat := if q = 0 then n else n % q

/-- R83: the zero bits above the highest 1. -/
def clzW (a : W64) : Nat := if a = 0 then 64 else 63 - a.toNat.log2
/-- R83: the zero bits below the lowest 1. -/
def ctzW (a : W64) : Nat := ((List.range 64).find? fun n => bitAt a n).getD 64
/-- R83: the 1 bits. -/
def popW (a : W64) : Nat := ((List.range 64).filter fun n => bitAt a n).length
/-- R83: bit n moved to bit 63 - n. -/
def brevW (a : W64) : W64 := (List.range 64).foldl (fun r n => setBit r (63 - n) (bitAt a n)) 0

/-- ANOP, R119. -/
def execAnop (gd : Guard) (s : State) : Res := half gd s fun s => s

/-- ADD, R83. -/
def execAdd (gd : Guard) (d a b : GReg) (s : State) : Res := binG gd d a b s fun x y => x + y

/-- SUB, R83. -/
def execSub (gd : Guard) (d a b : GReg) (s : State) : Res := binG gd d a b s fun x y => x - y

/-- AND, R83. -/
def execAnd (gd : Guard) (d a b : GReg) (s : State) : Res := binG gd d a b s fun x y => x &&& y

/-- OR, R83. -/
def execOr (gd : Guard) (d a b : GReg) (s : State) : Res := binG gd d a b s fun x y => x ||| y

/-- XOR, R83. -/
def execXor (gd : Guard) (d a b : GReg) (s : State) : Res := binG gd d a b s fun x y => x ^^^ y

/-- SLL, R83. -/
def execSll (gd : Guard) (d a b : GReg) (s : State) : Res := binG gd d a b s fun x y => x <<< shamt y

/-- SRL, R83. -/
def execSrl (gd : Guard) (d a b : GReg) (s : State) : Res := binG gd d a b s fun x y => x >>> shamt y

/-- SRA, R83. -/
def execSra (gd : Guard) (d a b : GReg) (s : State) : Res := binG gd d a b s fun x y => x.sshiftRight (shamt y)

/-- MUL, R83. -/
def execMul (gd : Guard) (d a b : GReg) (s : State) : Res := binG gd d a b s fun x y => x * y

/-- MULH, R83. -/
def execMulh (gd : Guard) (d a b : GReg) (s : State) : Res := binG gd d a b s fun x y => wrap64 (x.toInt * y.toInt / (2 ^ 64 : Nat))

/-- MULHU, R83. -/
def execMulhu (gd : Guard) (d a b : GReg) (s : State) : Res := binG gd d a b s fun x y => w64 (x.toNat * y.toNat / 2 ^ 64)

/-- DIV, R84. -/
def execDiv (gd : Guard) (d a b : GReg) (s : State) : Res := binG gd d a b s fun x y => wrap64 (quoS x.toInt y.toInt)

/-- DIVU, R84. -/
def execDivu (gd : Guard) (d a b : GReg) (s : State) : Res := binG gd d a b s fun x y => w64 (quoU x.toNat y.toNat)

/-- REM, R84. -/
def execRem (gd : Guard) (d a b : GReg) (s : State) : Res := binG gd d a b s fun x y => wrap64 (remS x.toInt y.toInt)

/-- REMU, R84. -/
def execRemu (gd : Guard) (d a b : GReg) (s : State) : Res := binG gd d a b s fun x y => w64 (remU x.toNat y.toNat)

/-- MIN, R83. -/
def execMin (gd : Guard) (d a b : GReg) (s : State) : Res := binG gd d a b s fun x y => if x.slt y then x else y

/-- MINU, R83. -/
def execMinu (gd : Guard) (d a b : GReg) (s : State) : Res := binG gd d a b s fun x y => if x.ult y then x else y

/-- MAX, R83. -/
def execMax (gd : Guard) (d a b : GReg) (s : State) : Res := binG gd d a b s fun x y => if x.slt y then y else x

/-- MAXU, R83. -/
def execMaxu (gd : Guard) (d a b : GReg) (s : State) : Res := binG gd d a b s fun x y => if x.ult y then y else x

/-- CLZ, R83. -/
def execClz (gd : Guard) (d a : GReg) (s : State) : Res := unG gd d a s fun x => w64 (clzW x)

/-- CTZ, R83. -/
def execCtz (gd : Guard) (d a : GReg) (s : State) : Res := unG gd d a s fun x => w64 (ctzW x)

/-- POPC, R83. -/
def execPopc (gd : Guard) (d a : GReg) (s : State) : Res := unG gd d a s fun x => w64 (popW x)

/-- BREV, R83. -/
def execBrev (gd : Guard) (d a : GReg) (s : State) : Res := unG gd d a s fun x => brevW x

end Sys2Proof.Machine
end

