-- ==== Sys2Proof/Machine/ImmAlu.lean ====
section
/-!
DEFINITION. Integer arithmetic with immediates (R85).
-/

namespace Sys2Proof.Machine

/-- R85: the 16-bit chunk q of a word replaced. -/
def setChunk (x : W64) (q : Nat) (c : BitVec 16) : W64 :=
  (x &&& ~~~(0xFFFF#64 <<< (16 * q))) ||| (zext c <<< (16 * q))

/-- ADDI, R85. -/
def execAddi (gd : Guard) (d a : GReg) (i : BitVec 12) (s : State) : Res := unG gd d a s fun x => x + sext i

/-- ANDI, R85. -/
def execAndi (gd : Guard) (d a : GReg) (i : BitVec 12) (s : State) : Res := unG gd d a s fun x => x &&& sext i

/-- ORI, R85. -/
def execOri (gd : Guard) (d a : GReg) (i : BitVec 12) (s : State) : Res := unG gd d a s fun x => x ||| sext i

/-- XORI, R85. -/
def execXori (gd : Guard) (d a : GReg) (i : BitVec 12) (s : State) : Res := unG gd d a s fun x => x ^^^ sext i

/-- SLLI, R85. -/
def execSlli (gd : Guard) (d a : GReg) (sh : BitVec 6) (s : State) : Res := unG gd d a s fun x => x <<< sh.toNat

/-- SRLI, R85. -/
def execSrli (gd : Guard) (d a : GReg) (sh : BitVec 6) (s : State) : Res := unG gd d a s fun x => x >>> sh.toNat

/-- SRAI, R85. -/
def execSrai (gd : Guard) (d a : GReg) (sh : BitVec 6) (s : State) : Res := unG gd d a s fun x => x.sshiftRight sh.toNat

/-- EXT, R85: the width - 1 is wm1. -/
def execExt (gd : Guard) (d a : GReg) (pos wm1 : BitVec 6) (s : State) : Res :=
  unG gd d a s fun x => w64 (bitsAt x (pos.toNat + wm1.toNat) pos.toNat)

/-- LI, R85. -/
def execLi (gd : Guard) (d : GReg) (i : BitVec 17) (s : State) : Res := half gd s fun s => s.setG d (sext i)

/-- LUI_CHUNK1, R85. -/
def execLui1 (gd : Guard) (d : GReg) (c : BitVec 16) (s : State) : Res := unG gd d d s fun x => setChunk x 1 c

/-- LUI_CHUNK2, R85. -/
def execLui2 (gd : Guard) (d : GReg) (c : BitVec 16) (s : State) : Res := unG gd d d s fun x => setChunk x 2 c

/-- LUI_CHUNK3, R85. -/
def execLui3 (gd : Guard) (d : GReg) (c : BitVec 16) (s : State) : Res := unG gd d d s fun x => setChunk x 3 c

end Sys2Proof.Machine
end

