-- ==== Sys2Proof/Machine/LaunchEvents.lean ====
section
/-!
DEFINITION. Writes of the host and what becomes of them: the launch window (R279, R366), the command slots (R375), the launch
path (R280), dispatch (R283), retry (R62), and the end of a launch (R286): one meaning for each of these events.
-/

namespace Sys2Proof.Machine

/-! ## Functions of the host link -/

/-- Change a function of the host link. -/
def State.modFn (s : State) (n : Nat) (f : HostFn → HostFn) : State := { s with fns := smMod HostFn.reset s.fns n f }

/-- R369: the tenant is valid. -/
def State.tenantValid (s : State) (tenant : Nat) : Bool := bitAt (s.tt tenant 0) 0

/-- R364: a write to a function reaches it: a tenant under IDE is served through its stream only. -/
def State.streamOk (s : State) (fn : Nat) (stream : Bool) : Bool := !bitAt (s.tt fn 0) 1 || (stream && (s.fn fn).ide)

/-- R372: the function is there: function 0 alone in recovery mode. -/
def State.present (s : State) (fn : Nat) : Bool := decide (fn < 256) && (s.mgmt.ready || (fn == 0 && s.mgmt.recov))

/-- One more dropped write (R366). -/
def HostFn.countDrop (x : HostFn) : HostFn := { x with drop := if x.drop.toNat = 2 ^ 32 - 1 then x.drop else x.drop + 1 }

/-- R366, R375: where the command slot of a function begins. -/
def cmdBase (fn : Nat) : Nat := if fn = 0 then 0x100 else 0x1100

/-- R366, R375: a dword of a function that the host writes. -/
inductive HostReg where
  | record (slot dword : Nat)
  | drop
  | command (dword : Nat)
  | none
  deriving DecidableEq, Repr

/-- R366, R375: the dword at an offset of BAR0. -/
def hostReg (fn off : Nat) : HostReg :=
  if cmdBase fn ≤ off ∧ off < cmdBase fn + 0x80 then .command ((off - cmdBase fn) / 8)
  else if fn = 0 then .none
  else if off < 0x1000 then .record (off / 0x80) (off % 0x80 / 8)
  else if off = 0x1048 then .drop
  else .none

/-- R279, R366, R375: a write finds its slot taken, or its command running. -/
def HostFn.shut (x : HostFn) (fn off : Nat) : Bool :=
  match hostReg fn off with
  | .record k _ => bitAt x.taken k
  | .command _ => x.busy
  | _ => false

/-- R366, R375: the host writes one dword. -/
def HostFn.put (x : HostFn) (fn off : Nat) (v : W64) : HostFn :=
  if x.shut fn off then x
  else
    match hostReg fn off with
    | .record k j => { x with recs := smSet 0 x.recs (16 * k + j) v, wbits := smMod 0 x.wbits k fun b => b ||| (1#16 <<< j) }
    | .drop => { x with drop := v.truncate 32 }
    | .command j => { x with cmd := smSet 0 x.cmd j v, marks := x.marks ||| (1#16 <<< j) }
    | .none => x

/-- The dwords of a write with their offsets. -/
def writeParts (off : Nat) (data : List W64) : List (Nat × W64) :=
  (List.range data.length).map fun j => (off + 8 * j, data[j]?.getD 0)

/-! ## The launch path (R279) -/

/-- R279: the oldest record that was taken is pushed: both of its entries are stored, or neither. It waits while memory holds
the home, or has lost it (R242 to R244). -/
def State.storePush (s : State) (fn : Nat) : State :=
  let x := s.fn fn
  match x.pushes with
  | [] => s
  | (k, l) :: rest =>
    match s.liveQueue fn (s.tt fn 1) with
    | none => s
    | some pa =>
      if s.isHeld pa || s.runGone pa 64 then s
      else
        match (s.homePush pa (entryOf (l.take 8))).bind fun t => t.homePush pa (entryOf (l.drop 8)) with
        | none => s
        | some u =>
          u.modFn fn fun x => { x with pushes := rest, taken := x.taken &&& ~~~(1#32 <<< k), pushed := x.pushed + 1 }

/-- R279, R370: a complete record is taken: its written bits are clear, and it is pushed, unless its tenant is not valid. -/
def State.takeRecord (s : State) (fn k : Nat) : State :=
  let x := s.fn fn
  if smGet 0 x.wbits k ≠ 0xFFFF#16 then s
  else
    let l := (List.range 16).map fun j => smGet 0 x.recs (16 * k + j)
    let t := s.modFn fn fun x => { x with wbits := smSet 0 x.wbits k 0 }
    if !s.tenantValid fn then t
    else (t.modFn fn fun x => { x with taken := x.taken ||| (1#32 <<< k), pushes := x.pushes ++ [(k, l)] }).storePush fn

/-! ## Commands (R375) -/

/-- A dword of the command slot. -/
def HostFn.cmdAt (x : HostFn) (j : Nat) : Nat := (smGet 0 x.cmd j).toNat

/-- R375: answer the command of a function. -/
def State.answerCmd (s : State) (fn status olen : Nat) : State :=
  s.modFn fn fun x => { x with busy := false, status := w64 status, olen := w64 olen, seq := smGet 0 x.cmd 1 }

/-- R375: n bytes of host memory at an address that commands may name. -/
def hostRangeOk (a n : Nat) : Bool := a % 64 == 0 && decide (a + n ≤ 2 ^ 52)

/-- R375: the lengths and the addresses of a command are in range. -/
def HostFn.rangesOk (x : HostFn) : Bool :=
  let (src, slen, dst, dlen) := (x.cmdAt 2, x.cmdAt 3, x.cmdAt 4, x.cmdAt 5)
  hostRangeOk src slen &&
    match x.cmdAt 0 with
    | 1 => decide (1 ≤ slen ∧ slen ≤ 2 ^ 20 ∧ slen + 28 ≤ dlen ∧ dst ≠ 0) && hostRangeOk dst (slen + 28)
    | 2 => decide (29 ≤ slen ∧ slen ≤ 2 ^ 20 + 28 ∧ slen - 28 ≤ dlen ∧ dst ≠ 0) && hostRangeOk dst (slen - 28)
    | _ => hostRangeOk dst 0

/-- R364, R372, R375: why a command is refused. -/
def State.cmdRefused (s : State) (fn : Nat) : Option Nat :=
  let x := s.fn fn
  let op := x.cmdAt 0
  if s.mgmt.recov && op != 0x10 then some 6
  else if (op != 1 && op != 2 && op != 0x10) || (List.range 10).any fun j => x.cmdAt (6 + j) != 0 then some 1
  else if (op == 0x10) != (fn == 0) then some 6
  else if op != 0x10 && bitAt (s.tt fn 0) 1 && !x.ide then some 6
  else if !x.rangesOk then some 2
  else none

/-- R375: a complete command is taken, and its written marks are clear. -/
def State.takeCommand (s : State) (fn : Nat) : State :=
  if (s.fn fn).marks ≠ 0xFFFF#16 then s
  else
    let t := s.modFn fn fun x => { x with marks := 0, busy := true }
    match t.cmdRefused fn with
    | some code => t.answerCmd fn code 0
    | none => t

/-! ## Writes of the host -/

/-- R366, R375: the host writes dwords from an offset on (whole), or less than a dword. -/
def State.hostWrite (s : State) (fn off : Nat) (data : List W64) (whole stream : Bool) : State :=
  if !s.present fn || !s.streamOk fn stream then s
  else if !whole || off % 8 != 0 then s.modFn fn fun x => if fn = 0 then x else x.countDrop
  else
    let l := writeParts off data
    let t := s.modFn fn fun x =>
      let y := l.foldl (fun y p => y.put fn p.1 p.2) x
      if fn != 0 && l.any fun p => x.shut fn p.1 then y.countDrop else y
    ((List.range 32).foldl (fun t k => t.takeRecord fn k) t).takeCommand fn

/-! ## Reads of the host -/

/-- Bytes as a dword, the first the least significant. -/
def packBytes (f : Nat → Byte) : W64 := w64 (leNat ((List.range 8).map f))

/-- R374: devstat. -/
def Mgmt.devstat (m : Mgmt) : W64 :=
  w64 (m.stage % 8) ||| (ofBool m.recov <<< 3) ||| (ofBool m.rrbad <<< 4) ||| (ofBool m.ready <<< 5)

/-- R374: the dword at an offset of the telemetry of function 0, from 0x1000 on. -/
def Mgmt.telemetry (m : Mgmt) (off : Nat) : W64 :=
  let st := off / 0x200
  let r := off % 0x200
  if r < 0x90 then packBytes fun j => smGet 0 m.temp (off + j)
  else if 0x100 ≤ r ∧ r < 0x190 then packBytes fun j => smGet 0 m.valve (off - 0x100 + j)
  else if r = 0x1A0 then zext (smGet 0 m.thr st)
  else if r = 0x1A8 then zext (smGet 0 m.pwr st)
  else 0

/-- R375: the dword at an offset of the response area. -/
def HostFn.response (x : HostFn) (off : Nat) : W64 :=
  match off with
  | 0 => x.status
  | 8 => x.seq
  | 16 => x.olen
  | _ => 0

/-- R366: the dword at an offset of the registers of a virtual function, from 0x1000 on. -/
def HostFn.window (x : HostFn) (off : Nat) : W64 :=
  if off < 0x40 then w64 ((List.range 4).foldl (fun n j => n + (smGet 0 x.wbits (off / 2 + j)).toNat * 2 ^ (16 * j)) 0)
  else if off = 0x40 then zext x.taken
  else if off = 0x48 then zext x.drop
  else if off = 0x50 then zext x.pushed
  else 0

/-- R366, R372, R374, R375: what the host reads in the dword at an 8-byte aligned offset of BAR0: nothing where the function
is absent, the read comes outside the stream of a tenant under IDE, or the link is down (R373); in recovery mode function 0 has its
status and, for the one command that it accepts, its response area. The slots read as zero. -/
def State.hostRead (s : State) (fn off : Nat) (stream : Bool) : Option W64 :=
  if s.stopped then none
  else if fn = 0 ∧ off = 0 ∧ s.streamOk 0 stream then some s.mgmt.devstat
  else if !s.present fn || !s.streamOk fn stream then none
  else
    let base := cmdBase fn + 0x80
    if base ≤ off ∧ off < base + 0x40 then some ((s.fn fn).response (off - base))
    else if s.mgmt.ready = false then none
    else if off < 0x1000 ∨ 0x2000 ≤ off then some 0
    else if fn = 0 then some (s.mgmt.telemetry (off - 0x1000))
    else some ((s.fn fn).window (off - 0x1000))

/-- LAUNCH_WINDOW_WRITE, R279, R366. -/
def execLaunchWindowWrite (fn off : Nat) (data : List W64) (whole stream : Bool) (s : State) : Res :=
  event (if fn = 0 then s else s.hostWrite fn off data whole stream)

/-- HOST_REGISTER_WRITE, R366, R375. -/
def execHostRegisterWrite (fn off : Nat) (data : List W64) (whole stream : Bool) (s : State) : Res :=
  event (s.hostWrite fn off data whole stream)

/-- LAUNCH_PUSH_STORED, R279. -/
def execLaunchPushStored (fn : Nat) (s : State) : Res := event (s.storePush fn)

/-! ## Launches and tasks -/

/-- LAUNCH_POP, R278, R280. -/
def execLaunchPop (die tenant : Nat) (s : State) : Res := event (s.popLaunch die tenant)

/-- LAUNCH_HEADER_ARRIVAL, R280. -/
def execLaunchHeaderArrival (die idx : Nat) (s : State) : Res := event (s.headerArrives die idx)

/-- TASK_DISPATCH, R280, R283, R285. -/
def execTaskDispatch (die task core : Nat) (s : State) : Res := event (s.dispatchTask die task core)

/-- CONTAINMENT_RETRY, R62, R298. -/
def execContainmentRetry (idx : Nat) (s : State) : Res := event (s.retryUnit idx)

/-- DISPATCH_COUNT_REPORT, R286, R367. -/
def execDispatchCountReport (die idx : Nat) (s : State) : Res := event (s.completeLaunch die idx)

end Sys2Proof.Machine
end

