-- ==== Sys2Proof/Machine/Gcm.lean ====
section
/-!
DEFINITION. HKDF with SHA-512 and AES-256-GCM (R371, R375), as the standards of those names define them: the rules name them
and state no more than their inputs (log entry 61).
-/

namespace Sys2Proof.Gcm

/-! ## HKDF -/

/-- Byte by byte exclusive or. -/
def xorBytes (a b : List Byte) : List Byte := List.zipWith (· ^^^ ·) a b

/-- HMAC-SHA-512. -/
def hmac (key msg : List Byte) : List Byte :=
  let k := if key.length ≤ 128 then key else Sha512.digest key
  let block := k ++ List.replicate (128 - k.length) 0
  let under (c : Byte) : List Byte := block.map (· ^^^ c)
  Sha512.digest (under 0x5C ++ Sha512.digest (under 0x36 ++ msg))

/-- HKDF-SHA-512: 32 bytes from a secret, a salt and a context. One block of the expansion is 64 bytes. -/
def hkdf (secret salt info : List Byte) : List Byte := (hmac (hmac salt secret) (info ++ [1])).take 32

/-! ## AES-256 -/

/-- The double of an element of GF(2^8). -/
def twice (a : Byte) : Byte := (a <<< 1) ^^^ (if a.getLsbD 7 then 0x1B else 0)

/-- The product in GF(2^8). -/
def mul8 (a b : Byte) : Byte :=
  ((List.range 8).foldl (fun (p : Byte × Byte) n => (if b.getLsbD n then p.1 ^^^ p.2 else p.1, twice p.2)) (0, a)).1

/-- The inverse in GF(2^8), as the power 254; that of 0 is 0. -/
def inv8 (a : Byte) : Byte :=
  ((List.range 7).foldl (fun (p : Byte × Byte) _ => let q := mul8 p.2 p.2; (mul8 p.1 q, q)) (1, a)).1

/-- The substitution of a byte. -/
def sub (a : Byte) : Byte :=
  let b := inv8 a
  b ^^^ b.rotateLeft 1 ^^^ b.rotateLeft 2 ^^^ b.rotateLeft 3 ^^^ b.rotateLeft 4 ^^^ 0x63

/-- A byte of a list. -/
def at_ (l : List Byte) (n : Nat) : Byte := l[n]?.getD 0

/-- The four bytes of word n of a key schedule. -/
def wordAt (w : List Byte) (n : Nat) : List Byte := (w.drop (4 * n)).take 4

/-- One more word of the key schedule w, of which there are n. -/
def nextKey (w : List Byte) (n : Nat) : List Byte :=
  let last := wordAt w (n - 1)
  let t :=
    if n % 8 = 0 then xorBytes ((last.rotateLeft 1).map sub) [BitVec.ofNat 8 (2 ^ (n / 8 - 1)), 0, 0, 0]
    else if n % 8 = 4 then last.map sub
    else last
  w ++ xorBytes (wordAt w (n - 8)) t

/-- The round keys of a key of 32 bytes, 16 bytes each. -/
def schedule (key : List Byte) : List Byte := (List.range 52).foldl (fun w n => nextKey w (n + 8)) key

/-- Rows of the state, which stands column by column, rotate. -/
def shiftRows (s : List Byte) : List Byte := (List.range 16).map fun n => at_ s (n % 4 + 4 * ((n / 4 + n % 4) % 4))

/-- Columns of the state are mixed. -/
def mixColumns (s : List Byte) : List Byte :=
  (List.range 16).map fun n =>
    let x (j : Nat) : Byte := at_ s (n / 4 * 4 + (n + j) % 4)
    twice (x 0) ^^^ twice (x 1) ^^^ x 1 ^^^ x 2 ^^^ x 3

/-- The cipher on one block of 16 bytes, with its round keys. -/
def encrypt (w s : List Byte) : List Byte :=
  let rk (n : Nat) : List Byte := (w.drop (16 * n)).take 16
  let mid := (List.range 13).foldl (fun s n => xorBytes (mixColumns (shiftRows (s.map sub))) (rk (n + 1))) (xorBytes s (rk 0))
  xorBytes (shiftRows (mid.map sub)) (rk 14)

/-! ## GCM -/

/-- The product in GF(2^128), whose first bit is the most significant. -/
def mul128 (x y : BitVec 128) : BitVec 128 :=
  let half (v : BitVec 128) : BitVec 128 := (v >>> 1) ^^^ (if v.getLsbD 0 then 0xE1#128 <<< 120 else 0)
  ((List.range 128).foldl (fun (p : BitVec 128 × BitVec 128) n => (if x.getMsbD n then p.1 ^^^ p.2 else p.1, half p.2)) (0, y)).1

/-- Bytes filled up with zeros to whole blocks. -/
def fill (l : List Byte) : List Byte := l ++ List.replicate ((16 - l.length % 16) % 16) 0

/-- The hash of whole blocks under h. -/
def ghash (h : BitVec 128) (l : List Byte) : BitVec 128 :=
  (List.range (l.length / 16)).foldl (fun y n => mul128 (y ^^^ BitVec.ofNat 128 (Sha512.beNat ((l.drop (16 * n)).take 16))) h) 0

/-- The counter block n of a nonce of 12 bytes. -/
def counter (nonce : List Byte) (n : Nat) : List Byte := nonce ++ Sha512.beBytes 4 n

/-- Encrypt or decrypt bytes. -/
def crypt (key nonce text : List Byte) : List Byte :=
  let w := schedule key
  (List.range ((text.length + 15) / 16)).flatMap fun n => xorBytes ((text.drop (16 * n)).take 16) (encrypt w (counter nonce (n + 2)))

/-- The tag of a ciphertext with additional data. -/
def tag (key nonce extra cipher : List Byte) : List Byte :=
  let w := schedule key
  let h := BitVec.ofNat 128 (Sha512.beNat (encrypt w (List.replicate 16 0)))
  let lens := Sha512.beBytes 8 (8 * extra.length) ++ Sha512.beBytes 8 (8 * cipher.length)
  xorBytes (Sha512.beBytes 16 (ghash h (fill extra ++ fill cipher ++ lens)).toNat) (encrypt w (counter nonce 1))

end Sys2Proof.Gcm
end

