-- ==== Sys2Proof/Machine/ManageEvents.lean ====
section
/-!
DEFINITION. The management plane: throttling and cooling (R373), boot (R372), tenants and the owners of memory (R143, R369,
R370), peers (R368), attestation and sealing (R371, R375): one meaning for each of these events, and the accesses of peers.
-/

namespace Sys2Proof.Machine

/-- Change the management plane. -/
def State.modMgmt (s : State) (f : Mgmt → Mgmt) : State := { s with mgmt := f s.mgmt }

/-! ## Reset and boot -/

/-- Bytes that are no part of the device: host and peer memory. -/
def paOutside (pa : Nat) : Bool := (decide (8 * 2 ^ 60 ≤ pa) && decide (pa < 2 ^ 64)) || decide (2 ^ 73 ≤ pa)

/-- The device has lost its state: what stays is host and peer memory, boot flash with its certificate chain, and the model's
own counters. -/
def State.cleared (s : State) : State :=
  { State.reset with
    mem := s.mem.filter fun e => paOutside e.1
    bad := s.bad.filter fun e => paOutside e.1
    peers := s.peers
    mgmt := { Mgmt.reset with
      nonces := s.mgmt.nonces, flash := s.mgmt.flash, chain := s.mgmt.chain, repair := s.mgmt.repair, repairs := s.mgmt.repairs, image := s.mgmt.image, atomics := s.mgmt.atomics }
    agenda := s.agenda
    free := s.free
    nextTid := s.nextTid
    stamp := s.stamp }

/-- Write a value into each of these keys. -/
def smFill {α : Type} [DecidableEq α] (d : α) (m : SMap α) (keys : List Nat) (v : α) : SMap α :=
  keys.foldl (fun m k => smSet d m k v) m

/-- R215: firmware writes the capability key of a core; which key is a free value. -/
def State.newKey (s : State) (core : Nat) : State :=
  let (n, t) := s.takeFree
  { t with mcapk := smSet 0 t.mcapk core (w64 n) }

/-- The compute cores of the package. -/
def allCores : List Nat := (List.range 8).flatMap fun d => (List.range 1024).map (caOfIndex d)

/-- R372 step 2: the image stands whole in the TCM of a Cobbler at a place that is a free value, and is released: slot 0 runs
it, as firmware does, for tenant 0 with `priv`. It belongs to no launch: its `lnum` is the one that tenant 0's launches come
to last (R286, R379; log entry 56). -/
def State.loadImage (s : State) (die : Nat) : State :=
  let (n, t) := s.takeFree
  let off := n % ((0x20000 - max 8 s.mgmt.flash.length) / 8 + 1) * 8
  let (tid, t) := State.newTid (t.writeBytes (paTcm (caCobbler die) off) s.mgmt.flash)
  t.setSlot (caCobbler die) { Slot.free with
    st := .run, tid := tid, ctx := ({ (Ctx.zero.setPs 0 true) with pc := w64 off }).onCr fun r => { r with lnum := lnumAfter 0 (2 ^ 32 - 1) } }

/-- R69: the core that a die-local number of a register and bit of `coremask` stands for is disabled. -/
def clearCore (m : SMap W64) (core : Nat) : SMap W64 :=
  smMod allOnes m (caDie core * 16 + caIndex core / 64) fun w => setBit w (caIndex core % 64) false

/-- R69, R149, R372 steps 3 and 4: what self-test and the repair record found, merged: `coremask` registers and further
disabled cores, failed rows of TCM banks (as 16 · core + bank), failed banks of scratchpads (as clusters), and bank groups
out of service. -/
def State.repaired (s : State) (masks : List W64) (cores rows spads groups : List Nat) : State :=
  let mask := (List.range 128).foldl (fun m j => smSet allOnes m j (masks[j]?.getD allOnes)) s.coremask
  let t := (spads.filter (· < 512)).foldl State.failSpad (rows.foldl State.failRow s)
  { t with
    coremask := cores.foldl clearCore mask
    retired := smFill false t.retired (groups.filter fun g => coreAddressOk (w64 g) && caKind g == .bank && caSlot g == 0) true }

/-- R372: the bytes of the repair record. -/
def Mgmt.record (m : Mgmt) : List Byte := if m.repairs.isEmpty then m.repair else Config.repairWith m.repair m.repairs

/-- The units of the field repairs of a kind. -/
def Mgmt.repaired (m : Mgmt) (kind : Nat) : List Nat := (m.repairs.filter fun e => e.1 == kind).map Prod.snd

/-- R372 step 4: what the repair record says, with the field repairs that were appended to it; an invalid one is ignored. A
TCM bank retired in the field has used up its spare rows, so that its repair counts as one row more. -/
def repairOf (m : Mgmt) : List Nat × List Nat × List Nat × List Nat :=
  if Config.repairSigned m.repair then
    let (cores, rows, spads, groups) := Config.repairSays m.repair
    (cores, rows ++ m.repaired 0 ++ m.repaired 1, spads ++ m.repaired 2, groups ++ m.repaired 3)
  else ([], [], [], [])

/-- PACKAGE_RESET, R19, R372: self-test finds these masks, failed rows, failed scratchpad banks and bank groups. An image that
does not fit a TCM cannot be loaded, so that boot ends in step 2. -/
def execPackageReset (masks : List W64) (rows spads groups : List Nat) (s : State) : Res :=
  event <|
    let t := s.cleared
    if !Config.imageSigned t.mgmt.flash then t.modMgmt fun m => { m with stage := 1, recov := true }
    else if 0x20000 < t.mgmt.flash.length then t.modMgmt fun m => { m with stage := 2, recov := true }
    else
      let t := (List.range 8).foldl State.loadImage t
      let (cores, rows', spads', groups') := repairOf t.mgmt
      let t := allCores.foldl State.newKey (t.repaired masks cores (rows ++ rows') (spads ++ spads') (groups ++ groups'))
      { t with
        tenants := smSet 0 t.tenants 0 1
        mgmt := { t.mgmt with
          stage := 5, ready := true, rrbad := !Config.repairSigned t.mgmt.repair, image := t.mgmt.flash } }

/-! ## Cooling and power -/

/-- R373: a zone at 125 degrees stops the package, and all device state is lost. -/
def State.overTemp (s : State) : State :=
  if s.mgmt.temp.any fun e => decide (125 ≤ e.2.toNat) then { s.cleared with stopped := true } else s

/-- R373: a zone of a stack was read at 115 degrees or more. -/
def Mgmt.hot (m : Mgmt) (stack : Nat) : Bool := m.temp.any fun e => e.1 / 0x200 == stack && decide (115 ≤ e.2.toNat)

/-- THROTTLE_REQUEST, R14, R372, R373: a hot zone keeps level 7. None comes before the Orrery has started. -/
def execThrottleRequest (die : Nat) (level : BitVec 3) (s : State) : Res :=
  event <|
    if s.mgmt.stalled ∨ 8 ≤ die ∨ s.mgmt.ready = false then s
    else (s.modMgmt fun m => { m with thr := smSet 0 m.thr die (if m.hot die then 7 else level) }).overTemp

/-- R374: the values of a stack's zones, 16 · tier + zone. -/
def zoneValues (m : SMap Byte) (stack : Nat) (l : List Byte) : SMap Byte :=
  (List.range 144).foldl (fun m j => smSet 0 m (0x200 * stack + j) (l[j]?.getD 0)) m

/-- R243, R373: the Orrery lets layers sleep. -/
def State.idleLayers (s : State) (stack : Nat) (idle : BitVec 8) : State :=
  (List.range 8).foldl (fun t l => if bitAt idle l && t.layer stack l == 0 then t.setLayer stack l 1 else t) s

/-- ORRERY_TICK, R373, R374: the Orrery runs from the last step of boot on (R372). -/
def execOrreryTick (stack : Nat) (temps valves : List Byte) (level : BitVec 3) (pwr : BitVec 32) (idle : BitVec 8) (s : State) : Res :=
  event <|
    if 8 ≤ stack ∨ s.mgmt.ready = false then s
    else
      let hot := ((temps.take 144).filter fun b => decide (115 ≤ b.toNat)).length
      let lvl : BitVec 3 := if hot = 0 then level else 7
      ((s.modMgmt fun m =>
        { m with
          temp := zoneValues m.temp stack temps
          valve := zoneValues m.valve stack valves
          thr := if m.stalled then m.thr else smSet 0 m.thr stack lvl
          pwr := smSet 0 m.pwr stack pwr
          events := m.events + hot }).idleLayers stack idle).overTemp

/-- MANAGEMENT_RING_STALL, R14. -/
def execManagementRingStall (on : Bool) (s : State) : Res := event (s.modMgmt fun m => { m with stalled := on })

/-! ## Owners of memory -/

/-- R143, R149, R370: firmware writes every word of n bytes to zero. -/
def State.wipe (s : State) (pa n : Nat) : State :=
  let out {α : Type} (m : SMap α) : SMap α := m.filter fun e => decide (e.1 < pa) || decide (pa + n ≤ e.1)
  let t := s.remapRun pa n
  { t with mem := out t.mem, bad := out t.bad, flaws := out t.flaws }

/-- R195, R337: a core's mailboxes, counters and permits are cleared; requests for permits stay. -/
def State.clearPort (s : State) (core : Nat) : State :=
  (List.range 16).foldl (fun t n => (t.setBox core n Mbox.empty).setPermit core n 0) s

/-- R143, R370: a core's TCM passes to a tenant, unless the core holds a live thread of its old owner. -/
def State.passCore (s : State) (tenant core : Nat) : State :=
  if s.coreHolds core (· == (s.tcmOwner core).toNat) then s
  else
    let t := ((s.wipe (paTcm core 0) 0x20000).clearPort core).newKey core
    { t with towner := smSet 0 t.towner core (BitVec.ofNat 8 tenant) }

/-- R143: a cluster's scratchpad passes to a tenant. -/
def State.passCluster (s : State) (tenant q : Nat) : State :=
  let t := s.wipe (paSpad (q % 32) (q / 32) 0) 0x200000
  { t with sowner := smSet 0 t.sowner q (BitVec.ofNat 8 tenant) }

/-- R143: a granule of shared SRAM passes to a tenant. -/
def State.passGranule (s : State) (tenant g : Nat) : State :=
  let t := s.wipe (paShared (g / 768) (g % 768 * 0x10000)) 0x10000
  { t with gowner := smSet 0 t.gowner g (BitVec.ofNat 8 tenant) }

/-- MEMORY_OWNER_ASSIGNMENT, R143, R150, R370: a core (kind 0), a cluster (1) or a granule (2). -/
def execMemoryOwnerAssignment (kind unit tenant : Nat) (s : State) : Res :=
  event <|
    if 256 ≤ tenant then s
    else
      match kind with
      | 0 => s.passCore tenant (caTileOf unit)
      | 1 => if unit < 512 then s.passCluster tenant unit else s
      | 2 => if unit < 6144 then s.passGranule tenant unit else s
      | _ => s

/-! ## Tenants -/

/-- TENANT_TABLE_WRITE, R369: idx is a dword of the entry. -/
def execTenantTableWrite (tenant idx : Nat) (data : W64) (s : State) : Res :=
  event <|
    if 256 ≤ tenant ∨ 22 ≤ idx then s
    else { s with tenants := smSet 0 s.tenants (tenant * 32 + idx) (if idx = 0 then data &&& 0xFF03#64 else data) }

/-- R370 steps 1 and 2: the tenant is not valid, and its launches, tasks and threads are killed. -/
def State.killTenant (s : State) (tenant : Nat) : State :=
  let t := { s with tenants := smMod 0 s.tenants (tenant * 32) fun c => setBit c 0 false }
  let t := t.modFn tenant fun x =>
    { x with pushed := x.pushed + BitVec.ofNat 32 x.pushes.length, pushes := [], taken := 0 }
  let t := t.killWhere fun key => key.tenant == w64 tenant
  let t := (t.tasks.filter fun e => (e.2.st == .wait || e.2.st == .ready) && e.2.tenant == w64 tenant).foldl
    (fun t e => t.freeTask (e.1 / 2 ^ 16) (e.1 % 2 ^ 16)) t
  { t with launches := t.launches.map fun l =>
      if l.tenant = w64 tenant then { l with failed := true, toDies := [], redo := [] } else l }

/-- R370 step 3: the tenant's queues, handles and Answer Table entries are freed. -/
def State.freeTenant (s : State) (tenant : Nat) : State :=
  let t := (s.queues.filter fun e => e.2.live && e.2.tenant == w64 tenant).foldl (fun t e => t.closeQueue e.1) s
  let t := (t.objs.filter fun e => e.1 / 2 ^ 20 == tenant && e.2.used).foldl (fun t e => t.releaseObject tenant (e.1 % 2 ^ 20)) t
  let t := (t.entries.filter fun e => e.2.st != .free && e.2.tenant == w64 tenant).foldl (fun t e => t.freeWay e.1) t
  { t with
    pins := t.pins.filter fun p => p.tenant != w64 tenant
    events := t.events.filter fun e => e.1 != tenant }

/-- R370 steps 4 and 5: everything that the tenant owned passes to tenant 0. -/
def State.releaseOwned (s : State) (tenant : Nat) : State :=
  let mine (m : SMap Byte) : List Nat := (m.filter fun e => e.2.toNat == tenant).map Prod.fst
  let t := (mine s.towner).foldl (State.passCore · 0) s
  let t := (mine t.sowner).foldl (State.passCluster · 0) t
  (mine t.gowner).foldl (State.passGranule · 0) t

/-- TENANT_DESTRUCTION, R370. -/
def execTenantDestruction (tenant : Nat) (s : State) : Res :=
  event (if tenant = 0 ∨ 256 ≤ tenant then s else ((s.killTenant tenant).freeTenant tenant).releaseOwned tenant)

/-! ## Peers (R368) -/

/-- PEER_UNREACHABLE, R368: what a peer exports to tenants; nothing where it is unreachable. -/
def execPeerUnreachable (peer : Nat) (exports : List Export) (s : State) : Res :=
  let others := s.peers.filter fun e => e.1 / 256 != peer
  event { s with
    peers := exports.foldl (fun m e =>
      smSet Peer.none m (peer * 256 + e.tenant % 256) ⟨min e.size (2 ^ 40), e.rights, e.gone⟩) others }

/-- R239: the rights that a peer's access needs. -/
def PeerOp.need : PeerOp → BitVec 4
  | .load _ => rightR
  | .store _ => rightW
  | .amo _ _ | .afadd _ | .acas _ _ => rightR ||| rightW ||| rightS

/-- The bytes that a peer's access touches. -/
def PeerOp.size : PeerOp → Nat
  | .load n => n
  | .store l => l.length
  | .amo _ _ | .acas _ _ => 8
  | .afadd _ => 4

/-- R368, R369: an address in a tenant's export handle. -/
def State.exportAddr (s : State) (tenant off : Nat) : W64 :=
  w64 (4 * 2 ^ 60 + (s.tt tenant 21).toNat % 2 ^ 20 * 2 ^ 40 + off)

/-- R368: where an access of a peer at an offset of a tenant's export handle goes, if every byte of it resolves. -/
def State.exportAt (s : State) (tenant off : Nat) (op : PeerOp) : Option Nat :=
  let resolves (j : Nat) : Bool :=
    decide (j < 2 ^ 40) && match s.resolve tenant (s.exportAddr tenant j) op.need with | .ok _ => true | .error _ => false
  if ((off + op.size - 1) :: blocksOfRun off op.size).all resolves then some (paStack tenant (s.exportAddr tenant off).toNat) else none

/-- What a peer's atomic makes of the item at its address. -/
def PeerOp.make : PeerOp → Nat → Nat
  | .amo op x, old => (atomApply op (w64 old) x).toNat
  | .afadd x, old => sum32 old (x.toNat % 2 ^ 32)
  | .acas want new, old => if w64 old = want then new.toNat else old
  | .load _, old | .store _, old => old

/-- R148, R245, R254, R265, R368: a peer's access fails at the word it reaches. -/
def State.peerFails (s : State) (pa : Nat) (op : PeerOp) : Option (BitVec 8) :=
  let bad := (s.firstBad pa op.size).isSome
  match op with
  | .load _ => if bad then some 0x09 else none
  | .store l => if s.runDesc pa l.length then some 0x0F else if bad && decide (l.length < 8) then some 0x09 else none
  | _ => if s.inDesc pa then some 0x0F else if bad then some 0x09 else none

/-- R368: what a peer is answered: the bytes that a load reads, the old item of an atomic, or the cause of its trap. -/
def State.peerReply (s : State) (tenant off : Nat) (op : PeerOp) : Except (BitVec 8) (List Byte) :=
  match s.exportAt tenant off op with
  | none => .error 0x05
  | some pa =>
    match s.peerFails pa op, op with
    | some cause, _ => .error cause
    | none, .store _ => .ok []
    | none, _ => .ok (s.readBytes pa op.size)

/-- R368: what a peer's access does here. One that memory holds (R242, R243) is not taken yet (log entry 84). -/
def State.servePeer (s : State) (tenant off : Nat) (op : PeerOp) : State :=
  match s.exportAt tenant off op with
  | none => s
  | some pa =>
    if s.runHeld pa op.size || (s.peerFails pa op).isSome then s
    else
      match op with
      | .load _ => s
      | .store l => s.storeBytes pa l
      | op => s.storeBytes pa (leBytes op.size (op.make (s.readN pa op.size)))

/-! ## Attestation and sealing -/

/-- The 64-bit words of bytes, least significant byte first. -/
def wordsOf (l : List Byte) : List W64 := (List.range (l.length / 8)).map fun j => w64 (leNat ((l.drop (8 * j)).take 8))

/-- The tenant's salt. -/
def State.salt (s : State) (tenant : Nat) : List W64 := (List.range 4).map fun j => s.tt tenant (17 + j)

/-- R371: the tenant-table entry as it is measured, with the digest of the salt in place of the salt. -/
def State.entryBytes (s : State) (tenant : Nat) : List Byte :=
  dwordBytes ((List.range 17).map fun j => s.tt tenant j) ++ Sha512.digest (dwordBytes (s.salt tenant)) ++
    dwordBytes ((List.range 11).map fun j => s.tt tenant (21 + j))

/-- SPDM_GET_MEASUREMENTS, R363, R371. -/
def execSpdmGetMeasurements (fn : Nat) (nonce : List W64) (s : State) : Res :=
  event <|
    if !s.mgmt.ready || decide (256 ≤ fn) then s
    else
      let m := wordsOf (Sha512.digest s.mgmt.image ++ Sha512.digest s.mgmt.record ++ Sha512.digest (s.entryBytes fn))
      s.modFn fn fun x => { x with spdm := m ++ Config.signature (m ++ nonce) }

/-- IDE_KM, R363, R364. -/
def execIdeKm (fn : Nat) (on : Bool) (s : State) : Res :=
  event (if !s.mgmt.ready || decide (256 ≤ fn) then s else s.modFn fn fun x => { x with ide := on })

/-- R371: a tenant's sealing key, under the image that runs. -/
def State.sealKey (s : State) (tenant : Nat) : List Byte :=
  Gcm.hkdf Config.identitySecret (dwordBytes (s.salt tenant)) (Sha512.digest s.mgmt.image)

/-- R47, R375: the additional data of a tenant's blobs. -/
def sealExtra (tenant : Nat) : List Byte := leBytes 8 tenant

/-- R375: the nonce of a tenant's n-th seal: 12 bytes of a counter, whose start is a free value. -/
def sealNonce (tenant n : Nat) : Nat := (Config.firstId (2 ^ 20 + tenant) + n) % 2 ^ 96

/-- R364, R375: a function whose command, of this opcode, is running; ok says that the host path answered. A tenant under IDE
whose stream is gone reaches no host memory: SEAL and UNSEAL are not allowed, and another command's access fails. -/
def State.perform (s : State) (fn op : Nat) (ok : Bool) (f : State → State) : State :=
  if !(s.fn fn).busy || (s.fn fn).cmdAt 0 != op then s
  else if bitAt (s.tt fn 0) 1 && !(s.fn fn).ide then s.answerCmd fn (if op = 0x10 then 3 else 6) 0
  else if !ok then s.answerCmd fn 3 0
  else f s

/-- SEAL, R371, R375. -/
def execSeal (fn : Nat) (ok : Bool) (s : State) : Res :=
  event <|
    s.perform fn 1 ok fun s =>
      let x := s.fn fn
      let n := smGet 0 s.mgmt.nonces fn
      let nonce := leBytes 12 (sealNonce fn n)
      let c := Gcm.crypt (s.sealKey fn) nonce (s.readBytes (paHost (x.cmdAt 2)) (x.cmdAt 3))
      let tag := Gcm.tag (s.sealKey fn) nonce (sealExtra fn) c
      let t := s.modMgmt fun m => { m with nonces := smSet 0 m.nonces fn (n + 1) }
      (t.storeBytes (paHost (x.cmdAt 4)) (nonce ++ c ++ tag)).answerCmd fn 0 (x.cmdAt 3 + 28)

/-- UNSEAL, R371, R375. -/
def execUnseal (fn : Nat) (ok : Bool) (s : State) : Res :=
  event <|
    s.perform fn 2 ok fun s =>
      let x := s.fn fn
      let blob := s.readBytes (paHost (x.cmdAt 2)) (x.cmdAt 3)
      let nonce := blob.take 12
      let c := (blob.drop 12).take (x.cmdAt 3 - 28)
      if Gcm.tag (s.sealKey fn) nonce (sealExtra fn) c ≠ blob.drop (x.cmdAt 3 - 16) then s.answerCmd fn 4 0
      else
        (s.storeBytes (paHost (x.cmdAt 4)) (Gcm.crypt (s.sealKey fn) nonce c)).answerCmd fn 0 (x.cmdAt 3 - 28)

/-- FLASH_UPDATE, R372, R375: the image takes effect at the next reset. -/
def execFlashUpdate (fn : Nat) (ok : Bool) (s : State) : Res :=
  event <|
    s.perform fn 0x10 ok fun s =>
      let x := s.fn fn
      let image := s.readBytes (paHost (x.cmdAt 2)) (x.cmdAt 3)
      if Config.imageSigned image then (s.modMgmt fun m => { m with flash := image }).answerCmd fn 0 0
      else s.answerCmd fn 5 0

end Sys2Proof.Machine
end

