-- ==== Sys2Proof/Machine/PortEvents.lean ====
section
/-!
DEFINITION. Arbiters that take what has reached them: mailboxes (R196), words (R348 to R359), the Welt (R258 to R263), queue
homes (R268), Cobblers (R256), matrix units (R210, R233), copy engines and permits (R334 to R343), and the translation
units (R301): one meaning for each of these events.
-/

namespace Sys2Proof.Machine

/-! ## Mailboxes -/

/-- MESSAGE_LANDING, R196, R200. -/
def execMessageLanding (k : Nat) (s : State) : Res := event (s.servePort k .message)

/-- DATA_LANDING, R196, R201, R206. -/
def execDataLanding (k : Nat) (s : State) : Res := event (s.servePort k .data)

/-- WAKE_UP_LANDING, R189, R196: whatever the answer, the wake-up is answered. -/
def execWakeUpLanding (id : Nat) (s : State) : Res :=
  event <|
    match s.wakes.find? fun w => w.id == id with
    | none => s
    | some w =>
      if s.overtakes 3 (caCore w.sender.toNat) w.id [caTileOf w.core] then s
      else
        State.landMessage { s with wakes := s.wakes.filter fun v => v.id != id } w.core w.mb w.tenant w.nanrd w.sender w.header
          w.payload |>.2

/-! ## Words -/

/-- REMOTE_READ, R160, R161. -/
def execRemoteRead (k : Nat) (s : State) : Res := event (s.servePort k .remote)

/-- The request in the Welt that carries a slot's operation. -/
def State.weltOf (s : State) (k : Nat) : Option WeltReq := s.welt.find? fun r => r.slots.any fun p => p.1 == k

/-- R348, R349: the n-th outstanding store of a slot is taken, after those before it that overlap it. -/
def State.takeStore (s : State) (k n : Nat) : State :=
  let l := (s.slot k).out
  match l[n]? with
  | none => s
  | some o =>
    if s.storeHeld o || (l.take n).any fun p => p.meets o.spans then s else s.flushWhere k (· == o)

/-- ACCESS_ACCEPTED, R15, R254, R348. -/
def execAccessAccepted (k n : Nat) (s : State) : Res :=
  event <|
    match n with
    | 0 =>
      (match s.weltOf k with
       | some r => (match r.i with | .amo _ _ _ _ _ _ => s.weltHome r.id | _ => s)
       | none => s.servePort k .access)
    | j + 1 => s.takeStore k j

/-- FULL_EMPTY_REQUEST, R250. -/
def execFullEmptyRequest (k : Nat) (s : State) : Res := event (s.servePort k .fullEmpty)

/-- RESERVATION_REQUEST, R252. -/
def execReservationRequest (k : Nat) (s : State) : Res := event (s.servePort k .reservation)

/-- PHASE_REQUEST, R359. -/
def execPhaseRequest (k : Nat) (s : State) : Res := event (s.servePort k .phase)

/-- COBBLER_ATOMIC, R256. -/
def execCobblerAtomic (k : Nat) (s : State) : Res := event (s.servePort k .cobbler)

/-! ## The Welt and queue homes -/

/-- WELT_SWITCH_ARRIVAL, R261, R263, R269. -/
def execWeltSwitchArrival (id : Nat) (s : State) : Res := event (s.weltArrive id)

/-- PAIRING_WINDOW_EXPIRY, R261. -/
def execPairingWindowExpiry (id : Nat) (s : State) : Res := event (s.weltExpire id)

/-- COMBINED_REPLY_SPLIT, R263. -/
def execCombinedReplySplit (id : Nat) (s : State) : Res := event (s.splitReply id)

/-- QUEUE_HOME_OPERATION, R268. -/
def execQueueHomeOperation (k : Nat) (s : State) : Res :=
  event <|
    match s.weltOf k with
    | some r => (match r.i with | .amo _ _ _ _ _ _ => s | _ => s.weltHome r.id)
    | none => s.servePort k .queue

/-! ## Matrix units -/

/-- MATRIX_REMOTE_COMMAND, R233. -/
def execMatrixRemoteCommand (k : Nat) (s : State) : Res := event (s.servePort k .matrix)

/-- MATRIX_OP_START, R210, R216. -/
def execMatrixOpStart (core : Nat) (s : State) : Res := event (s.unitStart (caTileOf core))

/-- MATRIX_KSTEP_COMPLETE, R219: one K-step, or one row of a drain, is applied whole. -/
def execMatrixKstepComplete (core : Nat) (s : State) : Res := event (s.unitStep (caTileOf core))

/-! ## Copy engines -/

/-- COPY_TRANSFER_START, R334. -/
def execCopyTransferStart (core : Nat) (s : State) : Res := event (s.startCopy (caTileOf core))

/-- COPY_CHUNK, R334, R337, R343. -/
def execCopyChunk (core id n : Nat) (s : State) : Res := event (s.moveChunk (caTileOf core) id n)

/-- PERMIT_REQUEST, R337. -/
def execPermitRequest (core id : Nat) (s : State) : Res := event (s.askPermits (caTileOf core) id)

/-- PERMIT_RETRY_TIMEOUT, R337. -/
def execPermitRetryTimeout (core id : Nat) (s : State) : Res := event (s.retryPermits (caTileOf core) id)

/-- COPY_COMPLETION, R338, R340, R343. -/
def execCopyCompletion (core id : Nat) (s : State) : Res := event (s.endCopy (caTileOf core) id)

/-! ## Translation -/

/-- TRANSLATION_WALK_COMPLETE, R301: a walk that finds a leaf fills the caches of its die; one that faults keeps nothing. -/
def execTranslationWalkComplete (die tenant va : Nat) (s : State) : Res :=
  event <|
    if 8 ≤ die ∨ 256 ≤ tenant ∨ 2 ^ 57 ≤ va ∨ (s.cached die tenant va).isSome then s
    else
      match s.walk tenant va 4 (s.tt tenant 3) with
      | none => s
      | some pte =>
        let k := bitsAt pte 7 4
        { s with tlb := s.tlb ++ [⟨die, tenant, va - va % (4096 * 2 ^ k), k, pte⟩] }

end Sys2Proof.Machine
end

