-- ==== Sys2Proof/Machine/Pred.lean ====
section
/-!
DEFINITION. Comparison, predicates and selection (R86, R87).
-/

namespace Sys2Proof.Machine

/-- R86: a condition of `cmp`. -/
def cmpHolds (c : CmpCond) (x y : W64) : Bool :=
  match c with
  | .eq => x == y
  | .ne => x != y
  | .lt => x.slt y
  | .ge => !x.slt y
  | .ltu => x.ult y
  | .geu => !x.ult y

/-- R86: the predicates as `bpack` writes them. -/
def packB (c : Ctx) : W64 := w64 ((List.range 8).foldl (fun n j => n + if c.getB (BitVec.ofNat 3 j) then 2 ^ j else 0) 0)

/-- R86: the predicates as `bunpk` sets them. -/
def unpackB (c : Ctx) (x : W64) : Ctx := (List.range 8).foldl (fun c j => c.setB (BitVec.ofNat 3 j) (bitAt x j)) c

/-- An A-half that writes one predicate with a function of two. -/
def binB (gd : Guard) (d a b : PReg) (s : State) (op : Bool → Bool → Bool) : Res :=
  half gd s fun s => s.setB d (op (s.rd.getB a) (s.rd.getB b))

/-- CMP, R86. -/
def execCmp (gd : Guard) (d : PReg) (a b : GReg) (c : CmpCond) (s : State) : Res :=
  half gd s fun s => s.setB d (cmpHolds c (s.g a) (s.g b))

/-- BAND, R86. -/
def execBand (gd : Guard) (d a b : PReg) (s : State) : Res := binB gd d a b s fun x y => x && y

/-- BOR, R86. -/
def execBor (gd : Guard) (d a b : PReg) (s : State) : Res := binB gd d a b s fun x y => x || y

/-- BXOR, R86. -/
def execBxor (gd : Guard) (d a b : PReg) (s : State) : Res := binB gd d a b s fun x y => x != y

/-- BNOT, R86. -/
def execBnot (gd : Guard) (d a : PReg) (s : State) : Res := half gd s fun s => s.setB d !(s.rd.getB a)

/-- BMOV, R86. -/
def execBmov (gd : Guard) (d a : PReg) (s : State) : Res := half gd s fun s => s.setB d (s.rd.getB a)

/-- BPACK, R86. -/
def execBpack (gd : Guard) (d : GReg) (s : State) : Res := half gd s fun s => s.setG d (packB s.rd)

/-- BUNPK, R86, R87. -/
def execBunpk (gd : Guard) (a : GReg) (s : State) : Res :=
  half gd s fun s =>
    let x := s.g a
    s.upd fun c => unpackB c x

/-- SEL, R86. -/
def execSel (gd : Guard) (d a b : GReg) (p : PReg) (s : State) : Res :=
  half gd s fun s => s.setG d (if s.rd.getB p then s.g a else s.g b)

end Sys2Proof.Machine
end

