-- ==== Sys2Proof/Machine/Vector.lean ====
section
/-!
DEFINITION. Vector arithmetic, comparison, selection and mask operations (R166 to R175).
-/

namespace Sys2Proof.Machine

/-! ## Lane by lane -/

/-- Write the lanes of w bits of a vector register with a list of results, and raise their flags (R172). -/
def State.setLanes (s : State) (d : VReg) (w : Nat) (r : List (Nat × FlagSet)) : State :=
  (s.setV d (ofLanes w (r.map Prod.fst))).raise (orFlags r)

/-- The lanes of a vector register as the bundle reads them. -/
def State.lanesV (s : State) (a : VReg) (w : Nat) : List Nat := lanesOf (s.rd.getV a) w (s.rd.lanes w)

/-- An integer lane result, modulo 2^w, with no flag. -/
def intLane (w : Nat) (n : Int) : Nat × FlagSet := ((n % (2 ^ w : Nat)).toNat, 0)

/-- A lane-wise A-half on one vector operand. -/
def vec1 (gd : Guard) (d a : VReg) (t : ETy) (s : State) (int : Nat → Nat → Nat × FlagSet)
    (fp : Fmt → Rnd → Nat → Nat × FlagSet) : Res :=
  half gd s fun s =>
    let f := etyFmt t s.finite
    s.setLanes d t.width ((s.lanesV a t.width).map fun x => if t.isFp then fp f s.rnd x else int t.width x)

/-- A lane-wise A-half on two vector operands. -/
def vec2 (gd : Guard) (d a b : VReg) (t : ETy) (s : State) (int : Nat → Nat → Nat → Nat × FlagSet)
    (fp : Fmt → Rnd → Nat → Nat → Nat × FlagSet) : Res :=
  half gd s fun s =>
    let f := etyFmt t s.finite
    s.setLanes d t.width (List.zipWith (fun x y => if t.isFp then fp f s.rnd x y else int t.width x y)
      (s.lanesV a t.width) (s.lanesV b t.width))

/-- R173: a fused lane: x · y plus, or minus, the lane of vD. -/
def vecFused (gd : Guard) (d a b : VReg) (t : ETy) (minus : Bool) (s : State) : Res :=
  half gd s fun s =>
    let f := etyFmt t s.finite
    let op (p : Nat × Nat) (z : Nat) : Nat × FlagSet :=
      let z := f.value z
      f.fused s.rnd (f.value p.1) (f.value p.2) (if minus then z.negate else z) false
    s.setLanes d t.width (List.zipWith op ((s.lanesV a t.width).zip (s.lanesV b t.width)) (s.lanesV d t.width))

/-- A bitwise operation on integer lanes, which R38 gives no floating-point type. -/
def bitLane (op : Nat → Nat → Nat) (_w x y : Nat) : Nat × FlagSet := (op x y, 0)

/-- R38: the operations without a floating-point type leave the lane as it is. -/
def noFp (_f : Fmt) (_r : Rnd) (x _y : Nat) : Nat × FlagSet := (x, 0)

/-- R173, R178: the sum, the lesser and the greater of two integer lanes. -/
def intAdd (w x y : Nat) : Nat × FlagSet := intLane w (x + y)
def intLeast (w x y : Nat) : Nat × FlagSet := (if signedOf w y < signedOf w x then y else x, 0)
def intGreatest (w x y : Nat) : Nat × FlagSet := (if signedOf w x < signedOf w y then y else x, 0)

/-- R173, R178: the rounded sum of two floating-point lanes. -/
def fpAdd (f : Fmt) (r : Rnd) (x y : Nat) : Nat × FlagSet := f.sum r (f.value x) (f.value y)

/-- R173: the lesser and the greater of two floating-point lanes (R93). -/
def fpLeast (f : Fmt) (_r : Rnd) (x y : Nat) : Nat × FlagSet := f.least x y
def fpGreatest (f : Fmt) (_r : Rnd) (x y : Nat) : Nat × FlagSet := f.greatest x y

/-- VADD, R173. -/
def execVadd (gd : Guard) (d a b : VReg) (t : ETy) (s : State) : Res := vec2 gd d a b t s intAdd fpAdd

/-- VSUB, R173. -/
def execVsub (gd : Guard) (d a b : VReg) (t : ETy) (s : State) : Res :=
  vec2 gd d a b t s (fun w x y => intLane w ((x : Int) - y)) fun f r x y => f.sum r (f.value x) (f.value y).negate

/-- VMUL, R173. -/
def execVmul (gd : Guard) (d a b : VReg) (t : ETy) (s : State) : Res :=
  vec2 gd d a b t s (fun w x y => intLane w (x * y)) fun f r x y => f.product r (f.value x) (f.value y)

/-- VMIN, R173. -/
def execVmin (gd : Guard) (d a b : VReg) (t : ETy) (s : State) : Res := vec2 gd d a b t s intLeast fpLeast

/-- VMAX, R173. -/
def execVmax (gd : Guard) (d a b : VReg) (t : ETy) (s : State) : Res := vec2 gd d a b t s intGreatest fpGreatest

/-- VABS, R173. -/
def execVabs (gd : Guard) (d a : VReg) (t : ETy) (s : State) : Res :=
  vec1 gd d a t s (fun w x => intLane w (signedOf w x).natAbs) fun f _ x => (f.absBits x, 0)

/-- VNEG, R173. -/
def execVneg (gd : Guard) (d a : VReg) (t : ETy) (s : State) : Res :=
  vec1 gd d a t s (fun w x => intLane w (-(x : Int))) fun f _ x => (f.negBits x, 0)

/-- VAND, R173. -/
def execVand (gd : Guard) (d a b : VReg) (t : ETy) (s : State) : Res :=
  vec2 gd d a b t s (bitLane fun x y => x &&& y) noFp

/-- VOR, R173. -/
def execVor (gd : Guard) (d a b : VReg) (t : ETy) (s : State) : Res :=
  vec2 gd d a b t s (bitLane fun x y => x ||| y) noFp

/-- VXOR, R173. -/
def execVxor (gd : Guard) (d a b : VReg) (t : ETy) (s : State) : Res :=
  vec2 gd d a b t s (bitLane fun x y => x ^^^ y) noFp

/-- VSLL, R172, R173. -/
def execVsll (gd : Guard) (d a b : VReg) (t : ETy) (s : State) : Res :=
  vec2 gd d a b t s (fun w x y => intLane w (x * 2 ^ (y % w))) noFp

/-- VSRL, R172, R173. -/
def execVsrl (gd : Guard) (d a b : VReg) (t : ETy) (s : State) : Res :=
  vec2 gd d a b t s (fun w x y => intLane w (x / 2 ^ (y % w))) noFp

/-- VSRA, R172, R173. -/
def execVsra (gd : Guard) (d a b : VReg) (t : ETy) (s : State) : Res :=
  vec2 gd d a b t s (fun w x y => intLane w (signedOf w x / (2 ^ (y % w) : Nat))) noFp

/-- VMOV, R173: a copy of the whole register, whatever the type. -/
def execVmov (gd : Guard) (d a : VReg) (_t : ETy) (s : State) : Res := half gd s fun s => s.setV d (s.rd.getV a)

/-- VFMA, R173. -/
def execVfma (gd : Guard) (d a b : VReg) (t : ETy) (s : State) : Res := vecFused gd d a b t false s

/-- VFMS, R173. -/
def execVfms (gd : Guard) (d a b : VReg) (t : ETy) (s : State) : Res := vecFused gd d a b t true s

/-! ## Masks -/

/-- R174: a condition on two lanes. -/
def laneCond (c : VCond) (t : ETy) (finite : Bool) (x y : Nat) : Bool × FlagSet :=
  let w := t.width
  if t.isFp then
    let a := (etyFmt t finite).value x
    let b := (etyFmt t finite).value y
    match c with
    | .eq => fpEq a b
    | .ne => (!(fpEq a b).1, (fpEq a b).2)
    | .lt => fpLt a b
    | .le => fpLe a b
    | .un => fpUn a b
    | .ltu => fpLt a b
    | .leu => fpLe a b
  else
    match c with
    | .eq => (x == y, 0)
    | .ne => (x != y, 0)
    | .lt => (decide (signedOf w x < signedOf w y), 0)
    | .le => (decide (signedOf w x ≤ signedOf w y), 0)
    | .ltu => (decide (x < y), 0)
    | .leu => (decide (x ≤ y), 0)
    | .un => (false, 0)

/-- R167: the lanes of w bits whose bytes bit j of a mask governs, in a register of bits in all. -/
def maskLanes (vlen w j : Nat) : List Nat :=
  let per := vlen / 64
  (List.range (per / 8)).map fun i => (j * per + 8 * i) / w

/-- R167: the mask that one truth value for each lane writes. -/
def maskOf (vlen w : Nat) (l : List Bool) : W64 :=
  (List.range 64).foldl (fun m j => setBit m j ((maskLanes vlen w j).all fun i => l[i]?.getD false)) 0

/-- VCMP, R174. -/
def execVcmp (gd : Guard) (d : MReg) (a b : VReg) (t : ETy) (c : VCond) (s : State) : Res :=
  half gd s fun s =>
    let r := List.zipWith (laneCond c t s.finite) (s.lanesV a t.width) (s.lanesV b t.width)
    (s.setM d (maskOf s.rd.vlen t.width (r.map Prod.fst))).raise (r.foldl (fun f e => f ||| e.2) 0)

/-- R167: byte i of a register is governed by this bit of the mask. -/
def maskBit (vlen i : Nat) : Nat := i / (vlen / 512)

/-- VSEL, R175. -/
def execVsel (gd : Guard) (d a b : VReg) (m : MReg) (s : State) : Res :=
  half gd s fun s =>
    let k := s.rd.getM m
    let l := (List.range (s.rd.vlen / 8)).map fun i =>
      if bitAt k (maskBit s.rd.vlen i) then lane (s.rd.getV a) 8 i else lane (s.rd.getV b) 8 i
    s.setV d (ofLanes 8 l)

/-- MAND, R175. -/
def execMand (gd : Guard) (d a b : MReg) (s : State) : Res := half gd s fun s => s.setM d (s.rd.getM a &&& s.rd.getM b)

/-- MOR, R175. -/
def execMor (gd : Guard) (d a b : MReg) (s : State) : Res := half gd s fun s => s.setM d (s.rd.getM a ||| s.rd.getM b)

/-- MNOT, R175. -/
def execMnot (gd : Guard) (d a : MReg) (s : State) : Res := half gd s fun s => s.setM d (~~~s.rd.getM a)

/-- MPOP, R175. -/
def execMpop (gd : Guard) (d : GReg) (a : MReg) (s : State) : Res :=
  half gd s fun s => s.setG d (w64 ((List.range 64).filter fun j => bitAt (s.rd.getM a) j).length)

end Sys2Proof.Machine
end

