-- ==== Sys2Proof/Machine/VPerm.lean ====
section
/-!
DEFINITION. Lane movement, reductions and the scan (R176 to R179), and the `rep` that arms the repetition buffer
(R181).
-/

namespace Sys2Proof.Machine

/-- VBC, R176. -/
def execVbc (gd : Guard) (d : VReg) (a : GReg) (t : ETy) (s : State) : Res :=
  half gd s fun s => s.setV d (ofLanes t.width (List.replicate (s.rd.lanes t.width) (s.g a).toNat))

/-- VEXT, R176. A lane index that the register has not traps. -/
def execVext (gd : Guard) (d : GReg) (a : VReg) (i : BitVec 5) (t : ETy) (s : State) : Res :=
  half gd s fun s =>
    if s.rd.lanes t.width ≤ i.toNat then s.trap 0x01 s.bundle
    else
      let x := lane (s.rd.getV a) t.width i.toNat
      s.setG d (if t.isFp then w64 x else wrap64 (signedOf t.width x))

/-- VINS, R176. -/
def execVins (gd : Guard) (d : VReg) (a : GReg) (i : BitVec 5) (t : ETy) (s : State) : Res :=
  half gd s fun s =>
    if s.rd.lanes t.width ≤ i.toNat then s.trap 0x01 s.bundle
    else s.setV d (ofLanes t.width ((s.lanesV d t.width).set i.toNat (s.g a).toNat))

/-- VPERM, R177. -/
def execVperm (gd : Guard) (d a b : VReg) (t : ETy) (s : State) : Res :=
  half gd s fun s =>
    let l := s.lanesV a t.width
    s.setV d (ofLanes t.width ((s.lanesV b t.width).map fun u => l[u % l.length]?.getD 0))

/-- VSLIDE, R177. -/
def execVslide (gd : Guard) (d a : VReg) (sh : BitVec 5) (t : ETy) (s : State) : Res :=
  half gd s fun s =>
    if s.rd.lanes t.width ≤ sh.toNat then s.trap 0x01 s.bundle
    else
      s.setV d (ofLanes t.width (((s.lanesV a t.width ++ s.lanesV d t.width).drop sh.toNat).take (s.rd.lanes t.width)))

/-- R178: one level of the pairwise tree: its values and the flags so far. -/
def pairLevel (f : Nat → Nat → Nat × FlagSet) : List Nat → FlagSet → List Nat × FlagSet
  | x :: y :: t, fl =>
    let r := f x y
    let (l, fl) := pairLevel f t (fl ||| r.2)
    (r.1 :: l, fl)
  | l, fl => (l, fl)

/-- R178: the pairwise tree over 2^n values. -/
def pairTree (f : Nat → Nat → Nat × FlagSet) : Nat → List Nat → FlagSet → List Nat × FlagSet
  | 0, l, fl => (l, fl)
  | n + 1, l, fl =>
    let (l, fl) := pairLevel f l fl
    pairTree f n l fl

/-- R178: a reduction with the step f. -/
def reduce (gd : Guard) (d a : VReg) (t : ETy) (s : State) (int : Nat → Nat → Nat → Nat × FlagSet)
    (fp : Fmt → Rnd → Nat → Nat → Nat × FlagSet) : Res :=
  half gd s fun s =>
    let f := if t.isFp then fp (etyFmt t s.finite) s.rnd else int t.width
    let (l, fl) := pairTree f (s.rd.lanes t.width).log2 (s.lanesV a t.width) 0
    (s.setV d (ofLanes t.width (l.take 1))).raise fl

/-- VRED_ADD, R178. -/
def execVredAdd (gd : Guard) (d a : VReg) (t : ETy) (s : State) : Res := reduce gd d a t s intAdd fpAdd

/-- VRED_MIN, R178. -/
def execVredMin (gd : Guard) (d a : VReg) (t : ETy) (s : State) : Res := reduce gd d a t s intLeast fpLeast

/-- VRED_MAX, R178. -/
def execVredMax (gd : Guard) (d a : VReg) (t : ETy) (s : State) : Res := reduce gd d a t s intGreatest fpGreatest

/-- R178: the running sums after the first value. -/
def scanFrom (f : Nat → Nat → Nat × FlagSet) (x : Nat) : List Nat → FlagSet → List Nat × FlagSet
  | [], fl => ([x], fl)
  | y :: t, fl =>
    let r := f x y
    let (l, fl) := scanFrom f r.1 t (fl ||| r.2)
    (x :: l, fl)

/-- VSCAN_ADD, R178. -/
def execVscanAdd (gd : Guard) (d a : VReg) (t : ETy) (s : State) : Res :=
  half gd s fun s =>
    let f := if t.isFp then fpAdd (etyFmt t s.finite) s.rnd else intAdd t.width
    match s.lanesV a t.width with
    | [] => s
    | x :: l =>
      let (l, fl) := scanFrom f x l 0
      (s.setV d (ofLanes t.width l)).raise fl

/-- R179: the type one code above, and one code below. -/
def wider : ETy → ETy
  | .i8 => .i16
  | .i16 => .i32
  | .i32 => .i64
  | .f16 => .bf16
  | .bf16 => .f32
  | .f32 => .f64
  | t => t
def narrower : ETy → ETy
  | .i16 => .i8
  | .i32 => .i16
  | .i64 => .i32
  | .bf16 => .f16
  | .f32 => .bf16
  | .f64 => .f32
  | t => t

/-- VWID, R179. -/
def execVwid (gd : Guard) (d a : VReg) (k : BitVec 5) (t : ETy) (s : State) : Res :=
  half gd s fun s => convertLanes s d a k.toNat t (wider t) false

/-- VNAR, R179. -/
def execVnar (gd : Guard) (d a : VReg) (k : BitVec 5) (t : ETy) (s : State) : Res :=
  half gd s fun s => convertLanes s d a k.toNat t (narrower t) false

/-- REP, R181: the buffer is armed when the bundle commits. A bundle that commits with the buffer already live does
not hold a `rep` (R183). -/
def execRep (gd : Guard) (len : BitVec 4) (cnt : BitVec 12) (str st : BitVec 3) (s : State) : Res :=
  half gd s fun s =>
    s.upd fun c => { c with rep := { RepBuf.empty with act := true, cap := true, len := len, count := cnt, stride := str, steps := st } }

end Sys2Proof.Machine
end

