-- ==== Sys2Proof/Machine/Vsfu.lean ====
section
/-!
DEFINITION. The special functions (R180). Every result is the exact value rounded once. Algebraic functions are
formed on integers. The others are formed on fixed-point numbers of 600 binary places, where the exact cases and the
operands so small or so large that only the side of a value matters stand apart (log entry 13).
-/

namespace Sys2Proof.Machine

/-! ## Fixed-point numbers -/

/-- The binary places of a fixed-point number. -/
def fxBits : Nat := 600

/-- One as a fixed-point number. -/
def fxOne : Nat := 2 ^ fxBits

/-- The sum of z + z · q/3 + z · q²/5 + …, the terms falling by the ratio num / den. -/
def oddSeries (num den : Nat) : Nat → Nat → Nat → Nat
  | 0, _, _ => 0
  | n + 1, z, k => if z = 0 then 0 else z / k + oddSeries num den n (z * num / den) (k + 2)

/-- The sum of z - z · q/3 + z · q²/5 - …, the terms falling by the ratio 1 / den. -/
def oddAlternating (den : Nat) : Nat → Nat → Nat → Int
  | 0, _, _ => 0
  | n + 1, z, k => if z = 0 then 0 else (z / k : Nat) - oddAlternating den n (z / den) (k + 2)

/-- The natural logarithm of 2: twice the inverse hyperbolic tangent of 1/3. -/
def fxLn2 : Nat := 2 * oddSeries 1 9 400 (fxOne / 3) 1

/-- The binary places of π, enough to reduce the largest operand. -/
def piBits : Nat := 1800

/-- π, by 16 · arctan(1/5) - 4 · arctan(1/239). -/
def fxPi : Nat :=
  (16 * oddAlternating 25 500 (2 ^ piBits / 5) 1 - 4 * oddAlternating 57121 200 (2 ^ piBits / 239) 1).toNat

/-- e^y for a fixed-point y below 2: the sum of the terms t, t · y / k, …. -/
def fxExp (y : Nat) : Nat → Nat → Nat → Nat
  | 0, _, _ => 0
  | n + 1, t, k => if t = 0 then 0 else t + fxExp y n (t * y / (fxOne * k)) (k + 1)

/-- The alternating sum of t - t · q / (k (k + 1)) + …, with q the square of the argument. -/
def fxTrig (q : Nat) : Nat → Nat → Nat → Int
  | 0, _, _ => 0
  | n + 1, t, k => if t = 0 then 0 else (t : Int) - fxTrig q n (t * q / (fxOne * (k * (k + 1)))) (k + 2)

/-- The sine and the cosine of a fixed-point r below 2. -/
def fxSin (r : Nat) : Nat := (fxTrig (r * r / fxOne) 200 r 2).toNat
def fxCos (r : Nat) : Nat := (fxTrig (r * r / fxOne) 200 fxOne 1).toNat

/-- The magnitude m · 2^e as a fixed-point number of p places. -/
def fxOf (m : Nat) (e : Int) (p : Nat) : Nat := if 0 ≤ e + p then m * 2 ^ (e + p).toNat else m / 2 ^ (-(e + p)).toNat

/-! ## Rounding a result -/

/-- A fixed-point magnitude and something smaller, rounded into a format. -/
def Fmt.ofFx (f : Fmt) (rm : Rnd) (neg : Bool) (v : Nat) (e : Int) : Nat × FlagSet :=
  f.round rm neg v (e - fxBits) true

/-- The value next below, or next above, a magnitude that only the side of an exact value decides. -/
def Fmt.justBelow (f : Fmt) (rm : Rnd) (neg : Bool) (m : Nat) (e : Int) : Nat × FlagSet :=
  f.round rm neg (m * 2 ^ 200 - 1) (e - 200) true
def Fmt.justAbove (f : Fmt) (rm : Rnd) (neg : Bool) (m : Nat) (e : Int) : Nat × FlagSet :=
  f.round rm neg (m * 2 ^ 200) (e - 200) true

/-- m · 2^e is below 2^n. -/
def smallerThan (m : Nat) (e n : Int) : Bool := decide (e + (bitLen m : Int) ≤ n)

/-- m · 2^e is an integer. -/
def isWhole (m : Nat) (e : Int) : Bool := decide (0 ≤ e) || m % 2 ^ (-e).toNat == 0

/-! ## The functions -/

/-- VEXP2, R180. -/
def Fmt.exp2 (f : Fmt) (rm : Rnd) : FVal → Nat × FlagSet
  | .nan a => (f.nan, flagIf a flagNv)
  | .inf n => if n then (0, 0) else f.infinite false
  | .fin n m e =>
    if m = 0 then f.round rm false 1 0 false
    else if !smallerThan m e 12 then f.round rm false 1 (if n then -5000 else 5000) true
    else if smallerThan m e (-80) then (if n then f.justBelow rm false 1 0 else f.justAbove rm false 1 0)
    else
      let x : Int := if n then -(fxOf m e fxBits : Int) else fxOf m e fxBits
      let whole := x / fxOne
      if isWhole m e then f.round rm false 1 whole false
      else f.ofFx rm false (fxExp ((x % fxOne).toNat * fxLn2 / fxOne) 300 fxOne 1) whole

/-- VLOG2, R180. -/
def Fmt.log2 (f : Fmt) (rm : Rnd) : FVal → Nat × FlagSet
  | .nan a => (f.nan, flagIf a flagNv)
  | .inf n => if n then (f.nan, flagNv) else f.infinite false
  | .fin n m e =>
    if m = 0 then
      let (r, g) := f.infinite true
      (r, flagDz ||| g)
    else if n then (f.nan, flagNv)
    else
      let k := m.log2
      let whole : Int := e + k
      if m = 2 ^ k then f.deliver rm (.ofInt whole)
      else
        let t := fxOf m (-(k : Int)) fxBits
        let z := (t - fxOne) * fxOne / (t + fxOne)
        let ln := 2 * oddSeries (z * z) (fxOne * fxOne) 400 z 1
        let v : Int := whole * fxOne + (ln * fxOne / fxLn2 : Nat)
        f.ofFx rm (decide (v < 0)) v.natAbs 0

/-- VRCP, R180. -/
def Fmt.reciprocal (f : Fmt) (rm : Rnd) (x : FVal) : Nat × FlagSet := f.quotient rm (.fin false 1 0) x

/-- VRSQ, R180. -/
def Fmt.rootReciprocal (f : Fmt) (rm : Rnd) : FVal → Nat × FlagSet
  | .nan a => (f.nan, flagIf a flagNv)
  | .inf n => if n then (f.nan, flagNv) else (0, 0)
  | .fin n m e =>
    if m = 0 then
      let (r, g) := f.infinite n
      (r, flagDz ||| g)
    else if n then (f.nan, flagNv)
    else
      let m2 := if e % 2 = 0 then m else 2 * m
      let e2 := if e % 2 = 0 then e else e - 1
      let k := extraBits f + bitLen m2
      let v := 2 ^ (2 * k)
      let r := natSqrt (v / m2)
      f.round rm false r (-(e2 / 2) - k) (r * r * m2 != v)

/-- The reduction of a magnitude by π/2: the quadrant, and the rest as a fixed-point number. -/
def reduceAngle (m : Nat) (e : Int) : Nat × Nat :=
  let x := fxOf m e piBits
  let k := 2 * x / fxPi
  (k % 4, (2 * x - k * fxPi) / 2 ^ (piBits - fxBits + 1))

/-- VSIN, R180. -/
def Fmt.sine (f : Fmt) (rm : Rnd) : FVal → Nat × FlagSet
  | .nan a => (f.nan, flagIf a flagNv)
  | .inf _ => (f.nan, flagNv)
  | .fin n m e =>
    if m = 0 then f.round rm n 0 0 false
    else if smallerThan m e (-80) then f.justBelow rm n m e
    else
      let (q, r) := reduceAngle m e
      f.ofFx rm (n != decide (2 ≤ q)) (if q % 2 = 0 then fxSin r else fxCos r) 0

/-- VCOS, R180. -/
def Fmt.cosine (f : Fmt) (rm : Rnd) : FVal → Nat × FlagSet
  | .nan a => (f.nan, flagIf a flagNv)
  | .inf _ => (f.nan, flagNv)
  | .fin _ m e =>
    if m = 0 then f.round rm false 1 0 false
    else if smallerThan m e (-80) then f.justBelow rm false 1 0
    else
      let (q, r) := reduceAngle m e
      f.ofFx rm (q == 1 || q == 2) (if q % 2 = 0 then fxCos r else fxSin r) 0

/-- VTANH, R180. -/
def Fmt.tanh (f : Fmt) (rm : Rnd) : FVal → Nat × FlagSet
  | .nan a => (f.nan, flagIf a flagNv)
  | .inf n => f.round rm n 1 0 false
  | .fin n m e =>
    if m = 0 then f.round rm n 0 0 false
    else if smallerThan m e (-80) then f.justBelow rm n m e
    else if !smallerThan m e 6 then f.justBelow rm n 1 0
    else
      let y := 2 * fxOf m e fxBits
      let k := y / fxLn2
      let ex := fxExp (y % fxLn2) 300 fxOne 1 * 2 ^ k
      f.ofFx rm n ((ex - fxOne) * fxOne / (ex + fxOne)) 0

/-- R170, R180: a special function on every lane. -/
def special (gd : Guard) (d a : VReg) (t : ETy) (s : State) (fn : Fmt → Rnd → FVal → Nat × FlagSet) : Res :=
  half gd s fun s =>
    let f := etyFmt t s.finite
    s.setLanes d t.width ((s.lanesV a t.width).map fun x => fn f s.rnd (f.value x))

/-- VEXP2, R180. -/
def execVexp2 (gd : Guard) (d a : VReg) (t : ETy) (s : State) : Res := special gd d a t s Fmt.exp2
/-- VLOG2, R180. -/
def execVlog2 (gd : Guard) (d a : VReg) (t : ETy) (s : State) : Res := special gd d a t s Fmt.log2
/-- VRCP, R180. -/
def execVrcp (gd : Guard) (d a : VReg) (t : ETy) (s : State) : Res := special gd d a t s Fmt.reciprocal
/-- VRSQ, R180. -/
def execVrsq (gd : Guard) (d a : VReg) (t : ETy) (s : State) : Res := special gd d a t s Fmt.rootReciprocal
/-- VSQRT, R180. -/
def execVsqrt (gd : Guard) (d a : VReg) (t : ETy) (s : State) : Res := special gd d a t s Fmt.root
/-- VSIN, R180. -/
def execVsin (gd : Guard) (d a : VReg) (t : ETy) (s : State) : Res := special gd d a t s Fmt.sine
/-- VCOS, R180. -/
def execVcos (gd : Guard) (d a : VReg) (t : ETy) (s : State) : Res := special gd d a t s Fmt.cosine
/-- VTANH, R180. -/
def execVtanh (gd : Guard) (d a : VReg) (t : ETy) (s : State) : Res := special gd d a t s Fmt.tanh

end Sys2Proof.Machine
end

