-- ==== Sys2Proof/Machine/Dispatch.lean ====
section
/-!
DEFINITION. The meaning of every instruction: one arm for each constructor of Instr.
-/

namespace Sys2Proof.Machine

def exec (i : Instr) (s : State) : Host.Outcome State Fault Refusal :=
  match i with
  | .cnop gd => Sys2Proof.Machine.execCnop gd s
  | .isync gd => Sys2Proof.Machine.execIsync gd s
  | .eret gd => Sys2Proof.Machine.execEret gd s
  | .brk gd => Sys2Proof.Machine.execBrk gd s
  | .ret gd => Sys2Proof.Machine.execRet gd s
  | .jr gd a => Sys2Proof.Machine.execJr gd a s
  | .jlr gd a => Sys2Proof.Machine.execJlr gd a s
  | .leave gd => Sys2Proof.Machine.execLeave gd s
  | .quit gd => Sys2Proof.Machine.execQuit gd s
  | .split gd => Sys2Proof.Machine.execSplit gd s
  | .uiret gd => Sys2Proof.Machine.execUiret gd s
  | .trap gd i0 => Sys2Proof.Machine.execTrap gd i0 s
  | .br gd off => Sys2Proof.Machine.execBr gd off s
  | .jl gd off => Sys2Proof.Machine.execJl gd off s
  | .j gd off imm => Sys2Proof.Machine.execJ gd off imm s
  | .lpd gd d off => Sys2Proof.Machine.execLpd gd d off s
  | .enter gd i0 => Sys2Proof.Machine.execEnter gd i0 s
  | .crd gd d i0 => Sys2Proof.Machine.execCrd gd d i0 s
  | .cwr gd a i0 => Sys2Proof.Machine.execCwr gd a i0 s
  | .crset gd d a i0 => Sys2Proof.Machine.execCrset gd d a i0 s
  | .crclr gd d a i0 => Sys2Proof.Machine.execCrclr gd d a i0 s
  | .spawn gd d a b opts => Sys2Proof.Machine.execSpawn gd d a b opts s
  | .wait gd a => Sys2Proof.Machine.execWait gd a s
  | .gang gd d => Sys2Proof.Machine.execGang gd d s
  | .wfld gd d k => Sys2Proof.Machine.execWfld gd d k s
  | .kill gd d a k => Sys2Proof.Machine.execKill gd d a k s
  | .cmap gd d a => Sys2Proof.Machine.execCmap gd d a s
  | .ldb gd d a o i0 => Sys2Proof.Machine.execLdb gd d a o i0 s
  | .ldh gd d a o i0 => Sys2Proof.Machine.execLdh gd d a o i0 s
  | .ldw gd d a o i0 => Sys2Proof.Machine.execLdw gd d a o i0 s
  | .ldd gd d a o i0 => Sys2Proof.Machine.execLdd gd d a o i0 s
  | .ldbz gd d a o i0 => Sys2Proof.Machine.execLdbz gd d a o i0 s
  | .ldhz gd d a o i0 => Sys2Proof.Machine.execLdhz gd d a o i0 s
  | .ldwz gd d a o i0 => Sys2Proof.Machine.execLdwz gd d a o i0 s
  | .ldv gd d a o i0 => Sys2Proof.Machine.execLdv gd d a o i0 s
  | .stb gd d a o i0 => Sys2Proof.Machine.execStb gd d a o i0 s
  | .sth gd d a o i0 => Sys2Proof.Machine.execSth gd d a o i0 s
  | .stw gd d a o i0 => Sys2Proof.Machine.execStw gd d a o i0 s
  | .std gd d a o i0 => Sys2Proof.Machine.execStd gd d a o i0 s
  | .stv gd d a o i0 => Sys2Proof.Machine.execStv gd d a o i0 s
  | .lds gd d a => Sys2Proof.Machine.execLds gd d a s
  | .sts gd d a => Sys2Proof.Machine.execSts gd d a s
  | .shp gd d a b => Sys2Proof.Machine.execShp gd d a b s
  | .tfadd gd d a b => Sys2Proof.Machine.execTfadd gd d a b s
  | .rdr gd d a n => Sys2Proof.Machine.execRdr gd d a n s
  | .migr gd a => Sys2Proof.Machine.execMigr gd a s
  | .tam gd d a b op => Sys2Proof.Machine.execTam gd d a b op s
  | .lea gd d a i0 => Sys2Proof.Machine.execLea gd d a i0 s
  | .dtld gd t a => Sys2Proof.Machine.execDtld gd t a s
  | .dtst gd t a => Sys2Proof.Machine.execDtst gd t a s
  | .send gd d a v mb => Sys2Proof.Machine.execSend gd d a v mb s
  | .sendL gd a b tag len => Sys2Proof.Machine.execSendL gd a b tag len s
  | .recv gd d a v => Sys2Proof.Machine.execRecv gd d a v s
  | .mbc gd d k => Sys2Proof.Machine.execMbc gd d k s
  | .waitc gd d a k => Sys2Proof.Machine.execWaitc gd d a k s
  | .mbclr gd d a => Sys2Proof.Machine.execMbclr gd d a s
  | .mcast gd d a => Sys2Proof.Machine.execMcast gd d a s
  | .mclaim gd d soft => Sys2Proof.Machine.execMclaim gd d soft s
  | .mrel gd => Sys2Proof.Machine.execMrel gd s
  | .mzero gd t => Sys2Proof.Machine.execMzero gd t s
  | .mload gd t a b => Sys2Proof.Machine.execMload gd t a b s
  | .mdrain gd t a b => Sys2Proof.Machine.execMdrain gd t a b s
  | .mdrainr gd d a b => Sys2Proof.Machine.execMdrainr gd d a b s
  | .mcmd gd d a b => Sys2Proof.Machine.execMcmd gd d a b s
  | .mstat gd d clr => Sys2Proof.Machine.execMstat gd d clr s
  | .mmac gd t a b z bv av sr steps => Sys2Proof.Machine.execMmac gd t a b z bv av sr steps s
  | .ldfe gd d a o => Sys2Proof.Machine.execLdfe gd d a o s
  | .ldff gd d a o => Sys2Proof.Machine.execLdff gd d a o s
  | .stef gd a b o => Sys2Proof.Machine.execStef gd a b o s
  | .stff gd a b o => Sys2Proof.Machine.execStff gd a b o s
  | .lrw gd d a o => Sys2Proof.Machine.execLrw gd d a o s
  | .sch gd a b o => Sys2Proof.Machine.execSch gd a b o s
  | .sdrop gd a o => Sys2Proof.Machine.execSdrop gd a o s
  | .amo gd d a b o op => Sys2Proof.Machine.execAmo gd d a b o op s
  | .afadd gd d a b o => Sys2Proof.Machine.execAfadd gd d a b o s
  | .acas gd d a b o => Sys2Proof.Machine.execAcas gd d a b o s
  | .rupd gd a b imm => Sys2Proof.Machine.execRupd gd a b imm s
  | .halloc gd d a b => Sys2Proof.Machine.execHalloc gd d a b s
  | .hfree gd d a => Sys2Proof.Machine.execHfree gd d a s
  | .hq gd d a item => Sys2Proof.Machine.execHq gd d a item s
  | .qpush gd d a v w blk => Sys2Proof.Machine.execQpush gd d a v w blk s
  | .qpop gd d a v w blk => Sys2Proof.Machine.execQpop gd d a v w blk s
  | .qcnt gd d a => Sys2Proof.Machine.execQcnt gd d a s
  | .qmake gd d a b => Sys2Proof.Machine.execQmake gd d a b s
  | .qfree gd d a => Sys2Proof.Machine.execQfree gd d a s
  | .tenq gd d v => Sys2Proof.Machine.execTenq gd d v s
  | .tdep gd d a => Sys2Proof.Machine.execTdep gd d a s
  | .tcan gd d a => Sys2Proof.Machine.execTcan gd d a s
  | .svsl gd d a b => Sys2Proof.Machine.execSvsl gd d a b s
  | .ldsl gd d a b => Sys2Proof.Machine.execLdsl gd d a b s
  | .tinvl gd a b => Sys2Proof.Machine.execTinvl gd a b s
  | .hinv gd => Sys2Proof.Machine.execHinv gd s
  | .tcall gd d a n => Sys2Proof.Machine.execTcall gd d a n s
  | .tnext gd d a c => Sys2Proof.Machine.execTnext gd d a c s
  | .tans gd a b => Sys2Proof.Machine.execTans gd a b s
  | .tend gd a => Sys2Proof.Machine.execTend gd a s
  | .tfail gd a => Sys2Proof.Machine.execTfail gd a s
  | .tinv gd d a => Sys2Proof.Machine.execTinv gd d a s
  | .tstat gd d a item => Sys2Proof.Machine.execTstat gd d a item s
  | .ptask gd d a b k e => Sys2Proof.Machine.execPtask gd d a b k e s
  | .cpyq gd d a blk => Sys2Proof.Machine.execCpyq gd d a blk s
  | .permit gd d a n => Sys2Proof.Machine.execPermit gd d a n s
  | .cpst gd d a item => Sys2Proof.Machine.execCpst gd d a item s
  | .fence gd => Sys2Proof.Machine.execFence gd s
  | .fenceAcq gd => Sys2Proof.Machine.execFenceAcq gd s
  | .fenceRel gd => Sys2Proof.Machine.execFenceRel gd s
  | .parr gd d a b => Sys2Proof.Machine.execParr gd d a b s
  | .pwait gd d a b => Sys2Proof.Machine.execPwait gd d a b s
  | .pinit gd d a b => Sys2Proof.Machine.execPinit gd d a b s
  | .anop gd => Sys2Proof.Machine.execAnop gd s
  | .add gd d a b => Sys2Proof.Machine.execAdd gd d a b s
  | .sub gd d a b => Sys2Proof.Machine.execSub gd d a b s
  | .and gd d a b => Sys2Proof.Machine.execAnd gd d a b s
  | .or gd d a b => Sys2Proof.Machine.execOr gd d a b s
  | .xor gd d a b => Sys2Proof.Machine.execXor gd d a b s
  | .sll gd d a b => Sys2Proof.Machine.execSll gd d a b s
  | .srl gd d a b => Sys2Proof.Machine.execSrl gd d a b s
  | .sra gd d a b => Sys2Proof.Machine.execSra gd d a b s
  | .mul gd d a b => Sys2Proof.Machine.execMul gd d a b s
  | .mulh gd d a b => Sys2Proof.Machine.execMulh gd d a b s
  | .mulhu gd d a b => Sys2Proof.Machine.execMulhu gd d a b s
  | .div gd d a b => Sys2Proof.Machine.execDiv gd d a b s
  | .divu gd d a b => Sys2Proof.Machine.execDivu gd d a b s
  | .rem gd d a b => Sys2Proof.Machine.execRem gd d a b s
  | .remu gd d a b => Sys2Proof.Machine.execRemu gd d a b s
  | .min gd d a b => Sys2Proof.Machine.execMin gd d a b s
  | .minu gd d a b => Sys2Proof.Machine.execMinu gd d a b s
  | .max gd d a b => Sys2Proof.Machine.execMax gd d a b s
  | .maxu gd d a b => Sys2Proof.Machine.execMaxu gd d a b s
  | .clz gd d a => Sys2Proof.Machine.execClz gd d a s
  | .ctz gd d a => Sys2Proof.Machine.execCtz gd d a s
  | .popc gd d a => Sys2Proof.Machine.execPopc gd d a s
  | .brev gd d a => Sys2Proof.Machine.execBrev gd d a s
  | .addi gd d a i0 => Sys2Proof.Machine.execAddi gd d a i0 s
  | .andi gd d a i0 => Sys2Proof.Machine.execAndi gd d a i0 s
  | .ori gd d a i0 => Sys2Proof.Machine.execOri gd d a i0 s
  | .xori gd d a i0 => Sys2Proof.Machine.execXori gd d a i0 s
  | .slli gd d a sh => Sys2Proof.Machine.execSlli gd d a sh s
  | .srli gd d a sh => Sys2Proof.Machine.execSrli gd d a sh s
  | .srai gd d a sh => Sys2Proof.Machine.execSrai gd d a sh s
  | .ext gd d a pos wm1 => Sys2Proof.Machine.execExt gd d a pos wm1 s
  | .li gd d i0 => Sys2Proof.Machine.execLi gd d i0 s
  | .lui1 gd d c => Sys2Proof.Machine.execLui1 gd d c s
  | .lui2 gd d c => Sys2Proof.Machine.execLui2 gd d c s
  | .lui3 gd d c => Sys2Proof.Machine.execLui3 gd d c s
  | .cmp gd d a b c => Sys2Proof.Machine.execCmp gd d a b c s
  | .band gd d a b => Sys2Proof.Machine.execBand gd d a b s
  | .bor gd d a b => Sys2Proof.Machine.execBor gd d a b s
  | .bxor gd d a b => Sys2Proof.Machine.execBxor gd d a b s
  | .bnot gd d a => Sys2Proof.Machine.execBnot gd d a s
  | .bmov gd d a => Sys2Proof.Machine.execBmov gd d a s
  | .bpack gd d => Sys2Proof.Machine.execBpack gd d s
  | .bunpk gd a => Sys2Proof.Machine.execBunpk gd a s
  | .sel gd d a b p => Sys2Proof.Machine.execSel gd d a b p s
  | .fadd gd d a b f => Sys2Proof.Machine.execFadd gd d a b f s
  | .fsub gd d a b f => Sys2Proof.Machine.execFsub gd d a b f s
  | .fmul gd d a b f => Sys2Proof.Machine.execFmul gd d a b f s
  | .fdiv gd d a b f => Sys2Proof.Machine.execFdiv gd d a b f s
  | .fsqrt gd d a f => Sys2Proof.Machine.execFsqrt gd d a f s
  | .fmin gd d a b f => Sys2Proof.Machine.execFmin gd d a b f s
  | .fmax gd d a b f => Sys2Proof.Machine.execFmax gd d a b f s
  | .fabs gd d a f => Sys2Proof.Machine.execFabs gd d a f s
  | .fneg gd d a f => Sys2Proof.Machine.execFneg gd d a f s
  | .fsgnj gd d a b f => Sys2Proof.Machine.execFsgnj gd d a b f s
  | .fclass gd d a f => Sys2Proof.Machine.execFclass gd d a f s
  | .fcvt gd d a f => Sys2Proof.Machine.execFcvt gd d a f s
  | .fcvti gd d a tr u f => Sys2Proof.Machine.execFcvti gd d a tr u f s
  | .icvtf gd d a u f => Sys2Proof.Machine.execIcvtf gd d a u f s
  | .fma gd d a b f => Sys2Proof.Machine.execFma gd d a b f s
  | .fms gd d a b f => Sys2Proof.Machine.execFms gd d a b f s
  | .fnma gd d a b f => Sys2Proof.Machine.execFnma gd d a b f s
  | .fcmp gd d a b f c => Sys2Proof.Machine.execFcmp gd d a b f c s
  | .vadd gd d a b t => Sys2Proof.Machine.execVadd gd d a b t s
  | .vsub gd d a b t => Sys2Proof.Machine.execVsub gd d a b t s
  | .vmul gd d a b t => Sys2Proof.Machine.execVmul gd d a b t s
  | .vmin gd d a b t => Sys2Proof.Machine.execVmin gd d a b t s
  | .vmax gd d a b t => Sys2Proof.Machine.execVmax gd d a b t s
  | .vabs gd d a t => Sys2Proof.Machine.execVabs gd d a t s
  | .vneg gd d a t => Sys2Proof.Machine.execVneg gd d a t s
  | .vand gd d a b t => Sys2Proof.Machine.execVand gd d a b t s
  | .vor gd d a b t => Sys2Proof.Machine.execVor gd d a b t s
  | .vxor gd d a b t => Sys2Proof.Machine.execVxor gd d a b t s
  | .vsll gd d a b t => Sys2Proof.Machine.execVsll gd d a b t s
  | .vsrl gd d a b t => Sys2Proof.Machine.execVsrl gd d a b t s
  | .vsra gd d a b t => Sys2Proof.Machine.execVsra gd d a b t s
  | .vmov gd d a t => Sys2Proof.Machine.execVmov gd d a t s
  | .vfma gd d a b t => Sys2Proof.Machine.execVfma gd d a b t s
  | .vfms gd d a b t => Sys2Proof.Machine.execVfms gd d a b t s
  | .vcmp gd d a b t c => Sys2Proof.Machine.execVcmp gd d a b t c s
  | .vsel gd d a b m => Sys2Proof.Machine.execVsel gd d a b m s
  | .vbc gd d a t => Sys2Proof.Machine.execVbc gd d a t s
  | .vext gd d a i0 t => Sys2Proof.Machine.execVext gd d a i0 t s
  | .vins gd d a i0 t => Sys2Proof.Machine.execVins gd d a i0 t s
  | .vperm gd d a b t => Sys2Proof.Machine.execVperm gd d a b t s
  | .vslide gd d a sh t => Sys2Proof.Machine.execVslide gd d a sh t s
  | .vredAdd gd d a t => Sys2Proof.Machine.execVredAdd gd d a t s
  | .vredMin gd d a t => Sys2Proof.Machine.execVredMin gd d a t s
  | .vredMax gd d a t => Sys2Proof.Machine.execVredMax gd d a t s
  | .vscanAdd gd d a t => Sys2Proof.Machine.execVscanAdd gd d a t s
  | .vwid gd d a k t => Sys2Proof.Machine.execVwid gd d a k t s
  | .vnar gd d a k t => Sys2Proof.Machine.execVnar gd d a k t s
  | .vexp2 gd d a t => Sys2Proof.Machine.execVexp2 gd d a t s
  | .vlog2 gd d a t => Sys2Proof.Machine.execVlog2 gd d a t s
  | .vrcp gd d a t => Sys2Proof.Machine.execVrcp gd d a t s
  | .vrsq gd d a t => Sys2Proof.Machine.execVrsq gd d a t s
  | .vsqrt gd d a t => Sys2Proof.Machine.execVsqrt gd d a t s
  | .vsin gd d a t => Sys2Proof.Machine.execVsin gd d a t s
  | .vcos gd d a t => Sys2Proof.Machine.execVcos gd d a t s
  | .vtanh gd d a t => Sys2Proof.Machine.execVtanh gd d a t s
  | .mand gd d a b => Sys2Proof.Machine.execMand gd d a b s
  | .mor gd d a b => Sys2Proof.Machine.execMor gd d a b s
  | .mnot gd d a => Sys2Proof.Machine.execMnot gd d a s
  | .mpop gd d a => Sys2Proof.Machine.execMpop gd d a s
  | .rep gd len cnt str st => Sys2Proof.Machine.execRep gd len cnt str st s
  | .t8enc gd d a k sr t dt => Sys2Proof.Machine.execT8enc gd d a k sr t dt s
  | .t8dec gd d a k t dt => Sys2Proof.Machine.execT8dec gd d a k t dt s
  | .vcvt gd d a k ts td sr => Sys2Proof.Machine.execVcvt gd d a k ts td sr s
  | .fetchMissFill slot => Sys2Proof.Machine.execFetchMissFill slot s
  | .operationComplete slot => Sys2Proof.Machine.execOperationComplete slot s
  | .contextLoaded slot => Sys2Proof.Machine.execContextLoaded slot s
  | .drainComplete slot => Sys2Proof.Machine.execDrainComplete slot s
  | .quitComplete slot => Sys2Proof.Machine.execQuitComplete slot s
  | .waitDeadline slot => Sys2Proof.Machine.execWaitDeadline slot s
  | .migrationPacketSend slot => Sys2Proof.Machine.execMigrationPacketSend slot s
  | .migrantLanding pkt => Sys2Proof.Machine.execMigrantLanding pkt s
  | .landingAdmit core => Sys2Proof.Machine.execLandingAdmit core s
  | .spawnPacketArrival pkt => Sys2Proof.Machine.execSpawnPacketArrival pkt s
  | .spillToAdmit core => Sys2Proof.Machine.execSpillToAdmit core s
  | .spillForClass slot => Sys2Proof.Machine.execSpillForClass slot s
  | .spillRecordWritten slot fails => Sys2Proof.Machine.execSpillRecordWritten slot fails s
  | .resume idx slot => Sys2Proof.Machine.execResume idx slot s
  | .messageLanding slot => Sys2Proof.Machine.execMessageLanding slot s
  | .wakeUpLanding pkt => Sys2Proof.Machine.execWakeUpLanding pkt s
  | .dataLanding slot => Sys2Proof.Machine.execDataLanding slot s
  | .remoteRead slot => Sys2Proof.Machine.execRemoteRead slot s
  | .accessAccepted slot n => Sys2Proof.Machine.execAccessAccepted slot n s
  | .fullEmptyRequest slot => Sys2Proof.Machine.execFullEmptyRequest slot s
  | .reservationRequest slot => Sys2Proof.Machine.execReservationRequest slot s
  | .phaseRequest slot => Sys2Proof.Machine.execPhaseRequest slot s
  | .weltSwitchArrival req => Sys2Proof.Machine.execWeltSwitchArrival req s
  | .pairingWindowExpiry req => Sys2Proof.Machine.execPairingWindowExpiry req s
  | .combinedReplySplit req => Sys2Proof.Machine.execCombinedReplySplit req s
  | .queueHomeOperation slot => Sys2Proof.Machine.execQueueHomeOperation slot s
  | .blockRelocation tenant handle block dest => Sys2Proof.Machine.execBlockRelocation tenant handle block dest s
  | .relocationCutover tenant handle block => Sys2Proof.Machine.execRelocationCutover tenant handle block s
  | .layerFault stack layer => Sys2Proof.Machine.execLayerFault stack layer s
  | .layerWake stack layer => Sys2Proof.Machine.execLayerWake stack layer s
  | .layerReturnActive stack layer => Sys2Proof.Machine.execLayerReturnActive stack layer s
  | .tapRetirement tile taps => Sys2Proof.Machine.execTapRetirement tile taps s
  | .busFailure tile => Sys2Proof.Machine.execBusFailure tile s
  | .tcmBankRetirement core bank => Sys2Proof.Machine.execTcmBankRetirement core bank s
  | .launchWindowWrite fn off data whole stream => Sys2Proof.Machine.execLaunchWindowWrite fn off data whole stream s
  | .launchPushStored fn => Sys2Proof.Machine.execLaunchPushStored fn s
  | .launchPop die tenant => Sys2Proof.Machine.execLaunchPop die tenant s
  | .launchHeaderArrival die idx => Sys2Proof.Machine.execLaunchHeaderArrival die idx s
  | .taskDispatch die task core => Sys2Proof.Machine.execTaskDispatch die task core s
  | .containmentRetry idx => Sys2Proof.Machine.execContainmentRetry idx s
  | .dispatchCountReport die idx => Sys2Proof.Machine.execDispatchCountReport die idx s
  | .throttleRequest die level => Sys2Proof.Machine.execThrottleRequest die level s
  | .orreryTick stack temps valves level pwr idle => Sys2Proof.Machine.execOrreryTick stack temps valves level pwr idle s
  | .matrixRemoteCommand slot => Sys2Proof.Machine.execMatrixRemoteCommand slot s
  | .matrixOpStart core => Sys2Proof.Machine.execMatrixOpStart core s
  | .matrixKstepComplete core => Sys2Proof.Machine.execMatrixKstepComplete core s
  | .copyTransferStart core => Sys2Proof.Machine.execCopyTransferStart core s
  | .copyChunk core id n => Sys2Proof.Machine.execCopyChunk core id n s
  | .permitRequest core id => Sys2Proof.Machine.execPermitRequest core id s
  | .permitRetryTimeout core id => Sys2Proof.Machine.execPermitRetryTimeout core id s
  | .copyCompletion core id => Sys2Proof.Machine.execCopyCompletion core id s
  | .completionDelivery slot => Sys2Proof.Machine.execCompletionDelivery slot s
  | .translationWalkComplete die tenant va => Sys2Proof.Machine.execTranslationWalkComplete die tenant va s
  | .cobblerAtomic slot => Sys2Proof.Machine.execCobblerAtomic slot s
  | .spdmGetMeasurements fn nonce => Sys2Proof.Machine.execSpdmGetMeasurements fn nonce s
  | .ideKm fn on => Sys2Proof.Machine.execIdeKm fn on s
  | .seal fn ok => Sys2Proof.Machine.execSeal fn ok s
  | .unseal fn ok => Sys2Proof.Machine.execUnseal fn ok s
  | .flashUpdate fn ok => Sys2Proof.Machine.execFlashUpdate fn ok s
  | .hostRegisterWrite fn off data whole stream => Sys2Proof.Machine.execHostRegisterWrite fn off data whole stream s
  | .packageReset masks banks clusters groups => Sys2Proof.Machine.execPackageReset masks banks clusters groups s
  | .plannedPowerDown stack layer => Sys2Proof.Machine.execPlannedPowerDown stack layer s
  | .scratchpadBankRetirement cluster => Sys2Proof.Machine.execScratchpadBankRetirement cluster s
  | .managementRingStall on => Sys2Proof.Machine.execManagementRingStall on s
  | .tenantTableWrite tenant idx data => Sys2Proof.Machine.execTenantTableWrite tenant idx data s
  | .memoryOwnerAssignment kind unit tenant => Sys2Proof.Machine.execMemoryOwnerAssignment kind unit tenant s
  | .tenantDestruction tenant => Sys2Proof.Machine.execTenantDestruction tenant s
  | .peerUnreachable peer exports => Sys2Proof.Machine.execPeerUnreachable peer exports s

end Sys2Proof.Machine
end

