-- ==== Sys2Proof/Machine/Turn.lean ====
section
/-!
DEFINITION. One turn of a slot (R5, R22, R25, R52): fetch, decode, the two halves, and the commit; the fixed
schedule that is followed when the agenda is empty (log entry 2); and where a fetched instruction is placed.
-/

namespace Sys2Proof.Machine

/-- The state after a half, or the state before it where the half stops. -/
def afterHalf (s : State) : Res → State
  | .next t => t
  | _ => s

/-- R25: the first of the traps of two halves that decode, with its state; none where neither traps. An illegal lane index
of an A-half, cause 0x01, counts as an execution cause, after those of the C-half: R171 does not say whether it is one or
an illegal encoding, and this is the model's choice (DEDUCED, log entry 83). -/
def firstTrap (c a : State) : Option State :=
  if c.trapped.isSome then some c else if a.trapped.isSome then some a else none

/-- A slot that parks to migrate with its bundle not committed (R155). -/
def Slot.leaving (x : Slot) : Bool :=
  match x.st with
  | .park (.migrate _ _ false _) _ _ _ => true
  | _ => false

/-- The step is over: no bundle executes. -/
def State.settleTurn (s : State) : State := { s with src := none, trapped := none, slow := false, raw := 0 }

/-- R131: an A-half reads the decode tables as they stood at issue, in s, whatever the C-half has made of them in sc. -/
def State.atIssue (s sc : State) : State := { sc with dts := s.dts }

/-- R25, R22: the bundle w with the halves c and a on the executing slot, at issue in state s; ex runs a half. A cause that the arbiter
of a parked C-half finds later comes after a trap of the A-half at issue: R25 does not order the two, and this is the model's choice
(log entry 110). -/
def State.runHalves (s : State) (w : W64) (c a : Instr) (ex : Instr → State → Res) : Res :=
  match ex c s with
  | .fault f => .fault f
  | .refused r => .refused r
  | .next sc =>
    match ex a s with
    | .fault f => .fault f
    | .refused r => .refused r
    | .next sa =>
      let old := s.me.ctx
      let late := match slowA a with | some g => s.slow && s.rd.holds g | none => false
      match firstTrap sc (if sc.me.leaving then s else sa) with
      | some t => .next t
      | none =>
        if sc.me.leaving then .next sc
        else if sc.me.st.isRun then
          match ex a (s.atIssue sc) with
          | .fault f => .fault f
          | .refused r => .refused r
          | .next t =>
            let t := { t with dts := sc.dts }
            let new := commitCtx old w t.me.ctx
            if late then
              .next ((t.modSlot t.cur fun x => { x with ctx := old, after := some new }).parkAt t.cur (.reply none) a [])
            else .next (t.modSlot t.cur fun x => { x with ctx := { new with pc := x.npc } })
        else .next (sc.modSlot sc.cur fun x =>
          match x.st with
          | .park _ _ _ _ => { x with after := some (commitCtx old w sa.me.ctx), slowA := late }
          | _ => x)

/-- R42, R22: the bundle w, fetched by slot k. -/
def State.runBundle (s : State) (k : Nat) (w : W64) (ex : Instr → State → Res) : Res :=
  let x := s.slot k
  match halves (caKind k) x.ctx.rep w with
  | none => .next (s.takeTrap k ⟨0x01, w⟩)
  | some (c, a) =>
    State.runHalves
      { (s.modSlot k fun x => { x with npc := x.ctx.pc + 8 }) with cur := k, src := some x.ctx, raw := w, trapped := none }
      w c a ex

/-- The turn of slot k begins (R52): the cycle is that of its turn. -/
def State.beginTurn (s : State) (k : Nat) (m : TurnMode) : State :=
  let c := nextTurn k (max s.cycle (s.slot k).due)
  let t := { s with cycle := c, cur := k, slow := m == TurnMode.slow, trapped := none, src := none }
  t.modSlot k fun x => { x with due := c + 1, slowA := x.slowA && !x.st.isRun }

/-- R55, R154: a thread whose bundle migrates leaves in the same turn where no earlier access of it is outstanding, and no divide,
root or special function of the bundle is in progress (R99, R171). The moment is the model's choice (log entry 120). -/
def State.depart (s : State) (k : Nat) : State := if (s.slot k).slowA then s else s.sendMigrant k

/-- One turn of slot k. A slot that is not in RUN issues nothing (R52). A completion record that is ready is delivered
first (R340). A fetch that memory holds waits (R242, R243). -/
def State.turn (s : State) (k : Nat) (m : TurnMode) (ex : Instr → State → Res) : Res :=
  let t := s.beginTurn k m
  let x := t.slot k
  let done : Res → Res := fun r => match r with | .next u => .next (u.settleTurn.depart k) | r => r
  if !x.st.isRun then .next t.settleTurn
  else
    match x.pend with
    | some p => done (.next ((t.modSlot k fun x => { x with pend := none }).takeTrap k p))
    | none =>
      let t := t.deliverRecord k
      match m with
      | .miss => done (.next (t.parkAt k .fetch (.cnop .always) []))
      | _ =>
        let old := m == TurnMode.stale && t.isCached k
        match (if old then t.fetchCached k else t.fetchFresh k) with
        | .error p => done (.next (t.takeTrap k p))
        | .ok w =>
          if old then done (t.runBundle k w ex)
          else if t.fetchHeld k then done (.next (t.parkAt k .fetch (.cnop .always) []))
          else done ((t.fetched k).runBundle k w ex)

end Sys2Proof.Machine
end

