-- ==== Sys2Proof/Machine/Schedule.lean ====
section
/-!
DEFINITION. The model's schedule (log entry 2): which act comes next, and how a fetched word is placed.
-/

namespace Sys2Proof.Machine

/-! ## Steps of the device that are due

The fixed schedule goes round by round: every step of the device that something waits for, then the turn that comes first.
Choices of the host, of the board and of firmware come by the agenda alone. -/

/-- The event by which an arbiter takes the operation in flight of a slot. -/
def portEvent (p : Port) (k : Nat) : Due :=
  match p with
  | .access => .accessAccepted k 0
  | .fullEmpty => .fullEmptyRequest k
  | .reservation => .reservationRequest k
  | .phase => .phaseRequest k
  | .queue => .queueHomeOperation k
  | .cobbler => .cobblerAtomic k
  | .matrix => .matrixRemoteCommand k
  | .message => .messageLanding k
  | .data => .dataLanding k
  | .remote => .remoteRead k
  | .other => .operationComplete k

/-- What a parked slot waits for. -/
def State.waitEvents (s : State) (k : Nat) (x : Slot) (w : Wait) (i : Instr) : List Due :=
  match w with
  | .reply _ | .kill _ _ | .save _ _ => [.operationComplete k]
  | .flight => [portEvent (portOf i x.ctx) k]
  | .fetch => [.fetchMissFill k]
  | .quit => [.quitComplete k]
  | .wait d => if d ≤ s.cycle then [.waitDeadline k] else if (s.readyRecord k).isSome then [.completionDelivery k] else []
  | .mailbox | .counter => if (s.readyRecord k).isSome then [.completionDelivery k] else []
  | .migrate _ _ _ _ => [.migrationPacketSend k]
  | _ => []

/-- What is due of a slot. -/
def State.slotEvents (s : State) (k : Nat) (x : Slot) : List Due :=
  let l : List Due :=
    match x.st with
    | .park w i _ _ => s.waitEvents k x w i
    | .resv => [.contextLoaded k]
    | .drain _ .flight i _ _ =>
      (match portOf i x.ctx with
       | .other => [.drainComplete k]
       | p => [portEvent p k])
    | .drain true (.reply _) _ _ _ | .saving _ _ => [.spillRecordWritten k 0]
    | .drain _ (.wait d) _ _ _ => if d ≤ s.cycle then [.waitDeadline k] else []
    | .drain _ (.migrate _ _ _ _) _ _ _ => [.migrationPacketSend k]
    | .drain _ _ _ _ _ => [.drainComplete k]
    | _ => []
  if x.out.isEmpty then l else .accessAccepted k 1 :: l

/-- What is due of a request in a Welt. -/
def WeltReq.events (cycle : Nat) (r : WeltReq) : List Due :=
  if r.stage ≤ 9 then (if r.held then (if r.expires ≤ cycle then [.pairingWindowExpiry r.id] else []) else [.weltSwitchArrival r.id])
  else
    match r.slots, r.i with
    | p :: _, .amo _ _ _ _ _ _ => [.accessAccepted p.1 0]
    | p :: _, _ => [.queueHomeOperation p.1]
    | [], _ => []

/-- What is due of a thread that travels. -/
def State.pktEvents (s : State) (p : Pkt) : List Due :=
  if !p.landed then [.migrantLanding p.id, .spawnPacketArrival p.id]
  else if (s.admissible (s.landed p.core)).isSome then [.landingAdmit p.core]
  else if (s.landingVictim p.core).isSome then [.spillToAdmit p.core]
  else []

/-- What is due of a copy engine. -/
def copyEvents (core : Nat) (e : CopyEng) : List Due :=
  .copyTransferStart core :: (e.reqs.filter CopyReq.running).flatMap fun r =>
    [.permitRequest core r.id, .permitRetryTimeout core r.id, .copyChunk core r.id 64, .copyCompletion core r.id]

/-- What is due of a function of the host link. -/
def HostFn.events (fn : Nat) (x : HostFn) : List Due :=
  (if x.pushes.isEmpty then [] else [.launchPushStored fn]) ++
    if !x.busy then []
    else
      match x.cmdAt 0 with
      | 1 => [.seal fn true]
      | 2 => [.unseal fn true]
      | _ => [.flashUpdate fn true]

/-- The die whose dispatch unit leads a tenant (R280). -/
def State.leadDie (s : State) (tenant : Nat) : Nat := caDie (s.bankOf (paDesc tenant (s.tt tenant 1)))

/-- What is due of launches, tasks and spilled threads. -/
def State.dispatchEvents (s : State) : List Due :=
  (s.tenants.filterMap fun e =>
      if e.1 % 32 = 1 && !(s.queue (paDesc (e.1 / 32) e.2)).entries.isEmpty then
        some (Due.launchPop (s.leadDie (e.1 / 32)) (e.1 / 32))
      else none) ++
    (s.launches.zipIdx.flatMap fun e =>
      (e.1.toDies.map fun d => Due.launchHeaderArrival d e.2) ++ (if e.1.redo.isEmpty then [] else [.containmentRetry e.2]) ++
        if s.launchOver e.1 then [.dispatchCountReport (s.leadDie (e.1.tenant.toNat % 256)) e.2] else []) ++
    (s.tasks.flatMap fun e =>
      if e.2.st != .ready then []
      else
        match (List.range 1024).find? fun i => s.taskFits (e.1 / 2 ^ 16) e.2 (caOfIndex (e.1 / 2 ^ 16) i) with
        | some i => [Due.taskDispatch (e.1 / 2 ^ 16) (e.1 % 2 ^ 16) (caOfIndex (e.1 / 2 ^ 16) i)]
        | none =>
          if e.2.since + 16384 ≤ s.cycle then (s.classVictim (e.1 / 2 ^ 16) e.2).toList.map Due.spillForClass else []) ++
    s.spilled.zipIdx.flatMap fun e => if e.1.soft then [] else (s.resumeSlots e.1).head?.toList.map (Due.resume e.2)

/-- R243: something waits that a sleeping layer may hold. -/
def State.memoryWanted (s : State) : Bool :=
  (s.slots.any fun e =>
      !e.2.out.isEmpty ||
        match e.2.st with
        | .park .flight _ _ _ | .park .fetch _ _ _ | .saving _ _ | .drain _ _ _ _ _ => true
        | _ => false) ||
    !s.events.isEmpty || !s.welt.isEmpty || !s.spilled.isEmpty || !s.launches.isEmpty ||
    (s.copy.any fun e => e.2.reqs.any CopyReq.running) || s.fns.any fun e => !e.2.pushes.isEmpty

/-- R244, R290: the taps out of service whose bank cores still run a thread that a spill can take now. -/
def State.tapEvents (s : State) : List Due :=
  s.slots.filterMap fun e =>
    if caKind e.1 == .bank && !s.inService (caCore e.1) && e.2.spillable && s.poolRoom e.2.ctx.ten then
      some (.tapRetirement (caTileOf e.1) (1#2 <<< caTap e.1))
    else none

/-- The operation of a slot that its arbiter has still to take. -/
def Slot.inFlight (x : Slot) : Option Instr :=
  match x.st with
  | .park .flight i _ _ | .drain _ .flight i _ _ => some i
  | _ => none

/-- R15, R55, R195, R284: of the steps that are due at one time, those that come first: what the dispatch unit starts, `tcan`, `tdep`,
kills, spills, resumes, landings at a mailbox port, those of a matrix drain among them, other operations, and arrivals. -/
def State.dueRank (s : State) (d : Due) : Nat :=
  match d with
  | .operationComplete k | .drainComplete k =>
    (match (s.slot k).instr, (s.slot k).inFlight with
     | some (.kill _ _ _ _), _ => 3
     | _, some (.tcan _ _ _) => 1
     | _, some (.tdep _ _ _) => 2
     | _, some (.mdrainr _ _ _ _) => 6
     | _, _ => 7)
  | .spillToAdmit _ | .spillForClass _ | .spillRecordWritten _ _ | .tapRetirement _ _ => 4
  | .resume _ _ => 5
  | .taskDispatch _ _ _ => 0
  | .messageLanding _ | .dataLanding _ | .wakeUpLanding _ | .copyChunk _ _ _ | .copyCompletion _ _ | .matrixKstepComplete _ => 6
  | .migrantLanding _ | .landingAdmit _ | .spawnPacketArrival _ => 8
  | _ => 7

/-- Every step of the device that something waits for, in the order in which the fixed schedule takes them. -/
def State.dueEvents (s : State) : List Due :=
  sortBy s.dueRank <|
  (s.slots.flatMap fun e => s.slotEvents e.1 e.2) ++ s.welt.flatMap (WeltReq.events s.cycle) ++
    (s.replies.map fun r => Due.combinedReplySplit r.id) ++ s.pkts.flatMap s.pktEvents ++
    (s.wakes.map fun w => Due.wakeUpLanding w.id) ++
    (s.blks.filterMap fun e =>
      if e.2.dest.isSome then some (Due.relocationCutover (e.1 / 2 ^ 48) (e.1 / 2 ^ 28 % 2 ^ 20) (e.1 % 2 ^ 28)) else none) ++
    (if s.memoryWanted then
      s.layers.filterMap fun e => if e.2 = 1 then some (Due.layerWake (e.1 / 8) (e.1 % 8)) else none
    else []) ++ s.tapEvents ++
    (s.mat.flatMap fun e => [Due.matrixOpStart e.1, .matrixKstepComplete e.1]) ++
    (s.copy.flatMap fun e => copyEvents e.1 e.2) ++ (s.fns.flatMap fun e => e.2.events e.1) ++ s.dispatchEvents

/-- The slot in RUN whose turn comes first, with the cycle of that turn. -/
def State.firstTurn (s : State) : Option (Nat × Nat) :=
  let l := s.slots.filterMap fun e => if e.2.st.isRun then some (nextTurn e.1 (max s.cycle e.2.due), e.1) else none
  (sortBy Prod.fst l).head?

/-- The first moment still to come at which a `wait` ends (R73), a landed thread has waited long enough (R193), or a READY
task has (R289). -/
def State.firstDeadline (s : State) : Option Nat :=
  let waits := s.slots.filterMap fun e => match e.2.waits with | some (.wait d, _) => some d | _ => none
  let lands := (s.pkts.filter Pkt.landed).flatMap fun p =>
    let u := if caKind p.core = .bank then 2 else 1
    [s.waitsSince p + 4096 * u, s.waitsSince p + 8192 * u]
  let tasks := (s.tasks.filter fun e => e.2.st == .ready).map fun e => e.2.since + 16384
  (sortBy id ((waits ++ lands ++ tasks).filter fun d => decide (s.cycle < d) && decide (d < 2 ^ 64))).head?

/-- The turn that comes first, or the cycles until a deadline that comes before it; one at a time while steps are due. -/
def State.nextMove (s : State) : Act :=
  let wait (d : Nat) : Act := .tick (if s.dueEvents.isEmpty then d - s.cycle else 1)
  match s.firstTurn, s.firstDeadline with
  | some (t, k), some d => if d ≤ t then wait d else .turn k .plain
  | some (_, k), none => .turn k .plain
  | none, some d => wait d
  | none, none => .tick 1

/-- The next act, and the state without it. A round of the fixed schedule is every step that is due, then a move. -/
def State.nextAct (s : State) : Act × State :=
  match s.agenda with
  | a :: t => (a, { s with agenda := t })
  | [] =>
    match s.dueEvents with
    | [] => (.move, s)
    | d :: t => (.due d, { s with agenda := t.map Act.due ++ [.move] })

/-- The meaning of a step that is due. -/
def Due.run (d : Due) (s : State) : Res :=
  match d with
  | .fetchMissFill slot => execFetchMissFill slot s
  | .operationComplete slot => execOperationComplete slot s
  | .contextLoaded slot => execContextLoaded slot s
  | .drainComplete slot => execDrainComplete slot s
  | .quitComplete slot => execQuitComplete slot s
  | .waitDeadline slot => execWaitDeadline slot s
  | .migrationPacketSend slot => execMigrationPacketSend slot s
  | .migrantLanding pkt => execMigrantLanding pkt s
  | .landingAdmit core => execLandingAdmit core s
  | .spawnPacketArrival pkt => execSpawnPacketArrival pkt s
  | .spillToAdmit core => execSpillToAdmit core s
  | .spillForClass slot => execSpillForClass slot s
  | .spillRecordWritten slot fails => execSpillRecordWritten slot fails s
  | .resume idx slot => execResume idx slot s
  | .messageLanding slot => execMessageLanding slot s
  | .wakeUpLanding pkt => execWakeUpLanding pkt s
  | .dataLanding slot => execDataLanding slot s
  | .remoteRead slot => execRemoteRead slot s
  | .accessAccepted slot n => execAccessAccepted slot n s
  | .fullEmptyRequest slot => execFullEmptyRequest slot s
  | .reservationRequest slot => execReservationRequest slot s
  | .phaseRequest slot => execPhaseRequest slot s
  | .weltSwitchArrival req => execWeltSwitchArrival req s
  | .pairingWindowExpiry req => execPairingWindowExpiry req s
  | .combinedReplySplit req => execCombinedReplySplit req s
  | .queueHomeOperation slot => execQueueHomeOperation slot s
  | .relocationCutover tenant handle block => execRelocationCutover tenant handle block s
  | .layerWake stack layer => execLayerWake stack layer s
  | .tapRetirement tile taps => execTapRetirement tile taps s
  | .launchPushStored fn => execLaunchPushStored fn s
  | .launchPop die tenant => execLaunchPop die tenant s
  | .launchHeaderArrival die idx => execLaunchHeaderArrival die idx s
  | .taskDispatch die task core => execTaskDispatch die task core s
  | .containmentRetry idx => execContainmentRetry idx s
  | .dispatchCountReport die idx => execDispatchCountReport die idx s
  | .matrixRemoteCommand slot => execMatrixRemoteCommand slot s
  | .matrixOpStart core => execMatrixOpStart core s
  | .matrixKstepComplete core => execMatrixKstepComplete core s
  | .copyTransferStart core => execCopyTransferStart core s
  | .copyChunk core id n => execCopyChunk core id n s
  | .permitRequest core id => execPermitRequest core id s
  | .permitRetryTimeout core id => execPermitRetryTimeout core id s
  | .copyCompletion core id => execCopyCompletion core id s
  | .completionDelivery slot => execCompletionDelivery slot s
  | .cobblerAtomic slot => execCobblerAtomic slot s
  | .seal fn ok => execSeal fn ok s
  | .unseal fn ok => execUnseal fn ok s
  | .flashUpdate fn ok => execFlashUpdate fn ok s

/-- Perform one act that is no move. -/
def State.actNow (s : State) (a : Act) (ex : Instr → State → Res) : Res :=
  match a with
  | .turn k m => s.turn k m ex
  | .event i => ex i { s with src := none, trapped := none, slow := false }
  | .due d => d.run { s with src := none, trapped := none, slow := false }
  | .peer tenant off op => .next (s.servePeer tenant off op)
  | .tick n => .next { s with cycle := s.cycle + n }
  | .move => .next s

/-- Perform one act. -/
def State.act (s : State) (a : Act) (ex : Instr → State → Res) : Res :=
  match a with
  | .move => s.actNow s.nextMove ex
  | a => s.actNow a ex

/-- The bundle with one table word as its C-half or A-half. -/
def tableBundle (nbits w : Nat) : Nat := if tableIsA nbits w then w % 2 ^ 32 * 2 ^ 32 else w % 2 ^ 64

/-- The slot with core address k, running a thread of tenant 0 at the start of its own TCM (log entry 3). -/
def State.withThread (s : State) (k : Nat) : State :=
  let x := s.slot k
  if x.st.isRun && decide (x.ctx.pc.toNat < 0x20000) && !x.ctx.rep.act && x.pend.isNone && (s.readyRecord k).isNone then s
  else
    let (t, s) := s.newTid
    s.setSlot k { Slot.free with st := .run, tid := t }

/-- Place a bundle where the slot with core address 0 fetches next, and let its turn come next (log entry 3). -/
def State.placeBundle (s : State) (w : Nat) : State :=
  let t := s.withThread 0
  let pa := paTcm 0 (t.slot 0).ctx.pc.toNat
  { (t.writeN pa 8 w).setBad pa false with agenda := [.turn 0 .plain], stopped := false }

end Sys2Proof.Machine
end

