-- ==== Sys2Proof/Machine/Step.lean ====
section
/-!
DEFINITION. One step of the machine.
-/

namespace Sys2Proof.Machine

/-- The reset of the package, which a package that has stopped still takes. -/
def isReset : Act → Bool
  | .event (.packageReset _ _ _ _) => true
  | _ => false

/-- One step: the next act of the schedule (log entry 2). The part does nothing but take a reset once it has lost its
power (R373). -/
def step (s : State) : Host.Outcome State Fault Refusal :=
  if s.stopped && !isReset s.nextAct.1 then .fault .packageStopped
  else State.act s.nextAct.2 s.nextAct.1 exec

/-- The state with an instruction placed where the next step fetches it (log entry 3). -/
def State.withFetchWord (s : State) (nbits w : Nat) : State := s.placeBundle (tableBundle nbits w)

end Sys2Proof.Machine
end

