-- ==== Sys2Proof/Safety.lean ====
section
/-!
DEFINITION. What counts as a safe state: memory in its canonical form (equal memories are equal data), which every step
keeps.
-/

namespace Sys2Proof.Safety

open Sys2Proof.Machine

/-- Memory is in canonical form: addresses strictly rising, and no entry that an unlisted address reads as. -/
abbrev Memory.wf (m : SMap Byte) : Bool := smWf 0 m

/-- A state whose memory is in canonical form. -/
def memoryOk (s : State) : Bool := Memory.wf s.mem

end Sys2Proof.Safety
end

