-- ==== Sys2Proof/Certificates/Slice0/Obligations.lean ====
section
/-!
DEFINITION. The statements about the model: each is a proposition that says in the machine's own terms what rules of
spec/ say of it. Helpers stand first; they name what several statements have in common.
-/

namespace Sys2Proof.Claims

open Machine

/-- The executing slot issues and the guard of the half holds (R26). -/
abbrev Issues (gd : Guard) (s : State) : Prop := s.me.st.isRun = true ∧ s.rd.holds gd = true

/-- The registers that the executing bundle commits. -/
def live (s : State) : Ctx := s.me.after.getD s.me.ctx

/-- The guard of a half (R26); a step of the device has none. -/
def guardOf (i : Instr) : Option Guard :=
  match i.encode with
  | .none => none
  | .c f => some f.gd
  | .long f _ => some f.gd
  | .a f => some f.gd

/-- An A-half: integer, floating-point, vector and mask instructions, and `rep` (R30). -/
def isArith (i : Instr) : Bool :=
  match i.encode with
  | .a _ => true
  | _ => false

/-! ## Exact values (R88 to R97) -/

/-- The number that a finite value stands for. -/
def ratOf : FVal → Rat
  | .fin n m e => (if n then -1 else 1) * (m : Rat) * (2 : Rat) ^ e
  | _ => 0

/-- A finite value. -/
def isFin : FVal → Bool
  | .fin _ _ _ => true
  | _ => false

/-- R91: v is the exact sum of A and B, and fl holds the flags that the operation raises besides those of rounding. -/
def IsSum (rm : Rnd) (A B v : FVal) (fl : FlagSet) : Prop :=
  (A.isNan = true ∨ B.isNan = true → v = .nan false ∧ fl = flagIf (A.isSnan || B.isSnan) flagNv) ∧
  (A.isInf = true → B.isInf = true → if A.sign = B.sign then v = A ∧ fl = 0 else v = .nan false ∧ fl = flagNv) ∧
  (A.isInf = true → isFin B = true → v = A ∧ fl = 0) ∧ (isFin A = true → B.isInf = true → v = B ∧ fl = 0) ∧
  (isFin A = true → isFin B = true →
    isFin v = true ∧ ratOf v = ratOf A + ratOf B ∧ fl = 0 ∧
    (ratOf A + ratOf B = 0 →
      v.sign = if A.isZero && B.isZero && A.sign == B.sign then A.sign else rm == .rdn))

/-- R91: v is the exact product of A and B, and fl holds the flags that the operation raises besides those of rounding. -/
def IsProduct (A B v : FVal) (fl : FlagSet) : Prop :=
  (A.isNan = true ∨ B.isNan = true → v = .nan false ∧ fl = flagIf (A.isSnan || B.isSnan) flagNv) ∧
  ((A.isZero = true ∧ B.isInf = true) ∨ (A.isInf = true ∧ B.isZero = true) → v = .nan false ∧ fl = flagNv) ∧
  (A.isInf = true ∧ B.isNan = false ∧ B.isZero = false ∨ B.isInf = true ∧ A.isNan = false ∧ A.isZero = false →
    v = .inf (A.sign != B.sign) ∧ fl = 0) ∧
  (isFin A = true → isFin B = true →
    isFin v = true ∧ ratOf v = ratOf A * ratOf B ∧ fl = 0 ∧ v.sign = (A.sign != B.sign))

/-- The state after a scalar operation whose exact value is v, with the flags fl of the operation itself. -/
def delivers (f : FTy) (d : GReg) (v : FVal) (fl : FlagSet) (s : State) : State :=
  (s.setG d (w64 ((ftyFmt f).deliver s.rnd v).1)).raise (fl ||| ((ftyFmt f).deliver s.rnd v).2)

/-- A scalar operand as a value (R82). -/
def fpVal (f : FTy) (s : State) (r : GReg) : FVal := (ftyFmt f).value (fpRead f (s.g r))

/-- The place of a pattern that is no NaN in the order of numbers: -0 below +0, or, with zero, equal to it. -/
def fpKey (m : Fmt) (zero : Bool) (x : Nat) : Int :=
  if x / m.signBit % 2 = 1 then -((x % m.signBit : Nat) : Int) - (if zero then 0 else 1) else ((x % m.signBit : Nat) : Int)

/-- R88: n is the number E rounded to an integer. -/
def NearInt (rm : Rnd) (E : Rat) (n : Int) : Prop :=
  match rm with
  | .rne | .sr _ => -1 ≤ 2 * (E - (n : Rat)) ∧ 2 * (E - (n : Rat)) ≤ 1 ∧
      ((2 * (E - (n : Rat)) = 1 ∨ 2 * (E - (n : Rat)) = -1) → n % 2 = 0)
  | .rtz => if 0 ≤ E then (n : Rat) ≤ E ∧ E < (n : Rat) + 1 else E ≤ (n : Rat) ∧ (n : Rat) - 1 < E
  | .rup => E ≤ (n : Rat) ∧ (n : Rat) - 1 < E
  | .rdn => (n : Rat) ≤ E ∧ E < (n : Rat) + 1

/-- The magnitude of a number. -/
def mag (x : Rat) : Rat := if x < 0 then -x else x

/-- A number within the magnitude of another. -/
def within (x y : Rat) : Prop := mag x ≤ mag y

/-- R88: the mode takes E away from zero. -/
def goesAway (rm : Rnd) (E : Rat) : Bool := rm == .rup && decide (0 < E) || rm == .rdn && decide (E < 0)

/-- R89: E, rounded with unbounded exponent to the precision of m, lies at 2^k or beyond. -/
def reaches (m : Fmt) (rm : Rnd) (E : Rat) (k : Int) : Bool :=
  let p : Rat := (2 : Rat) ^ k
  let q : Rat := (2 : Rat) ^ m.frac
  if rm = .rne then decide (p * (1 - 1 / (4 * q)) ≤ mag E)
  else if goesAway rm E then decide (p * (1 - 1 / (2 * q)) < mag E)
  else decide (p ≤ mag E)

/-- R88 to R91: r is the nonzero number E rounded once, under a mode of `rmode`, into a format m of the IEEE reading. An
overflow gives an infinity, or the largest finite value where the mode keeps below it. A result that is finite is the nearest
to E, with ties to even, or the next on the side of the mode; nx says that it differs from E, and uf that it is tiny
besides. -/
def RoundsTo (m : Fmt) (rm : Rnd) (E : Rat) (r : Nat × FlagSet) : Prop :=
  let v := ratOf (m.value r.1)
  let some_ (x : Nat) : Prop := x < 2 ^ m.width ∧ isFin (m.value x) = true
  r.1 < 2 ^ m.width ∧ (r.1 / m.signBit % 2 = 1 ↔ E < 0) ∧
  (reaches m rm E (m.bias + 1) = true →
    r.2 = flagOf ||| flagNx ∧
    r.1 % m.signBit = if rm = .rne ∨ goesAway rm E = true then m.top * 2 ^ m.frac else m.top * 2 ^ m.frac - 1) ∧
  (reaches m rm E (m.bias + 1) = false →
    isFin (m.value r.1) = true ∧
    r.2 = (if v = E then 0 else if reaches m rm E (1 - m.bias) then flagNx else flagNx ||| flagUf) ∧
    (rm = .rtz → within v E) ∧ (rm = .rup → E ≤ v) ∧ (rm = .rdn → v ≤ E) ∧
    (rm ≠ .rne → ∀ x, some_ x →
      let w := ratOf (m.value x)
      ¬(v < w ∧ w ≤ E) ∧ ¬(E ≤ w ∧ w < v)) ∧
    (rm = .rne → ∀ x, some_ x →
      let w := ratOf (m.value x)
      within (v - E) (w - E) ∧ (mag (w - E) = mag (v - E) → w ≠ v → r.1 % 2 = 0)))

/-- R88, R91: r is the square root of the positive number E, rounded once into a format m. -/
def RootOf (m : Fmt) (rm : Rnd) (E : Rat) (r : Nat × FlagSet) : Prop :=
  let v := ratOf (m.value r.1)
  r.1 < 2 ^ m.width ∧ isFin (m.value r.1) = true ∧ 0 < v ∧ r.2 = (if v * v = E then 0 else flagNx) ∧
  (rm = .rtz ∨ rm = .rdn → v * v ≤ E) ∧ (rm = .rup → E ≤ v * v) ∧
  ∀ x, x < 2 ^ m.width → isFin (m.value x) = true →
    let w := ratOf (m.value x)
    0 < w →
      (rm ≠ .rne → ¬(v < w ∧ w * w ≤ E) ∧ ¬(E ≤ w * w ∧ w < v)) ∧
      (rm = .rne → (v < w → 4 * E ≤ (v + w) * (v + w)) ∧ (w < v → (v + w) * (v + w) ≤ 4 * E))

/-- R89, R126: r is the number E rounded once into a format m of the finite reading, in which what lies beyond the largest
value of its sign saturates. -/
def Saturates (m : Fmt) (rm : Rnd) (E : Rat) (r : Nat × FlagSet) : Prop :=
  let v := ratOf (m.value r.1)
  let some_ (x : Nat) : Prop := x < 2 ^ m.width ∧ isFin (m.value x) = true
  isFin (m.value r.1) = true ∧ (r.2.getLsbD 4 = true ↔ v ≠ E) ∧ (rm = .rtz → within v E) ∧
  (rm = .rup → (∃ x, some_ x ∧ E ≤ ratOf (m.value x)) → E ≤ v) ∧ (rm = .rdn → (∃ x, some_ x ∧ ratOf (m.value x) ≤ E) → v ≤ E) ∧
  ∀ x, some_ x →
    let w := ratOf (m.value x)
    ¬(v < w ∧ w ≤ E) ∧ ¬(E ≤ w ∧ w < v) ∧ (rm = .rne → within (v - E) (w - E))

/-- R135: r is the nonzero number E rounded into a format m by the 32 bits q that its element drew: a number
of the format as it is, one beyond the largest as to the nearest, and one between t and a, the next away from zero, a where q lies
below the part of the way from t to a, cut to 32 bits, that E stands at. -/
def DrawsTo (m : Fmt) (q : Nat) (E : Rat) (r : Nat × FlagSet) : Prop :=
  let v := ratOf (m.value r.1)
  let some_ (x : Nat) : Prop := x < 2 ^ m.width ∧ isFin (m.value x) = true
  (∀ x, some_ x → ratOf (m.value x) = E → v = E ∧ r.2 = 0) ∧
  ((∀ x, some_ x → mag (ratOf (m.value x)) < mag E) → if m.finite = true then Saturates m .rne E r else RoundsTo m .rne E r) ∧
  ∀ x y, some_ x → some_ y →
    let t := ratOf (m.value x)
    let a := ratOf (m.value y)
    0 ≤ t * E → 0 ≤ a * E → mag t < mag E → mag E < mag a →
    (∀ z, some_ z → 0 ≤ ratOf (m.value z) * E → ¬(mag t < mag (ratOf (m.value z)) ∧ mag (ratOf (m.value z)) < mag a)) →
      (r.1 / m.signBit % 2 = 1 ↔ E < 0) ∧ r.2 ||| flagUf = flagNx ||| flagUf ∧
      mag v = if (q : Rat) + 1 ≤ 2 ^ 32 * ((mag E - mag t) / (mag a - mag t)) then mag a else mag t

/-! ## Lanes (R167, R168, R172) -/

/-- The flags of fl are those that some of the first n results raise. -/
def FlagsOf (fl : FlagSet) (n : Nat) (r : Nat → Nat × FlagSet) : Prop :=
  ∀ b, fl.getLsbD b = true ↔ ∃ j, j < n ∧ (r j).2.getLsbD b = true

/-- A half that answers with vD written lane by lane: lane j, of w bits, holds the j-th result, and the flags of every lane
are raised. -/
def WritesLanes (s : State) (d : VReg) (w : Nat) (o : Res) (r : Nat → Nat × FlagSet) : Prop :=
  ∃ (v : BitVec 1024) (fl : FlagSet), o = .next ((s.setV d v).raise fl) ∧
    (∀ j, j < s.rd.lanes w → lane v w j = (r j).1 % 2 ^ w) ∧ FlagsOf fl (s.rd.lanes w) r

/-- Lane j of a vector register as the half reads it. -/
def laneOf (s : State) (a : VReg) (w j : Nat) : Nat := lane (s.rd.getV a) w j

/-- R91: r is the sum of A and B in the format F. -/
def Sums (F : Fmt) (rm : Rnd) (A B : FVal) (r : Nat × FlagSet) : Prop :=
  ∃ v fl, IsSum rm A B v fl ∧ r = ((F.deliver rm v).1, fl ||| (F.deliver rm v).2)

/-- R91: r is the product of A and B in the format F. -/
def Multiplies (F : Fmt) (rm : Rnd) (A B : FVal) (r : Nat × FlagSet) : Prop :=
  ∃ v fl, IsProduct A B v fl ∧ r = ((F.deliver rm v).1, fl ||| (F.deliver rm v).2)

/-- R92: r is A · B + D in the format F, rounded once. -/
def Fuses (F : Fmt) (rm : Rnd) (A B D : FVal) (r : Nat × FlagSet) : Prop :=
  ∃ p fp v fl, IsProduct A B p fp ∧ IsSum rm p D v fl ∧ r = ((F.deliver rm v).1, fp ||| fl ||| (F.deliver rm v).2)

/-- R93: r is the lesser or the greater of two patterns, as pick says, with the flags of that. -/
def Extreme (F : Fmt) (pick : Int → Int → Int) (x y : Nat) (r : Nat × FlagSet) : Prop :=
  let A := F.value x
  let B := F.value y
  r.2 = flagIf (A.isSnan || B.isSnan) flagNv ∧
  (A.isNan = true → B.isNan = true → r.1 = F.nan) ∧ (A.isNan = true → B.isNan = false → r.1 = y) ∧
  (A.isNan = false → B.isNan = true → r.1 = x) ∧
  (A.isNan = false → B.isNan = false →
    (r.1 = x ∨ r.1 = y) ∧ fpKey F false r.1 = pick (fpKey F false x) (fpKey F false y))

/-- R168: a lane as a signed number. -/
def signedLane (w x : Nat) : Int := (BitVec.ofNat w x).toInt

/-- R137: r is the element x of type ts converted to type td, under the reading and the rounding in force. A NaN gives the NaN of
its destination, or 0; an infinity stays one, or saturates; every finite number is rounded once, into an integer type with
saturation to its range; a wider type takes every number as it is. -/
def Converts (ts td : ETy) (finite : Bool) (rm : Rnd) (x : Nat) (r : Nat × FlagSet) : Prop :=
  let m := etyFmt td finite
  let A := (etyFmt ts finite).value x
  let n := signedLane ts.width x
  let lo : Int := -2 ^ (td.width - 1)
  let hi : Int := 2 ^ (td.width - 1) - 1
  let drawn : Prop := ∃ q, rm = .sr q
  let Rounded (E : Rat) : Prop :=
    (m.finite = false → ¬drawn → RoundsTo m rm E r) ∧ (m.finite = true → ¬drawn → Saturates m rm E r) ∧
    ∀ q, rm = .sr q → DrawsTo m q E r
  let Delivers (k : Int) : Prop := signedLane td.width r.1 = max lo (min hi k) ∧
    r.2 = if k < lo ∨ hi < k then flagNv else if (k : Rat) = ratOf A then 0 else flagNx
  r.1 < 2 ^ td.width ∧
  (ts.isFp = false → td.isFp = false → r.2 = 0 ∧ signedLane td.width r.1 = max lo (min hi n)) ∧
  (ts.isFp = false → td.isFp = true → (n = 0 → r = (0, 0)) ∧ (n ≠ 0 → Rounded n)) ∧
  (ts.isFp = true → td.isFp = false →
    (A.isNan = true → r = (0, flagNv)) ∧ (A.isInf = true → signedLane td.width r.1 = (if A.sign then lo else hi) ∧ r.2 = flagNv) ∧
    (isFin A = true → ¬drawn → ∃ k : Int, NearInt rm (ratOf A) k ∧ Delivers k) ∧
    ∀ q, isFin A = true → rm = .sr q →
      let E := ratOf A
      let lim : Int := if E < 0 then -lo else hi
      (lim < mag E → ∃ k : Int, NearInt .rne E k ∧ Delivers k) ∧
      (mag E ≤ lim → ∃ (k : Int) (t : Nat), (t : Rat) ≤ mag E ∧ mag E < (t : Rat) + 1 ∧ 0 ≤ (k : Rat) * E ∧
        mag k = (if (q : Rat) + 1 ≤ 2 ^ 32 * (mag E - t) then (t : Rat) + 1 else t) ∧ Delivers k)) ∧
  (ts.isFp = true → td.isFp = true →
    (A.isNan = true → r = (m.nan, flagIf A.isSnan flagNv)) ∧
    (A.isInf = true → r = if m.finite then (if A.sign then 2 ^ td.width - 2 else 2 ^ (td.width - 1) - 1, flagOf ||| flagNx)
      else (m.inf A.sign, 0)) ∧
    (A.isZero = true → r = (if A.sign then 2 ^ (td.width - 1) else 0, 0)) ∧
    (isFin A = true → A.isZero = false → Rounded (ratOf A)) ∧
    (isFin A = true → ts.width < td.width ∨ ts = td → finite = false ∨ ts ≠ .bf16 → r.2 = 0 ∧ ratOf (m.value r.1) = ratOf A))

/-- R178: the pairwise tree over 2^k values. -/
def treeOf (f : Nat → Nat → Nat × FlagSet) : Nat → (Nat → Nat) → Nat
  | 0, x => x 0
  | k + 1, x => treeOf f k fun j => (f (x (2 * j)) (x (2 * j + 1))).1

/-- R178: the flags that a bit of the steps of the tree raises. -/
def treeRaises (f : Nat → Nat → Nat × FlagSet) (b : Nat) : Nat → (Nat → Nat) → Prop
  | 0, _ => False
  | k + 1, x =>
    (∃ j, j < 2 ^ k ∧ (f (x (2 * j)) (x (2 * j + 1))).2.getLsbD b = true) ∨
      treeRaises f b k fun j => (f (x (2 * j)) (x (2 * j + 1))).1

/-- R178: the running result of the scan. -/
def runOf (f : Nat → Nat → Nat × FlagSet) (x : Nat → Nat) : Nat → Nat
  | 0 => x 0
  | j + 1 => (f (runOf f x j) (x (j + 1))).1

/-- R139 and R140: a conversion into cnt lanes of vD from lane lo on; every other lane keeps its value, the flags are raised,
and `srctr` steps where sr holds. -/
def ConvertsInto (s : State) (d : VReg) (w lo cnt : Nat) (sr : Bool) (o : Res) (r : Nat → Nat × FlagSet) : Prop :=
  ∃ (v : BitVec 1024) (fl : FlagSet),
    o = .next (let t := (s.setV d v).raise fl
      if sr then t.upd (Ctx.onCr fun c => { c with srctr := c.srctr + 1 }) else t) ∧
    (∀ j, j < s.rd.lanes w →
      lane v w j = if lo ≤ j ∧ j < lo + cnt then (r (j - lo)).1 % 2 ^ w else laneOf s d w j) ∧
    FlagsOf fl cnt r

/-! ## Accesses (R349, R353) -/

/-- An access may go on within the step that issues it: the bundle has read its registers, operations complete in their bundles, and neither the stores that it
waits for nor its own bytes are held by a layer that wakes or a block that moves (R242, R243). -/
def GoesOn (s : State) (p : OutStore → Bool) (l : List (Nat × Nat)) : Prop :=
  s.src.isSome = true ∧ s.slow = false ∧ (∀ o ∈ s.me.out, p o = true → s.storeHeld o = false) ∧ ∀ e ∈ l, s.isHeld e.1 = false

/-- The bytes pa to pa + n - 1 hold l after, and every other byte of memory is as before. -/
def StoresOnly (s t : State) (pa : Nat) (l : List Byte) : Prop :=
  ∀ a, t.byte a = if pa ≤ a ∧ a < pa + l.length then (l[a - pa]?).getD 0 else s.byte a

/-- The register files of the executing slot's context. -/
def SameFiles (c d : Ctx) : Prop := d.g = c.g ∧ d.b = c.b ∧ d.m = c.m ∧ d.h = c.h ∧ d.v = c.v

/-- R182: the sizes of the register files that the fields d, a and b of an A-word name; 0 where its format has no such field, or the
field holds a number. -/
def stepSizes (i : Instr) : List Nat :=
  match i with
  | .add .. | .sub .. | .and .. | .or .. | .xor .. | .sll .. | .srl .. | .sra .. | .mul .. | .mulh .. | .mulhu ..
  | .div .. | .divu .. | .rem .. | .remu .. | .min .. | .minu .. | .max .. | .maxu .. | .sel .. | .fadd .. | .fsub ..
  | .fmul .. | .fdiv .. | .fmin .. | .fmax .. | .fsgnj .. | .fma .. | .fms .. | .fnma .. => [32, 32, 32]
  | .clz .. | .ctz .. | .popc .. | .brev .. | .addi .. | .andi .. | .ori .. | .xori .. | .slli .. | .srli ..
  | .srai .. | .ext .. | .fsqrt .. | .fabs .. | .fneg .. | .fclass .. | .fcvt .. | .fcvti .. | .icvtf .. => [32, 32, 0]
  | .cmp .. | .fcmp .. => [8, 32, 32]
  | .band .. | .bor .. | .bxor .. => [8, 8, 8]
  | .bnot .. | .bmov .. => [8, 8, 0]
  | .bpack .. => [32, 0, 0]
  | .bunpk .. => [0, 32, 0]
  | .vadd .. | .vsub .. | .vmul .. | .vmin .. | .vmax .. | .vand .. | .vor .. | .vxor .. | .vsll .. | .vsrl ..
  | .vsra .. | .vfma .. | .vfms .. | .vsel .. | .vperm .. => [16, 16, 16]
  | .vabs .. | .vneg .. | .vmov .. | .vslide .. | .vredAdd .. | .vredMin .. | .vredMax .. | .vscanAdd .. | .vwid ..
  | .vnar .. | .vexp2 .. | .vlog2 .. | .vrcp .. | .vrsq .. | .vsqrt .. | .vsin .. | .vcos .. | .vtanh .. | .t8enc ..
  | .t8dec .. | .vcvt .. => [16, 16, 0]
  | .vcmp .. => [4, 16, 16]
  | .vbc .. | .vins .. => [16, 32, 0]
  | .vext .. => [32, 16, 0]
  | .mand .. | .mor .. => [4, 4, 4]
  | .mnot .. => [4, 4, 0]
  | .mpop .. => [32, 4, 0]
  | _ => [0, 0, 0]

/-! ## The hierarchy of work (R58, R60) -/

/-- The width of level k of a shape. -/
def levelWidth (shape : W64) (k : Nat) : Nat := shape.toNat / 2 ^ (7 * k) % 128

/-- The lowest bit of level k of a shape. -/
def levelLow (shape : W64) (k : Nat) : Nat := ((List.range k).map (levelWidth shape)).sum

/-- The number of levels of a shape. -/
def levelCount (shape : W64) : Nat := (List.range 6).countP fun k => decide (levelWidth shape k ≠ 0)

/-- The policy of level k of a shape (R59). -/
def levelPolicy (shape : W64) (k : Nat) : Nat := shape.toNat / 2 ^ (42 + 2 * k) % 4

/-- R59: a shape that a write to `wshape` accepts. -/
def ShapeFits (v : W64) : Prop :=
  v.toNat < 2 ^ 58 ∧ ((List.range 6).map (levelWidth v)).sum = 64 ∧ levelWidth v 0 ≠ 0 ∧
  (∀ k, k < 5 → levelWidth v k = 0 → levelWidth v (k + 1) = 0) ∧ ∀ k, k < 6 → levelWidth v k = 0 → levelPolicy v k = 0

/-- The threads that `kill` with this level and this `wid` names, for a caller with the registers c (R74). -/
def killed (c : Ctx) (level : Nat) (wid : W64) (key : ResvKey) : Bool :=
  let low := levelLow c.cr.wshape (min level (levelCount c.cr.wshape))
  key.tenant == c.cr.tenant && key.lnum == c.cr.lnum && key.wid.toNat / 2 ^ low == wid.toNat / 2 ^ low

/-- R62: a fault of a thread with the registers c is absorbed at level k with this action: 0 retry, 1 kill self, 2 kill parent;
and at no level, as level 7, with action 3. -/
def Absorbs (s : State) (c : Ctx) (k action : Nat) : Prop :=
  let sh := c.cr.wshape
  let tries : Option Nat := (s.launch c.cr.tenant c.cr.lnum).bind fun l => retryCount l k (c.cr.wid >>> levelLow sh k)
  let left : Bool := match tries with | some n => decide (n < sh.toNat / 2 ^ 54 % 16) | none => false
  (k < levelCount sh ∧ (∀ j, j < k → levelPolicy sh j = 0) ∧
    (levelPolicy sh k = 1 ∧ left = true ∧ action = 0 ∨ levelPolicy sh k = 1 ∧ left = false ∧ action = 2 ∨
      levelPolicy sh k = 2 ∧ action = 1 ∨ levelPolicy sh k = 3 ∧ action = 2)) ∨
  (k = 7 ∧ action = 3 ∧ ∀ j, j < levelCount sh → levelPolicy sh j = 0)

/-- R55, R63: no thread in this state goes on: the slot holds none, or only drains for a kill, or ends in `quit`. -/
def Gone (st : SlotSt) : Prop :=
  st.live = false ∨ (∃ w i sn n, st = .drain false w i sn n) ∨ ∃ i sn n, st = .park .quit i sn n

/-- R63, R74: from s to t the threads with a key in dies are killed, and those with a key in stays are not. -/
def Kills (s t : State) (dies stays : ResvKey → Bool) : Prop :=
  (∀ j, dies (t.slot j).ctx.key = true → Gone (t.slot j).st) ∧ (∀ p ∈ t.pkts, dies p.ctx.key = false) ∧
  (∀ x ∈ t.spilled, dies ⟨x.tenant, x.lnum, x.wid⟩ = false) ∧
  ∀ j, (s.slot j).st.live = true → stays (s.slot j).ctx.key = true → (∀ e ∈ s.slots, e.1 = j → e.2 = s.slot j) →
    (t.slot j).st.live = true ∧ (t.slot j).tid = (s.slot j).tid

/-- R61 to R63, R296 and R297: what a trap tr that is a fault does where containment absorbs it at level k with this action. -/
def Contains (s t : State) (tr : Trap) (k action : Nat) : Prop :=
  let c := s.me.ctx
  let unit := if action = 3 then 6 else if action = 2 then k + 1 else k
  let dies := killed c unit c.cr.wid
  let whole : Prop := levelCount c.cr.wshape ≤ unit
  let mine (tenant lnum : W64) : Prop := tenant = c.cr.tenant ∧ lnum = c.cr.lnum
  Kills s t dies (fun key => key.tenant != c.cr.tenant || key.lnum != c.cr.lnum) ∧
  (whole → (∀ e ∈ t.tasks, mine e.2.tenant e.2.lnum → e.2.st ≠ .wait ∧ e.2.st ≠ .ready) ∧
    ∀ l, t.launch c.cr.tenant c.cr.lnum = some l → l.failed = true) ∧
  (action = 0 → ∀ l, s.launch c.cr.tenant c.cr.lnum = some l → ∃ l', t.launch c.cr.tenant c.cr.lnum = some l' ∧
    let u := c.cr.wid >>> levelLow c.cr.wshape k
    (k, u) ∈ l'.redo ∧ retryCount l' k u = retryCount l k u) ∧
  ∃ u : State,
    ((∀ e ∈ s.slots, e.2.out = []) → u.queues = s.queues ∧ u.events = s.events ∧ u.dropped = s.dropped) ∧
    t = u.postEvent (c.cr.tenant.toNat % 256)
      [BitVec.ofNat 64 (tr.cause.toNat + 2 ^ 8 + k * 2 ^ 16 + action * 2 ^ 19) ||| (c.cr.lnum <<< 32), c.pc, tr.tval, c.cr.wid,
        BitVec.ofNat 64 s.cur, BitVec.ofNat 64 s.cycle, 0]

/-- The registers of a child of `spawn` or `rupd`, with `count` argument registers from g1 on (R71, R257). -/
def IsChild (c d : Ctx) (entry : W64) (args : Nat → W64) (count : Nat) (ganged : Bool) : Prop :=
  d.pc = entry ∧ (∀ n : GReg, (d.g.toList)[n.toNat]?.getD 0 = if 1 ≤ n.toNat ∧ n.toNat ≤ count then args n.toNat else 0) ∧
  d.b = 0 ∧ d.m = Vector.replicate 4 0 ∧ d.h = Vector.replicate 4 0 ∧ d.v = Vector.replicate 16 0 ∧ d.rep = RepBuf.empty ∧
  d.cr = { CRs.zero with
    tenant := c.cr.tenant, lnum := c.cr.lnum, wid := c.cr.wid, wshape := c.cr.wshape, lrect := c.cr.lrect
    scope := c.cr.scope, rmode := c.cr.rmode, nanrd := c.cr.nanrd, srseed := c.cr.srseed, qwin := c.cr.qwin
    lmask := c.cr.lmask, tvec := c.cr.tvec
    pstate := (if c.priv then 1 else 0) ||| if ganged then 4 else 0 }

/-! ## Where an address lies -/

/-- R143: memory of this owner is open to the executing thread. -/
def OpenTo (s : State) (owner : Byte) : Prop := s.rd.ten = 0 ∨ owner.toNat = s.rd.ten

/-- R153: the executing thread may not leave its core. -/
def Bound (s : State) : Prop :=
  s.rd.cr.lmask.toNat / 2 ^ 32 % 2 ^ 16 ≠ 0 ∨ s.rd.gang = true ∨ (caSlot s.cur % 2 = 0 ∧ (s.slot (partner s.cur)).st = .held) ∨
    s.owns s.cur = true ∨ s.rd.rep.act = true ∨ s.rd.uih = true

/-- R153: the executing thread is to move to a compute core on account of ea: its refusals in their order. -/
def MovesTo (s : State) (core : Nat) (ea : W64) (l : Loc) : Prop :=
  let outside : Prop := (rectOf s.rd.cr.lrect).hasCore core = false ∨ (isCobbler core = true ∧ s.rd.cr.tenant ≠ 0)
  (Bound s → l = .trap ⟨0x0D, ea⟩) ∧
  (¬Bound s → s.coreEnabled core = false → l = .trap ⟨0x04, ea⟩) ∧
  (¬Bound s → s.coreEnabled core = true → outside → l = .trap ⟨0x06, ea⟩) ∧
  (¬Bound s → s.coreEnabled core = true → ¬outside → l = .migrate core)

/-- R152: it is to move to a cluster: to the first core there that it may use, from its own position on. A cluster without one is
a hole: the model's choice (log entry 71). -/
def MovesToCluster (s : State) (cx cy : Nat) (ea : W64) (l : Loc) : Prop :=
  let tile (i : Nat) : Nat :=
    let q := (4 * (caY s.core % 4) + caX s.core % 4 + i) % 16
    caTile (4 * cx + q % 4) (4 * cy + q / 4)
  let fit (i : Nat) : Prop := s.coreEnabled (tile i) = true ∧ (s.rd.ten = 0 ∨ isCobbler (tile i) = false)
  (∀ i, i < 16 → fit i → (∀ j, j < i → ¬fit j) → MovesTo s (tile i) ea l) ∧
  ((∀ i, i < 16 → ¬fit i) → (Bound s → l = .trap ⟨0x0D, ea⟩) ∧ (¬Bound s → l = .trap ⟨0x04, ea⟩))

/-- R141, R143, R149: ea names an offset of a core's TCM. -/
def InTcm (s : State) (core : Nat) (ea : W64) (l : Loc) : Prop :=
  let off := ea.toNat % 2 ^ 17
  let hole : Prop := (smGet 0 s.tbankOut (caTileOf core)).getLsbD (off / 2 ^ 13) = true
  let mine : Prop := OpenTo s (smGet 0 s.towner (caTileOf core))
  (hole → l = .trap ⟨0x04, ea⟩) ∧ (¬hole → ¬mine → l = .trap ⟨0x06, ea⟩) ∧ (¬hole → mine → l = .at_ (paTcm core off))

/-- R141, R143, R149: ea names an offset of a cluster's scratchpad. -/
def InSpad (s : State) (cx cy : Nat) (ea : W64) (l : Loc) : Prop :=
  let off := ea.toNat % 2 ^ 21
  let hole : Prop := smGet false s.spad32 (cy * 32 + cx) = true ∧ 2 ^ 20 ≤ off
  let mine : Prop := OpenTo s (smGet 0 s.sowner (cy * 32 + cx))
  (hole → l = .trap ⟨0x04, ea⟩) ∧ (¬hole → ¬mine → l = .trap ⟨0x06, ea⟩) ∧ (¬hole → mine → l = .at_ (paSpad cx cy off))

/-- R141, R143, R150: ea names an offset of a die's shared SRAM. -/
def InShared (s : State) (die : Nat) (ea : W64) (st : Bool) (l : Loc) : Prop :=
  let off := ea.toNat % 2 ^ 26
  let mine : Prop := OpenTo s (smGet 0 s.gowner (die * 768 + off / 2 ^ 16))
  (0x3FFF000 ≤ off → l = if st then .trap ⟨0x06, ea⟩ else .at_ (paShared die off)) ∧
  (0x3000000 ≤ off → off < 0x3FFF000 → l = .trap ⟨0x04, ea⟩) ∧
  (off < 0x3000000 → ¬mine → l = .trap ⟨0x06, ea⟩) ∧ (off < 0x3000000 → mine → l = .at_ (paShared die off))

/-- The core that a space-0x1 address names, and the cluster that a space-0x2 address names (R141). -/
def tileIn (ea : W64) : Nat := caTile (ea.toNat / 2 ^ 32 % 2 ^ 7) (ea.toNat / 2 ^ 40 % 2 ^ 6)
def clusterIn (ea : W64) : Nat × Nat := (ea.toNat / 2 ^ 32 % 2 ^ 5, ea.toNat / 2 ^ 40 % 2 ^ 4)

/-- What a resolution gives, as a place. -/
def AsPlace (r : Except Trap Nat) (l : Loc) : Prop :=
  (∀ pa, r = .ok pa → l = .at_ pa) ∧ ∀ t, r = .error t → l = .trap t

/-- R141 to R143, R152, R153, R238, R299 and R326: where n bytes at ea lie for an access that loads (ld) or stores (st). -/
def LiesAt (s : State) (ea : W64) (n : Nat) (ld st : Bool) (l : Loc) : Prop :=
  let kind := caKind s.core
  let space := ea.toNat / 2 ^ 60
  let bad : Prop := l = .trap ⟨0x04, ea⟩
  (s.impure ea n st = true → l = .trap ⟨0x0B, ea⟩) ∧
  (s.impure ea n st = false →
    (space = 0 → (kind = .compute ∧ ea.toNat < 2 ^ 17 → InTcm s s.core ea l) ∧ (¬(kind = .compute ∧ ea.toNat < 2 ^ 17) → bad)) ∧
    (space = 1 →
      let here : Prop := kind = .station ∨ kind = .compute ∧ tileIn ea = s.core
      (ea &&& 0x0FFFC080FFFE0000#64 ≠ 0 → bad) ∧
      (ea &&& 0x0FFFC080FFFE0000#64 = 0 → (here → InTcm s (tileIn ea) ea l) ∧ (¬here → MovesTo s (tileIn ea) ea l))) ∧
    (space = 2 →
      let form : Prop := ea &&& 0x0FFF70E0FFE00000#64 = 0
      let own : Prop := ea.getLsbD 47 = true
      let c := clusterIn ea
      let home := (caX s.core / 4, caY s.core / 4)
      let ownOk : Prop := kind ≠ .bank ∧ ea.toNat / 2 ^ 32 % 2 ^ 13 = 0
      let here : Prop := kind = .station ∨ kind = .compute ∧ c = home
      (¬form → bad) ∧ (form → own → ownOk → InSpad s home.1 home.2 ea l) ∧ (form → own → ¬ownOk → bad) ∧
      (form → ¬own → here → InSpad s c.1 c.2 ea l) ∧ (form → ¬own → ¬here → MovesToCluster s c.1 c.2 ea l)) ∧
    (space = 3 →
      let form : Prop := ea &&& 0x0FFFFFF0FC000000#64 = 0
      let own : Prop := ea.getLsbD 35 = true
      let die := ea.toNat / 2 ^ 32 % 2 ^ 3
      (¬form → bad) ∧ (form → own → die = 0 → InShared s (caDie s.core) ea st l) ∧ (form → own → die ≠ 0 → bad) ∧
      (form → ¬own → InShared s die ea st l)) ∧
    (space = 4 → AsPlace (s.resolve s.rd.ten ea ((if ld then 1 else 0) ||| (if st then 2 else 0))) l) ∧
    (space = 8 → AsPlace (s.translate (caDie s.core) s.rd.ten ea ld st) l) ∧
    (space ∈ [5, 6, 7] ∨ 9 ≤ space → bad))

/-- R164: where `migr` takes the thread on account of ea; a place where it stays is 0. -/
def MigrGoes (s : State) (ea : W64) (l : Loc) : Prop :=
  let kind := caKind s.core
  let space := ea.toNat / 2 ^ 60
  let stay : Prop := l = .at_ 0
  let bad : Prop := l = .trap ⟨0x04, ea⟩
  let away (P : Prop) : Prop := (s.impure ea 1 false = true → l = .trap ⟨0x0B, ea⟩) ∧
    (s.impure ea 1 false = false → (kind = .station → stay) ∧ (kind ≠ .station → P))
  (space = 0 ∨ space = 3 → stay) ∧
  (space = 1 →
    let here : Prop := kind = .compute ∧ tileIn ea = s.core
    (ea &&& 0x0FFFC080FFFE0000#64 ≠ 0 → bad) ∧
    (ea &&& 0x0FFFC080FFFE0000#64 = 0 → (here → stay) ∧ (¬here → away (MovesTo s (tileIn ea) ea l)))) ∧
  (space = 2 →
    let form : Prop := ea &&& 0x0FFF70E0FFE00000#64 = 0
    let own : Prop := ea.getLsbD 47 = true
    let c := clusterIn ea
    let ownOk : Prop := kind ≠ .bank ∧ ea.toNat / 2 ^ 32 % 2 ^ 13 = 0
    let here : Prop := kind = .compute ∧ c = (caX s.core / 4, caY s.core / 4)
    (¬form → bad) ∧ (form → own → ownOk → stay) ∧ (form → own → ¬ownOk → bad) ∧ (form → ¬own → here → stay) ∧
    (form → ¬own → ¬here → away (MovesToCluster s c.1 c.2 ea l))) ∧
  (space = 4 →
    (∀ t, s.resolve s.rd.ten ea 0 = .error t → away (l = .trap t)) ∧
    ∀ pa, s.resolve s.rd.ten ea 0 = .ok pa →
      let t := s.bankOf pa
      let refused : Prop := Bound s ∨ s.rd.pc.toNat / 2 ^ 60 ≠ 4
      let inside : Prop := (rectOf s.rd.cr.lrect).hasCore t = true
      (t = s.core → stay) ∧
      (t ≠ s.core → away ((refused → l = .trap ⟨0x0D, ea⟩) ∧ (¬refused → ¬inside → l = .trap ⟨0x06, ea⟩) ∧
        (¬refused → inside → l = .migrate t)))) ∧
  (space ∈ [5, 6, 7] ∨ 8 ≤ space → bad)

/-- R300: an entry that is a leaf of a level of a translation table, in form. -/
def LeafOf (level : Nat) (e : W64) : Prop :=
  let k := e.toNat / 2 ^ 4 % 16
  e.getLsbD 0 = true ∧ e.getLsbD 1 = true ∧ e.toNat / 2 ^ 9 % 8 = 0 ∧ (level = 0 ∧ k ≤ 8 ∨ level = 1 ∧ 9 ≤ k) ∧
  (if e.getLsbD 8 = true then e.toNat / 2 ^ 12 % 2 ^ 32 % 2 ^ k = 0 ∧ e.toNat / 2 ^ 44 ≤ 786431
   else e.toNat / 2 ^ 12 % 2 ^ 40 % 2 ^ k = 0 ∧ e.toNat / 2 ^ 52 = 0)

/-- R299 and R300: a walk from a node of a level on comes to an entry, at pa in a node of level l, with P l pa. -/
def WalkReaches (s : State) (ten va : Nat) (P : Nat → Nat → Prop) : Nat → W64 → Prop
  | level, node =>
    ∃ pa, s.resolve ten (node + BitVec.ofNat 64 (8 * (va / 2 ^ (12 + 9 * level) % 512))) 1 = .ok pa ∧
      (P level pa ∨ s.isHeld pa = false ∧ s.isBad pa = false ∧
        let e := s.readW pa
        e.getLsbD 0 = true ∧ e.getLsbD 1 = false ∧ e.toNat / 2 ^ 9 % 8 = 0 ∧ e.toNat / 2 ^ 60 = 0 ∧
        match level with
        | 0 => False
        | l + 1 => WalkReaches s ten va P l (BitVec.ofNat 64 (4 * 2 ^ 60 + e.toNat / 2 ^ 12 * 2 ^ 12)))

/-- R299 to R301, R364 and R368: where a window address lies for an access of a tenant on a die that loads (ld) or stores (st), or
does both as an atomic. A walk that has to wait gives paWaits, which is held. -/
def WindowAt (s : State) (die ten : Nat) (ea : W64) (ld st : Bool) (r : Except Trap Nat) : Prop :=
  let va := ea.toNat % 2 ^ 57
  let root := s.tt ten 3
  let reach (P : Nat → Nat → Prop) : Prop := WalkReaches s ten va P 4 root
  let traps (cause : BitVec 8) : Prop := r = .error ⟨cause, ea⟩
  let kept (e : W64) : Prop := s.cached die ten va = some e
  let read (e : W64) : Prop := reach fun l pa => s.isHeld pa = false ∧ s.isBad pa = false ∧ LeafOf l e ∧ s.readW pa = e
  (ea.toNat / 2 ^ 57 % 8 ≠ 0 → traps 0x04) ∧
  (ea.toNat / 2 ^ 57 % 8 = 0 → s.cached die ten va = none → (∀ e, ¬read e) →
    ((reach fun _ pa => s.isHeld pa = true) → r = .ok paWaits) ∧ (¬(reach fun _ pa => s.isHeld pa = true) → traps 0x05)) ∧
  ∀ e, ea.toNat / 2 ^ 57 % 8 = 0 → kept e ∨ (s.cached die ten va = none ∧ read e) →
    let off := va % (4096 * 2 ^ (e.toNat / 2 ^ 4 % 16))
    let lacks : Prop := (ld = true ∧ e.getLsbD 2 = false) ∨ (st = true ∧ e.getLsbD 3 = false)
    let a := e.toNat / 2 ^ 12 % 2 ^ 32 * 4096 + off
    let dev := e.toNat / 2 ^ 44
    let x := smGet Peer.none s.peers (dev * 256 + ten)
    let gone : Prop := 2 ^ 40 ≤ a ∨ x.size ≤ a ∨ (ld = true ∧ x.rights.getLsbD 0 = false) ∨ (st = true ∧ x.rights.getLsbD 1 = false) ∨
      (ld = true ∧ st = true ∧ x.rights.getLsbD 3 = false) ∨ a / 4096 ∈ x.gone
    let shut : Prop := (s.tt ten 0).getLsbD 1 = true ∧ (s.fn ten).ide = false
    (lacks → traps 0x06) ∧
    (¬lacks → e.getLsbD 8 = true → (gone → traps 0x05) ∧ (¬gone → r = .ok (paPeer dev ten a))) ∧
    (¬lacks → e.getLsbD 8 = false → (shut → traps 0x06) ∧
      (¬shut → r = .ok (paHost (e.toNat / 2 ^ 12 % 2 ^ 40 * 4096 + off))))

/-- R152: an access that never migrates. On a station core it is direct (log entry 85). -/
def LiesHere (s : State) (ea : W64) (n : Nat) (ld st : Bool) (l : Loc) : Prop :=
  let kind := caKind s.core
  let foreign : Prop := kind ≠ .station ∧
    (ea.toNat / 2 ^ 60 = 1 ∧ ea &&& 0x0FFFC080FFFE0000#64 = 0 ∧ ¬(kind = .compute ∧ tileIn ea = caTileOf s.core) ∨
      ea.toNat / 2 ^ 60 = 2 ∧ ea &&& 0x0FFF70E0FFE00000#64 = 0 ∧ ea.getLsbD 47 = false ∧
        ¬(kind = .compute ∧ clusterIn ea = (caX s.core / 4, caY s.core / 4)))
  (s.impure ea n st = true → l = .trap ⟨0x0B, ea⟩) ∧
  (s.impure ea n st = false → (foreign → l = .trap ⟨0x0D, ea⟩) ∧ (¬foreign → l = s.locate ea n ld st))

/-- R160: the n dwords at ea lie in one unit of the SRAM levels. -/
def InOneUnit (s : State) (ea : W64) (n : Nat) : Prop :=
  let space := ea.toNat / 2 ^ 60
  space = 0 ∧ caKind s.core = .compute ∧ ea.toNat < 2 ^ 17 ∧ ea.toNat + 8 * n ≤ 2 ^ 17 ∨
  space = 1 ∧ ea &&& 0x0FFFC080FFFE0000#64 = 0 ∧ ea.toNat % 2 ^ 17 + 8 * n ≤ 2 ^ 17 ∨
  space = 2 ∧ ea &&& 0x0FFF70E0FFE00000#64 = 0 ∧
    (ea.getLsbD 47 = true → ea.toNat / 2 ^ 32 % 2 ^ 13 = 0 ∧ caKind s.core ≠ .bank) ∧ ea.toNat % 2 ^ 21 + 8 * n ≤ 2 ^ 21 ∨
  space = 3 ∧ ea &&& 0x0FFFFFF0FC000000#64 = 0 ∧ (ea.getLsbD 35 = true → ea.toNat / 2 ^ 32 % 2 ^ 3 = 0) ∧
    ea.toNat % 2 ^ 26 + 8 * n ≤ 2 ^ 26

/-- R160: where a dword of such a run lies, with the checks of its owner. -/
def ReadThere (s : State) (ea : W64) (l : Loc) : Prop :=
  let space := ea.toNat / 2 ^ 60
  let own : Prop := ea.getLsbD 47 = true
  (space = 0 → InTcm s s.core ea l) ∧ (space = 1 → InTcm s (tileIn ea) ea l) ∧
  (space = 2 → (own → InSpad s (caX s.core / 4) (caY s.core / 4) ea l) ∧
    (¬own → InSpad s (clusterIn ea).1 (clusterIn ea).2 ea l)) ∧
  (space = 3 → InShared s (if ea.getLsbD 35 = true then caDie s.core else ea.toNat / 2 ^ 32 % 2 ^ 3) ea false l)

/-- The spans of n dwords from ea on, each placed by f, or what f gives for the first of them that has no place. -/
def DwordRun {ε : Type} (f : W64 → Except ε Nat) (ea : W64) (n : Nat) (r : Except ε (List (Nat × Nat))) : Prop :=
  let at_ (j : Nat) : W64 := ea + BitVec.ofNat 64 (8 * j)
  (∀ p : Nat → Nat, (∀ j, j < n → f (at_ j) = .ok (p j)) → r = .ok ((List.range n).map fun j => (p j, 8))) ∧
  ∀ j e, j < n → (∀ i, i < j → ∃ pa, f (at_ i) = .ok pa) → f (at_ j) = .error e → r = .error e

/-- A place as a dword of a run takes it: one that would migrate fails with e. -/
def placed (l : Loc) (e : Trap) : Except Trap Nat :=
  match l with
  | .at_ pa => .ok pa
  | .trap t => .error t
  | .migrate _ => .error e

/-! ## Bytes of memory -/

/-- The n low bytes of a word, the least significant first (R2). -/
def bytesOf (n : Nat) (v : W64) : List Byte := (List.range n).map fun j => BitVec.ofNat 8 (v.toNat / 256 ^ j)

/-- What a store of bytes into spans, one after another, leaves at an address; none where it stores nothing. -/
def spanByte : List (Nat × Nat) → List Byte → Nat → Option Byte
  | [], _, _ => none
  | e :: t, l, a =>
    match spanByte t (l.drop e.2) a with
    | some b => some b
    | none => if e.1 ≤ a ∧ a < e.1 + e.2 then some ((l[a - e.1]?).getD 0) else none

/-- The spans hold the bytes l after, and every other byte of memory is as before; no slot changes. -/
def StoresSpans (s t : State) (spans : List (Nat × Nat)) (l : List Byte) : Prop :=
  (∀ a, t.byte a = (spanByte spans l a).getD (s.byte a)) ∧ t.slots = s.slots

/-- The bytes of a store, cut to its spans. -/
def cutTo : List (Nat × Nat) → List Byte → List (Nat × List Byte)
  | [], _ => []
  | e :: t, l => (e.1, l.take e.2) :: cutTo t (l.drop e.2)

/-- A load of n bytes at ea, aligned to al: it traps when it is misaligned, when its address does (R141 to R143, R152, R238,
R299), and on a bad word; a remote address migrates the thread; else the bytes read are passed on, single-bit errors among them
corrected (R148). -/
def Loads (s : State) (i : Instr) (ea : W64) (al n : Nat) (m : OrdMode) (R : State → List Byte → State → Prop) : Prop :=
  (ea.toNat % al ≠ 0 → exec i s = .next (s.takeTrap s.cur ⟨0x03, ea⟩)) ∧
  (∀ t, ea.toNat % al = 0 → s.spans ea n true false = .error (.trap t) → exec i s = .next (s.takeTrap s.cur t)) ∧
  (∀ core, ea.toNat % al = 0 → s.spans ea n true false = .error (.migrate core) →
    exec i s = .next (s.startMigration i core ea false)) ∧
  ∀ l, ea.toNat % al = 0 → s.spans ea n true false = .ok l →
    let p := s.waitsFor m (l.all fun e => isOwn s.core e.1) l
    GoesOn s p l →
    let u := s.flushWhere s.cur p
    (∀ v, u.badWord ea l = some v → exec i s = .next (u.takeTrap u.cur ⟨0x09, v⟩)) ∧
    (u.badWord ea l = none → ∃ t, exec i s = .next t ∧ R (u.correctSpans l) (u.readSpans l) t)

/-- A store of the bytes data at ea, aligned to al. A store that is not relaxed, or that goes to the core's own TCM, is
performed by its arbiter in its bundle. One that is narrower than a word and finds it bad traps (R148). R says what the
instruction does besides. -/
def Stores (s : State) (i : Instr) (ea : W64) (al : Nat) (o : StOrd) (data : List Byte) (R : State → State → Prop) : Prop :=
  let n := data.length
  (ea.toNat % al ≠ 0 → exec i s = .next (s.takeTrap s.cur ⟨0x03, ea⟩)) ∧
  (∀ t, ea.toNat % al = 0 → s.spans ea n false true = .error (.trap t) → exec i s = .next (s.takeTrap s.cur t)) ∧
  (∀ core, ea.toNat % al = 0 → s.spans ea n false true = .error (.migrate core) →
    exec i s = .next (s.startMigration i core ea false)) ∧
  ∀ l, ea.toNat % al = 0 → s.spans ea n false true = .ok l →
    let own := l.all fun e => isOwn s.core e.1
    let p := s.waitsFor (stMode o) own l
    (s.hitsDesc l = true → exec i s = .next (s.takeTrap s.cur ⟨0x0F, ea⟩)) ∧
    (s.hitsDesc l = false → (o ≠ .relaxed ∨ own = true) → GoesOn s p l →
      let u := s.flushWhere s.cur p
      (∀ v, n < 8 → u.badWord ea l = some v → exec i s = .next (u.takeTrap u.cur ⟨0x09, v⟩)) ∧
      (8 ≤ n ∨ u.badWord ea l = none → ∃ w t, StoresSpans u w l data ∧ exec i s = .next t ∧ R w t)) ∧
    (s.hitsDesc l = false → o = .relaxed → own = false → s.me.out = [] → GoesOn s (fun _ => false) l →
      s.storeHeld ⟨cutTo l data, ea, s.pc⟩ = false → (s.acceptStore ⟨cutTo l data, ea, s.pc⟩).2 = none →
      ∃ w t, StoresSpans { s with slots := w.slots } w l data ∧ w.me = s.me ∧ exec i s = .next t ∧ R w t)

/-- R35: what an atomic operation makes of an old value and an operand. -/
def atomResult (op : AtomOp) (x y : W64) : W64 :=
  match op with
  | .add => BitVec.ofNat 64 (x.toNat + y.toNat)
  | .and => x &&& y
  | .or => x ||| y
  | .xor => x ^^^ y
  | .min => if x.toInt ≤ y.toInt then x else y
  | .max => if x.toInt ≤ y.toInt then y else x
  | .minu => if x.toNat ≤ y.toNat then x else y
  | .maxu => if x.toNat ≤ y.toNat then y else x
  | .swap => y

/-- An atomic on the n bytes at pa, once its stores are accepted: the old number goes to gD and new of it to memory; a bad word
traps. -/
def Swaps (s : State) (i : Instr) (d : GReg) (ea : W64) (pa n : Nat) (p : OutStore → Bool) (R : Nat → Nat → Prop) : Prop :=
  let u := s.flushWhere s.cur p
  (∀ v, u.badWord ea [(pa, n)] = some v → exec i s = .next (u.takeTrap u.cur ⟨0x09, v⟩)) ∧
  (u.badWord ea [(pa, n)] = none → ∃ w new, R (u.readN pa n) new ∧
    StoresSpans u w [(pa, n)] (bytesOf n (BitVec.ofNat 64 new)) ∧
    exec i s = .next (w.setG d (BitVec.ofNat 64 (u.readN pa n))))

/-- R162 and R163: the size of an element of a cursor's type. -/
def elemSize (t : Nat) : Nat := (([1, 2, 4, 8, 2, 2, 4, 8] : List Nat)[t]?).getD 8

/-- R163: the cursor in gA to gA+3 one element on. -/
def CursorAdvances (s : State) (a : GReg) (w t : State) : Prop :=
  let w1 : Nat := (s.gAt a 1).toNat
  let w2 : Nat := (s.gAt a 2).toNat
  let w3 : Nat := (s.gAt a 3).toNat
  let i0 : Nat := w1 % 2 ^ 32
  let i1 : Nat := w1 / 2 ^ 32
  let e0 : Nat := w2 % 2 ^ 32
  let e1 : Nat := w2 / 2 ^ 32
  let pitch : Nat := w3 % 2 ^ 48
  let sz : Nat := elemSize (w3 / 2 ^ 48 % 8)
  let ad : Int := (s.g a).toNat
  let (ad, j0, j1) : Int × Nat × Nat :=
    if i0 + 1 < e0 then (ad + sz, i0 + 1, i1)
    else if i1 + 1 < e1 then (ad - i0 * sz + pitch, 0, i1 + 1)
    else (ad - i0 * sz - i1 * pitch, 0, 0)
  t = (w.setG a (BitVec.ofInt 64 ad)).setG (a + 1) (BitVec.ofNat 64 (j1 % 2 ^ 32 * 2 ^ 32 + j0 % 2 ^ 32))

/-! ## Mailboxes and matrix units -/

/-- R197: a mailbox after one more accepted packet. -/
def Counts (b c : Mbox) (nanrd : Bool) (sender : BitVec 32) : Prop :=
  c.cnt.toNat = min (b.cnt.toNat + 1) (2 ^ 32 - 1) ∧ c.sat = (b.sat || decide (b.cnt.toNat = 2 ^ 32 - 1)) ∧ c.full = b.full ∧
  c.seen0 = (b.seen0 || !nanrd) ∧ c.seen1 = (b.seen1 || nanrd) ∧
  c.fsnd0 = (if nanrd = false ∧ b.seen0 = false then sender else b.fsnd0) ∧
  c.fsnd1 = (if nanrd = true ∧ b.seen1 = false then sender else b.fsnd1)

/-- No slot of a core waits at its mailbox port. -/
def NoWaiters (s : State) (core : Nat) : Prop :=
  ∀ k ∈ coreSlots core, (s.slot k).waits.map Prod.fst ≠ some .mailbox ∧ (s.slot k).waits.map Prod.fst ≠ some .counter

/-- R196, R200: the issuing thread may send to this compute core. -/
def MaySend (s : State) (core : Nat) : Prop :=
  s.coreEnabled core = true ∧ (rectOf s.rd.cr.lrect).hasCore core = true ∧ (isCobbler core = true → s.rd.cr.tenant = 0)

/-- R196: the tenant of the issuing thread may land packets at this core. -/
def MayLand (s : State) (core : Nat) : Prop := s.rd.ten = 0 ∨ (smGet (0 : Byte) s.towner (caTileOf core)).toNat = s.rd.ten

/-- The slot that executes owns its core's unit, which is idle, and the checks of the operation c are passed (R208, R210). -/
def UnitTakes (s : State) (c : MatCmd) : Prop :=
  s.src = some s.me.ctx ∧ s.me.after = none ∧ s.me.out = [] ∧ s.slow = false ∧ s.owns s.cur = true ∧
  (s.unit s.core).op = none ∧ (s.unit s.core).queue = [] ∧ (s.unit s.core).ending = false ∧
  (s.unit s.core).tenant = s.rd.ten ∧ s.rd.pure = false ∧ c.formsOk = true ∧ c.alignTrap = none ∧
  s.cmdTrap s.core s.rd.ten s.rd c = none

/-- The operation is over: the slot issues on, and its unit is idle and still its own. -/
def UnitDone (s t : State) : Prop :=
  t.me.st = .run ∧ t.cur = s.cur ∧ (t.unit s.core).op = none ∧ (t.unit s.core).claimed = true ∧ (t.unit s.core).owner = s.cur

/-- R219: the exact sum of the products of two lists of finite values. -/
def dotOf (a b : List FVal) : Rat := (List.zipWith (fun x y => ratOf x * ratOf y) a b).foldr (· + ·) 0

/-- R228: the place r of n bytes at ea in the TCM of a core or in the scratchpad of its cluster, for a tenant. -/
def LocalRow (s : State) (core ten : Nat) (ea : W64) (n : Nat) (r : Except Trap Nat) : Prop :=
  let space := ea.toNat / 2 ^ 60
  let x := ea.toNat % 2 ^ 17
  let y := ea.toNat % 2 ^ 21
  let inTcm : Prop := space = 0 ∧ ea.toNat / 2 ^ 17 % 2 ^ 43 = 0 ∨
    space = 1 ∧ ea &&& formBad1 = 0 ∧ ea.toNat / 2 ^ 32 % 2 ^ 14 = caTileOf core
  let inSpad : Prop := space = 2 ∧ ea &&& formBad2 = 0 ∧ ea.getLsbD 47 = true ∧ ea.toNat / 2 ^ 32 % 2 ^ 13 = 0
  let tcmFits : Prop := x + n ≤ 2 ^ 17 ∧ s.tcmOk core x = true ∧ s.tcmOk core (x + n - 1) = true
  let spadFits : Prop := y + n ≤ s.spadSize (caX core / 4) (caY core / 4)
  let tcmMine : Prop := ten = 0 ∨ (s.tcmOwner core).toNat = ten
  let spadMine : Prop := ten = 0 ∨ (smGet (0 : Byte) s.sowner (caY core / 4 * 32 + caX core / 4)).toNat = ten
  (¬inTcm → ¬inSpad → r = .error ⟨0x04, ea⟩) ∧
  (inTcm → tcmMine → tcmFits → r = .ok (paTcm core x)) ∧ (inTcm → tcmMine → ¬tcmFits → r = .error ⟨0x04, ea⟩) ∧
  (inTcm → ¬tcmMine → tcmFits → r = .error ⟨0x06, ea⟩) ∧
  (inSpad → spadMine → spadFits → r = .ok (paSpad (caX core / 4) (caY core / 4) y)) ∧
  (inSpad → spadMine → ¬spadFits → r = .error ⟨0x04, ea⟩) ∧ (inSpad → ¬spadMine → spadFits → r = .error ⟨0x06, ea⟩)

/-- R201, R206: the n bytes at ea of the executing core's own memory as r. Which addresses name a station core's staging memory is the
model's choice (log entry 92). -/
def OwnRun (s : State) (ea : W64) (n : Nat) (r : Except Trap (List Byte)) : Prop :=
  let space := ea.toNat / 2 ^ 60
  let off := ea.toNat % 2 ^ 17
  let pa := paTcm s.core off
  let own : Prop := space = 0 ∧ ea.toNat / 2 ^ 17 % 2 ^ 43 = 0 ∨
    space = 1 ∧ ea &&& formBad1 = 0 ∧ ea.toNat / 2 ^ 32 % 2 ^ 14 = caTileOf s.core
  let fits : Prop := off + n ≤ 2 ^ 17 ∧ s.tcmOk s.core off = true ∧ (n = 0 ∨ s.tcmOk s.core (off + n - 1) = true)
  let mine : Prop := s.rd.ten = 0 ∨ (s.tcmOwner s.core).toNat = s.rd.ten
  if caKind s.core = .station then
    r = if ea.toNat + n ≤ 2 ^ 14 then .ok (s.readBytes (paStaging s.core ea.toNat) n) else .error ⟨0x04, ea⟩
  else if caKind s.core = .compute then
    (¬own ∨ 2 ^ 17 < off + n → r = .error ⟨0x04, ea⟩) ∧
    (own → mine → off + n ≤ 2 ^ 17 → ¬fits → r = .error ⟨0x04, ea⟩) ∧ (own → fits → ¬mine → r = .error ⟨0x06, ea⟩) ∧
    (own → fits → mine → off % 8 = 0 →
      ((∀ j, 8 * j < n → s.isBad (pa + 8 * j) = false) → r = .ok (s.readBytes pa n)) ∧
      ∀ j, 8 * j < n → s.isBad (pa + 8 * j) = true → (∀ i, i < j → s.isBad (pa + 8 * i) = false) →
        r = .error ⟨0x09, ea + BitVec.ofNat 64 (8 * j)⟩)
  else r = .error ⟨0x04, ea⟩

/-- R130 and R216: a table as a command carries it. -/
def SameTable (x y : DecTab) : Prop :=
  (∀ q, q < 256 → x.ent q = y.ent q) ∧ x.attr = y.attr &&& 0xFFFFFF03#64 ∧ x.owner = y.owner

/-- R219: an element of an operand of a format, as a value. -/
def operandValue (fmt : Nat) (finite : Bool) (T : DecTab) (x : Nat) : FVal :=
  match (match fmt with
    | 0 => fmt32.value x
    | 1 => (fmt16 finite).value x
    | 2 => (fmtB16 finite).value x
    | _ => T.decode finite x) with
  | .nan _ => .nan false
  | v => v

/-- R129: w is v under the block scale e. -/
def ScaledBy (e : Nat) (v w : FVal) : Prop :=
  if e = 255 then w.isNan = true
  else if isFin v = true then isFin w = true ∧ ratOf w = ratOf v * (2 : Rat) ^ ((e : Int) - 127) ∧ w.sign = v.sign
  else w = v

/-- R220: the order of min and max, in which -0 is less than +0. -/
def Precedes : FVal → FVal → Prop
  | .inf a, .inf b => a = true ∧ b = false
  | .inf a, .fin _ _ _ => a = true
  | .fin _ _ _, .inf b => b = false
  | .fin n m e, .fin k l f =>
    ratOf (.fin n m e) < ratOf (.fin k l f) ∨ ratOf (.fin n m e) = ratOf (.fin k l f) ∧ m = 0 ∧ n = true ∧ k = false
  | _, _ => False

/-- R219 to R221: r is the new element that semirings 0 and 2 to 4 give for the old one and a row a of A and a column b of B, with
the flags: those of the one rounding, and nv where a NaN arises from numbers. -/
def Combines (sr : Nat) (rm : Rnd) (old : Nat) (a b : List FVal) (r : Nat × FlagSet) : Prop :=
  ∃ p : List FVal, p.length = a.length ∧
    (∀ (k : Nat) (x y z : FVal), a[k]? = some x → b[k]? = some y → p[k]? = some z →
      ∃ fl, if sr = 0 ∨ sr = 4 then IsProduct x y z fl else IsSum rm x y z fl) ∧
    let c := fmt32.value old
    let whole : Prop := ∀ z ∈ p, z.isNan = false
    let lost : Prop := c.isNan = true ∨ (∃ z ∈ p, z.isNan = true) ∨ sr = 0 ∧ .inf true ∈ p ∧ .inf false ∈ p
    let raised := r.2 &&& ~~~flagNv
    let arises : Prop := (∃ (k : Nat) (x y z : FVal), a[k]? = some x ∧ b[k]? = some y ∧ p[k]? = some z ∧
        x.isNan = false ∧ y.isNan = false ∧ z.isNan = true) ∨
      sr = 0 ∧ whole ∧ (.inf true ∈ p ∧ .inf false ∈ p ∨ .inf true ∈ p ∧ c = .inf false ∨ .inf false ∈ p ∧ c = .inf true)
    ((∀ x ∈ a ++ b, x.isSnan = false) → (r.2 &&& flagNv = flagNv ↔ arises)) ∧ (lost → r.1 = 0x7FC00000 ∧ raised = 0) ∧
    (¬lost → sr = 0 → ∃ S, (∀ n, .inf n ∈ p → S = .inf n) ∧
      ((∀ z ∈ p, isFin z = true) → isFin S = true ∧ ratOf S = (p.map ratOf).sum) ∧
      (S.isZero = true → r.1 = old ∧ raised = 0) ∧
      (S.isZero = false → ∃ fl, Sums fmt32 rm c S (r.1, fl) ∧ raised = fl &&& ~~~flagNv)) ∧
    (¬lost → sr ≠ 0 → ∃ S ∈ p,
      let before (x y : FVal) : Prop := if sr = 2 then Precedes x y else Precedes y x
      (∀ z ∈ p, ¬before z S) ∧ (before S c → r.1 = (fmt32.deliver rm S).1 ∧ raised = (fmt32.deliver rm S).2) ∧
      (¬before S c → r.1 = old ∧ raised = 0))

/-- R217 and R218: x r e is element e of row r of an operand in step n: of the bytes l of registers, or of the scratchpad that
the pair p names. Elements have w bits. -/
def Operand (s : State) (core : Nat) (l : Option (List Byte)) (p : MatPair) (w n : Nat) (x : Nat → Nat → Nat) : Prop :=
  ∀ r e, r < 32 → e < 32 →
    match l with
    | some l => x r e = leNat l / 2 ^ (w * (32 * r + e)) % 2 ^ w
    | none =>
      let d := 4 * w / 8
      let q := e / (64 / w)
      x r e = s.readN (paSpad (caX core / 4) (caY core / 4)
        (p.base + n * p.tpitch + r * p.rpitch + 8 * ((q + r * p.rot) % d))) 8 / 2 ^ (w * e % 64) % 2 ^ w

/-- R213: y i is the scale of row or column i in step n, where the format f takes scales from the vector at a. -/
def Scales (s : State) (core ten : Nat) (f a : W64) (n : Nat) (y : Nat → Option Nat) : Prop :=
  if f.getLsbD 6 = true then
    ∃ pa, s.localAt core ten (a + BitVec.ofNat 64 (32 * n)) 32 = .ok pa ∧ ∀ i, i < 32 → y i = some (s.readByte (pa + i)).toNat
  else ∀ i, y i = none

/-- R217, R218: the operands of a command that lie in scratchpad, with the widths of their elements. -/
def padsOf (c : MatCmd) : List (MatPair × Nat) :=
  (if c.ra.isSome = true then [] else [(pairOf c.a0 c.a1, matWidth (c.regs.fmta.toNat % 16))]) ++
    if c.rb.isSome = true then [] else [(pairOf c.b0 c.b1, matWidth (c.regs.fmtb.toNat % 16))]

/-- R213: the scale vectors of a command. -/
def scalesIn (c : MatCmd) : List W64 :=
  (if c.regs.fmta.getLsbD 6 = true then [c.regs.scla] else []) ++ if c.regs.fmtb.getLsbD 6 = true then [c.regs.sclb] else []

/-- R143: the scratchpad of a core's cluster is open to a tenant. -/
def padOpen (s : State) (core ten : Nat) : Prop :=
  ten = 0 ∨ (smGet (0 : Byte) s.sowner (caY core / 4 * 32 + caX core / 4)).toNat = ten

/-- R223: what can strike step n of an `mmac`, as r, for a word of its operands or of its scales. -/
def StepFault (s : State) (core ten : Nat) (c : MatCmd) (n : Nat) (r : Except Trap (List Nat × FlagSet)) : Prop :=
  let reads (x : Nat) : Prop := ∃ e ∈ padsOf c, ∃ i q, i < 32 ∧ q < e.2 / 2 ∧
    x = e.1.base + n * e.1.tpitch + i * e.1.rpitch + 8 * ((q + i * e.1.rot) % (e.2 / 2))
  let bad (x : Nat) : Prop := s.isBad (paSpad (caX core / 4) (caY core / 4) x) = true
  let at_ (v : W64) := s.localAt core ten (v + BitVec.ofNat 64 (32 * n)) 32
  (∀ t, r = .error t →
    (∃ x, reads x ∧ t.tval = BitVec.ofNat 64 (0x2000800000000000 + x) ∧
      (t.cause = 6 ∧ ¬padOpen s core ten ∨ t.cause = 9 ∧ padOpen s core ten ∧ bad x)) ∨
    ∃ v ∈ scalesIn c, at_ v = .error t ∨ t.cause = 9 ∧ ∃ pa j, at_ v = .ok pa ∧ j < 32 ∧ s.isBad (pa + j) = true) ∧
  ((padsOf c = [] ∨ padOpen s core ten) → (∀ x, reads x → ¬bad x) →
    (∀ v ∈ scalesIn c, ∃ pa, at_ v = .ok pa ∧ ∀ j, j < 32 → s.isBad (pa + j) = false) → ∃ l, r = .ok l)

/-- R219: v is an element of an operand, x, of a format register f under a reading, with its scale. -/
def ElementOf (f : W64) (finite : Bool) (T : DecTab) (scale : Option Nat) (x : Nat) (v : FVal) : Prop :=
  match scale with
  | some e => ScaledBy e (operandValue (f.toNat % 16) finite T x) v
  | none => v = operandValue (f.toNat % 16) finite T x

/-- R212 and R230: the checks of `mdrainr` that come before those of its target: the destination and the parameters are in form,
and the rows stay below the end of the TCM. -/
def DrainInForm (dst prm : W64) (n : Nat) : Prop :=
  dst.toNat / 2 ^ 60 = 1 ∧ dst &&& formBad1 = 0 ∧ n ≤ prm.toNat % 2 ^ 18 ∧ prm &&& 0xFFFFFC00000C0000#64 = 0 ∧
  dst.toNat % 2 ^ 17 + 31 * (prm.toNat % 2 ^ 18) + n ≤ 2 ^ 17

/-! ## Stacked memory -/

/-- An access to n bytes of stacked memory at ea, aligned to al, that needs these rights: its traps in their order, with the
one for the descriptor of a live queue where desc holds; then R, on the state in which the stores that p names are accepted,
and the physical address. -/
def WordAccess (s : State) (i : Instr) (ea : W64) (al : Nat) (need : BitVec 4) (desc : Bool) (p : Nat → OutStore → Bool)
    (n : Nat) (R : State → Nat → Prop) : Prop :=
  let traps (cause : BitVec 8) : Prop := exec i s = .next (s.takeTrap s.cur ⟨cause, ea⟩)
  let impure : Prop := s.rd.pure = true ∧ ownTcmForm s.core ea = false
  (ea.toNat % al ≠ 0 → traps 0x03) ∧
  (ea.toNat % al = 0 → impure → traps 0x0B) ∧
  (ea.toNat % al = 0 → ¬impure → ea.toNat / 2 ^ 60 ≠ 4 → traps 0x04) ∧
  (ea.toNat % al = 0 → ¬impure → ea.toNat / 2 ^ 60 = 4 →
    (∀ t, s.resolve s.rd.ten ea need = .error t → exec i s = .next (s.takeTrap s.cur t)) ∧
    ∀ pa, s.resolve s.rd.ten ea need = .ok pa →
      (desc = true → s.inDesc pa = true → traps 0x0F) ∧
      (desc = false ∨ s.inDesc pa = false → GoesOn s (p pa) [(pa, n)] → R (s.flushWhere s.cur (p pa)) pa))

/-- R250, R252, R358: the executing request i joins the waiters of the word at pa, or, where the station has none of its 4,096 entries
left, is held at the station. -/
def joins (u : State) (pa : Nat) (w : Wait) (i : Instr) : State :=
  u.parkAt u.cur (if 4096 ≤ (u.waiting fun w =>
    match w.word with | some x => caTileOf (u.bankOf x) == caTileOf (u.bankOf pa) | none => false).length then .flight else w) i []

/-- R249, R250: a parked slot k is served: f is done to its registers, and its reply is on its way. -/
def served (s : State) (k : Nat) (f : Ctx → Ctx) : State := (s.deliver k f).reply k none

/-- R249, R250: a scan meets the waiters of the word at pa, head first, and goes from s to t: each whose condition holds at that
moment is served before the next is met, or, loading a poisoned word, leaves the list with its trap (R245). -/
def Scans (pa : Nat) : List Nat → State → State → Prop
  | [], s, t => t = s
  | k :: l, s, t =>
    let full := s.isFull pa
    let load (e : GReg) (u : State) : Prop :=
      if full = false then Scans pa l s t
      else if s.isBad pa = true then Scans pa l (s.reply k (some ⟨0x09, BitVec.ofNat 64 pa⟩)) t
      else Scans pa l (served u k fun c => c.setG e (BitVec.ofNat 64 (s.readN pa 8))) t
    match (s.slot k).instr with
    | some (.ldff _ e _ _) => load e s
    | some (.ldfe _ e _ _) => load e (s.setFull pa false)
    | some (.stef _ _ y _) =>
      if full = true then Scans pa l s t
      else Scans pa l (((s.storeBytes pa (bytesOf 8 ((s.slot k).ctx.getG y))).setFull pa true).reply k none) t
    | _ => False

/-- R252: the reservation of the word at pa, which has no holder in s, goes to the first in its queue, as in t; one that would receive
a poisoned word traps, and the next is considered. -/
def Grants (pa : Nat) : List Nat → State → State → Prop
  | [], s, t => t = s
  | k :: l, s, t =>
    if s.isBad pa = true then Grants pa l (s.reply k (some ⟨0x09, BitVec.ofNat 64 pa⟩)) t
    else
      match (s.slot k).instr with
      | some (.lrw _ e _ _) =>
        t = served (s.setHolder pa (some (s.slot k).ctx.key)) k fun c => c.setG e (BitVec.ofNat 64 (s.readN pa 8))
      | _ => False

/-- The checks of a queue reference (R272, R326), in their order, and what follows them. -/
def QueueAccess (s : State) (i : Instr) (q : W64) (l : List (Nat × Nat)) (R : State → Nat → Prop) : Prop :=
  let traps (t : Trap) : Prop := exec i s = .next (s.takeTrap s.cur t)
  let bad : Prop := q.toNat / 2 ^ 60 ≠ 4 ∨ q.toNat / 8 % 8 ≠ 0 ∨ q.toNat % 4 = 3
  let base : W64 := q &&& ~~~0x3F#64
  (s.rd.pure = true → traps ⟨0x0B, q⟩) ∧
  (s.rd.pure = false → bad → traps ⟨0x04, q⟩) ∧
  (s.rd.pure = false → ¬bad →
    (∀ t, s.resolve s.rd.ten base rightS = .error t → traps t) ∧
    ∀ pa, s.resolve s.rd.ten base rightS = .ok pa →
      let x := s.queue pa
      let there : Prop := x.live = true ∧ x.closing = false ∧ x.mode = q.toNat % 4 ∧ x.elim = q.getLsbD 2
      (¬there → traps ⟨0x0F, q⟩) ∧
      (there → GoesOn s (fun _ => true) (l.map fun e => (pa + e.1, e.2)) → R (s.flushWhere s.cur fun _ => true) pa))

/-! ## Copy requests -/

/-- R335: an address as every core may use it: one in space 0x0 names the TCM of the core that issues the request. -/
def fromAnyCore (s : State) (w : W64) : W64 :=
  if w.toNat / 2 ^ 17 = 0 ∧ caKind s.core ≠ .bank then BitVec.ofNat 64 (2 ^ 60 + s.core % 2 ^ 14 * 2 ^ 32 + w.toNat) else w

/-- R336: the parameter block at w3, as r. -/
def ParamBlock (s : State) (w3 : W64) (dist : Bool) (r : Except Trap (List Byte)) : Prop :=
  let bad : Prop := r = .error ⟨0x04, w3⟩
  (w3 = 0 → dist = true → bad) ∧ (w3 = 0 → dist = false → r = .ok []) ∧ (w3 ≠ 0 → w3.toNat % 64 ≠ 0 → bad) ∧
  (w3 ≠ 0 → w3.toNat % 64 = 0 → ∃ run, OwnRun s w3 64 run ∧ (∀ t, run = .error t → r = .error t) ∧
    ∀ l, run = .ok l →
      let word (n : Nat) : Nat := leNat ((l.drop (8 * n)).take 8)
      let formed : Prop := word 0 % 8 = 0 ∧ (∀ j, 24 ≤ j → j < 64 → (l[j]?).getD 0 = 0) ∧ (dist = true →
        BitVec.ofNat 64 (word 1) &&& 0xFFFFFFFFC080C080#64 = 0 ∧ word 2 % 8 = 0 ∧ 8 ≤ word 2 ∧ word 2 ≤ 2 ^ 20)
      (formed → r = .ok l) ∧ (¬formed → bad))

/-- R338: the targets of a dealt transfer, in order of y, then x. -/
def DealtTo (s : State) (r : Rect) (l : List Nat) : Prop :=
  (l.map fun t => 128 * caY t + caX t).Pairwise (· < ·) ∧
  ∀ t, t ∈ l ↔ ∃ x y, r.xlo ≤ x ∧ x ≤ r.xhi ∧ r.ylo ≤ y ∧ y ≤ r.yhi ∧ t = caTile x y ∧ s.coreEnabled t = true ∧
    (s.tcmOwner t).toNat = s.rd.ten ∧ (isCobbler t = true → s.rd.cr.tenant = 0)

/-- R344: n bytes may land at an offset of a core: the trap that the issue of the request takes if not. -/
def CopyLands (s : State) (core off n : Nat) (v : W64) (r : Option Trap) : Prop :=
  let fits : Prop := off + n ≤ 2 ^ 17 ∧ (∀ j, j < n → s.tcmOk core (off + j) = true) ∧ s.coreEnabled core = true
  let mine : Prop := OpenTo s (s.tcmOwner core) ∧ (rectOf s.rd.cr.lrect).hasCore core = true ∧
    (isCobbler core = true → s.rd.cr.tenant = 0)
  (¬fits → r = some ⟨0x04, v⟩) ∧ (fits → ¬mine → r = some ⟨0x06, v⟩) ∧ (fits → mine → r = none)

/-- R344: n bytes at ea as the source or the destination (st) of a request, which gave the address as v. -/
def CopyRange (s : State) (ea v : W64) (n : Nat) (st : Bool) (r : Option Trap) : Prop :=
  let bad : Prop := r = some ⟨0x04, v⟩
  let prot : Prop := r = some ⟨0x06, v⟩
  let space := ea.toNat / 2 ^ 60
  (space = 1 →
    let t := caTile (ea.toNat / 2 ^ 32 % 128) (ea.toNat / 2 ^ 40 % 64)
    let off := ea.toNat % 2 ^ 17
    let fits : Prop := off + n ≤ 2 ^ 17 ∧ ∀ j, j < n → s.tcmOk t (off + j) = true
    (ea &&& formBad1 ≠ 0 → bad) ∧ (ea &&& formBad1 = 0 → (st = true → CopyLands s t off n v r) ∧
      (st = false → (¬fits → bad) ∧ (fits → ¬OpenTo s (s.tcmOwner t) → prot) ∧ (fits → OpenTo s (s.tcmOwner t) → r = none)))) ∧
  (space = 2 →
    let own := ea.getLsbD 47
    let cx := if own then caX s.core / 4 else ea.toNat / 2 ^ 32 % 32
    let cy := if own then caY s.core / 4 else ea.toNat / 2 ^ 40 % 32
    let mine : Prop := OpenTo s (smGet 0 s.sowner (cy * 32 + cx))
    let fits : Prop := ea &&& formBad2 = 0 ∧ (own = true → ea.toNat / 2 ^ 32 % 2 ^ 13 = 0) ∧
      ea.toNat % 2 ^ 21 + n ≤ if smGet false s.spad32 (cy * 32 + cx) = true then 2 ^ 20 else 2 ^ 21
    (¬fits → bad) ∧ (fits → ¬mine → prot) ∧ (fits → mine → r = none)) ∧
  (space = 3 →
    let own := ea.getLsbD 35
    let die := if own then caDie s.core else ea.toNat / 2 ^ 32 % 8
    let off := ea.toNat % 2 ^ 26
    let formed : Prop := ea &&& formBad3 = 0 ∧ (own = true → ea.toNat / 2 ^ 32 % 8 = 0)
    let mine : Prop := ∀ j, j < n → OpenTo s (smGet 0 s.gowner (die * 768 + (off + j) / 2 ^ 16))
    (¬formed → bad) ∧
    (formed → 0x3FFF000 ≤ off → (2 ^ 26 < off + n → bad) ∧ (off + n ≤ 2 ^ 26 → if st = true then prot else r = none)) ∧
    (formed → off < 0x3FFF000 → (0x3000000 < off + n → bad) ∧ (off + n ≤ 0x3000000 → (¬mine → prot) ∧ (mine → r = none)))) ∧
  (space = 4 →
    let point (j : Nat) : W64 := if j = 0 then ea else BitVec.ofNat 64 ((ea.toNat / 4096 + j) * 4096)
    let inside (j : Nat) : Prop := j = 0 ∨ (ea.toNat / 4096 + j) * 4096 < ea.toNat + n
    let at_ (j : Nat) := s.resolve s.rd.ten (point j) (if st then rightW else rightR)
    ((∀ j, inside j → (at_ j).toOption.isSome = true) → r = none) ∧
    ∀ j t, inside j → at_ j = .error t → (∀ i, i < j → (at_ i).toOption.isSome = true) → r = some t) ∧
  (space = 0 → bad) ∧ (space = 8 → r = none)

/-- The addresses of a request: its source and destination as every core may use them, and as its words give them with that of its
parameter block. -/
structure CopyEnds where
  src : W64
  dst : W64
  w0 : W64
  w1 : W64
  w3 : W64
  deriving DecidableEq, Repr

/-- R338: the bytes of the blocks that a dealt transfer sends to target j of n. -/
def dealtBytes (len bsize n j : Nat) : Nat :=
  (((List.range ((len + bsize - 1) / bsize)).filter fun i => i % n = j).map fun i => min bsize (len - i * bsize)).sum

/-- R344: the checks of the ranges of a request, as r. -/
def CopyRanges (s : State) (e : CopyEnds) (len : Nat) (dist : Bool) (bsize : Nat) (deal : List Nat) (r : Option Trap) : Prop :=
  let lands (j t : Nat) (x : Option Trap) : Prop := CopyLands s t (e.w1.toNat % 2 ^ 17) (dealtBytes len bsize deal.length j) e.w1 x
  ∃ q : Option Trap, CopyRange s e.src e.w0 len false q ∧ (∀ t, q = some t → r = some t) ∧
    (q = none → dist = false → CopyRange s e.dst e.w1 len true r) ∧
    (q = none → dist = true →
      (deal = [] → r = some ⟨0x04, e.w3⟩) ∧
      (deal ≠ [] → (∀ (j t : Nat), deal[j]? = some t → lands j t none) → r = none) ∧
      ∀ (j t : Nat) (x : Trap), deal[j]? = some t → lands j t (some x) →
        (∀ (i u : Nat), i < j → deal[i]? = some u → lands i u none) → r = some x)

/-! ## Groups of the Answer Table -/

/-- R310: a wait walk from group g ends: in a cycle, along a path from the caller's group back to g in which a producer of each group
waits for the one before it; clear, with all the groups that the waits lead to among eight of which none is the caller's; or too
deep, where they lead from eight groups to a ninth. -/
def WalkEnds (s : State) (g : Nat) (walk : Walk) : Prop :=
  let waitsFor (a b : Nat) : Prop := ∃ e ∈ s.waiters a, (s.entry e.2).group = b
  match walk with
  | .cycle path => path.head? = s.myGroup ∧ path.getLast? = some g ∧
      ∀ (j : Nat) (a b : Nat), path[j]? = some a → path[j + 1]? = some b → waitsFor b a
  | .clear => ∃ l : List Nat, g ∈ l ∧ l.length ≤ 8 ∧ (∀ a ∈ l, a = g ∨ s.myGroup ≠ some a) ∧
      ∀ a ∈ l, ∀ b, waitsFor a b → b ∈ l
  | .deep => ∃ (l : List Nat) (b : Nat), l.Nodup ∧ l.length = 8 ∧ g ∈ l ∧ b ∉ l ∧ (∃ a ∈ l, waitsFor a b) ∧
      ∀ a ∈ l, a = g ∨ ∃ c ∈ l, waitsFor c a

/-- R308: the groups of a list have merged from s to t: the oldest of their leaders leads all their members; its round stands, and is
the round of those that join; the group is dirty where one of them was. -/
def MergesGroups (s t : State) (l : List Nat) : Prop :=
  ∃ lead ∈ l,
    (∀ g ∈ l, (s.entry lead).created * 2 ^ 31 + s.refOf lead ≤ (s.entry g).created * 2 ^ 31 + s.refOf g) ∧
    (∀ g ∈ l, ∀ y ∈ s.members g, (t.entry y).group = lead ∧
      (t.entry y).mround = if g = lead then (s.entry y).mround else (s.group lead).round) ∧
    (t.group lead).round = (s.group lead).round ∧
    ((t.group lead).dirty = true ↔ ∃ g ∈ l, (s.group g).dirty = true)

/-- R317: the way that a new entry of a tenant takes in a set of a die, and the table after. -/
def TakesWay (s : State) (ten die set : Nat) (r : Option Nat × State) : Prop :=
  let way (j : Nat) : Nat := die * 2 ^ 18 + j * 2 ^ 15 + set
  let free (j : Nat) : Prop := (s.entry (way j)).st = .free
  let mine := s.entries.countP fun e => decide (e.2.st ≠ .free ∧ e.2.tenant.toNat = ten ∧ e.1 / 2 ^ 18 = die)
  let within : Prop := ten = 0 ∨ mine < (s.tt ten (9 + die)).toNat % 2 ^ 32
  let evictable (j : Nat) : Prop := (s.entry (way j)).st = .complete ∧ (∀ p ∈ s.pins, p.way ≠ way j) ∧
    (within ∨ (s.entry (way j)).tenant.toNat = ten)
  let last (j : Nat) : Nat := (s.entry (way j)).lastUse
  let taken : Prop := within ∧ ∃ j, j < 8 ∧ free j
  (taken → ∃ j, j < 8 ∧ free j ∧ r = (some (way j), s)) ∧
  (¬taken → (∃ j, j < 8 ∧ evictable j) → ∃ j, j < 8 ∧ evictable j ∧ (∀ i, i < 8 → evictable i → last j ≤ last i) ∧
    r = (some (way j), s.freeWay (way j))) ∧
  (¬taken → (∀ j, j < 8 → ¬evictable j) → r = (none, s))

/-- R313 and R315: from u to t each `tcall` that is parked as a consumer of an entry is answered: F is done to its registers, for an
iterator that is open or not, never for fewer than two answers. -/
def Woken (u t : State) (y : Nat) (F : Bool → GReg → Ctx → Ctx) : Prop :=
  ∀ k g d a n sn m, k ≠ u.cur → (u.slot k).st = .park (.entry y) (.tcall g d a n) sn m →
    ∃ o : Bool, ((u.entry y).answers.length < 2 → o = false) ∧
      t.slot k = Slot.write (F o d) { u.slot k with st := .park (.reply none) (.tcall g d a n) sn m }

/-- R324 and R238: the check of a tile's descriptor, for loads or for stores (st). -/
def TileChecked (s : State) (x : Tile) (need : BitVec 4) (st : Bool) (r : Option Trap) : Prop :=
  let n := x.len.toNat
  let form : Prop := x.addr.toNat / 2 ^ 60 = 4 ∧ n % 4096 = 0 ∧ 4096 ≤ n ∧ n ≤ 4096 * 4096
  (x.addr.toNat % 4096 ≠ 0 → r = some ⟨0x03, x.addr⟩) ∧ (x.addr.toNat % 4096 = 0 → ¬form → r = some ⟨0x04, x.addr⟩) ∧
  (x.addr.toNat % 4096 = 0 → form →
    (∀ t, s.resolveRange s.rd.ten x.addr n need = .error t → r = some t) ∧
    ∀ pa, s.resolveRange s.rd.ten x.addr n need = .ok pa → r = if s.impure x.addr n st = true then some ⟨0x0B, x.addr⟩ else none)

/-- R322, R323 and R369: the content key of a pure task of a tenant, byte by byte. -/
def keyBytes (s : State) (ten : Nat) (code : Tile) (args : List Tile) (out : Tile) : List Byte :=
  let sum := Sha512.digest256
  let dword (n : Nat) : List Byte := bytesOf 8 (BitVec.ofNat 64 n)
  let leaf (a : W64) : List Byte := sum (0 :: (List.range 4096).map fun j => s.byte (paStack ten a.toNat + j))
  let tile (x : Tile) : List Byte :=
    let m := x.len.toNat / 4096
    sum (1 :: dword m ++ (List.range m).flatMap fun j => leaf (x.addr + BitVec.ofNat 64 (4096 * j)))
  sum (2 :: tile code ++ dword args.length ++ args.flatMap tile ++ bytesOf 8 out.len ++
    (List.range 4).flatMap fun j => bytesOf 8 (s.tt ten (17 + j)))

/-- R325: a write of n bytes from pa on, not 0, meets a block of a tile of a tenant. -/
def Meets (x : Tile) (ten pa n : Nat) : Prop :=
  ∃ a j, pa ≤ a ∧ a < pa + n ∧ j < x.len.toNat / 4096 ∧ paStack ten x.addr.toNat + 4096 * j = a / 4096 * 4096

/-! ## Engines -/

/-- R233: the words of a command block, and what a command taken from it holds. -/
def BlkHolds (l : List Byte) (r : MatRegs) (sender stamp : Nat) (c : MatCmd) : Prop :=
  let at_ (off : Nat) : Nat := leNat ((l.drop off).take 8)
  let w := at_ 8
  c.kind = w % 8 ∧ c.tile = w / 2 ^ 3 % 4 ∧ c.sr = w / 2 ^ 5 % 8 ∧ c.z = decide (w / 2 ^ 8 % 2 = 1) ∧ c.steps = w / 2 ^ 9 % 2 ^ 12 + 1 ∧
  c.id = w / 2 ^ 21 % 2 ^ 16 ∧ c.nmb = w / 2 ^ 37 % 16 ∧ c.notify = decide (w / 2 ^ 41 % 2 = 1) ∧
  c.a0.toNat = at_ 0x10 ∧ c.a1.toNat = at_ 0x18 ∧ c.b0.toNat = at_ 0x20 ∧ c.b1.toNat = at_ 0x28 ∧
  c.da.toNat = at_ 0x30 ∧ c.db.toNat = at_ 0x38 ∧ c.ra = none ∧ c.rb = none ∧ c.regs = r ∧ c.sender = sender ∧ c.stamp = stamp

/-- R342: the status word of a transfer that is done. -/
def DoneWord (r : CopyReq) (w : W64) : Prop :=
  w.toNat = r.id % 2 ^ 16 + 3 * 2 ^ 16 + (if r.fault.isSome = true then 2 else if 0 < r.pcnt then 1 else 0) * 2 ^ 24 +
    (r.fault.getD 0).toNat * 2 ^ 32 + min r.pcnt (2 ^ 24 - 1) * 2 ^ 40

/-- R334, R337 and R338: the next chunk of a transfer, and how many chunks are still to land on its core. -/
def NextChunk (r : CopyReq) (c : Chunk) (need : Nat) : Prop :=
  let chunks (n : Nat) : Nat := (n + 255) / 256
  c.off = r.done ∧
  (r.dist = false → c.n = min 256 (r.len - r.done) ∧ c.core = r.targets.head? ∧
    c.dst = (if r.targets = [] then r.dst + BitVec.ofNat 64 r.done else BitVec.ofNat 64 (r.dst.toNat % 2 ^ 17 + r.done)) ∧
    need = min 16 (chunks (r.len - r.done))) ∧
  (r.dist = true → 0 < r.bsize → 0 < r.targets.length → r.done < r.len →
    let n := r.targets.length
    let i := r.done / r.bsize
    let left (b : Nat) : Nat := min r.bsize (r.len - b * r.bsize) - (if b = i then r.done % r.bsize else 0)
    c.n = min 256 (left i) ∧ c.core = r.targets[i % n]? ∧
    c.dst = BitVec.ofNat 64 (r.dst.toNat % 2 ^ 17 + i / n * r.bsize + r.done % r.bsize) ∧
    need = min 16 (((List.range ((r.len + r.bsize - 1) / r.bsize)).filter fun b => decide (i ≤ b) && b % n == i % n).map
      fun b => chunks (left b)).sum)

/-! ## Steps of the device -/

/-- A step of the device that finds nothing to do. -/
abbrev Idle (s : State) (i : Instr) : Prop := exec i s = .next s

/-- Slot k with its parked operation taken up again, in a state in which it alone executes. -/
def resumed (s : State) (k : Nat) : State :=
  let u := { s with cur := k, src := none, trapped := none, slow := false, raw := 0 }
  u.setSlot k { s.slot k with st := .run }

/-- R189: the operation i of a slot k of s, which stands at n in the order of arrival, waits for no earlier packet. -/
def InTurn (s : State) (k : Nat) (i : Instr) (n : Nat) : Prop :=
  ∀ vn l, packetsOf (caCore k) i (s.slot k).ctx = some (vn, l) → s.overtakes vn (caCore k) n l = false

/-- R15, R53: where ev finds the operation i of slot k in flight, its bundle having read snap at issue, and no earlier packet
before it (R189), its arbiter does to the state, as that is then, what the instruction i does; the slot waits to rejoin, unless
it trapped or parks again. -/
def Arbitrates (s : State) (ev : Instr) (k : Nat) (i : Instr) (snap : List Byte) : Prop :=
  ∀ n, (s.slot k).st = .park .flight i snap n → InTurn s k i n →
    ∃ t, exec i (resumed s k) = .next t ∧
      let quiet (u : State) : State := { u with src := none, trapped := none, slow := false }
      (t.trapped = none → (t.slot k).st = .run → (t.slot k).tid = (s.slot k).tid →
        exec ev s = .next (quiet (t.setSlot k { t.slot k with st := .park (.reply none) i snap n }))) ∧
      (t.trapped ≠ none ∨ (t.slot k).st.isRun = false → exec ev s = .next (quiet t))

/-- R55: a thread enters slot k of t, which loads its context. -/
def Enters (t : State) (k tid : Nat) (c : Ctx) : Prop :=
  (t.slot k).st = .resv ∧ (t.slot k).tid = tid ∧ (t.slot k).ctx = c

/-- R66: the per-slot control registers, each with its save offset and its index. -/
def savedCrs (r : CRs) : List (Nat × Nat × W64) :=
  [(0x148, 0x000, r.rmode), (0x150, 0x001, r.fpflags), (0x158, 0x002, r.nanrd), (0x160, 0x003, r.srseed),
    (0x168, 0x004, r.srctr), (0x170, 0x005, r.fmta), (0x178, 0x006, r.fmtb), (0x180, 0x007, r.fmtc),
    (0x188, 0x008, r.scla), (0x190, 0x009, r.sclb), (0x198, 0x00A, r.mkstep), (0x1A0, 0x00B, r.qwin),
    (0x1A8, 0x00C, r.lmask), (0x1B0, 0x00D, r.stklim), (0x1B8, 0x00E, r.scope), (0x1C0, 0x00F, r.uivec),
    (0x1C8, 0x010, r.uixid), (0x1D0, 0x100, r.wid), (0x1D8, 0x101, r.wshape), (0x1E0, 0x102, r.tenant),
    (0x1F0, 0x104, r.pstate), (0x1F8, 0x105, r.tabent), (0x200, 0x106, r.tabst), (0x208, 0x107, r.lnum),
    (0x210, 0x200, r.tvec), (0x218, 0x201, r.cause), (0x220, 0x202, r.epc), (0x228, 0x203, r.tval),
    (0x230, 0x204, r.lrect)]

/-- R64, R66 and R185: w j is dword j of the record of a thread with the registers c that was saved from slot k. -/
def RecordOf (w : Nat → W64) (c : Ctx) (k : Nat) (cls : BitVec 3) (park : W64 × W64) : Prop :=
  let at_ (offset : Nat) : W64 := w (offset / 8)
  let r := c.rep
  let word (n : Nat) : Nat := (((r.words.toList)[n]?).getD 0).toNat
  let bit (b : Bool) : Nat := if b then 1 else 0
  at_ 0 = c.pc ∧ (∀ n, 1 ≤ n → n < 32 → at_ (8 * n) = (c.g.toList)[n]?.getD 0) ∧
  (at_ 0x100).toNat = c.b.toNat / 2 * 2 ∧
  (∀ n, n < 4 → at_ (0x108 + 8 * n) = (c.m.toList)[n]?.getD 0 ∧ at_ (0x128 + 8 * n) = (c.h.toList)[n]?.getD 0) ∧
  (∀ e ∈ savedCrs c.cr, at_ e.1 = e.2.2) ∧ at_ 0x1E8 = BitVec.ofNat 64 k ∧ (at_ 0x238).toNat = cls.toNat ∧
  at_ 0x240 = park.1 ∧ at_ 0x248 = park.2 ∧
  (∀ n, n < 8 → (at_ (0x280 + 8 * n)).toNat = word (2 * n) + word (2 * n + 1) * 2 ^ 32) ∧
  (at_ 0x2C0).toNat = bit r.act + bit r.susp * 2 + bit r.cap * 2 ^ 2 + r.len.toNat * 2 ^ 3 + r.count.toNat * 2 ^ 7 +
    r.stride.toNat * 2 ^ 19 + r.steps.toNat * 2 ^ 22 + r.i % 2 ^ 12 * 2 ^ 25 + r.k % 2 ^ 4 * 2 ^ 37 ∧
  (∀ n j, n < 16 → j < 8 →
    (at_ (0x400 + 64 * n + 8 * j)).toNat = (((c.v.toList)[n]?).getD 0).toNat / 2 ^ (64 * j) % 2 ^ 64 ∧
    (at_ (0x800 + 64 * n + 8 * j)).toNat = (((c.v.toList)[n]?).getD 0).toNat / 2 ^ (512 + 64 * j) % 2 ^ 64) ∧
  ∀ o, 0x250 ≤ o ∧ o < 0x280 ∨ 0x2C8 ≤ o ∧ o < 0x400 ∨ 0xC00 ≤ o ∧ o < 0x5000 → at_ o = 0

/-- R64: the registers that the record of the thread of slot k holds: upper halves of vector registers only where it is ganged, or
its partner is HELD. -/
def recorded (s : State) (k : Nat) (c : Ctx) : Ctx :=
  if c.gang = true ∨ (s.slot (partner k)).st = .held then c
  else { c with v := c.v.map fun x => x % BitVec.ofNat 1024 (2 ^ 512) }

/-- R64: the record at pa holds the thread of slot k, which stood as x, with the registers c. -/
def Recorded (t : State) (pa k : Nat) (x : Slot) (c : Ctx) : Prop :=
  ∀ e ∈ recordWords c k x.cls (x.parkRecord k) [], t.readW (pa + 8 * e.1) = e.2

/-! ## The board, the host and the dispatch units -/

/-- A block of an object that is there (R241, R244). -/
def Stands (s : State) (tenant handle block : Nat) : Prop :=
  (s.obj tenant handle).used = true ∧ block < (s.obj tenant handle).size / 4096 ∧ (s.blk tenant handle block).lost = false

/-- R282: a record for each of a list, of a die, its fields and the core that it is bound to, now stands READY in the table of its die,
and every other record is as before. -/
def TasksEnter (s t : State) (tenant lnum : W64) (l : List (Nat × Vector W64 8 × Option Nat)) : Prop :=
  ∃ keys : List Nat, keys.length = l.length ∧ keys.Nodup ∧
    (∀ (j key : Nat) (e : Nat × Vector W64 8 × Option Nat), keys[j]? = some key → l[j]? = some e → key / 2 ^ 16 = e.1 ∧ (s.task key).st = .free ∧
      let x := t.task key
      x.st = .ready ∧ x.tenant = tenant ∧ x.lnum = lnum ∧ x.f = e.2.1 ∧ x.bound = e.2.2 ∧ x.since = s.cycle ∧
      x.adv = (s.task key).adv) ∧
    ∀ y, y ∉ keys → t.task y = s.task y

/-- The table of a die has room for n more records. -/
def TableRoom (s : State) (die n : Nat) : Prop :=
  (s.tasks.filter fun e => e.2.st != .free && decide (e.1 / 2 ^ 16 = die)).length + n ≤ 2 ^ 16

/-- R352: a value that a field in scope-rectangle format takes. -/
def RectForm (v : W64) : Prop := v = 0xFFFFFFFFFFFFFFFF#64 ∨ v &&& 0xFFFFFFFF4080C080#64 = 0

/-- R59: a shape that `wshape` takes. -/
def ShapeForm (v : W64) : Prop :=
  let policy (k : Nat) : Nat := v.toNat / 2 ^ (42 + 2 * k) % 4
  ((List.range 6).map (levelWidth v)).sum = 64 ∧ levelWidth v 0 ≠ 0 ∧
    (∀ k, k < 5 → levelWidth v k = 0 → levelWidth v (k + 1) = 0) ∧ ∀ k, k < 6 → levelWidth v k = 0 → policy k = 0

/-- R277 and R278: a launch header whose launch is not refused; h j is its dword j. -/
def HeaderForm (s : State) (tenant : W64) (h : Nat → W64) : Prop :=
  let space (v : W64) : Nat := v.toNat / 2 ^ 60
  let r := rectOf (if h 1 = 0xFFFFFFFFFFFFFFFF#64 then packageRect else h 1)
  (h 0).toNat % 8 = 0 ∧ space (h 0) ∈ [0, 3, 4] ∧ RectForm (h 1) ∧ (h 2).toNat < 2 ^ 58 ∧ ShapeForm (h 2) ∧ (h 3).toNat % 8 = 0 ∧
  (h 4).toNat < 2 ^ 6 ∧ ((h 4).getLsbD 3 = true → tenant = 0) ∧ RectForm (h 5) ∧ (h 6 = 0 ∨ space (h 6) ∈ [4, 8]) ∧
  (h 7).toNat < 2 ^ 63 ∧ (h 8).toNat % 16 = 0 ∧ (h 9).toNat % 16 = 0 ∧ h 14 = 0 ∧ h 15 = 0 ∧ r.xlo ≤ r.xhi ∧ r.ylo ≤ r.yhi ∧
  ∀ x y, r.xlo ≤ x → x ≤ r.xhi → r.ylo ≤ y → y ≤ r.yhi → (smGet (0 : Byte) s.towner (caTileOf (caTile x y))).toNat = tenant.toNat

/-- The registers of the thread that a task becomes (R285). -/
def IsTaskThread (c : Ctx) (x : Task) (l : Launch) : Prop :=
  c.pc = x.at_ 0 ∧
  (∀ n, n < 32 → (c.g.toList)[n]?.getD 0 = if 1 ≤ n ∧ n ≤ 4 then x.at_ (n + 1) else if n = 29 then l.at_ 8 else 0) ∧
  c.b = 0 ∧ c.m = Vector.replicate 4 0 ∧ c.h = Vector.replicate 4 0 ∧ c.v = Vector.replicate 16 0 ∧ c.rep = RepBuf.empty ∧
  c.cr = { CRs.zero with
    wid := x.at_ 1, stklim := l.at_ 9, wshape := l.at_ 2, tvec := l.at_ 3, lrect := l.at_ 1, tenant := x.tenant, lnum := x.lnum
    pstate := if (l.at_ 4).getLsbD 3 then 1 else 0 }

/-- A function of the host link with another content. -/
def withFn (s : State) (fn : Nat) (y : HostFn) : State := { s with fns := smSet HostFn.reset s.fns fn y }

/-- One more dropped write (R366). -/
def dropsOne (x : HostFn) : HostFn := { x with drop := BitVec.ofNat 32 (min (x.drop.toNat + 1) (2 ^ 32 - 1)) }

/-- No record of a function is complete but the one of slot `but`, and its command is not. -/
def Incomplete (y : HostFn) (but : Nat) : Prop := (∀ k, k < 32 → k ≠ but → smGet 0 y.wbits k ≠ 0xFFFF#16) ∧ y.marks ≠ 0xFFFF#16

end Sys2Proof.Claims

section Statements

open Sys2Proof Sys2Proof.Machine Sys2Proof.Claims

/-! ## Halves and their guards -/

/-- R26, R119: a half whose guard does not hold has no effect, whatever the instruction; `cnop` and `anop` have none under any
guard. -/
def Obligations.FalseGuardHasNoEffect : Prop :=
  (∀ (i : Instr) (gd : Guard) (s : State), guardOf i = some gd → s.rd.holds gd = false → exec i s = .next s) ∧
  ∀ (gd : Guard) (s : State), exec (.cnop gd) s = .next s ∧ exec (.anop gd) s = .next s

/-! ## What is no encoding -/

/-- R27, R31, R33 to R39 and R41: a word guarded "never" is a no-operation. Any other word is no instruction, in the cases listed here: if its
major is not assigned, if its L bit is not that of its major, if its function, condition, order or window code is not listed, if one of the
bits that these tables give for its major and function is not zero (fields that its entry leaves unused, and the upper bits of a field that
names a register of a smaller file), or if a type is outside the limit of its code. BundleRoundTrip says of every bundle that it decodes only
if it is what its decoding encodes to. -/
def Obligations.ReservedEncodings : Prop :=
  (∀ w x : BitVec 32,
    let field (pos width : Nat) : Nat := w.toNat / 2 ^ pos % 2 ^ width
    let none_ : Prop := decodeC (CFmt.unpack w) x = none
    let major := field 25 6
    let fn := field 0 6
    let limits : List (Nat × Nat) := [(0x00, 11), (0x0C, 5), (0x1D, 6), (0x1E, 9), (0x20, 2), (0x23, 5), (0x24, 8), (0x29, 3), (0x2C, 3),
      (0x2D, 7), (0x2E, 7), (0x2F, 6), (0x31, 3), (0x32, 6)]
    let code := if major = 0x26 then fn % 16 else fn
    let zeros : List (Nat × List Nat × Nat) :=
      [(0x00, [5, 6], 0x1F07C0), (0x0C, [0], 0x1F07C0), (0x0C, [1], 0xFFC0), (0x0C, [2, 4], 0x7C0), (0x1D, [0, 1], 0x7C0), (0x1D, [4], 0x100400),
        (0x1D, [5], 0x1F07C0), (0x20, [0, 1], 0x1C07C0), (0x23, [0, 2], 0x400), (0x23, [1], 0xFC00), (0x23, [3, 4], 0x7C0)] ++
      [(0x24, [0, 7], 0xFF80), (0x24, [1], 0x1FFFC0), (0x24, [2], 0x1CFFC0), (0x24, [3, 4], 0x1C0000), (0x26, [0, 1, 4], 0x7C0),
        (0x26, [2, 3, 5], 0x1F0000), (0x26, [6], 0x1F07C0), (0x29, [1], 0x7C0), (0x2C, [0, 2], 0x7C0), (0x2D, [0], 0xFC00)] ++
      [(0x2D, [1, 2], 0x7C0), (0x2D, [5], 0x1F0000), (0x2D, [6], 0x1FFFC0), (0x2F, [0], 0x780), (0x2F, [1], 0x1F0000), (0x2F, [2, 3], 0x1F07C0),
        (0x2F, [4], 0x7C0), (0x2F, [5], 0x700), (0x31, [0], 0x780), (0x31, [1], 0x400), (0x31, [2], 0x700), (0x32, [0, 1, 2], 0x1FFFC0)]
    (field 21 4 = 1 → decodeC (CFmt.unpack w) x = some (.cnop ⟨0, true⟩)) ∧
    (field 21 4 ≠ 1 →
      (0x0D ≤ major → major ≤ 0x0F → none_) ∧ (0x33 ≤ major → none_) ∧
      ((field 31 1 = 1 ↔ major ∉ [0x04, 0x0B, 0x22, 0x25, 0x28, 0x30]) → none_) ∧
      (∀ e ∈ limits, major = e.1 → e.2 ≤ fn → none_) ∧ (∀ e ∈ zeros, major = e.1 → code ∈ e.2.1 → w.toNat &&& e.2.2 ≠ 0 → none_) ∧
      (major = 0x21 → w.toNat &&& 0x430 ≠ 0 → none_) ∧ (major = 0x2E → w.toNat &&& 0x7C0 ≠ 0 → none_) ∧
      (major = 0x22 → field 16 5 ≠ 0 ∨ 4 ≤ fn ∨ x.toNat % 2 ^ 20 ≠ 0 → none_) ∧ (major = 0x25 → 4 ≤ field 16 5 ∨ x.toNat % 2 ^ 20 ≠ 0 → none_) ∧
      (major = 0x28 → field 16 5 ≠ 0 ∨ fn ≠ 0 → none_) ∧ (major = 0x30 → 4 ≤ fn ∨ 32 ≤ x.toNat → none_) ∧
      (major = 0x26 → (7 ≤ fn % 16 ∨ fn / 16 = 3) → none_) ∧
      (major = 0x27 → 11 ≤ fn % 16 → none_) ∧ (0x10 ≤ major → major ≤ 0x1C → field 9 2 = 3 → none_) ∧
      (major = 0x17 ∨ major = 0x1C ∨ major = 0x2A ∨ major = 0x2B → (if major < 0x20 then field 20 1 else field 10 1) = 1 → none_) ∧
      (major = 0x2A ∨ major = 0x2B → 1 ≤ fn / 4 → fn / 4 ≤ 7 → none_) ∧ (major = 0x2A ∨ major = 0x2B → fn / 2 % 2 = 1 → none_) ∧
      (major = 0x01 ∨ major = 0x06 → field 11 10 ≠ 0 → none_) ∧ (major = 0x07 → field 11 5 ≠ 0 → none_) ∧
      (major = 0x08 → field 16 5 ≠ 0 → none_) ∧ (major = 0x20 → 4 ≤ field 16 5 → none_) ∧ (major = 0x0B → fn ≠ 0 → none_) ∧
      (major = 0x00 → fn ≠ 5 → fn ≠ 6 → field 6 15 ≠ 0 → none_))) ∧
  ∀ w : BitVec 32,
    let field (pos width : Nat) : Nat := w.toNat / 2 ^ pos % 2 ^ width
    let none_ : Prop := decodeA (AFmt.unpack w) = none
    let major := field 26 6
    let fn := field 0 7
    let d := field 17 5
    let a := field 12 5
    let code := fn % 16
    let ty := fn / 16
    let op := if major = 0x10 then fn % 64 else if 0x20 ≤ major ∧ major ≤ 0x24 then code else fn
    let zeros : List (Nat × List Nat × Nat) :=
      [(0x01, [19, 20, 21, 22], 0xF80), (0x0D, [0, 1, 2], 0x318C00), (0x0D, [3, 4], 0x318F80), (0x0D, [5], 0x1FF80), (0x0D, [6], 0x3E0F80),
        (0x10, [4, 7, 8, 10, 11], 0xF80), (0x10, [12], 0xE00), (0x10, [13], 0xF00), (0x20, [0, 1, 2, 3, 4, 7, 8, 9, 10, 11, 12, 14, 15], 0x210800),
        (0x20, [5, 6, 13], 0x210F80), (0x21, [0, 1, 2, 3, 4, 5, 6], 0x390800), (0x22, [0, 1, 2, 3], 0x210800)] ++
      [(0x23, [0], 0x200F80), (0x23, [1], 0x10000), (0x23, [2], 0x200000), (0x23, [3], 0x210800), (0x23, [4, 9, 10], 0x210000),
        (0x23, [5, 6, 7, 8], 0x210F80), (0x24, [0, 1, 2, 3, 4, 5, 6, 7], 0x210F80), (0x25, [0, 1], 0x39CE00), (0x25, [2], 0x39CF80),
        (0x25, [3], 0x1CF80)]
    (field 22 4 = 1 → decodeA (AFmt.unpack w) = some (.anop ⟨0, true⟩)) ∧
    (field 22 4 ≠ 1 →
      (major = 0x0F ∨ 0x13 ≤ major ∧ major ≤ 0x1F ∨ major = 0x27 ∨ 0x2A ≤ major → none_) ∧
      (major = 0x00 → field 0 22 ≠ 0 → none_) ∧ (∀ e ∈ zeros, major = e.1 → op ∈ e.2.1 → w.toNat &&& e.2.2 ≠ 0 → none_) ∧
      (∀ e ∈ ([(0x01, 0x17), (0x0C, 6), (0x0D, 7), (0x0E, 8), (0x22, 4), (0x25, 4)] : List (Nat × Nat)), major = e.1 → e.2 ≤ fn → none_) ∧
      (∀ e ∈ ([(0x10, 14), (0x11, 3), (0x12, 4)] : List (Nat × Nat)), major = e.1 → e.2 ≤ fn % 64 → none_) ∧
      (∀ e ∈ ([(0x21, 7), (0x23, 11), (0x24, 8)] : List (Nat × Nat)), major = e.1 → e.2 ≤ code → none_) ∧
      (major = 0x06 → 3 ≤ field 6 6 → none_) ∧ (major = 0x07 → 64 < field 6 6 + field 0 6 + 1 → none_) ∧
      (9 ≤ major → major ≤ 11 → field 16 1 = 1 → none_) ∧ (major = 0x0C ∨ major = 0x12 → 8 ≤ d → none_) ∧
      (major = 0x21 → 4 ≤ d → none_) ∧ (major = 0x25 → fn ≠ 3 → 4 ≤ d → none_) ∧ (major = 0x25 → 4 ≤ a → none_) ∧
      (major = 0x20 ∨ major = 0x22 ∨ major = 0x24 ∨ major = 0x28 ∨ major = 0x29 → 16 ≤ d ∨ 16 ≤ a → none_) ∧
      (major = 0x20 → 7 ≤ code ∧ code ≤ 12 ∧ 4 ≤ ty ∨ 14 ≤ code ∧ ty < 4 → none_) ∧
      (major = 0x21 → (code = 4 ∨ code = 5) ∧ 4 ≤ ty ∨ code = 6 ∧ ty < 4 → none_) ∧
      (major = 0x23 → code = 9 ∧ (ty = 3 ∨ ty = 7) ∨ code = 10 ∧ (ty = 0 ∨ ty = 4) → none_) ∧ (major = 0x24 → ty < 4 → none_) ∧
      (major = 0x28 → fn / 8 % 8 < 4 ∨ fn / 8 % 8 = 7 → none_) ∧ (major = 0x29 → fn / 16 = fn / 2 % 8 → none_))

/-! ## Scalar registers -/

/-- R79 to R81, R87, R56, R57, R166 and R167: g0 reads zero and discards writes; every other register reads what was last written to it and keeps
its value when another is written; inside a completion handler g1 to g4 are h1 to h4; a write of a general register
changes no other register, no other slot and no byte of memory; b0 reads 1 and discards writes, every other predicate reads what was
last written to it, and `bunpk` of what `bpack` gave restores every predicate; a vector register reads what was last written to it, 512
bits or, in a ganged thread, 1,024; an unganged write leaves the upper half, and every other register stays as it was; the same of the
mask registers. -/
def Obligations.RegisterFiles : Prop :=
  (∀ (c : Ctx) (n k : GReg) (v : W64),
     c.getG 0 = 0 ∧ c.setG 0 v = c ∧
     (n ≠ 0 → (c.setG n v).getG n = v) ∧
     (k ≠ n → (c.setG n v).getG k = c.getG k) ∧
     (c.uih = true → 1 ≤ n.toNat → n.toNat ≤ 4 →
       c.getG n = (c.h.toList)[n.toNat - 1]?.getD 0 ∧ (c.setG n v).g = c.g) ∧
     (c.uih = false → (c.setG n v).h = c.h) ∧
     (c.setG n v).pc = c.pc ∧ (c.setG n v).b = c.b ∧ (c.setG n v).m = c.m ∧ (c.setG n v).v = c.v ∧
     (c.setG n v).cr = c.cr ∧ (c.setG n v).rep = c.rep ∧
     ∀ s : State,
       (∀ a, (s.setG n v).byte a = s.byte a) ∧ (∀ j, j ≠ s.cur → (s.setG n v).slot j = s.slot j) ∧
       s.setG n v = { s with slots := (s.setG n v).slots }) ∧
  (∀ (c c' : Ctx) (n k : PReg) (v : Bool),
     c.getB 0 = true ∧ c.setB 0 v = c ∧ (n ≠ 0 → (c.setB n v).getB n = v) ∧
     (k ≠ n → (c.setB n v).getB k = c.getB k) ∧
     (unpackB c' (packB c)).getB n = c.getB n ∧
     packB c &&& ~~~0xFF#64 = 0) ∧
  ∀ (c : Ctx) (n k : VReg) (m : MReg) (x : BitVec 1024) (y : W64),
    (c.gang = true → (c.setV n x).getV n = x) ∧
    (c.gang = false → ∀ j, ((c.setV n x).getV n).getLsbD j = (decide (j < 512) && x.getLsbD j)) ∧
    (c.gang = false → ∀ j, 512 ≤ j →
      (((c.setV n x).v.toList)[n.toNat]?.getD 0).getLsbD j = ((c.v.toList)[n.toNat]?.getD 0).getLsbD j) ∧
    (k ≠ n → (c.setV n x).getV k = c.getV k) ∧ c.setV n x = { c with v := (c.setV n x).v } ∧
    c.vlen = (if c.gang then 1024 else 512) ∧ (∀ w, 0 < w → c.lanes w * w ≤ c.vlen) ∧
    (c.setM m y).getM m = y ∧ (∀ l, l ≠ m → (c.setM m y).getM l = c.getM l) ∧ c.setM m y = { c with m := (c.setM m y).m }

/-! ## Integer arithmetic -/

/-- R83: the result of each integer operation, from operands read at issue; nothing else changes, and the slot goes on
issuing. -/
def Obligations.IntegerOperations : Prop :=
  ∀ (gd : Guard) (d a b : GReg) (s : State), Issues gd s →
    let A := s.g a
    let B := s.g b
    let k := B.toNat % 64
    exec (.add gd d a b) s = .next (s.setG d (BitVec.ofNat 64 (A.toNat + B.toNat))) ∧
    exec (.sub gd d a b) s = .next (s.setG d (BitVec.ofInt 64 ((A.toNat : Int) - B.toNat))) ∧
    exec (.and gd d a b) s = .next (s.setG d (A &&& B)) ∧
    exec (.or gd d a b) s = .next (s.setG d (A ||| B)) ∧
    exec (.xor gd d a b) s = .next (s.setG d (A ^^^ B)) ∧
    exec (.sll gd d a b) s = .next (s.setG d (BitVec.ofNat 64 (A.toNat * 2 ^ k))) ∧
    exec (.srl gd d a b) s = .next (s.setG d (BitVec.ofNat 64 (A.toNat / 2 ^ k))) ∧
    exec (.sra gd d a b) s = .next (s.setG d (BitVec.ofInt 64 (A.toInt / 2 ^ k))) ∧
    exec (.mul gd d a b) s = .next (s.setG d (BitVec.ofNat 64 (A.toNat * B.toNat))) ∧
    exec (.mulh gd d a b) s = .next (s.setG d ((A.signExtend 128 * B.signExtend 128).extractLsb' 64 64)) ∧
    exec (.mulhu gd d a b) s = .next (s.setG d ((A.zeroExtend 128 * B.zeroExtend 128).extractLsb' 64 64)) ∧
    exec (.min gd d a b) s = .next (s.setG d (if A.toInt ≤ B.toInt then A else B)) ∧
    exec (.max gd d a b) s = .next (s.setG d (if A.toInt ≤ B.toInt then B else A)) ∧
    exec (.minu gd d a b) s = .next (s.setG d (if A.toNat ≤ B.toNat then A else B)) ∧
    exec (.maxu gd d a b) s = .next (s.setG d (if A.toNat ≤ B.toNat then B else A)) ∧
    (∃ n, exec (.clz gd d a) s = .next (s.setG d (BitVec.ofNat 64 n)) ∧ n ≤ 64 ∧
      (∀ j, 64 - n ≤ j → A.getLsbD j = false) ∧ (n < 64 → A.getLsbD (63 - n) = true)) ∧
    (∃ n, exec (.ctz gd d a) s = .next (s.setG d (BitVec.ofNat 64 n)) ∧ n ≤ 64 ∧
      (∀ j, j < n → A.getLsbD j = false) ∧ (n < 64 → A.getLsbD n = true)) ∧
    exec (.popc gd d a) s = .next (s.setG d (BitVec.ofNat 64 ((List.range 64).countP fun j => A.getLsbD j))) ∧
    (∃ v : W64, exec (.brev gd d a) s = .next (s.setG d v) ∧ ∀ j, j < 64 → v.getLsbD j = A.getLsbD (63 - j))

/-- R84: the four divisions. A zero divisor gives quotient 0 and the dividend as remainder; the one quotient that does not
fit gives the dividend and remainder 0; every other division truncates toward zero, with a remainder below the divisor
that has the sign of the dividend. -/
def Obligations.DivisionResults : Prop :=
  ∀ (gd : Guard) (d a b : GReg) (s : State), Issues gd s →
    let A := s.g a
    let B := s.g b
    (∃ quo rm : Int,
      exec (.div gd d a b) s = .next (s.setG d (BitVec.ofInt 64 quo)) ∧
      exec (.rem gd d a b) s = .next (s.setG d (BitVec.ofInt 64 rm)) ∧
      (B = 0 → quo = 0 ∧ rm = A.toInt) ∧
      (A.toInt = -2 ^ 63 → B.toInt = -1 → quo = -2 ^ 63 ∧ rm = 0) ∧
      (B ≠ 0 → ¬(A.toInt = -2 ^ 63 ∧ B.toInt = -1) →
        A.toInt = quo * B.toInt + rm ∧ rm.natAbs < B.toInt.natAbs ∧ (0 ≤ A.toInt → 0 ≤ rm) ∧ (A.toInt ≤ 0 → rm ≤ 0))) ∧
    ∃ quo rm : Nat,
      exec (.divu gd d a b) s = .next (s.setG d (BitVec.ofNat 64 quo)) ∧
      exec (.remu gd d a b) s = .next (s.setG d (BitVec.ofNat 64 rm)) ∧
      (B = 0 → quo = 0 ∧ rm = A.toNat) ∧ (B ≠ 0 → A.toNat = quo * B.toNat + rm ∧ rm < B.toNat)

/-- R85 and R86: the immediate forms, of which `lui` replaces one 16-bit chunk and keeps every other bit; comparison, the predicate
operations and selection. -/
def Obligations.ImmediatesAndPredicates : Prop :=
  (∀ (gd : Guard) (d a : GReg) (s : State), Issues gd s →
     (∀ i : BitVec 12,
       exec (.addi gd d a i) s = .next (s.setG d (BitVec.ofInt 64 ((s.g a).toInt + i.toInt))) ∧
       exec (.andi gd d a i) s = .next (s.setG d (s.g a &&& i.signExtend 64)) ∧
       exec (.ori gd d a i) s = .next (s.setG d (s.g a ||| i.signExtend 64)) ∧
       exec (.xori gd d a i) s = .next (s.setG d (s.g a ^^^ i.signExtend 64))) ∧
     (∀ n : BitVec 6,
       exec (.slli gd d a n) s = .next (s.setG d (BitVec.ofNat 64 ((s.g a).toNat * 2 ^ n.toNat))) ∧
       exec (.srli gd d a n) s = .next (s.setG d (BitVec.ofNat 64 ((s.g a).toNat / 2 ^ n.toNat))) ∧
       exec (.srai gd d a n) s = .next (s.setG d (BitVec.ofInt 64 ((s.g a).toInt / 2 ^ n.toNat)))) ∧
     (∀ pos wm1 : BitVec 6, ∃ v : W64, exec (.ext gd d a pos wm1) s = .next (s.setG d v) ∧
       ∀ j, j < 64 → v.getLsbD j = (decide (j ≤ wm1.toNat) && (s.g a).getLsbD (pos.toNat + j))) ∧
     (∀ i : BitVec 17, exec (.li gd d i) s = .next (s.setG d (BitVec.ofInt 64 i.toInt))) ∧
     ∀ c : BitVec 16, ∃ v1 v2 v3 : W64,
       exec (.lui1 gd d c) s = .next (s.setG d v1) ∧ exec (.lui2 gd d c) s = .next (s.setG d v2) ∧
       exec (.lui3 gd d c) s = .next (s.setG d v3) ∧
       ∀ j, j < 64 →
         v1.getLsbD j = (if j / 16 = 1 then c.getLsbD (j % 16) else (s.g d).getLsbD j) ∧
         v2.getLsbD j = (if j / 16 = 2 then c.getLsbD (j % 16) else (s.g d).getLsbD j) ∧
         v3.getLsbD j = (if j / 16 = 3 then c.getLsbD (j % 16) else (s.g d).getLsbD j)) ∧
  ∀ (gd : Guard) (s : State), Issues gd s →
    (∀ (d : PReg) (a b : GReg),
      exec (.cmp gd d a b .eq) s = .next (s.setB d (decide (s.g a = s.g b))) ∧
      exec (.cmp gd d a b .ne) s = .next (s.setB d (decide (s.g a ≠ s.g b))) ∧
      exec (.cmp gd d a b .lt) s = .next (s.setB d (decide ((s.g a).toInt < (s.g b).toInt))) ∧
      exec (.cmp gd d a b .ge) s = .next (s.setB d (decide ((s.g b).toInt ≤ (s.g a).toInt))) ∧
      exec (.cmp gd d a b .ltu) s = .next (s.setB d (decide ((s.g a).toNat < (s.g b).toNat))) ∧
      exec (.cmp gd d a b .geu) s = .next (s.setB d (decide ((s.g b).toNat ≤ (s.g a).toNat)))) ∧
    (∀ d a b : PReg,
      exec (.band gd d a b) s = .next (s.setB d (s.rd.getB a && s.rd.getB b)) ∧
      exec (.bor gd d a b) s = .next (s.setB d (s.rd.getB a || s.rd.getB b)) ∧
      exec (.bxor gd d a b) s = .next (s.setB d (xor (s.rd.getB a) (s.rd.getB b))) ∧
      exec (.bnot gd d a) s = .next (s.setB d (!s.rd.getB a)) ∧
      exec (.bmov gd d a) s = .next (s.setB d (s.rd.getB a))) ∧
    (∀ d : GReg, ∃ v : W64, exec (.bpack gd d) s = .next (s.setG d v) ∧
      ∀ j, j < 64 → v.getLsbD j = (decide (j < 8) && s.rd.getB (BitVec.ofNat 3 j))) ∧
    (∀ a : GReg, ∃ f : Ctx → Ctx, exec (.bunpk gd a) s = .next (s.upd f) ∧
      ∀ (c : Ctx) (n : PReg), (f c).getB n = (decide (n = 0) || (s.g a).getLsbD n.toNat)) ∧
    ∀ (d a b : GReg) (p : PReg),
      exec (.sel gd d a b p) s = .next (s.setG d (if s.rd.getB p = true then s.g a else s.g b))

/-! ## Scalar floating point -/

/-- R91 and R92: sums, products and fused operations compute the exact value of their operands and deliver it once, in the
format that P selects, with the special cases and the invalid flags of R91. -/
def Obligations.FpArithmetic : Prop :=
  ∀ (gd : Guard) (d a b : GReg) (f : FTy) (s : State), Issues gd s →
    let A := fpVal f s a
    let B := fpVal f s b
    let D := fpVal f s d
    (∃ v fl, IsSum s.rnd A B v fl ∧ exec (.fadd gd d a b f) s = .next (delivers f d v fl s)) ∧
    (∃ v fl, IsSum s.rnd A B.negate v fl ∧ exec (.fsub gd d a b f) s = .next (delivers f d v fl s)) ∧
    (∃ v fl, IsProduct A B v fl ∧ exec (.fmul gd d a b f) s = .next (delivers f d v fl s)) ∧
    ∃ p fp, IsProduct A B p fp ∧
      (∃ v fl, IsSum s.rnd p D v fl ∧ exec (.fma gd d a b f) s = .next (delivers f d v (fp ||| fl) s)) ∧
      (∃ v fl, IsSum s.rnd p D.negate v fl ∧ exec (.fms gd d a b f) s = .next (delivers f d v (fp ||| fl) s)) ∧
      ∃ v fl, IsSum s.rnd p.negate D v fl ∧ exec (.fnma gd d a b f) s = .next (delivers f d v (fp ||| fl) s)

/-- R88 to R91: quotients and roots: the special cases with their flags; every other quotient is the exact one rounded once,
and every other root the nearest to the exact one, or the next to it on the side of the mode. A quotient or a root of finite
binary expansion is delivered as that number. -/
def Obligations.FpDivisionAndRoot : Prop :=
  ∀ (gd : Guard) (d a b : GReg) (f : FTy) (s : State), Issues gd s →
    let m := ftyFmt f
    let A := fpVal f s a
    let B := fpVal f s b
    let x := A.sign != B.sign
    (∃ r fl, exec (.fdiv gd d a b f) s = .next ((s.setG d (w64 r)).raise fl) ∧
      (A.isNan = true ∨ B.isNan = true → r = m.nan ∧ fl = flagIf (A.isSnan || B.isSnan) flagNv) ∧
      (A.isInf = true → B.isInf = true → r = m.nan ∧ fl = flagNv) ∧
      (A.isInf = true → isFin B = true → r = m.inf x ∧ fl = 0) ∧
      (isFin A = true → B.isInf = true → r = (if x then m.signBit else 0) ∧ fl = 0) ∧
      (A.isZero = true → B.isZero = true → r = m.nan ∧ fl = flagNv) ∧
      (isFin A = true → A.isZero = false → B.isZero = true → r = m.inf x ∧ fl = flagDz) ∧
      (A.isZero = true → isFin B = true → B.isZero = false → r = (if x then m.signBit else 0) ∧ fl = 0) ∧
      (isFin A = true → A.isZero = false → isFin B = true → B.isZero = false →
        RoundsTo m s.rnd (ratOf A / ratOf B) (r, fl)) ∧
      ∀ q : FVal, isFin q = true → q.isZero = false → isFin A = true → isFin B = true → B.isZero = false →
        ratOf q * ratOf B = ratOf A → (r, fl) = m.deliver s.rnd q) ∧
    ∃ r fl, exec (.fsqrt gd d a f) s = .next ((s.setG d (w64 r)).raise fl) ∧
      (A.isNan = true → r = m.nan ∧ fl = flagIf A.isSnan flagNv) ∧
      (A.isInf = true → A.sign = false → r = m.inf false ∧ fl = 0) ∧
      (A.isZero = true → r = (if A.sign then m.signBit else 0) ∧ fl = 0) ∧
      (A.isNan = false → A.isZero = false → A.sign = true → r = m.nan ∧ fl = flagNv) ∧
      (isFin A = true → A.isZero = false → A.sign = false → RootOf m s.rnd (ratOf A) (r, fl)) ∧
      ∀ q : FVal, isFin q = true → q.isZero = false → q.sign = false → isFin A = true → A.sign = false →
        ratOf q * ratOf q = ratOf A → (r, fl) = m.deliver s.rnd q

/-- R93 and R96: the lesser and the greater operand, in an order in which -0 is below +0, and the comparisons, in which the two
zeros are equal; what NaN operands give, and which flags are raised. -/
def Obligations.FpOrder : Prop :=
  ∀ (gd : Guard) (d a b : GReg) (p : PReg) (f : FTy) (s : State), Issues gd s →
    let m := ftyFmt f
    let X := fpRead f (s.g a)
    let Y := fpRead f (s.g b)
    let A := m.value X
    let B := m.value Y
    let snan := flagIf (A.isSnan || B.isSnan) flagNv
    let nan := flagIf (A.isNan || B.isNan) flagNv
    (∃ lo hi, exec (.fmin gd d a b f) s = .next ((s.setG d (w64 lo)).raise snan) ∧
      exec (.fmax gd d a b f) s = .next ((s.setG d (w64 hi)).raise snan) ∧
      (A.isNan = true → B.isNan = true → lo = m.nan ∧ hi = m.nan) ∧
      (A.isNan = true → B.isNan = false → lo = Y ∧ hi = Y) ∧ (A.isNan = false → B.isNan = true → lo = X ∧ hi = X) ∧
      (A.isNan = false → B.isNan = false →
        (lo = X ∨ lo = Y) ∧ (hi = X ∨ hi = Y) ∧
        fpKey m false lo = min (fpKey m false X) (fpKey m false Y) ∧
        fpKey m false hi = max (fpKey m false X) (fpKey m false Y))) ∧
    let num := !A.isNan && !B.isNan
    exec (.fcmp gd p a b f .eq) s = .next ((s.setB p (num && fpKey m true X == fpKey m true Y)).raise snan) ∧
    exec (.fcmp gd p a b f .un) s = .next ((s.setB p (!num)).raise snan) ∧
    exec (.fcmp gd p a b f .lt) s = .next ((s.setB p (num && decide (fpKey m true X < fpKey m true Y))).raise nan) ∧
    exec (.fcmp gd p a b f .le) s = .next ((s.setB p (num && decide (fpKey m true X ≤ fpKey m true Y))).raise nan)

/-- R94 and R95: the sign operations act on bits alone and raise nothing, and `fclass` sets the one bit of its operand's
class. -/
def Obligations.FpSignAndClass : Prop :=
  ∀ (gd : Guard) (d a b : GReg) (f : FTy) (s : State), Issues gd s →
    let w := match f with | .s => 32 | .d => 64
    let A := s.g a
    let B := s.g b
    (∃ v : W64, exec (.fabs gd d a f) s = .next ((s.setG d v).raise 0) ∧
      ∀ j, j < 64 → v.getLsbD j = (decide (j < w - 1) && A.getLsbD j)) ∧
    (∃ v : W64, exec (.fneg gd d a f) s = .next ((s.setG d v).raise 0) ∧
      ∀ j, j < 64 → v.getLsbD j = if j = w - 1 then !A.getLsbD j else decide (j < w) && A.getLsbD j) ∧
    (∃ v : W64, exec (.fsgnj gd d a b f) s = .next ((s.setG d v).raise 0) ∧
      ∀ j, j < 64 → v.getLsbD j = if j = w - 1 then B.getLsbD j else decide (j < w) && A.getLsbD j) ∧
    let m := ftyFmt f
    let x := fpRead f A
    let neg := decide (x / m.signBit % 2 = 1)
    let e := x / 2 ^ m.frac % 2 ^ m.exp
    let t := x % 2 ^ m.frac
    exec (.fclass gd d a f) s = .next ((s.setG d (1#64 <<<
      (if e = m.top then
        (if t = 0 then (if neg then 9 else 2) else if t < 2 ^ (m.frac - 1) then 1 else 0)
      else if e = 0 then
        (if t = 0 then (if neg then 6 else 5) else if neg then 7 else 4)
      else if neg then 8 else 3))).raise 0)

/-- R97: the conversions. `fcvt` delivers the value of its source, without any loss into FP64; `fcvti` gives the nearest
integer under its rounding, or the nearest limit of its range with nv; `icvtf` delivers the integer. -/
def Obligations.FpConversions : Prop :=
  ∀ (gd : Guard) (d a : GReg) (f : FTy) (s : State), Issues gd s →
    let src : FTy := match f with | .s => .d | .d => .s
    let C := fpVal src s a
    exec (.fcvt gd d a f) s = .next (delivers f d C (flagIf C.isSnan flagNv) s) ∧
    (f = .d → isFin C = true → (fmt64.deliver s.rnd C).2 = 0 ∧ isFin (fmt64.value (fmt64.deliver s.rnd C).1) = true ∧
      ratOf (fmt64.value (fmt64.deliver s.rnd C).1) = ratOf C) ∧
    (∀ tr u : Bool,
      let A := fpVal f s a
      let lo : Int := if u then 0 else -2 ^ 63
      let hi : Int := if u then 2 ^ 64 - 1 else 2 ^ 63 - 1
      ∃ (v : Int) (fl : FlagSet), exec (.fcvti gd d a tr u f) s = .next ((s.setG d (BitVec.ofInt 64 v)).raise fl) ∧
        (A.isNan = true → v = 0 ∧ fl = flagNv) ∧
        (A.isInf = true → v = (if A.sign then lo else hi) ∧ fl = flagNv) ∧
        (isFin A = true → ∃ n : Int, NearInt (if tr then .rtz else s.rnd) (ratOf A) n ∧
          if n < lo then v = lo ∧ fl = flagNv else if hi < n then v = hi ∧ fl = flagNv
          else v = n ∧ fl = if (n : Rat) = ratOf A then 0 else flagNx)) ∧
    ∀ u : Bool,
      let n : Int := if u then ((s.g a).toNat : Int) else (s.g a).toInt
      ∃ v : FVal, isFin v = true ∧ ratOf v = n ∧ v.sign = decide (n < 0) ∧
        exec (.icvtf gd d a u f) s = .next (delivers f d v 0 s)

/-- R88 to R91: what it is to deliver an exact value in FP32 or FP64. A NaN is the canonical one; a number of the
format is delivered as it is, with no flag; every other number is rounded once: to the nearest, with ties to even, or to the
next on the side of the mode, with nx where the result differs, uf where it is tiny besides, and of where it overflows, to an
infinity or to the largest finite value, as the mode says. -/
def Obligations.FpDelivery : Prop :=
  ∀ (f : FTy) (mode : W64) (v : FVal),
    let m := ftyFmt f
    let rm := rndOf mode
    let r := m.deliver rm v
    r.1 < 2 ^ m.width ∧
    (v.isNan = true → r = (match f with | .s => 0x7FC00000 | .d => 0x7FF8000000000000, 0)) ∧
    (v.isInf = true → r = (m.inf v.sign, 0)) ∧
    (v.isZero = true → r = (if v.sign then m.signBit else 0, 0)) ∧
    (∀ x, x < 2 ^ m.width → isFin v = true → v.isZero = false → isFin (m.value x) = true → ratOf (m.value x) = ratOf v →
      r = (x, 0)) ∧
    rm = (match mode.toNat % 4 with | 0 => .rne | 1 => .rtz | 2 => .rup | _ => .rdn) ∧
    (isFin v = true → v.isZero = false → RoundsTo m rm (ratOf v) r)

/-! ## Vectors -/

/-- R172 and R173: integer lanes. -/
def Obligations.VectorIntegerLanes : Prop :=
  ∀ (gd : Guard) (d a b : VReg) (t : ETy) (s : State), Issues gd s → t.isFp = false →
    let w := t.width
    let A := laneOf s a w
    let B := laneOf s b w
    let I (f : Nat → Int) : Nat → Nat × FlagSet := fun j => ((f j % 2 ^ w).toNat, 0)
    let U (f : Nat → Nat) : Nat → Nat × FlagSet := fun j => (f j, 0)
    WritesLanes s d w (exec (.vadd gd d a b t) s) (I fun j => A j + B j) ∧
    WritesLanes s d w (exec (.vsub gd d a b t) s) (I fun j => (A j : Int) - B j) ∧
    WritesLanes s d w (exec (.vmul gd d a b t) s) (I fun j => A j * B j) ∧
    WritesLanes s d w (exec (.vmin gd d a b t) s) (I fun j => min (signedLane w (A j)) (signedLane w (B j))) ∧
    WritesLanes s d w (exec (.vmax gd d a b t) s) (I fun j => max (signedLane w (A j)) (signedLane w (B j))) ∧
    WritesLanes s d w (exec (.vabs gd d a t) s) (I fun j => (signedLane w (A j)).natAbs) ∧
    WritesLanes s d w (exec (.vneg gd d a t) s) (I fun j => -(A j : Int)) ∧
    WritesLanes s d w (exec (.vand gd d a b t) s) (U fun j => A j &&& B j) ∧
    WritesLanes s d w (exec (.vor gd d a b t) s) (U fun j => A j ||| B j) ∧
    WritesLanes s d w (exec (.vxor gd d a b t) s) (U fun j => A j ^^^ B j) ∧
    WritesLanes s d w (exec (.vsll gd d a b t) s) (U fun j => A j <<< (B j % w)) ∧
    WritesLanes s d w (exec (.vsrl gd d a b t) s) (U fun j => A j >>> (B j % w)) ∧
    WritesLanes s d w (exec (.vsra gd d a b t) s) (I fun j => signedLane w (A j) >>> (B j % w))

/-- R126, R172 and R173: floating-point lanes, in the reading in force; `vmov` copies its register whatever the type. -/
def Obligations.VectorFloatLanes : Prop :=
  ∀ (gd : Guard) (d a b : VReg) (t : ETy) (s : State), Issues gd s →
    exec (.vmov gd d a t) s = .next (s.setV d (s.rd.getV a)) ∧
    (t.isFp = true →
      let w := t.width
      let F := etyFmt t s.finite
      let rm := s.rnd
      let A := laneOf s a w
      let B := laneOf s b w
      let D := laneOf s d w
      ∃ add sub mul fma fms lo hi abs neg : Nat → Nat × FlagSet,
        WritesLanes s d w (exec (.vadd gd d a b t) s) add ∧ WritesLanes s d w (exec (.vsub gd d a b t) s) sub ∧
        WritesLanes s d w (exec (.vmul gd d a b t) s) mul ∧ WritesLanes s d w (exec (.vfma gd d a b t) s) fma ∧
        WritesLanes s d w (exec (.vfms gd d a b t) s) fms ∧ WritesLanes s d w (exec (.vmin gd d a b t) s) lo ∧
        WritesLanes s d w (exec (.vmax gd d a b t) s) hi ∧ WritesLanes s d w (exec (.vabs gd d a t) s) abs ∧
        WritesLanes s d w (exec (.vneg gd d a t) s) neg ∧
        ∀ j, j < s.rd.lanes w →
          Sums F rm (F.value (A j)) (F.value (B j)) (add j) ∧ Sums F rm (F.value (A j)) (F.value (B j)).negate (sub j) ∧
          Multiplies F rm (F.value (A j)) (F.value (B j)) (mul j) ∧
          Fuses F rm (F.value (A j)) (F.value (B j)) (F.value (D j)) (fma j) ∧
          Fuses F rm (F.value (A j)) (F.value (B j)) (F.value (D j)).negate (fms j) ∧
          Extreme F min (A j) (B j) (lo j) ∧ Extreme F max (A j) (B j) (hi j) ∧
          abs j = (if F.finite = true ∧ A j = 2 ^ w - 1 then A j else A j % 2 ^ (w - 1), 0) ∧
          neg j = (if F.finite = true ∧ A j = 2 ^ w - 1 then A j
            else if F.finite = true ∧ A j = 2 ^ (w - 1) - 1 then 2 ^ w - 2
            else (A j + 2 ^ (w - 1)) % 2 ^ w, 0))

/-- R167, R174 and R175: comparisons write every bit of the mask; selection by mask; the mask operations. -/
def Obligations.VectorMasks : Prop :=
  ∀ (gd : Guard) (s : State), Issues gd s →
    (∀ (d : MReg) (a b : VReg) (t : ETy) (c : VCond), c ≠ .un ∨ t.isFp = true → t.isFp = false ∨ (c ≠ .ltu ∧ c ≠ .leu) →
      let w := t.width
      let F := etyFmt t s.finite
      let A := laneOf s a w
      let B := laneOf s b w
      let X := fun j => F.value (A j)
      let Y := fun j => F.value (B j)
      let num := fun j => !(X j).isNan && !(Y j).isNan
      let ka := fun j => fpKey F true (A j)
      let kb := fun j => fpKey F true (B j)
      let holds : Nat → Bool := fun j =>
        if t.isFp then
          match c with
          | .eq => num j && ka j == kb j
          | .ne => !(num j && ka j == kb j)
          | .lt => num j && decide (ka j < kb j)
          | .le => num j && decide (ka j ≤ kb j)
          | _ => !num j
        else
          match c with
          | .eq => A j == B j
          | .ne => A j != B j
          | .lt => decide (signedLane w (A j) < signedLane w (B j))
          | .le => decide (signedLane w (A j) ≤ signedLane w (B j))
          | .ltu => decide (A j < B j)
          | _ => decide (A j ≤ B j)
      let raises : Nat → Nat × FlagSet := fun j =>
        (0, flagIf (t.isFp && if c = .lt ∨ c = .le then !num j else (X j).isSnan || (Y j).isSnan) flagNv)
      ∃ (m : W64) (fl : FlagSet), exec (.vcmp gd d a b t c) s = .next ((s.setM d m).raise fl) ∧
        FlagsOf fl (s.rd.lanes w) raises ∧
        ∀ j, j < 64 → (m.getLsbD j = true ↔
          ∀ i, i < s.rd.vlen / 512 → holds ((s.rd.vlen / 512 * j + i) * 8 / w) = true)) ∧
    (∀ (d a b : VReg) (m : MReg), ∃ v : BitVec 1024, exec (.vsel gd d a b m) s = .next (s.setV d v) ∧
      ∀ i, i < s.rd.vlen / 8 →
        lane v 8 i = if (s.rd.getM m).getLsbD (if s.rd.gang then i / 2 else i) = true then laneOf s a 8 i else laneOf s b 8 i) ∧
    (∀ d a b : MReg,
      exec (.mand gd d a b) s = .next (s.setM d (s.rd.getM a &&& s.rd.getM b)) ∧
      exec (.mor gd d a b) s = .next (s.setM d (s.rd.getM a ||| s.rd.getM b)) ∧
      exec (.mnot gd d a) s = .next (s.setM d (s.rd.getM a ^^^ 0xFFFFFFFFFFFFFFFF#64))) ∧
    ∀ (d : GReg) (a : MReg), exec (.mpop gd d a) s =
      .next (s.setG d (BitVec.ofNat 64 ((List.range 64).countP fun j => (s.rd.getM a).getLsbD j)))

/-- R176 and R177: broadcasting, reading and writing one lane, permuting and sliding; a lane index that the register has not
traps. -/
def Obligations.VectorMovement : Prop :=
  ∀ (gd : Guard) (t : ETy) (s : State), Issues gd s →
    let w := t.width
    let n := s.rd.lanes w
    (∀ (d : VReg) (a : GReg), ∃ v, exec (.vbc gd d a t) s = .next (s.setV d v) ∧
      ∀ j, j < n → lane v w j = (s.g a).toNat % 2 ^ w) ∧
    (∀ (d : GReg) (a : VReg) (i : BitVec 5),
      (i.toNat < n → exec (.vext gd d a i t) s = .next (s.setG d
        (if t.isFp then BitVec.ofNat 64 (laneOf s a w i.toNat) else BitVec.ofInt 64 (signedLane w (laneOf s a w i.toNat))))) ∧
      (n ≤ i.toNat → exec (.vext gd d a i t) s = .next (s.trap 0x01 s.raw))) ∧
    (∀ (d : VReg) (a : GReg) (i : BitVec 5),
      (i.toNat < n → ∃ v, exec (.vins gd d a i t) s = .next (s.setV d v) ∧
        ∀ j, j < n → lane v w j = if j = i.toNat then (s.g a).toNat % 2 ^ w else laneOf s d w j) ∧
      (n ≤ i.toNat → exec (.vins gd d a i t) s = .next (s.trap 0x01 s.raw))) ∧
    (∀ d a b : VReg, ∃ v, exec (.vperm gd d a b t) s = .next (s.setV d v) ∧
      ∀ j, j < n → lane v w j = laneOf s a w (laneOf s b w j % n)) ∧
    ∀ (d a : VReg) (sh : BitVec 5),
      (sh.toNat < n → ∃ v, exec (.vslide gd d a sh t) s = .next (s.setV d v) ∧
        ∀ j, j < n → lane v w j = if j + sh.toNat < n then laneOf s a w (j + sh.toNat) else laneOf s d w (j + sh.toNat - n)) ∧
      (n ≤ sh.toNat → exec (.vslide gd d a sh t) s = .next (s.trap 0x01 s.raw))

/-- R178: the reductions go by the pairwise tree over lane indexes and leave every other lane zero; the scan goes from lane to
lane; the flags of all steps are raised. -/
def Obligations.VectorReductions : Prop :=
  ∀ (gd : Guard) (d a : VReg) (t : ETy) (s : State), Issues gd s →
    let w := t.width
    let F := etyFmt t s.finite
    let k := Nat.log2 (s.rd.lanes w)
    let A := laneOf s a w
    let add (x y : Nat) : Nat × FlagSet :=
      if t.isFp then F.sum s.rnd (F.value x) (F.value y) else ((x + y) % 2 ^ w, 0)
    let least (x y : Nat) : Nat × FlagSet :=
      if t.isFp then F.least x y else (if signedLane w x ≤ signedLane w y then x else y, 0)
    let greatest (x y : Nat) : Nat × FlagSet :=
      if t.isFp then F.greatest x y else (if signedLane w y ≤ signedLane w x then x else y, 0)
    let Tree (o : Res) (f : Nat → Nat → Nat × FlagSet) : Prop :=
      ∃ fl : FlagSet, o = .next ((s.setV d (BitVec.ofNat 1024 (treeOf f k A % 2 ^ w))).raise fl) ∧
        ∀ b, fl.getLsbD b = true ↔ treeRaises f b k A
    2 ^ k = s.rd.lanes w ∧
    Tree (exec (.vredAdd gd d a t) s) add ∧ Tree (exec (.vredMin gd d a t) s) least ∧
    Tree (exec (.vredMax gd d a t) s) greatest ∧
    ∃ (v : BitVec 1024) (fl : FlagSet), exec (.vscanAdd gd d a t) s = .next ((s.setV d v).raise fl) ∧
      (∀ j, j < s.rd.lanes w → lane v w j = runOf add A j % 2 ^ w) ∧
      FlagsOf fl (s.rd.lanes w - 1) fun j => add (runOf add A j) (A (j + 1))

/-- R180: each special function gives, lane by lane, the values of its table on special operands, and the exact value where a
function has one that is simple: powers of two, logarithms of powers of two, reciprocals and roots of finite expansion. -/
def Obligations.VectorSpecialFunctions : Prop :=
  ∀ (gd : Guard) (d a : VReg) (t : ETy) (s : State), Issues gd s →
    let w := t.width
    let F := etyFmt t s.finite
    let rm := s.rnd
    let inf (neg : Bool) : Nat × FlagSet := F.deliver rm (.inf neg)
    let nan : Nat × FlagSet := (F.nan, flagNv)
    let zero (neg : Bool) : Nat × FlagSet := (if neg then F.signBit else 0, 0)
    let one (neg : Bool) : Nat × FlagSet := F.deliver rm (.fin neg 1 0)
    ∃ exp2 log2 rcp rsq sqrt sin cos tanh : Nat → Nat × FlagSet,
      WritesLanes s d w (exec (.vexp2 gd d a t) s) exp2 ∧ WritesLanes s d w (exec (.vlog2 gd d a t) s) log2 ∧
      WritesLanes s d w (exec (.vrcp gd d a t) s) rcp ∧ WritesLanes s d w (exec (.vrsq gd d a t) s) rsq ∧
      WritesLanes s d w (exec (.vsqrt gd d a t) s) sqrt ∧ WritesLanes s d w (exec (.vsin gd d a t) s) sin ∧
      WritesLanes s d w (exec (.vcos gd d a t) s) cos ∧ WritesLanes s d w (exec (.vtanh gd d a t) s) tanh ∧
      ∀ j, j < s.rd.lanes w →
        let X := F.value (laneOf s a w j)
        (X.isNan = true → ∀ f ∈ [exp2, log2, rcp, rsq, sqrt, sin, cos, tanh], f j = (F.nan, flagIf X.isSnan flagNv)) ∧
        (X.isInf = true →
          exp2 j = (if X.sign then zero false else inf false) ∧ log2 j = (if X.sign then nan else inf false) ∧
          rcp j = zero X.sign ∧ rsq j = (if X.sign then nan else zero false) ∧
          sqrt j = (if X.sign then nan else inf false) ∧ sin j = nan ∧ cos j = nan ∧ tanh j = one X.sign) ∧
        (X.isZero = true →
          exp2 j = one false ∧ log2 j = ((inf true).1, flagDz ||| (inf true).2) ∧
          rcp j = ((inf X.sign).1, flagDz ||| (inf X.sign).2) ∧ rsq j = ((inf X.sign).1, flagDz ||| (inf X.sign).2) ∧
          sqrt j = zero X.sign ∧ sin j = zero X.sign ∧ cos j = one false ∧ tanh j = zero X.sign) ∧
        (isFin X = true → X.isZero = false → X.sign = true → log2 j = nan ∧ rsq j = nan ∧ sqrt j = nan) ∧
        (isFin X = true → X.isZero = false →
          (∀ n : Int, -1100 ≤ n → n ≤ 1100 → ratOf X = n → exp2 j = F.deliver rm (.fin false 1 n)) ∧
          (∀ n : Int, ratOf X = (2 : Rat) ^ n → log2 j = F.deliver rm (.fin (decide (n < 0)) n.natAbs 0) ∧
            rcp j = F.deliver rm (.fin false 1 (-n))) ∧
          ∀ q : FVal, isFin q = true → q.isZero = false → q.sign = false →
            (ratOf q * ratOf q = ratOf X → sqrt j = F.deliver rm q) ∧
            (ratOf q * ratOf q * ratOf X = 1 → rsq j = F.deliver rm q))

/-- R126, R132, R135, R137, R139, R140 and R179: the conversions between lanes of different widths: what an element becomes, which
lanes they fill, what they leave, how `srctr` steps, and the bits that a stochastic rounding draws, under either reading. `vwid` and
`vnar` are `vcvt` with the next type.
That a finite-reading BF16 number from 2^128 up overflows FP32, and where a stochastic rounding gives way to the nearest, are the
model's own readings: log entries 82 and 121. -/
def Obligations.VectorConversions : Prop :=
  (∀ (ts td : ETy) (finite : Bool) (rm : Rnd) (x : Nat), x < 2 ^ ts.width →
    Converts ts td finite rm x (convertElem ts td finite rm x)) ∧
  (∀ (s : State) (i : Nat),
    let step (z k n : Nat) : Nat := (z ^^^ z / 2 ^ k) * n % 2 ^ 64
    let z := s.rd.cr.srseed.toNat ^^^ s.rd.cr.srctr.toNat * 0x9E3779B97F4A7C15 % 2 ^ 64 ^^^ i * 0xD1B54A32D192ED03 % 2 ^ 64
    let y := step (step z 30 0xBF58476D1CE4E5B9) 27 0x94D049BB133111EB
    s.rndElem false i = rndOf s.rd.cr.rmode ∧ s.rndElem true i = .sr ((y ^^^ y / 2 ^ 31) / 2 ^ 32)) ∧
  ∀ (gd : Guard) (d a : VReg) (k : BitVec 5) (s : State), Issues gd s →
    (∀ (ts td : ETy) (sr : Bool),
      let ws := ts.width
      let wd := td.width
      let n := s.rd.lanes (max ws wd)
      let lo := if wd < ws then k.toNat * n else 0
      let src := if ws < wd then k.toNat * n else 0
      (lo + n ≤ s.rd.lanes wd →
        ConvertsInto s d wd lo n sr (exec (.vcvt gd d a k ts td sr) s) fun j =>
          convertElem ts td s.finite (s.rndElem sr (lo + j)) (laneOf s a ws (src + j)))) ∧
    (∀ t : ETy, t ≠ .i64 → t ≠ .f64 → exec (.vwid gd d a k t) s = exec (.vcvt gd d a k t (wider t) false) s) ∧
    (∀ t : ETy, t ≠ .i8 → t ≠ .f16 → exec (.vnar gd d a k t) s = exec (.vcvt gd d a k t (narrower t) false) s) ∧
    ∀ (t : ETy) (dt : MReg),
      let T := s.dt s.core dt.toNat
      let n := s.rd.lanes t.width
      let F := etyFmt t s.finite
      (T.usable s.rd.ten = false →
        (∀ sr, exec (.t8enc gd d a k sr t dt) s = .next (s.trap 0x06 (BitVec.ofNat 64 s.cur))) ∧
        exec (.t8dec gd d a k t dt) s = .next (s.trap 0x06 (BitVec.ofNat 64 s.cur))) ∧
      (T.usable s.rd.ten = true → k.toNat * n + n ≤ s.rd.vlen / 8 →
        ConvertsInto s d t.width 0 n false (exec (.t8dec gd d a k t dt) s) (fun j =>
          let c := laneOf s a 8 (k.toNat * n + j)
          let p := (T.ent (if T.sm then c % 128 else c)).toNat % 2 ^ 19
          let q := if (T.sm && decide (128 ≤ c)) = false ∨ (s.finite = true ∧ p = 2 ^ 19 - 1) then p
            else if s.finite = true ∧ p = 2 ^ 18 - 1 then 2 ^ 19 - 2 else (p + 2 ^ 18) % 2 ^ 19
          let v := (fmtE8M10 s.finite).value q
          ((F.deliver s.rnd v).1, (F.deliver s.rnd v).2 ||| flagIf v.isSnan flagNv)) ∧
        ∀ sr, ∃ tie : Nat → Bool,
          ConvertsInto { s with free := s.free + 1 } d 8 (k.toNat * n) n sr (exec (.t8enc gd d a k sr t dt) s) fun j =>
            T.encode s.finite (s.rndElem sr (k.toNat * n + j)) (F.value (laneOf s a t.width j)) (tie j))

/-- R133 and R135: the code that `t8enc` chooses in a table whose entries ascend: an entry equal to the value with no flag, the top
or the bottom entry beyond the range, an infinity that the table has no code for among them, and else the entry on the side that
the rounding asks for, with nx, and uf where it is subnormal.
Which of two entries equally near zero is taken where the rounding asks for the nearer or the farther is left free: log entry 1. -/
def Obligations.DecodeTableEncoding : Prop :=
  ∀ (T : DecTab) (finite : Bool) (rm : Rnd) (v : FVal) (tie : Bool),
    let E (c : Nat) : FVal := (fmtE8M10 finite).value ((T.ent c).toNat % 2 ^ 19)
    let val (c : Nat) : Rat := ratOf (E c)
    let In (c : Nat) : Prop := c < (if T.sm then 128 else 256) ∧ (T.ent c).getLsbD 19 = false ∧ isFin (E c) = true
    let r := T.encode finite rm v tie
    let neg := T.sm && v.sign
    let sgn := if neg then 128 else 0
    let y : Rat := if neg then -ratOf v else ratOf v
    let far (p q : Nat) : Bool := decide (mag (val p) < mag (val q))
    (v.isNan = true → r = (T.nanCode, flagIf v.isSnan flagNv)) ∧
    (v.isInf = true → T.iv = true →
      r = (if T.sm then T.pinf ||| sgn else if v.sign then T.ninf else T.pinf, 0)) ∧
    (v.isNan = false → (v.isInf = true → T.iv = false) → (∀ c, ¬In c) → r = (T.nanCode, flagNv)) ∧
    (v.isInf = true → T.iv = false → (∃ c, In c) → ∃ c, In c ∧ r = (c ||| sgn, flagOf ||| flagNx) ∧
      ∀ c', In c' → if T.sm = false ∧ v.sign = true then c ≤ c' else c' ≤ c) ∧
    (isFin v = true → (∃ c, In c) → (∀ c c', In c → In c' → c < c' → val c < val c') →
      ∃ c, In c ∧ r.1 = c ||| sgn ∧
        ((∃ c', In c' ∧ val c' = y) → val c = y ∧ r.2 = 0) ∧
        ((∀ c', In c' → val c' < y) → (∀ c', In c' → c' ≤ c) ∧ r.2 = flagOf ||| flagNx) ∧
        ((∀ c', In c' → y < val c') → (∀ c', In c' → c ≤ c') ∧ r.2 = (if T.sm then flagUf else flagOf) ||| flagNx) ∧
        (∀ a b, In a → In b → val a < y → y < val b → (∀ c', In c' → ¬(val a < val c' ∧ val c' < val b)) →
          r.2 = flagNx ||| flagIf (decide ((T.ent c).toNat / 2 ^ 10 % 2 ^ 8 = 0 ∧ (T.ent c).toNat % 2 ^ 10 ≠ 0)) flagUf ∧
          (rm = .rne → y - val a = val b - y →
            c = if a % 2 = b % 2 then min a b else if a % 2 = 0 then a else b) ∧
          (rm = .rtz → c = if far a b then a else if far b a then b else if tie then b else a) ∧
          ∀ q, rm = .sr q → c =
            if far a b = true ∨ far b a = true then
              let n := if far a b then a else b
              let f := if far a b then b else a
              if (q : Rat) + 1 ≤ 2 ^ 32 * ((mag y - mag (val n)) / (mag (val f) - mag (val n))) then f else n
            else if tie then b else a) ∧
        ((∃ c', In c' ∧ val c' < y) → (∃ c', In c' ∧ y < val c') →
          (rm = .rne → ∀ c', In c' → within (val c - y) (val c' - y)) ∧
          (rm = .rup → if neg then val c ≤ y else y ≤ val c) ∧ (rm = .rdn → if neg then y ≤ val c else val c ≤ y) ∧
          ∀ c', In c' → ¬(val c < val c' ∧ val c' < y) ∧ ¬(y < val c' ∧ val c' < val c)))

/-! ## Repetition -/

/-- R181 to R184: `rep` arms the buffer; the capture copies A-words and leaves the bundle's halves alone; the replay supplies
word k, stepped by the iteration in the fields that steps marks, in place of the fetched A-half; the last word of the last
iteration empties the buffer; a bundle that the rule forbids executes nothing. A suspended buffer stands still: A-halves come from
fetch, and a word of the `rep` major is refused. -/
def Obligations.RepetitionBuffer : Prop :=
  (∀ (gd : Guard) (len : BitVec 4) (cnt : BitVec 12) (str st : BitVec 3) (s : State), Issues gd s →
    exec (.rep gd len cnt str st) s = .next (s.upd fun c =>
      { c with rep := { words := Vector.replicate 16 0, act := true, susp := false, cap := true, len := len, count := cnt,
                        stride := str, steps := st, i := 0, k := 0 } })) ∧
  ∀ (r : RepBuf) (w : W64) (b : Bundle), decodeBundle w = some b → r.act = true → r.susp = false →
    (r.cap = true → bitAt w 31 = false → bitsAt w 63 58 ≠ 0x26 →
      halves .compute r w = some (b.c, b.a) ∧
      (¬(r.k = r.len.toNat ∧ r.i = r.count.toNat) →
        (r.advance (hi 32 32 w)).words = r.words.setIfInBounds r.k (hi 32 32 w))) ∧
    (r.cap = true → bitAt w 31 = true ∨ bitsAt w 63 58 = 0x26 → halves .compute r w = none) ∧
    (r.cap = false → bitAt w 31 = false → (w >>> 32) &&& 0xFC3FFFFF#64 ≠ 0 → halves .compute r w = none) ∧
    (r.cap = false → bitAt w 31 = true ∨ (w >>> 32) &&& 0xFC3FFFFF#64 = 0 →
      halves .compute r w = match decodeA (AFmt.unpack (stepWord ((r.words.toList)[r.k]?.getD 0) r.i (r.stride.toNat + 1) r.steps)) with
        | some a => if clash b.c a then none else some (b.c, a)
        | none => none) ∧
    (∀ (x : BitVec 32) (a : Instr) (n stride : Nat) (steps : BitVec 3), decodeA (AFmt.unpack x) = some a →
      let y := stepWord x n stride steps
      y.toNat / 2 ^ 22 = x.toNat / 2 ^ 22 ∧ y.toNat % 2 ^ 7 = x.toNat % 2 ^ 7 ∧
      ∀ j size, (stepSizes a)[j]? = some size →
        let field (z : BitVec 32) : Nat := z.toNat / 2 ^ (17 - 5 * j) % 2 ^ 5
        field y = if steps.getLsbD j = true ∧ size ≠ 0 then (field x + n * stride) % size else field x) ∧
    (∀ q : RepBuf, q.susp = true →
      (bitAt w 31 = false ∧ bitsAt w 63 58 = 0x26 → halves .compute q w = none) ∧
      (¬(bitAt w 31 = false ∧ bitsAt w 63 58 = 0x26) → halves .compute q w = some (b.c, b.a)) ∧ q.advance (hi 32 32 w) = q) ∧
    (r.k ≠ r.len.toNat → (r.advance (hi 32 32 w)).k = r.k + 1 ∧ (r.advance (hi 32 32 w)).i = r.i) ∧
    (r.k = r.len.toNat → r.i < r.count.toNat → (r.advance (hi 32 32 w)).k = 0 ∧
      (r.advance (hi 32 32 w)).i = r.i + 1 ∧ (r.advance (hi 32 32 w)).cap = false ∧ (r.advance (hi 32 32 w)).act = true) ∧
    (r.k = r.len.toNat → r.i = r.count.toNat → (r.advance (hi 32 32 w)).act = false)

/-! ## Control flow -/

/-- R105 to R107: where branches, jumps and the loop branch go, and which registers they write; a jump to an address that is
no multiple of 8 traps. -/
def Obligations.BranchesAndJumps : Prop :=
  ∀ (gd : Guard) (s : State), Issues gd s →
    let pc := s.pc
    let at_ (n : Int) : W64 := BitVec.ofInt 64 (pc.toNat + 8 * n)
    let link (t : State) : State := t.setG 30 (at_ 1)
    (∀ off : BitVec 21,
      exec (.br gd off) s = .next (s.setNpc (at_ off.toInt)) ∧
      exec (.jl gd off) s = .next ((link s).setNpc (at_ off.toInt)) ∧
      ∀ imm : BitVec 32, exec (.j gd off imm) s = .next (s.setNpc (at_ (imm.toInt * 2 ^ 21 + off.toNat)))) ∧
    (∀ (d : GReg) (off : BitVec 16),
      exec (.lpd gd d off) s = .next
        (if s.g d = 1 then s.setG d 0 else (s.setG d (BitVec.ofInt 64 ((s.g d).toNat - 1))).setNpc (at_ off.toInt))) ∧
    (∀ a : GReg, (s.g a).toNat % 8 = 0 →
      exec (.jr gd a) s = .next (s.setNpc (s.g a)) ∧ exec (.jlr gd a) s = .next ((link s).setNpc (s.g a))) ∧
    (∀ a : GReg, (s.g a).toNat % 8 ≠ 0 →
      exec (.jr gd a) s = .next (s.takeTrap s.cur ⟨0x03, s.g a⟩) ∧
      exec (.jlr gd a) s = .next (s.takeTrap s.cur ⟨0x03, s.g a⟩)) ∧
    ((s.g 30).toNat % 8 = 0 → exec (.ret gd) s = .next (s.setNpc (s.g 30))) ∧
    ((s.g 30).toNat % 8 ≠ 0 → exec (.ret gd) s = .next (s.takeTrap s.cur ⟨0x03, s.g 30⟩))

/-- R111, R112, R152 and R265: `enter` checks sp and the stack limit, stores the link pair below sp, and sets fp and sp; `leave` reads the
pair back and sets sp above it. Nothing else of memory changes. Both trap as their location does, and with cause 0x0D on an
address that would migrate; `enter` traps with cause 0x0F on the descriptor of a live queue, and `leave` with cause 0x09 on a
bad word.
It rests also on the model's own choice or reading where the rules are silent: log entries 12, 25 and 85. -/
def Obligations.Frames : Prop :=
  ∀ (gd : Guard) (s : State), Issues gd s → s.slow = false →
    let foreign (ea : W64) : Prop := s.rd.pure = false ∧ caKind s.core ≠ .station ∧
      (ea.toNat / 2 ^ 60 = 1 ∧ ea &&& 0x0FFFC080FFFE0000#64 = 0 ∧ ¬(caKind s.core = .compute ∧ ea.toNat / 2 ^ 32 % 2 ^ 14 = caTileOf s.core) ∨
        ea.toNat / 2 ^ 60 = 2 ∧ ea &&& 0x0FFFF0E0FFE00000#64 = 0 ∧
          ¬(caKind s.core = .compute ∧ ea.toNat / 2 ^ 32 % 2 ^ 5 = caX s.core / 4 ∧ ea.toNat / 2 ^ 40 % 2 ^ 4 = caY s.core / 4))
    (∀ i : BitVec 11,
      let sp := s.g 29
      let size := 16 * i.toNat + 16
      (sp.toNat % 16 ≠ 0 → exec (.enter gd i) s = .next (s.takeTrap s.cur ⟨0x03, sp⟩)) ∧
      (sp.toNat % 16 = 0 → sp.toNat < size + 128 ∨ sp.toNat < size + 128 + s.rd.cr.stklim.toNat →
        exec (.enter gd i) s = .next (s.takeTrap s.cur ⟨0x07, BitVec.ofInt 64 (sp.toNat - size)⟩)) ∧
      (sp.toNat % 16 = 0 → size + 128 + s.rd.cr.stklim.toNat ≤ sp.toNat →
        (foreign (sp - 16) → exec (.enter gd i) s = .next (s.takeTrap s.cur ⟨0x0D, sp - 16⟩)) ∧
        (∀ t, s.locateHere (sp - 16) 16 false true = .trap t → exec (.enter gd i) s = .next (s.takeTrap s.cur t)) ∧
        ∀ pa, s.locateHere (sp - 16) 16 false true = .at_ pa → s.hitsDesc [(pa, 16)] = true →
          exec (.enter gd i) s = .next (s.takeTrap s.cur ⟨0x0F, sp - 16⟩)) ∧
      ∀ pa, sp.toNat % 16 = 0 → size + 128 + s.rd.cr.stklim.toNat ≤ sp.toNat →
        s.locateHere (sp - 16) 16 false true = .at_ pa → s.hitsDesc [(pa, 16)] = false →
        let p := s.waitsFor .all (isOwn s.core pa) [(pa, 16)]
        GoesOn s p [(pa, 16)] →
        let u := s.flushWhere s.cur p
        let pair := leBytes 8 (s.g 28).toNat ++ leBytes 8 (s.g 30).toNat
        ∃ t : State, StoresOnly u t pa pair ∧ t.slots = u.slots ∧
          exec (.enter gd i) s = .next ((t.setG 28 (sp - 16)).setG 29 (BitVec.ofInt 64 (sp.toNat - size)))) ∧
    let f := s.g 28
    (f.toNat % 16 ≠ 0 → exec (.leave gd) s = .next (s.takeTrap s.cur ⟨0x03, f⟩)) ∧
    (f.toNat % 16 = 0 →
      (foreign f → exec (.leave gd) s = .next (s.takeTrap s.cur ⟨0x0D, f⟩)) ∧
      ∀ t, s.locateHere f 16 true false = .trap t → exec (.leave gd) s = .next (s.takeTrap s.cur t)) ∧
    ∀ pa, f.toNat % 16 = 0 → s.locateHere f 16 true false = .at_ pa →
      let p := s.waitsFor .all (isOwn s.core pa) [(pa, 16)]
      GoesOn s p [(pa, 16)] →
      let u := s.flushWhere s.cur p
      (u.badWord f [(pa, 16)] = none →
        exec (.leave gd) s = .next ((((u.correct pa 16).setG 28 (u.readW pa)).setG 30 (u.readW (pa + 8))).setG 29 (f + 16))) ∧
      ∀ v, u.badWord f [(pa, 16)] = some v → exec (.leave gd) s = .next (u.takeTrap u.cur ⟨0x09, v⟩)

/-- R57, R61 to R63, R115, R117, R118, R184, R296 and R297: `trap` and `brk` raise their causes; a trap that a handler receives saves pc, value, cause
and mode, raises privilege, inhibits further traps, clears shadowing, splits a gang, suspends a repetition and goes on at
`tvec`, and it changes no register file, no byte of memory and no slot but the own and its partner; a trap that none receives is
a fault: containment kills the unit that the policies of the shape name, or has it dispatched again, touches no thread of
another launch, and posts one event; `eret` restores what the entry saved, and traps at user privilege.
It rests also on the model's own choice where the rules are silent: log entry 28. -/
def Obligations.TrapEntryAndReturn : Prop :=
  ∀ (gd : Guard) (s : State), Issues gd s →
    exec (.brk gd) s = .next (s.takeTrap s.cur ⟨0x11, s.raw⟩) ∧
    (∀ i : BitVec 11, exec (.trap gd i) s = .next (s.takeTrap s.cur ⟨0x12, BitVec.ofNat 64 i.toNat⟩)) ∧
    (∀ tr : Trap, tr.cause ≠ 0x13 → s.me.ctx.cr.tvec ≠ 0 → s.me.ctx.inh = false →
      let c := s.me.ctx
      let t := s.takeTrap s.cur tr
      let d := t.me.ctx
      t.trapped = some tr ∧ t.me.st = .run ∧ t.me.after = none ∧ t.me.late = none ∧ t.me.npc = c.cr.tvec ∧ d.pc = c.cr.tvec ∧ SameFiles c d ∧
      d.cr.epc = c.pc ∧ d.cr.tval = tr.tval ∧ d.cr.cause.toNat % 256 = tr.cause.toNat ∧
      d.cr.cause.getLsbD 8 = c.priv ∧ d.cr.cause.getLsbD 9 = c.uih ∧ d.cr.cause.getLsbD 10 = c.gang ∧
      d.priv = true ∧ d.inh = true ∧ d.uih = false ∧ d.gang = false ∧ d.pure = c.pure ∧
      (∀ j, 5 ≤ j → d.cr.pstate.getLsbD j = c.cr.pstate.getLsbD j) ∧
      d.rep = { c.rep with susp := true } ∧
      d.cr = { c.cr with epc := d.cr.epc, tval := d.cr.tval, cause := d.cr.cause, pstate := d.cr.pstate } ∧
      (∀ a, t.byte a = s.byte a) ∧ (∀ k, k ≠ s.cur → k ≠ partner s.cur → t.slot k = s.slot k) ∧
      (c.gang = true → (t.slot (partner s.cur)).st = .held) ∧
      (c.gang = false → t.slot (partner s.cur) = s.slot (partner s.cur))) ∧
    (∀ (tr : Trap) (k action : Nat), tr.cause = 0x13 ∨ s.me.ctx.cr.tvec = 0 ∨ s.me.ctx.inh = true →
      Absorbs s s.me.ctx k action → (s.takeTrap s.cur tr).trapped = some tr ∧ Contains s (s.takeTrap s.cur tr) tr k action) ∧
    (s.rd.priv = false → exec (.eret gd) s = .next (s.takeTrap s.cur ⟨0x02, s.raw⟩)) ∧
    (s.rd.priv = true → ∃ f : Ctx → Ctx, exec (.eret gd) s = .next ((s.upd f).setNpc s.rd.cr.epc) ∧
      ∀ c : Ctx, (f c).priv = c.cr.cause.getLsbD 8 ∧ (f c).uih = c.cr.cause.getLsbD 9 ∧ (f c).inh = false ∧
        (f c).gang = c.gang ∧ (f c).pure = c.pure ∧ (f c).rep = { c.rep with susp := false } ∧
        f c = { c with rep := (f c).rep, cr := { c.cr with pstate := (f c).cr.pstate } })

/-! ## Control registers -/

/-- R40, R65 and R78: an index without a register traps with cause 0x01, a class denied with cause 0x02; a read gives the value
at issue; a user's write to the status class is ignored unchecked; any other write is checked, and its register changes.
It rests also on the model's own choice or reading where the rules are silent: log entries 16 and 17. -/
def Obligations.ControlRegisterAccess : Prop :=
  ∀ (gd : Guard) (d a : GReg) (i : BitVec 11) (s : State), Issues gd s →
    let n := i.toNat
    let assigned : Bool := decide (n ≤ 0x014 ∨ (0x100 ≤ n ∧ n ≤ 0x107) ∨ n = 0x180 ∨ (0x200 ≤ n ∧ n ≤ 0x204) ∨ n = 0x400 ∨
      n = 0x401 ∨ (0x600 ≤ n ∧ n ≤ 0x60F))
    let denied : Bool := decide ((0x200 ≤ n ∧ s.rd.priv = false) ∨ (0x600 ≤ n ∧ s.rd.cr.tenant ≠ 0))
    let all : List Instr := [.crd gd d i, .cwr gd a i, .crset gd d a i, .crclr gd d a i]
    let old := s.readCr n
    (assigned = false → ∀ x ∈ all, exec x s = .next (s.takeTrap s.cur ⟨0x01, s.raw⟩)) ∧
    (assigned = true → denied = true → ∀ x ∈ all, exec x s = .next (s.takeTrap s.cur ⟨0x02, s.raw⟩)) ∧
    (assigned = true → denied = false →
      exec (.crd gd d i) s = .next (s.setG d old) ∧
      (0x100 ≤ n ∧ n ≤ 0x17F ∧ s.rd.priv = false →
        exec (.cwr gd a i) s = .next s ∧ exec (.crset gd d a i) s = .next (s.setG d old) ∧
        exec (.crclr gd d a i) s = .next (s.setG d old)) ∧
      (¬(0x100 ≤ n ∧ n ≤ 0x17F ∧ s.rd.priv = false) →
        (exec (.cwr gd a i) s = if crValueOk n (s.g a) then .next (s.writeCr n (s.g a))
          else .next (s.takeTrap s.cur ⟨0x01, s.raw⟩)) ∧
        (exec (.crset gd d a i) s = if crValueOk n (old ||| s.g a) then .next ((s.setG d old).writeCr n (old ||| s.g a))
          else .next (s.takeTrap s.cur ⟨0x01, s.raw⟩)) ∧
        (exec (.crclr gd d a i) s = if crValueOk n (old &&& ~~~s.g a) then .next ((s.setG d old).writeCr n (old &&& ~~~s.g a))
          else .next (s.takeTrap s.cur ⟨0x01, s.raw⟩))))

/-- R7, R59, R65, R66, R211, R212 and R352: which values a write refuses; a register that a thread may write reads what was written, with the fields that are read-only kept and
all ones standing for the package rectangle; a register that is read-only keeps its value; and no write changes another
register.
It rests also on the model's own choice or reading where the rules are silent: log entry 17. -/
def Obligations.ControlRegisterFields : Prop :=
  (∀ (r : CRs) (n : Nat) (v : W64), n ≤ 0x010 ∨ n = 0x100 ∨ n = 0x101 ∨ (0x200 ≤ n ∧ n ≤ 0x204) →
    (r.write n v).read n =
      if n = 0x00E ∨ n = 0x204 then (if v = 0xFFFFFFFFFFFFFFFF#64 then 0x00000000BF7F0000#64 else v)
      else if n = 0x00A then (if r.mkstep.getLsbD 63 then v ||| 0x8000000000000000#64 else v &&& 0x7FFFFFFFFFFFFFFF#64)
      else v) ∧
  (∀ v : W64,
    let x := v.toNat
    let takes (n : Nat) (P : Prop) : Prop := crValueOk n v = true ↔ P
    let rect : Prop := x = 2 ^ 64 - 1 ∨
      ∀ j, v.getLsbD j = true → j < 7 ∨ (8 ≤ j ∧ j < 14) ∨ (16 ≤ j ∧ j < 23) ∨ (24 ≤ j ∧ j < 30) ∨ j = 31
    takes 0x000 (x < 4) ∧ takes 0x001 (x < 32) ∧ takes 0x002 (x < 2) ∧ takes 0x005 (x < 128 ∧ x % 16 ≤ 5) ∧
    takes 0x006 (x < 128 ∧ x % 16 ≤ 5) ∧ takes 0x007 (x ≤ 2) ∧ takes 0x008 (x % 32 = 0) ∧ takes 0x009 (x % 32 = 0) ∧
    takes 0x00A (x / 2 ^ 12 % 2 ^ 51 = 0) ∧ takes 0x00B (x < 8) ∧ takes 0x00C (x % 2 = 0 ∧ x < 2 ^ 48) ∧
    takes 0x00D (x % 16 = 0) ∧ takes 0x00E rect ∧ takes 0x00F (x % 8 = 0) ∧ takes 0x010 (x < 2 ^ 16) ∧
    takes 0x101 (ShapeFits v) ∧ takes 0x200 (x % 8 = 0) ∧ takes 0x201 (x < 2 ^ 11) ∧ takes 0x202 (x % 8 = 0) ∧ takes 0x204 rect ∧
    ∀ n, n = 0x003 ∨ n = 0x004 ∨ (0x011 ≤ n ∧ n ≤ 0x014) ∨ n = 0x100 ∨ n = 0x203 ∨ n = 0x401 ∨ (0x600 ≤ n ∧ n ≤ 0x60F) →
      takes n True) ∧
  (∀ (r : CRs) (n : Nat) (v : W64), 0x102 ≤ n ∧ n ≤ 0x107 ∨ n = 0x180 ∨ n = 0x400 → r.write n v = r) ∧
  (∀ (r : CRs) (n m : Nat) (v : W64), m ≠ n → (r.write n v).read m = r.read m) ∧
  ∀ (s : State) (n : Nat) (v : W64),
    (∀ a, (s.writeCr n v).byte a = s.byte a) ∧ (∀ k, k ≠ s.cur → (s.writeCr n v).slot k = s.slot k) ∧
    (n = 0x401 → (s.writeCr n v).readCr n = v) ∧ (0x600 ≤ n → (s.writeCr n v).readCr n = v) ∧
    (0x600 ≤ n → ∀ m, 0x600 ≤ m → m ≤ 0x60F → n ≤ 0x60F → m ≠ n → (s.writeCr n v).readCr m = s.readCr m) ∧
    s.readCr 0x103 = BitVec.ofNat 64 s.cur ∧ (s.writeCr n v).readCr 0x103 = BitVec.ofNat 64 s.cur ∧
    s.readCr 0x180 = BitVec.ofNat 64 (if caKind s.core = .bank then s.cycle / 2 else s.cycle) ∧
    (∀ m, m = 0x180 ∨ m = 0x400 → (s.writeCr n v).readCr m = s.readCr m) ∧
    ∀ k, 1 ≤ k → k ≤ 4 → s.src = none → s.me.after = none → ((s.writeCr (0x010 + k) v).me.ctx.h.toList)[k - 1]?.getD 0 = v

/-! ## Threads -/

/-- R76: `wfld` writes level k of `wid` to gD, zero-extended, and 0 for a level of width 0. -/
def Obligations.WorkField : Prop :=
  ∀ (gd : Guard) (d : GReg) (k : BitVec 5) (s : State), Issues gd s →
    let sh := s.rd.cr.wshape
    ∃ v : W64, exec (.wfld gd d k) s = .next (s.setG d v) ∧
      (∀ j, v.getLsbD j = (decide (j < levelWidth sh k.toNat) && s.rd.cr.wid.getLsbD (levelLow sh k.toNat + j))) ∧
      (levelWidth sh k.toNat = 0 → v = 0)

/-- R69, R75 and R77: `cmap` finds the enabled core at a position in the order of die-local indices, the Cobbler left out, and gives all
ones where there is none; `gang` joins slot 2i with slot 2i + 1 as the table says, with the status in gD, and `split` returns a
ganged thread to its slot alone, or frees a partner that is held.
That a FREE slot which was evicted for an entry of the landing buffer is no partner for `gang` is the model's choice: log entry 97. -/
def Obligations.GangsAndLogicalCores : Prop :=
  (∀ (gd : Guard) (d a : GReg) (s : State), Issues gd s →
     let v := s.g a
     let die := v.toNat / 1024 % 8
     let i := v.toNat % 1024
     let core (n : Nat) : Nat := (32 * (die % 4) + n % 32) + 256 * (32 * (die / 4) + n / 32)
     let enabled (n : Nat) : Bool := (smGet (0xFFFFFFFFFFFFFFFF#64) s.coremask (16 * die + n / 64)).getLsbD (n % 64)
     (∀ n, v.toNat < 8192 → n < 1023 → enabled n = true → (List.range n).countP enabled = i →
       exec (.cmap gd d a) s = .next (s.setG d (BitVec.ofNat 64 (core n)))) ∧
     (8192 ≤ v.toNat ∨ (List.range 1023).countP enabled ≤ i →
       exec (.cmap gd d a) s = .next (s.setG d 0xFFFFFFFFFFFFFFFF#64))) ∧
  ∀ (gd : Guard) (d : GReg) (s : State), Issues gd s →
    let p := partner s.cur
    let even := caSlot s.cur % 2 = 0
    let on (c : Ctx) : Ctx := { c with cr := { c.cr with pstate := c.cr.pstate ||| 4 } }
    let off (c : Ctx) : Ctx := { c with cr := { c.cr with pstate := c.cr.pstate &&& ~~~4#64 } }
    let low (c : Ctx) : Ctx := { c with v := c.v.map fun x => x % BitVec.ofNat 1024 (2 ^ 512) }
    let joined := (s.setSlot p { Slot.free with st := .ganghi }).upd on
    let alone := (({ s.setSlot p Slot.free with freedAt := smSet 0 s.freedAt s.core s.cycle }).upd off).upd low
    (caKind s.core ≠ .compute → exec (.gang gd d) s = .next (s.setG d 3) ∧
      (s.rd.gang = false → exec (.split gd) s = .next s)) ∧
    (caKind s.core = .compute → ¬even → exec (.gang gd d) s = .next (s.setG d 2) ∧
      (s.rd.gang = false → exec (.split gd) s = .next s)) ∧
    (caKind s.core = .compute → even → s.rd.gang = true →
      exec (.gang gd d) s = .next (s.setG d 0) ∧ exec (.split gd) s = .next alone) ∧
    (caKind s.core = .compute → even → s.rd.gang = false →
      ((s.slot p).st = .free →
        let promised : Prop := ∃ q ∈ s.pkts, p ∈ q.evict
        (¬promised → exec (.gang gd d) s = .next ((joined.upd low).setG d 0)) ∧
        (promised → exec (.gang gd d) s = .next (s.setG d 1)) ∧ exec (.split gd) s = .next s) ∧
      ((s.slot p).st = .held →
        exec (.gang gd d) s = .next (joined.setG d 0) ∧ exec (.split gd) s = .next alone) ∧
      ((s.slot p).st ≠ .free → (s.slot p).st ≠ .held →
        exec (.gang gd d) s = .next (s.setG d 1) ∧ exec (.split gd) s = .next s))

/-- R71 and R326: `spawn` with its refusals in their order, that of a pure task first; a child that finds a free slot is seated
there with what it inherits, and its slot is the parent's answer; one that finds none is answered BUSY, or waits in the landing
buffer, its parent parked.
That the refusal of a pure task stands before the alignment of the entry and the form of the target is the model's own reading:
log entry 25. -/
def Obligations.Spawning : Prop :=
  ∀ (gd : Guard) (d a b : GReg) (opts : BitVec 3) (s : State), Issues gd s →
    let i : Instr := .spawn gd d a b opts
    let tgt := s.g a
    let entry := s.g b
    let core := caCore tgt.toNat
    let bank : Bool := decide (caKind tgt.toNat = .bank)
    let any := opts.getLsbD 0
    let blk := opts.getLsbD 1
    let ganged := opts.getLsbD 2
    let malformed : Prop := coreAddressOk tgt = false ∨ caKind tgt.toNat = .station ∨
      (ganged = true ∧ (bank = true ∨ (any = false ∧ caSlot tgt.toNat % 2 = 1)))
    let outside : Prop := (rectOf s.rd.cr.lrect).hasCore core = false ∨
      (bank = false ∧ (s.coreEnabled core = false ∨ (isCobbler core = true ∧ s.rd.cr.tenant ≠ 0)))
    let traps (cause : BitVec 8) (v : W64) : Prop := exec i s = .next (s.takeTrap s.cur ⟨cause, v⟩)
    (s.rd.pure = true → traps 0x0B tgt) ∧
    (s.rd.pure = false → entry.toNat % 8 ≠ 0 → traps 0x03 entry) ∧
    (s.rd.pure = false → entry.toNat % 8 = 0 → malformed → traps 0x04 tgt) ∧
    (s.rd.pure = false → entry.toNat % 8 = 0 → ¬malformed → outside → traps 0x06 tgt) ∧
    (s.rd.pure = false → entry.toNat % 8 = 0 → ¬malformed → ¬outside → GoesOn s (fun _ => true) [] →
      let u := s.flushWhere s.cur fun _ => true
      let free (k : Nat) : Bool := (u.slot k).st.isFree && (!ganged || (u.slot (partner k)).st.isFree)
      let seats : List Nat :=
        if any then (coreSlots core).filter fun k => free k && (!ganged || caSlot k % 2 == 0)
        else [tgt.toNat].filter free
      (∀ p ∈ u.pkts, p.core = core → p.landed = false ∧ p.sender ≠ some s.core) →
      ∃ t, exec i s = .next t ∧
        (∀ k, seats.head? = some k →
          (t.slot k).st = .resv ∧ IsChild s.rd (t.slot k).ctx entry (fun n => s.gAt b n) 4 ganged ∧
          (ganged = true → (t.slot (partner k)).st = .ganghi) ∧
          t.me.st = .run ∧ live t = (live u).setG d (BitVec.ofNat 64 k) ∧ ∀ p ∈ t.pkts, p ∈ u.pkts) ∧
        (seats = [] → blk = false → t.me.st = .run ∧ live t = (live u).setG d 0xFFFFFFFFFFFFFFFF#64 ∧
          ∀ p ∈ t.pkts, p ∈ u.pkts) ∧
        (seats = [] → blk = true →
          ∃ p ∈ t.pkts, ∃ st, p.landed = true ∧ p.core = core ∧ t.me.st = .park (.spawn p.id) i [] st))

/-- R63 and R72 to R74: `quit` frees the slot once the thread's accesses are accepted and its unit is at rest; `wait` goes on or parks until its deadline; `kill`
kills the threads that its level and `wid` name and gives their number, or waits until they are dead.
It rests also on the model's own choice or reading where the rules are silent: log entry 28. -/
def Obligations.QuitWaitKill : Prop :=
  ∀ (gd : Guard) (s : State), Issues gd s →
    (s.me.out = [] → s.owns s.cur = false ∨ (s.unit s.core).op = none → ∃ t, exec (.quit gd) s = .next t ∧ t.slot s.cur = Slot.free) ∧
    ((∃ o ∈ s.me.out, s.storeHeld o = true) → ∃ t st, exec (.quit gd) s = .next t ∧ t.me.st = .park .quit (.quit gd) [] st) ∧
    (∀ a : GReg, s.me.late = none →
      (s.g a = 0 → exec (.wait gd a) s = .next s) ∧
      (s.g a ≠ 0 → exec (.wait gd a) s = .next (s.parkAt s.cur
        (.wait (if caKind s.core = .bank then 2 * (s.cycle / 2 + (s.g a).toNat) else s.cycle + (s.g a).toNat))
        (.wait gd a) []))) ∧
    (∀ (a : GReg) (dl : Nat), s.me.late = some (s.pc, dl) →
      let t := s.modSlot s.cur fun x => { x with late := none }
      (dl ≤ s.cycle → dl < 2 ^ 64 → exec (.wait gd a) s = .next t) ∧
      (s.cycle < dl ∨ 2 ^ 64 ≤ dl → exec (.wait gd a) s = .next (t.parkAt s.cur (.wait dl) (.wait gd a) []))) ∧
    ∀ (d a : GReg) (k : BitVec 5), s.slow = false →
      let p := killed s.rd k.toNat (s.g a)
      (p s.rd.key = false → (∀ x ∈ s.threads, p x.2 = false) → exec (.kill gd d a k) s = .next (s.setG d 0)) ∧
      ∃ (t : State) (n : Nat), Kills s t p (fun key => !p key) ∧
        ((∀ e ∈ s.slots, p e.2.ctx.key = true → e.2.wait ≠ some .quit ∧ ∀ w i sn st, e.2.st ≠ .drain false w i sn st) →
          n = s.threads.countP fun x => p x.2) ∧
        (p s.rd.key = true → exec (.kill gd d a k) s = .next t) ∧
        (p s.rd.key = false → (∀ x ∈ t.threads, p x.2 = false) → exec (.kill gd d a k) s = .next (t.setG d (BitVec.ofNat 64 n))) ∧
        (p s.rd.key = false → (∃ x ∈ t.threads, p x.2 = true) →
          exec (.kill gd d a k) s = .next (t.parkAt t.cur (.kill n ((t.threads.filter fun x => p x.2).map Prod.fst)) (.kill gd d a k) []))

/-! ## Memory -/

/-- R2, R148 and R245: a byte reads what was last stored there and every other byte is as before; a run of bytes reads back as
it was stored, with the least significant byte of a number at the lowest address; a store of whole words makes them good
again; memory keeps its canonical form. A read corrects the single-bit errors of the words it touches, counts each in its die's
`ccount`, and may mark a row for remapping; it changes nothing else. -/
def Obligations.MemoryReadAfterWrite : Prop :=
  ∀ (s : State) (pa : Nat) (l : List Byte),
    let t := s.storeBytes pa l
    StoresOnly s t pa l ∧ t.slots = s.slots ∧
    ((∀ j, j < l.length → paIsStatus (pa + j) = false) → t.readBytes pa l.length = l) ∧
    (pa % 8 = 0 → l.length % 8 = 0 → ∀ j, j < l.length → t.isBad (pa + j) = false) ∧
    (∀ a, a + 8 ≤ pa ∨ pa + l.length + 8 ≤ a → t.isBad a = s.isBad a) ∧
    (∀ (n : Nat) (v : W64), n ≤ 8 → leNat (bytesOf n v) = v.toNat % 256 ^ n ∧ leBytes n v.toNat = bytesOf n v) ∧
    (Safety.memoryOk s = true → Safety.memoryOk t = true) ∧
    (∀ n, let c := s.correct pa n
      c = { s with flaws := c.flaws, ccount := c.ccount, rowSeen := c.rowSeen, rowBad := c.rowBad } ∧
      ∀ w, w % 8 = 0 → (smGet false c.flaws w = true ↔ smGet false s.flaws w = true ∧ ¬(pa < w + 8 ∧ w < pa + n))) ∧
    (smGet false s.flaws (wordOf pa) = true →
      smGet 0 (s.correct pa 1).ccount (sramDie pa) = smGet 0 s.ccount (sramDie pa) + 1) ∧
    (smGet false s.flaws (wordOf pa) = false → s.correct pa 1 = s)

/-- R141, R142, R143, R152, R153, R156 and R157: where an address lies for an access, in every space and on every kind of core, or the
cause with which it traps, or the core to which its thread moves; and every load: its address, its traps, and what it writes to its
register, sign-extended or zero-extended, or byte by byte into a vector register. Nothing else changes.
It rests also on the model's own choice or reading where the rules are silent: log entries 12, 25, 71, 72 and 89. -/
def Obligations.LoadResults : Prop :=
  (∀ (ea : W64) (n : Nat) (ld st : Bool) (s : State),
    let l := s.locate ea n ld st
    let m := s.locate (ea + 64) (n - 64) ld st
    let r := s.spans ea n ld st
    LiesAt s ea n ld st l ∧ ((∀ pa, l ≠ .at_ pa) → r = .error l) ∧
    ∀ pa, l = .at_ pa →
      (n ≤ 64 → r = .ok [(pa, n)]) ∧ (64 < n → (∀ pb, m = .at_ pb → r = .ok [(pa, 64), (pb, n - 64)]) ∧
        (∀ t, m = .trap t → r = .error (.trap ⟨t.cause, ea⟩)) ∧ ∀ k, m = .migrate k → r = .error m)) ∧
  ∀ (gd : Guard) (d a : GReg) (v : VReg) (o : LdOrd) (off : BitVec 9) (s : State), Issues gd s → s.slow = false →
    let m : OrdMode := match o with | .plain => .all | .relaxed => .overlap | .acq => .scope
    let ea (n : Nat) : W64 := BitVec.ofInt 64 ((s.g a).toNat + off.toInt * n)
    let Item (i : Instr) (n : Nat) (ext : Nat → W64) : Prop :=
      Loads s i (ea n) n n m fun u l t => t = u.setG d (ext (leNat l))
    let signed (n x : Nat) : W64 := (BitVec.ofNat (8 * n) x).signExtend 64
    Item (.ldb gd d a o off) 1 (signed 1) ∧ Item (.ldh gd d a o off) 2 (signed 2) ∧
    Item (.ldw gd d a o off) 4 (signed 4) ∧ Item (.ldd gd d a o off) 8 (BitVec.ofNat 64) ∧
    Item (.ldbz gd d a o off) 1 (BitVec.ofNat 64) ∧ Item (.ldhz gd d a o off) 2 (BitVec.ofNat 64) ∧
    Item (.ldwz gd d a o off) 4 (BitVec.ofNat 64) ∧
    Loads s (.ldv gd v a o off) (ea 64) 64 (s.rd.vlen / 8) m fun u l t =>
      ∃ x, t = u.setV v x ∧ ∀ j, j < s.rd.vlen / 8 → lane x 8 j = ((l[j]?).getD 0).toNat

/-- R156, R157, R265 and R348: every store: its address, its traps, and the bytes it stores. Every other byte of memory is as
before, and no register changes.
It rests also on the model's own choice or reading where the rules are silent: log entries 12 and 25. -/
def Obligations.StoreResults : Prop :=
  ∀ (gd : Guard) (d a : GReg) (v : VReg) (o : StOrd) (off : BitVec 9) (s : State), Issues gd s → s.slow = false →
    let ea (n : Nat) : W64 := BitVec.ofInt 64 ((s.g a).toNat + off.toInt * n)
    let Item (i : Instr) (n : Nat) : Prop := Stores s i (ea n) n o (bytesOf n (s.g d)) fun w t => t = w
    Item (.stb gd d a o off) 1 ∧ Item (.sth gd d a o off) 2 ∧ Item (.stw gd d a o off) 4 ∧ Item (.std gd d a o off) 8 ∧
    Stores s (.stv gd v a o off) (ea 64) 64 o
      ((List.range (s.rd.vlen / 8)).map fun j => BitVec.ofNat 8 (laneOf s v 8 j)) fun w t => t = w

/-- R158, R159, R254 and R255: the atomics on the SRAM levels: the old value goes to gD, and the operation of the old value and
gB to memory, with nothing in between; `tfadd` rounds to nearest whatever `rmode` holds and raises no flag.
It rests also on the model's own choice or reading where the rules are silent: log entries 12 and 25. -/
def Obligations.SramAtomics : Prop :=
  ∀ (gd : Guard) (d a b : GReg) (op : AtomOp) (s : State), Issues gd s → s.slow = false →
    let ea := s.g a
    let Atomic (i : Instr) (n : Nat) (R : Nat → Nat → Prop) : Prop :=
      (ea.toNat % n ≠ 0 → exec i s = .next (s.takeTrap s.cur ⟨0x03, ea⟩)) ∧
      (ea.toNat % n = 0 → 3 < ea.toNat / 2 ^ 60 → exec i s = .next (s.takeTrap s.cur ⟨0x04, ea⟩)) ∧
      (∀ t, ea.toNat % n = 0 → ea.toNat / 2 ^ 60 ≤ 3 → s.locate ea n true true = .trap t → exec i s = .next (s.takeTrap s.cur t)) ∧
      (∀ core, ea.toNat % n = 0 → ea.toNat / 2 ^ 60 ≤ 3 → s.locate ea n true true = .migrate core →
        exec i s = .next (s.startMigration i core ea false)) ∧
      ∀ pa, ea.toNat % n = 0 → ea.toNat / 2 ^ 60 ≤ 3 → s.locate ea n true true = .at_ pa →
        let p := s.waitsFor .all (isOwn s.core pa) [(pa, n)]
        GoesOn s p [] → Swaps s i d ea pa n p R
    Atomic (.tam gd d a b op) 8 (fun x y => y = (atomResult op (BitVec.ofNat 64 x) (s.g b)).toNat) ∧
    Atomic (.tfadd gd d a b) 4 fun x y => ∃ fl, Sums fmt32 .rne (fmt32.value x) (fmt32.value ((s.g b).toNat % 2 ^ 32)) (y, fl)

/-- R162, R163 and R165: a run of dwords lies where each of them does; `shp` sets a cursor from a shape record, `lds` and `sts` access the element at the cursor and advance
it in row order, and `lea` gives the form of an address that is the same on every core.
It rests also on the model's own choice or reading where the rules are silent: log entries 12 and 25, and 15, by which `shp`
migrates or traps by the place of its record as any load. -/
def Obligations.CursorsAndLea : Prop :=
  (∀ (ea : W64) (n : Nat) (ld st : Bool) (s : State),
    DwordRun (fun a => match s.locate a 8 ld st with | .at_ pa => .ok pa | l => .error l) ea n (s.dwordSpans ea ld st n)) ∧
  ∀ (gd : Guard) (d a b : GReg) (s : State), Issues gd s → s.slow = false →
    ((s.g a).toNat % 8 ≠ 0 → exec (.shp gd d a b) s = .next (s.takeTrap s.cur ⟨0x03, s.g a⟩)) ∧
    (∀ t, (s.g a).toNat % 8 = 0 → s.dwordSpans (s.g a) true false 4 = .error (.trap t) →
      exec (.shp gd d a b) s = .next (s.takeTrap s.cur ⟨t.cause, s.g a⟩)) ∧
    (∀ core, (s.g a).toNat % 8 = 0 → s.dwordSpans (s.g a) true false 4 = .error (.migrate core) →
      exec (.shp gd d a b) s = .next (s.startMigration (.shp gd d a b) core (s.g a) false)) ∧
    (∀ l, (s.g a).toNat % 8 = 0 → s.dwordSpans (s.g a) true false 4 = .ok l →
      let p := s.waitsFor .all (l.all fun e => isOwn s.core e.1) l
      GoesOn s p l →
      let u := s.flushWhere s.cur p
      (∀ v, u.badWord (s.g a) l = some v → exec (.shp gd d a b) s = .next (u.takeTrap u.cur ⟨0x09, v⟩)) ∧
      (u.badWord (s.g a) l = none →
      let w (k : Nat) : Nat := leNat (((u.readSpans l).drop (8 * k)).take 8)
      let ok : Prop := w 0 ≤ 7 ∧ 0 < w 1 ∧ w 1 < 2 ^ 32 ∧ 0 < w 2 ∧ w 2 < 2 ^ 32 ∧ w 3 < 2 ^ 48 ∧ w 3 % elemSize (w 0) = 0
      (¬ok → exec (.shp gd d a b) s = .next (u.takeTrap u.cur ⟨0x04, s.g a⟩)) ∧
      (ok → (s.g b).toNat % elemSize (w 0) ≠ 0 → exec (.shp gd d a b) s = .next (u.takeTrap u.cur ⟨0x03, s.g b⟩)) ∧
      (ok → (s.g b).toNat % elemSize (w 0) = 0 → exec (.shp gd d a b) s = .next
        (((((u.correctSpans l).setG d (s.g b)).setG (d + 1) 0).setG (d + 2) (BitVec.ofNat 64 (w 2 * 2 ^ 32 + w 1))).setG (d + 3)
          (BitVec.ofNat 64 (w 0 * 2 ^ 48 + w 3)))))) ∧
    ((s.gAt a 3).toNat / 2 ^ 51 ≠ 0 →
      exec (.lds gd d a) s = .next (s.takeTrap s.cur ⟨0x04, s.gAt a 3⟩) ∧
      exec (.sts gd d a) s = .next (s.takeTrap s.cur ⟨0x04, s.gAt a 3⟩)) ∧
    ((s.gAt a 3).toNat / 2 ^ 51 = 0 →
      let t := (s.gAt a 3).toNat / 2 ^ 48
      let n := elemSize t
      Loads s (.lds gd d a) (s.g a) n n .all (fun u l w => CursorAdvances s a
        (u.setG d (if t ≤ 3 then (BitVec.ofNat (8 * n) (leNat l)).signExtend 64 else BitVec.ofNat 64 (leNat l))) w) ∧
      Stores s (.sts gd d a) (s.g a) n .plain (bytesOf n (s.g d)) (CursorAdvances s a)) ∧
    ∀ i : BitVec 11,
      let e : W64 := BitVec.ofInt 64 ((s.g a).toNat + i.toInt)
      let space := e.toNat / 2 ^ 60
      exec (.lea gd d a i) s = .next (s.setG d
        (if space = 0 ∧ e.toNat / 2 ^ 17 % 2 ^ 43 = 0 ∧ caKind s.core ≠ .bank then
          BitVec.ofNat 64 (2 ^ 60 + s.core % 2 ^ 14 * 2 ^ 32 + e.toNat % 2 ^ 17)
        else if space = 2 ∧ e.getLsbD 47 = true ∧ e.toNat / 2 ^ 21 % 2 ^ 26 = 0 then
          BitVec.ofNat 64 (e.toNat - 2 ^ 47 + (caX s.core / 4) * 2 ^ 32 + (caY s.core / 4) * 2 ^ 40)
        else if space = 3 ∧ e.getLsbD 35 = true ∧ e.toNat / 2 ^ 26 % 2 ^ 9 = 0 then
          BitVec.ofNat 64 (e.toNat - 2 ^ 35 + caDie s.core * 2 ^ 32)
        else e))

/-- R130, R138, R152, R160, R161 and R164: where accesses that never migrate lie; `rdr` reads a run of words into lanes without migrating; `dtld` takes a table from its image
and its ownership, `dtst` stores the image of a table; `migr` has no effect where the thread already is, and sends it off
elsewhere, by the space that it names. A station core's threads never migrate.
It rests also on the model's own choice or reading where the rules are silent: log entries 12, 25, 71, 72, 74, 75, 85 and 104. -/
def Obligations.RemoteReadsTablesAndMigr : Prop :=
  ∀ (gd : Guard) (a : GReg) (s : State), Issues gd s → s.slow = false →
    let ea := s.g a
    (∀ (e : W64) (n k : Nat) (ld st : Bool),
      LiesHere s e n ld st (s.locateHere e n ld st) ∧ (s.rdrUnit e n = true ↔ InOneUnit s e n) ∧ ReadThere s e (s.rdrAt e) ∧
      DwordRun (fun a => placed (s.rdrAt a) ⟨0x04, a⟩) e k (s.rdrSpans e k) ∧
      DwordRun (fun a =>
        match placed (s.locateHere a 8 ld st) ⟨0x0D, a⟩ with
        | .ok pa => if st && s.hitsDesc [(pa, 8)] then .error ⟨0x0F, a⟩ else .ok pa
        | r => r) e k (s.imageSpans e ld st k)) ∧
    (∀ t : MReg, ea.toNat % 8 ≠ 0 → exec (.dtld gd t a) s = .next (s.takeTrap s.cur ⟨0x03, ea⟩) ∧
      exec (.dtst gd t a) s = .next (s.takeTrap s.cur ⟨0x03, ea⟩)) ∧
    (∀ (d : VReg) (n : BitVec 4) (l : List (Nat × Nat)),
      let k := n.toNat + 1
      (8 < k → s.rd.gang = false → exec (.rdr gd d a n) s = .next (s.takeTrap s.cur ⟨0x01, s.raw⟩)) ∧
      (¬(8 < k ∧ s.rd.gang = false) → ea.toNat % 8 ≠ 0 → exec (.rdr gd d a n) s = .next (s.takeTrap s.cur ⟨0x03, ea⟩)) ∧
      (¬(8 < k ∧ s.rd.gang = false) → ea.toNat % 8 = 0 → s.rdrUnit ea k = false →
        exec (.rdr gd d a n) s = .next (s.takeTrap s.cur ⟨0x04, ea⟩)) ∧
      (¬(8 < k ∧ s.rd.gang = false) → ea.toNat % 8 = 0 → s.rdrUnit ea k = true → s.impure ea (8 * k) false = true →
        exec (.rdr gd d a n) s = .next (s.takeTrap s.cur ⟨0x0B, ea⟩)) ∧
      (¬(8 < k ∧ s.rd.gang = false) → ea.toNat % 8 = 0 → s.rdrUnit ea k = true → s.impure ea (8 * k) false = false →
        s.replySlot = false → exec (.rdr gd d a n) s = .next (s.parkAt s.cur .flight (.rdr gd d a n) [])) ∧
      (∀ e, ¬(8 < k ∧ s.rd.gang = false) → ea.toNat % 8 = 0 → s.rdrUnit ea k = true → s.impure ea (8 * k) false = false →
        s.replySlot = true → s.mustQueue (.rdr gd d a n) = false → s.rdrSpans ea k = .error e →
        exec (.rdr gd d a n) s = .next (s.takeTrap s.cur e)) ∧
      (¬(8 < k ∧ s.rd.gang = false) → ea.toNat % 8 = 0 → s.rdrUnit ea k = true → s.impure ea (8 * k) false = false →
        s.replySlot = true → s.mustQueue (.rdr gd d a n) = false → s.rdrSpans ea k = .ok l →
        let p := s.waitsFor .all (l.all fun e => isOwn s.core e.1) l
        GoesOn s p [] →
        let u := s.flushWhere s.cur p
        (∀ v, u.badWord ea l = some v → exec (.rdr gd d a n) s = .next (u.takeTrap u.cur ⟨0x09, v⟩)) ∧
        (u.badWord ea l = none → ∃ x, exec (.rdr gd d a n) s = .next ((u.correctSpans l).setV d x) ∧
          ∀ j, j < s.rd.vlen / 8 → lane x 8 j = (((u.readSpans l)[j]?).getD 0).toNat))) ∧
    (∀ (t : MReg) (e : Trap), ea.toNat % 8 = 0 → s.imageSpans ea true false 129 = .error e →
      exec (.dtld gd t a) s = .next (s.takeTrap s.cur e)) ∧
    (∀ (t : MReg) (l : List (Nat × Nat)), ea.toNat % 8 = 0 → s.imageSpans ea true false 129 = .ok l →
      let p := s.waitsFor .all (l.all fun e => isOwn s.core e.1) l
      GoesOn s p l →
      let u := s.flushWhere s.cur p
      (∀ v, u.badWord ea l = some v → exec (.dtld gd t a) s = .next (u.takeTrap u.cur ⟨0x09, v⟩)) ∧
      (u.badWord ea l = none → u.tableHeld s.core t.toNat = true →
        exec (.dtld gd t a) s = .next (u.parkAt u.cur .flight (.dtld gd t a) [])) ∧
      (u.badWord ea l = none → u.tableHeld s.core t.toNat = false →
      ∃ w, exec (.dtld gd t a) s = .next w ∧ w = { u.correctSpans l with dts := w.dts } ∧
        (∀ c, c < 256 → (w.dt s.core t.toNat).ent c = BitVec.ofNat 20 (leNat (((u.readSpans l).drop (4 * c)).take 4))) ∧
        (w.dt s.core t.toNat).attr = BitVec.ofNat 64 (leNat (((u.readSpans l).drop 1024).take 8)) &&& 0xFFFFFF03#64 ∧
        (w.dt s.core t.toNat).owner = BitVec.ofNat 8 s.rd.ten ∧
        ∀ k, k < 4 → k ≠ t.toNat → w.dt s.core k = u.dt s.core k)) ∧
    (∀ (t : MReg) (l : List (Nat × Nat)), ea.toNat % 8 = 0 →
      let T := s.dt s.core t.toNat
      (T.usable s.rd.ten = false → exec (.dtst gd t a) s = .next (s.takeTrap s.cur ⟨0x06, BitVec.ofNat 64 s.cur⟩)) ∧
      (∀ e, T.usable s.rd.ten = true → s.imageSpans ea false true 129 = .error e →
        exec (.dtst gd t a) s = .next (s.takeTrap s.cur e)) ∧
      (T.usable s.rd.ten = true → s.imageSpans ea false true 129 = .ok l →
        let p := s.waitsFor .all (l.all fun e => isOwn s.core e.1) l
        GoesOn s p l →
        ∃ w, exec (.dtst gd t a) s = .next w ∧
          StoresSpans (s.flushWhere s.cur p) w l
            ((List.range 1032).map fun j =>
              BitVec.ofNat 8 (if j < 1024 then (T.ent (j / 4)).toNat / 256 ^ (j % 4) else T.attr.toNat / 256 ^ (j % 8))))) ∧
    (s.migrTo ea = .at_ 0 → exec (.migr gd a) s = .next s) ∧
    (∀ t, s.migrTo ea = .trap t → exec (.migr gd a) s = .next (s.takeTrap s.cur t)) ∧
    (∀ core, s.migrTo ea = .migrate core → exec (.migr gd a) s = .next
      (s.parkAt s.cur (.migrate core ea true (bundleReads s.raw)) (.migr gd a) [])) ∧
    MigrGoes s ea (s.migrTo ea) ∧ (caKind s.core = .station → ∀ core, s.migrTo ea ≠ .migrate core)

/-! ## The mesh -/

/-- R196 to R207: `mbc` and `mbclr` report and clear mailboxes; `recv` takes the oldest entry of the lowest mailbox of its mask,
`waitc` its counts, each with its trap on a reading that differs, and each parks while it finds nothing; `send`, `send.l`
and `mcast` deliver, count, and answer, once no earlier packet to the same core is under way (R189), and each refuses a target or an
argument that its rule refuses; a multicast that reaches no core writes 0.
It rests also on the model's own choice or reading where the rules are silent: log entries 24, 26, 27 and 92. -/
def Obligations.Mailboxes : Prop :=
  ∀ (gd : Guard) (d a b : GReg) (v : VReg) (k : BitVec 4) (s : State), Issues gd s → s.slow = false →
    let core := s.core
    let box (n : Nat) : Mbox := s.box core n
    let rd := s.rd.cr.nanrd.getLsbD 0
    let m := s.g a
    (∃ w : W64, exec (.mbc gd d k) s = .next (s.setG d w) ∧
      let x := box k.toNat
      w.toNat = x.cnt.toNat + x.ents.length % 8 * 2 ^ 32 + (if x.sat then 2 ^ 35 else 0) + (if x.full then 2 ^ 36 else 0) +
        (if x.seen0 then 2 ^ 37 else 0) + (if x.seen1 then 2 ^ 38 else 0)) ∧
    (∃ t : State, exec (.mbclr gd d a) s = .next (t.setG d (BitVec.ofNat 64
        (if m.getLsbD 16 then (((List.range 16).filter fun n => m.getLsbD n).map fun n => (box n).ents.length).sum else 0))) ∧
      t = { s with mbox := t.mbox } ∧
      ∀ n, n < 16 → t.box core n =
        if m.getLsbD n then { Mbox.empty with ents := if m.getLsbD 16 then [] else (box n).ents } else box n) ∧
    (m.toNat % 2 ^ 16 = 0 → exec (.recv gd d a v) s = .next (s.setG d 0)) ∧
    (m.toNat % 2 ^ 16 ≠ 0 → (∀ n, n < 16 → m.getLsbD n = true → (box n).ents = []) →
      exec (.recv gd d a v) s = .next
        (if m.getLsbD 16 then s.setG d 0 else s.parkAt s.cur .mailbox (.recv gd d a v) [])) ∧
    (∀ n h p t, n < 16 → m.getLsbD n = true → (box n).ents = (h, p) :: t →
      (∀ j, j < n → m.getLsbD j = true → (box j).ents = []) →
      (h.getLsbD 36 = rd → exec (.recv gd d a v) s = .next
        (((s.setBox core n { box n with ents := t }).setG d h).setV v (p.zeroExtend 1024))) ∧
      (h.getLsbD 36 ≠ rd → exec (.recv gd d a v) s = .next
        (s.takeTrap s.cur ⟨0x0C, BitVec.ofNat 64 (n * 2 ^ 32 + h.toNat % 2 ^ 32)⟩))) ∧
    (let x := box k.toNat
     let c := m.toNat % 2 ^ 32
     let seen := if rd then x.seen0 else x.seen1
     (seen = true → exec (.waitc gd d a k) s = .next
        (s.takeTrap s.cur ⟨0x0C, BitVec.ofNat 64 (k.toNat * 2 ^ 32 + (if rd then x.fsnd0 else x.fsnd1).toNat)⟩)) ∧
     (seen = false → c = 0 → exec (.waitc gd d a k) s = .next (s.setG d (BitVec.ofNat 64 x.cnt.toNat))) ∧
     (seen = false → c ≠ 0 → x.cnt.toNat < c →
        exec (.waitc gd d a k) s = .next (s.parkAt s.cur .counter (.waitc gd d a k) [])) ∧
     (seen = false → c ≠ 0 → c ≤ x.cnt.toNat → exec (.waitc gd d a k) s = .next
        ((s.setBox core k.toNat { x with cnt := BitVec.ofNat 32 (x.cnt.toNat - c) }).setG d
          (BitVec.ofNat 64 (x.cnt.toNat - c))))) ∧
    (s.rd.pure = true → exec (.send gd d a v k) s = .next (s.takeTrap s.cur ⟨0x0B, m⟩) ∧
      (∀ len, exec (.sendL gd a b k len) s = .next (s.takeTrap s.cur ⟨0x0B, m⟩)) ∧
      exec (.mcast gd d a) s = .next (s.takeTrap s.cur ⟨0x0B, m⟩)) ∧
    (s.rd.pure = false →
      let me := BitVec.ofNat 32 s.cur
      (m &&& ~~~0x00F03F7F#64 = 0 → s.coreEnabled (caTileOf m.toNat) = false →
        exec (.send gd d a v k) s = .next (s.takeTrap s.cur ⟨0x04, m⟩)) ∧
      (m &&& ~~~0x00F03F7F#64 = 0 → s.coreEnabled (caTileOf m.toNat) = true → ¬MaySend s (caTileOf m.toNat) →
        exec (.send gd d a v k) s = .next (s.takeTrap s.cur ⟨0x06, m⟩)) ∧
      (∀ len : BitVec 12,
        let src := s.g b
        let tgt := caTile (m.toNat / 2 ^ 32 % 128) (m.toNat / 2 ^ 40 % 64)
        let run := s.ownRun src len.toNat
        let formed : Prop := m.toNat / 2 ^ 60 = 1 ∧ m &&& 0x0FFFC080FFFE0000#64 = 0 ∧ m.toNat % 2 ^ 17 + len.toNat ≤ 0x20000
        let traps (t : Trap) : Prop := exec (.sendL gd a b k len) s = .next (s.takeTrap s.cur t)
        OwnRun s src len.toNat run ∧ (src.toNat % 8 ≠ 0 → traps ⟨0x03, src⟩) ∧
        (src.toNat % 8 = 0 → m.toNat % 8 ≠ 0 → traps ⟨0x03, m⟩) ∧
        (src.toNat % 8 = 0 → m.toNat % 8 = 0 → (∀ t, run = .error t → t.cause = 4 → traps t) ∧
          ((∀ t, run = .error t → t.cause ≠ 4) →
            (¬formed ∨ s.coreEnabled tgt = false → traps ⟨0x04, m⟩) ∧
            (formed → s.coreEnabled tgt = true → ¬MaySend s tgt → traps ⟨0x06, m⟩) ∧
            (formed → MaySend s tgt → ∀ t, run = .error t → traps t)))) ∧
      (let off := (s.gAt a 1).toNat
       let rect := s.gAt a 2
       let r := rectOf rect
       let lw := s.gAt a 3
       let len := lw.toNat % 512
       let run := s.ownRun m len
       let traps (t : Trap) : Prop := exec (.mcast gd d a) s = .next (s.takeTrap s.cur t)
       let placed : Prop := off < 0x20000 ∧ off + len ≤ 0x20000
       let shaped : Prop := rect &&& 0xFFFFFFFFC080C080#64 = 0
       let sized : Prop := lw &&& ~~~0xF01FF#64 = 0 ∧ len % 8 = 0 ∧ 8 ≤ len ∧ len ≤ 256
       let full : Prop := r.xlo ≤ r.xhi ∧ r.ylo ≤ r.yhi
       let inScope : Prop := (rectOf s.rd.cr.lrect).has r.xlo r.ylo = true ∧ (rectOf s.rd.cr.lrect).has r.xhi r.yhi = true
       let reached (t : Nat) : Prop := t ≠ core ∧ s.coreEnabled t = true ∧ (isCobbler t = true → s.rd.cr.tenant = 0) ∧ MayLand s t ∧
         s.runOk t off len = true
       OwnRun s m len run ∧ (m.toNat % 8 ≠ 0 → traps ⟨0x03, m⟩) ∧
       (m.toNat % 8 = 0 → off % 8 ≠ 0 → traps ⟨0x03, s.gAt a 1⟩) ∧
       (m.toNat % 8 = 0 → off % 8 = 0 → (∀ t, run = .error t → t.cause = 4 → traps t) ∧
         ((∀ t, run = .error t → t.cause ≠ 4) → (¬placed → traps ⟨0x04, s.gAt a 1⟩) ∧
           (placed → ¬shaped → traps ⟨0x04, rect⟩) ∧ (placed → shaped → ¬sized → traps ⟨0x04, lw⟩) ∧
           (placed → shaped → sized → ¬full → traps ⟨0x04, rect⟩) ∧
           (placed → shaped → sized → full → ¬inScope → traps ⟨0x06, rect⟩) ∧
           (placed → shaped → sized → full → inScope → (∀ t, run = .error t → traps t) ∧
             ∀ data : List Byte, run = .ok data →
               (∀ x y, r.xlo ≤ x → x ≤ r.xhi → r.ylo ≤ y → y ≤ r.yhi → ¬reached (caTile x y)) →
                 exec (.mcast gd d a) s = .next ((s.correctRun m len).setG d 0))))) ∧
      (let tgt := caTileOf m.toNat
       let u := s.flushWhere s.cur fun _ => true
       GoesOn s (fun _ => true) [] → u.mustQueue (.send gd d a v k) = false →
       (m &&& ~~~0x00F03F7F#64 ≠ 0 → exec (.send gd d a v k) s = .next (s.takeTrap s.cur ⟨0x04, m⟩)) ∧
       (m &&& ~~~0x00F03F7F#64 = 0 → MaySend s tgt →
          (¬MayLand s tgt → exec (.send gd d a v k) s = .next (u.takeTrap u.cur ⟨0x06, m⟩)) ∧
          (MayLand s tgt → 4 ≤ (u.box tgt k.toNat).ents.length →
            exec (.send gd d a v k) s = .next ((u.setBox tgt k.toNat { u.box tgt k.toNat with full := true }).setG d 1)) ∧
          (MayLand s tgt → (u.box tgt k.toNat).ents.length < 4 → NoWaiters u tgt →
            ∃ c : Mbox, Counts (u.box tgt k.toNat) c rd me ∧
              c.ents = (u.box tgt k.toNat).ents ++
                [(BitVec.ofNat 64 (s.cur % 2 ^ 24 + k.toNat * 2 ^ 32 + (if rd then 2 ^ 36 else 0) + 2 ^ 63),
                  (s.rd.getV v).truncate 512)] ∧
              exec (.send gd d a v k) s = .next ((u.setBox tgt k.toNat c).setG d 0)))) ∧
      (∀ (len : BitVec 12) (data : List Byte),
        let src := s.g b
        let tgt := caTile (m.toNat / 2 ^ 32 % 128) (m.toNat / 2 ^ 40 % 64)
        let off := m.toNat % 2 ^ 17
        let s1 := s.correctRun src len.toNat
        let u := s1.flushWhere s.cur fun _ => true
        GoesOn s1 (fun _ => true) [] → u.mustQueue (.sendL gd a b k len) = false → src.toNat % 8 = 0 → m.toNat % 8 = 0 → s.ownRun src len.toNat = .ok data → data.length = len.toNat →
        m.toNat / 2 ^ 60 = 1 → m &&& 0x0FFFC080FFFE0000#64 = 0 → off + len.toNat ≤ 0x20000 → MaySend s tgt →
        (¬MayLand s tgt → exec (.sendL gd a b k len) s = .next (u.takeTrap u.cur ⟨0x06, m⟩)) ∧
        (MayLand s tgt → u.runOk tgt off len.toNat = false → exec (.sendL gd a b k len) s = .next (u.takeTrap u.cur ⟨0x04, m⟩)) ∧
        (MayLand s tgt → u.runOk tgt off len.toNat = true → NoWaiters u tgt →
          ∃ (w : State) (c : Mbox), StoresSpans u w [(paTcm tgt off, len.toNat)] data ∧
            Counts (u.box tgt k.toNat) c rd me ∧ c.ents = (u.box tgt k.toNat).ents ∧
            exec (.sendL gd a b k len) s = .next (w.setBox tgt k.toNat c))) ∧
      ∀ data : List Byte,
        let off := (s.gAt a 1).toNat
        let r := rectOf (s.gAt a 2)
        let lw := (s.gAt a 3).toNat
        let len := lw % 512
        let s1 := s.correctRun m len
        let u := s1.flushWhere s.cur fun _ => true
        GoesOn s1 (fun _ => true) [] → u.mustQueue (.mcast gd d a) = false → m.toNat % 8 = 0 → off % 8 = 0 → s.ownRun m len = .ok data → data.length = len → off + len ≤ 0x20000 →
        s.gAt a 2 &&& 0xFFFFFFFFC080C080#64 = 0 → s.gAt a 3 &&& ~~~0xF01FF#64 = 0 → len % 8 = 0 → 8 ≤ len → len ≤ 256 →
        r.xlo ≤ r.xhi → r.ylo ≤ r.yhi →
        (rectOf s.rd.cr.lrect).has r.xlo r.ylo = true → (rectOf s.rd.cr.lrect).has r.xhi r.yhi = true →
        ∃ (targets : List Nat) (w : State), targets.Nodup ∧
          (∀ t ∈ targets, NoWaiters u t → ∀ n, n = lw / 2 ^ 16 % 16 →
            Counts (u.box t n) (w.box t n) rd me ∧ (w.box t n).ents = (u.box t n).ents) ∧
          (∀ t, t ∈ targets ↔ ∃ x y, r.xlo ≤ x ∧ x ≤ r.xhi ∧ r.ylo ≤ y ∧ y ≤ r.yhi ∧ t = caTile x y ∧ t ≠ core ∧
            s.coreEnabled t = true ∧ (isCobbler t = true → s.rd.cr.tenant = 0) ∧ MayLand s t ∧ s.runOk t off len = true) ∧
          exec (.mcast gd d a) s = .next (w.setG d (BitVec.ofNat 64 targets.length)) ∧
          ∀ t ∈ targets, ∀ j, j < len → w.byte (paTcm t (off + j)) = (data[j]?).getD 0)

/-! ## Matrix units -/

/-- R208 to R212, R215, R216, R221, R225 to R228, R230, R232 to R234: claims and their refusals, release, status, the zeroing, loading
and draining of tiles with their alignment, range and owner traps and the unit's flags, the wake-up of a remote drain that is FULL or follows a refused
row, and remote commands with the tables that they carry and their answers.
It rests also on the model's own choice or reading where the rules are silent: log entries 20, 21, 22 and 23. -/
def Obligations.MatrixUnits : Prop :=
  ∀ (gd : Guard) (d a b : GReg) (T : MReg) (s : State), Issues gd s →
    let core := s.core
    let u := s.unit core
    (∀ soft : Bool,
      (u.claimed = false → ∃ (w : MatUnit) (t : State), t = s.setUnit core w ∧
        w = { MatUnit.idle with claimed := true, owner := s.cur, tenant := s.rd.ten, epoch := w.epoch } ∧
        w.epoch.toNat = (if u.epoch.toNat = 2 ^ 16 - 1 then 1 else u.epoch.toNat + 1) ∧
        exec (.mclaim gd d soft) s = .next
          ((t.upd fun c => { c with cr := { c.cr with mkstep := c.cr.mkstep ||| 0x8000000000000000#64 } }).setG d
            (t.capability core))) ∧
      (u.claimed = true → u.owner = s.cur → exec (.mclaim gd d soft) s = .next (s.setG d (s.capability core))) ∧
      (u.claimed = true → u.owner ≠ s.cur → exec (.mclaim gd d soft) s = .next
        (if soft then s.setG d 0 else s.takeTrap s.cur ⟨0x10, BitVec.ofNat 64 u.owner⟩))) ∧
    (s.capability core).toNat / 2 ^ 48 = u.epoch.toNat ∧
    (s.owns s.cur = false → exec (.mrel gd) s = .next s ∧
      ∀ i ∈ ([.mzero gd T, .mload gd T a b, .mdrain gd T a b, .mdrainr gd d a b] : List Instr),
        exec i s = .next (s.takeTrap s.cur ⟨0x10, if u.claimed then BitVec.ofNat 64 u.owner else 0⟩)) ∧
    (s.owns s.cur = true → u.op = none → s.slow = false → s.src = some s.me.ctx → ∃ t, exec (.mrel gd) s = .next t ∧
      (t.unit core).claimed = false ∧ (t.unit core).tiles = [] ∧ (t.unit core).queue = [] ∧ (live t).cr.mkstep = 0 ∧
      ∀ j, j ≠ s.cur → t.slot j = s.slot j) ∧
    (∀ clr : Bool, ∃ v : W64,
      v.toNat = (if u.claimed then caSlot u.owner + 16 else 0) + (if u.op.isSome then 32 else 0) + u.queue.length % 8 * 64 +
        (if u.fault then 512 else 0) + u.fcause.toNat * 2 ^ 10 + u.fstep % 4096 * 2 ^ 18 + u.ftile % 4 * 2 ^ 30 +
        u.epoch.toNat * 2 ^ 32 + u.flags.toNat * 2 ^ 48 ∧
      exec (.mstat gd d clr) s = .next ((if clr = true ∧ s.owns s.cur = true then
        s.setUnit core { u with flags := 0, fault := false, fcause := 0, fstep := 0, ftile := 0 } else s).setG d v)) ∧
    (UnitTakes s (s.ownCmd (.mzero gd T) s.cur s.rd s.stamp) → ∃ t, exec (.mzero gd T) s = .next t ∧ UnitDone s t ∧
      live t = live s ∧ (t.unit core).tile T.toNat = List.replicate 1024 0 ∧
      (∀ j, j < 4 → j ≠ T.toNat → (t.unit core).tile j = u.tile j) ∧ ∀ x, t.byte x = s.byte x) ∧
    (∀ row : Nat → Nat,
      (∀ i, i < 32 → s.localAt core s.rd.ten (s.g a + BitVec.ofNat 64 i * s.g b) 128 = .ok (row i)) →
      (∀ i, i < 32 → ∀ j, j < 16 → s.isBad (row i + 8 * j) = false) →
      UnitTakes s (s.ownCmd (.mload gd T a b) s.cur s.rd s.stamp) → ∃ t, exec (.mload gd T a b) s = .next t ∧ UnitDone s t ∧
        live t = live s ∧ (∀ x, t.byte x = s.byte x) ∧ (∀ j, j < 4 → j ≠ T.toNat → (t.unit core).tile j = u.tile j) ∧
        ∀ i j, i < 32 → j < 32 → (((t.unit core).tile T.toNat)[32 * i + j]?).getD 0 = s.readN (row i + 4 * j) 4) ∧
    (∀ row : Nat → Nat,
      let n := if s.rd.cr.fmtc.toNat % 8 = 0 then 128 else 64
      (∀ i, i < 32 → s.localAt core s.rd.ten (s.g a + BitVec.ofNat 64 i * s.g b) n = .ok (row i)) →
      UnitTakes s (s.ownCmd (.mdrain gd T a b) s.cur s.rd s.stamp) → ∃ t, exec (.mdrain gd T a b) s = .next t ∧ UnitDone s t ∧
        live t = live s ∧ (t.unit core).tiles = u.tiles ∧
        (∀ q, (t.unit core).flags.getLsbD q = true ↔ u.flags.getLsbD q = true ∨ n = 64 ∧ ∃ e, e < 1024 ∧
          let v := fmt32.value (((u.tile T.toNat)[e]?).getD 0)
          let F := if s.rd.cr.fmtc.toNat % 8 = 1 then fmt16 s.finite else fmtB16 s.finite
          ((F.deliver s.rnd v).2 ||| flagIf v.isSnan flagNv).getLsbD q = true) ∧
        StoresSpans s { t with slots := s.slots } ((List.range 32).map fun i => (row i, n))
          ((List.range 1024).flatMap fun e =>
            let x := ((u.tile T.toNat)[e]?).getD 0
            let F := if s.rd.cr.fmtc.toNat % 8 = 1 then fmt16 s.finite else fmtB16 s.finite
            if n = 128 then bytesOf 4 (BitVec.ofNat 64 x)
            else bytesOf 2 (BitVec.ofNat 64 (F.deliver s.rnd (fmt32.value x)).1))) ∧
    (let c := s.ownCmd (.mdrainr gd d a b) s.cur s.rd s.stamp
     let dst := s.g a
     let tgt := caTile (dst.toNat / 2 ^ 32 % 128) (dst.toNat / 2 ^ 40 % 64)
     let prm := s.g b
     let mb := prm.toNat / 2 ^ 20 % 16
     let n := if s.rd.cr.fmtc.toNat % 8 = 0 then 128 else 64
     UnitTakes s c → (∀ n, s.overtakes 3 core n [tgt] = false) → ∃ t w v, exec (.mdrainr gd d a b) s = .next t ∧ UnitDone s t ∧
       live t = (live s).setG d v ∧ w = { s with mem := t.mem } ∧
       ((s.box tgt mb).ents.length < 4 → v = 0) ∧
       (4 ≤ (s.box tgt mb).ents.length → NoWaiters s tgt → v = 1 ∧ (t.box tgt mb).ents = (s.box tgt mb).ents) ∧
       (NoWaiters s tgt → (t.box tgt mb).cnt.toNat =
         min ((s.box tgt mb).cnt.toNat + if (s.box tgt mb).ents.length < 4 then 33 else 32) (2 ^ 32 - 1)) ∧
       StoresSpans s w ((List.range 32).map fun i => (paTcm tgt (dst.toNat % 2 ^ 17 + i * (prm.toNat % 2 ^ 18)), n))
         ((List.range 32).flatMap fun i => (u.drainRow (prm.toNat / 2 ^ 40 % 4) i (s.matRegs s.core s.rd)).1)) ∧
    (s.owns s.cur = true → ∀ (i : Instr) (n : Nat),
      i = .mload gd T a b ∧ n = 128 ∨ i = .mdrain gd T a b ∧ n = (if s.rd.cr.fmtc.toNat % 8 = 0 then 128 else 64) →
      let aligned : Prop := (s.g a).toNat % 8 = 0 ∧ (s.g b).toNat % 8 = 0 ∧ n ≤ (s.g b).toNat
      (¬aligned → exec i s = .next (s.takeTrap s.cur ⟨0x03, s.g a⟩)) ∧
      ∀ j r t, aligned → s.rd.pure = false → j < 32 →
        (∀ k, k < j → ∃ pa, s.localAt core s.rd.ten (s.g a + BitVec.ofNat 64 k * s.g b) n = .ok pa) →
        r = s.localAt core s.rd.ten (s.g a + BitVec.ofNat 64 j * s.g b) n → r = .error t → exec i s = .next (s.takeTrap s.cur t)) ∧
    (∀ ea n, n = 64 ∨ n = 128 → LocalRow s core s.rd.ten ea n (s.localAt core s.rd.ten ea n)) ∧
    (s.owns s.cur = true →
      let dst := s.g a
      let prm := s.g b
      let pitch := prm.toNat % 2 ^ 18
      let n := if s.rd.cr.fmtc.toNat % 8 = 0 then 128 else 64
      let tgt := caTile (dst.toNat / 2 ^ 32 % 128) (dst.toNat / 2 ^ 40 % 64)
      let traps (c : BitVec 8) (v : W64) : Prop := exec (.mdrainr gd d a b) s = .next (s.takeTrap s.cur ⟨c, v⟩)
      let usable : Prop := (rectOf s.rd.cr.lrect).hasCore tgt = true ∧ (isCobbler tgt = true → s.rd.ten = 0)
      (s.rd.pure = true → traps 0x0B dst) ∧
      (s.rd.pure = false → dst.toNat % 8 ≠ 0 → traps 0x03 dst) ∧
      (s.rd.pure = false → dst.toNat % 8 = 0 → pitch % 8 ≠ 0 → traps 0x03 prm) ∧
      (s.rd.pure = false → dst.toNat % 8 = 0 → pitch % 8 = 0 →
        (dst.toNat / 2 ^ 60 ≠ 1 ∨ dst &&& formBad1 ≠ 0 → traps 0x04 dst) ∧
        (dst.toNat / 2 ^ 60 = 1 → dst &&& formBad1 = 0 → pitch < n ∨ prm &&& 0xFFFFFC00000C0000#64 ≠ 0 → traps 0x04 prm) ∧
        (dst.toNat / 2 ^ 60 = 1 → dst &&& formBad1 = 0 → n ≤ pitch → prm &&& 0xFFFFFC00000C0000#64 = 0 →
          2 ^ 17 < dst.toNat % 2 ^ 17 + 31 * pitch + n → traps 0x04 dst) ∧
        (DrainInForm dst prm n → s.coreEnabled tgt = false → traps 0x04 dst) ∧
        (DrainInForm dst prm n → s.coreEnabled tgt = true → ¬usable ∨ ¬MayLand s tgt → traps 0x06 dst) ∧
        (DrainInForm dst prm n → s.coreEnabled tgt = true → usable → MayLand s tgt →
          (∃ i, i < 32 ∧ s.runOk tgt (dst.toNat % 2 ^ 17 + i * pitch) n = false) → traps 0x04 dst))) ∧
    (∀ (k : Nat) (o : MatOp), (s.unit k).op = some o → o.cmd.kind = 3 →
      let x := s.unit k
      let dst := o.cmd.da
      let prm := o.cmd.db
      let tgt := caTile (dst.toNat / 2 ^ 32 % 128) (dst.toNat / 2 ^ 40 % 64)
      let mb := prm.toNat / 2 ^ 20 % 16
      let row := x.drainRow o.cmd.tile o.step o.cmd.regs
      let mine := s.mayLandAt tgt x.tenant
      s.overtakes 3 k s.stamp [tgt] = false →
      (o.step < 32 → (mine && s.runOk tgt (dst.toNat % 2 ^ 17 + o.step * (prm.toNat % 2 ^ 18)) row.1.length) = false →
        s.unitStep k = s.setUnit k
          { x with flags := x.flags ||| row.2, op := some { o with step := o.step + 1, refused := true } }) ∧
      (32 ≤ o.step → s.unitStep k = (s.drainWake k o).1.opDone k o (s.drainWake k o).2 ∧
        (s.drainWake k o).2 = (if o.refused = true then 2 else if mine = true ∧ (s.box tgt mb).ents.length < 4 then 0 else 1) ∧
        (mine = true → (s.box tgt mb).ents.length < 4 → NoWaiters s tgt →
          ∃ h p c, (s.drainWake k o).1 = s.setBox tgt mb c ∧ c.ents = (s.box tgt mb).ents ++ [(h, p)] ∧
            Counts (s.box tgt mb) c (o.cmd.regs.nanrd.getLsbD 0) (BitVec.ofNat 32 x.owner) ∧
            p.toNat % 2 ^ 8 = if o.refused = true then 3 else 0)) ∧
      ∀ e f g w, o.own = true → (s.slot x.owner).wait = some .matrix → (s.slot x.owner).instr = some (.mdrainr g e f b) →
        s.opDone k o w = ((s.deliver x.owner fun c => c.setG e w).reply x.owner none).opOver k) ∧
    ∀ l : List Byte, s.rd.pure = false → (s.g b).toNat % 8 = 0 → s.ownRun (s.g b) 64 = .ok l →
      let tgt := caTileOf (s.g a).toNat
      let s1 := s.correctRun (s.g b) 64
      let w := s1.flushWhere s.cur fun _ => true
      s.g a &&& ~~~0x00F03F7F#64 = 0 → MaySend s tgt → GoesOn s1 (fun _ => true) [] → w.mustQueue (.mcmd gd d a b) = false →
      let x := w.unit tgt
      let cap : W64 := BitVec.ofNat 64 (leNat (l.take 8))
      let good : Prop := x.claimed = true ∧ cap = w.capability tgt ∧ (s.rd.ten = 0 ∨ s.rd.ten = x.tenant)
      let c := (blkCmd l (s.matRegs s.core s.rd) s.cur w.stamp).settled
      let bad : Prop := 4 ≤ c.kind ∨ (BitVec.ofNat 64 (leNat ((l.drop 8).take 8)) : W64).toNat / 2 ^ 42 ≠ 0 ∨ c.formsOk = false
      (¬good → ∃ t : State, t = { w with stamp := t.stamp } ∧ exec (.mcmd gd d a b) s = .next (t.takeTrap t.cur ⟨0x06, cap⟩)) ∧
      (good → x.queue.length < 4 → x.fault = false → ¬bad → ∃ (t : State) (e : MatCmd),
        e = { c with regs := { c.regs with ta := e.regs.ta, tb := e.regs.tb } } ∧
        SameTable e.regs.ta c.regs.ta ∧ SameTable e.regs.tb c.regs.tb ∧ t = { w.setUnit tgt { x with queue := x.queue ++ [e] } with stamp := t.stamp } ∧
        exec (.mcmd gd d a b) s = .next (t.setG d 0)) ∧
      (good → (4 ≤ x.queue.length ∨ x.fault = true ∨ bad) → ∃ (t : State) (v : W64), t = { w with stamp := t.stamp, free := t.free } ∧
        (v = 1 ∧ 4 ≤ x.queue.length ∨ v = 2 ∧ x.fault = true ∨ v = 3 ∧ bad) ∧
        exec (.mcmd gd d a b) s = .next (t.setG d v))

/-- R129, R213, R214, R216 to R221, R223 and R229: a K-step reads a row of A and a column of B for each element, from registers or
through the rotation and the pitches of a pair, widens and scales them, and takes the element to their exact combination, rounded
once, in each of the six semirings, with the unit's flags; `mmac` applies the steps from `mkstep` on in order and clears it; an `mmac`
whose steps are all done clears it and does nothing else; one with an encoding its formats do not allow traps, and so does one whose
pairs, scales, scratchpad or tables its checks refuse; a step that a fault strikes leaves the tile and `mkstep` at that step.
It rests also on the model's own choice or reading where the rules are silent: log entries 18 and 19. -/
def Obligations.MatrixMultiply : Prop :=
  (∀ (old : Nat) (a b : List Int),
    (stepInt old a b : Int) = ((old : Int) + (List.zipWith (· * ·) a b).sum) % 2 ^ 32) ∧
  (∀ (rm : Rnd) (old : Nat) (a b : List FVal), a.length = b.length → a ≠ [] →
    (∀ sr, sr = 0 ∨ sr = 2 ∨ sr = 3 ∨ sr = 4 → Combines sr rm old a b (stepElem sr rm old a b)) ∧
    (stepElem 5 rm old a b).2 = 0 ∧
    (let some_ : Prop := old % 2 ^ 31 ≠ 0 ∨ ∃ (k : Nat) (x y : FVal),
        a[k]? = some x ∧ b[k]? = some y ∧ x.isZero = false ∧ y.isZero = false
     (some_ → (stepElem 5 rm old a b).1 = 0x3F800000) ∧ (¬some_ → (stepElem 5 rm old a b).1 = 0)) ∧
    ((∀ x ∈ a, isFin x = true) → (∀ x ∈ b, isFin x = true) → (fmt32.value old).isNan = false → dotOf a b = 0 →
      (stepElem 0 rm old a b).1 = old)) ∧
  (∀ (s : State) (core ten : Nat) (c : MatCmd) (n : Nat) (old : List Nat), StepFault s core ten c n (s.kstep core ten c n old)) ∧
  (∀ (s : State) (core ten : Nat) (c : MatCmd) (n : Nat) (old l : List Nat) (fl : FlagSet), old.length = 1024 →
    s.kstep core ten c n old = .ok (l, fl) →
    let fa := c.regs.fmta
    let fb := c.regs.fmtb
    let fin := c.regs.nanrd.getLsbD 0
    let wa := matWidth (fa.toNat % 16)
    let wb := matWidth (fb.toNat % 16)
    ∃ (A B : Nat → Nat → Nat) (SA SB : Nat → Option Nat),
      Operand s core c.ra (pairOf c.a0 c.a1) wa n A ∧ Operand s core c.rb (pairOf c.b0 c.b1) wb n B ∧
      Scales s core ten fa c.regs.scla n SA ∧ Scales s core ten fb c.regs.sclb n SB ∧ l.length = 1024 ∧
      (c.sr = 1 → fl = 0 ∧ ∀ i j, i < 32 → j < 32 →
        let e := 32 * i + j
        let z (f : W64) (x : Nat) : Int := if f.toNat % 16 = 4 then (BitVec.ofNat 8 x).toInt else x
        l[e]? = some (stepInt ((old[e]?).getD 0)
          ((List.range 32).map fun k => z fa (A i k)) ((List.range 32).map fun k => z fb (B k j)))) ∧
      (c.sr ≠ 1 → ∃ a b : Nat → List FVal,
        let elem (i j : Nat) : Nat × FlagSet := stepElem c.sr (rndOf c.regs.rmode) ((old[32 * i + j]?).getD 0) (a i) (b j)
        (∀ q, fl.getLsbD q = true ↔ ∃ i j, i < 32 ∧ j < 32 ∧ (elem i j).2.getLsbD q = true) ∧
        ∀ i j, i < 32 → j < 32 → (a i).length = 32 ∧ (b j).length = 32 ∧
          (∀ (k : Nat) x, (a i)[k]? = some x → ElementOf fa fin c.regs.ta (SA i) (A i k) x) ∧
          (∀ (k : Nat) x, (b j)[k]? = some x → ElementOf fb fin c.regs.tb (SB j) (B k j) x) ∧
          l[32 * i + j]? = some (elem i j).1)) ∧
  (∀ (p0 p1 : W64),
    let p := pairOf p0 p1
    p.base = p0.toNat % 2 ^ 21 ∧ p.rot = p0.toNat / 2 ^ 21 % 8 ∧ p.rpitch = p0.toNat / 2 ^ 32 % 2 ^ 20 ∧
    p.tpitch = p1.toNat % 2 ^ 21 ∧ (p.bad = false ↔ p0 &&& 0xFFF00000FF000000#64 = 0 ∧ p1.toNat < 2 ^ 21)) ∧
  ∀ (gd : Guard) (T : MReg) (a b : BitVec 5) (z bv av : Bool) (sr : BitVec 3) (steps : BitVec 12) (s : State), Issues gd s →
    let i : Instr := .mmac gd T a b z bv av sr steps
    let c := s.ownCmd i s.cur s.rd s.stamp
    let ns := steps.toNat + 1
    let s0 := s.rd.cr.mkstep.toNat % 4096
    let u := s.unit s.core
    (c.kind = 1 ∧ c.sr = sr.toNat ∧ c.steps = ns ∧ c.tile = T.toNat ∧ c.regs = s.matRegs s.core s.rd ∧
      (∀ r v l w, r = c.ra ∧ v = a ∧ w = matWidth (s.rd.cr.fmta.toNat % 16) ∨ r = c.rb ∧ v = b ∧ w = matWidth (s.rd.cr.fmtb.toNat % 16) →
        r = some l → l.length = 128 * w → ∀ m, m < 128 * w →
        l[m]? = some (BitVec.ofNat 8
          (lane (s.rd.getV (BitVec.ofNat 4 (v.toNat + m / (s.rd.vlen / 8)))) 8 (m % (s.rd.vlen / 8))))) ∧
      (c.ra.isSome = av ∧ c.rb.isSome = bv) ∧ (av = false → c.a0 = s.g a ∧ c.a1 = s.gAt a 1) ∧
      (bv = false → c.b0 = s.g b ∧ c.b1 = s.gAt b 1)) ∧
    (s.owns s.cur = false → exec i s = .next (s.takeTrap s.cur ⟨0x10, if u.claimed then BitVec.ofNat 64 u.owner else 0⟩)) ∧
    (s.owns s.cur = true → c.formsOk = false → exec i s = .next (s.takeTrap s.cur ⟨0x01, s.raw⟩)) ∧
    (s.owns s.cur = true → c.formsOk = true →
      let ten := s.rd.ten
      let traps (t : Trap) : Prop := exec i s = .next (s.takeTrap s.cur t)
      let pads := padsOf c
      let at_ (p : MatPair × Nat) : W64 := BitVec.ofNat 64 (0x2000800000000000 + p.1.base)
      let aligned (p : MatPair × Nat) : Prop := p.1.base % 8 = 0 ∧ p.1.rpitch % 8 = 0 ∧ p.1.tpitch % 8 = 0
      let ranged (p : MatPair × Nat) : Prop := p.1.bad = false ∧ 4 * p.2 ≤ p.1.rpitch ∧
        p.1.base + (ns - 1) * p.1.tpitch + 31 * p.1.rpitch + 4 * p.2 ≤ s.spadSize (caX s.core / 4) (caY s.core / 4)
      let first (ok : MatPair × Nat → Prop) (cause : BitVec 8) : Prop := ∀ (j : Nat) p, pads[j]? = some p → ¬ok p →
        (∀ (k : Nat) q, k < j → pads[k]? = some q → ok q) → traps ⟨cause, at_ p⟩
      let scale (v : W64) : Option Trap := s.scaleTrap s.core ten v ns
      let fit : Prop := ∀ v ∈ scalesIn c, ∀ t, scale v = some t → t.cause ≠ 4
      let usable (f : W64) (T : DecTab) : Prop := f.toNat % 16 = 3 → T.usable ten = true
      first aligned 3 ∧
      (s.rd.pure = false → (∀ p ∈ pads, aligned p) → first ranged 4 ∧ ((∀ p ∈ pads, ranged p) →
        (∀ t, (∃ v ∈ scalesIn c, scale v = some t) → t.cause = 4 →
          (∀ u, (∃ v ∈ scalesIn c, scale v = some u) → u.cause = 4 → u = t) → traps t) ∧
        (fit → first (fun _ => padOpen s s.core ten) 6 ∧ (pads = [] ∨ padOpen s s.core ten →
          (∀ t, (∃ v ∈ scalesIn c, scale v = some t) →
            (∀ u, (∃ v ∈ scalesIn c, scale v = some u) → u = t) → traps t) ∧
          ((∀ v ∈ scalesIn c, scale v = none) → ¬(usable c.regs.fmta c.regs.ta ∧ usable c.regs.fmtb c.regs.tb) →
            traps ⟨0x06, BitVec.ofNat 64 s.cur⟩)))))) ∧
    (∀ (v : W64) (n : Nat), 0 < n → let r := s.scaleTrap s.core s.rd.ten v n
      let form : Prop := v.toNat / 2 ^ 60 = 0 ∨ v.toNat / 2 ^ 60 = 2 ∧ v.getLsbD 47 = true
      let at_ (j : Nat) := s.localAt s.core s.rd.ten (v + BitVec.ofNat 64 (32 * j)) 32
      (¬form → r = some ⟨0x04, v⟩) ∧
      (form → (∀ j, j < n → (at_ j).toOption.isSome = true) → r = none) ∧
      ∀ j t, form → j < n → at_ j = .error t → (∀ k, k < j → (at_ k).toOption.isSome = true) → r = some ⟨t.cause, v⟩) ∧
    (UnitTakes s c → ns ≤ s0 → exec i s = .next (s.upd fun x =>
      { x with cr := { x.cr with mkstep := x.cr.mkstep &&& ~~~0xFFF#64 } })) ∧
    (UnitTakes s c → s0 < ns → ∀ tile : Nat → List Nat,
      tile s0 = (if s0 = 0 ∧ z = true then List.replicate 1024 0 else u.tile T.toNat) →
      (∀ (m : Nat) (e : Trap), s0 ≤ m → m < ns →
        (∀ n, s0 ≤ n → n < m → ∃ fl, s.kstep s.core s.rd.ten c n (tile n) = .ok (tile (n + 1), fl)) →
        s.kstep s.core s.rd.ten c m (tile m) = .error e → ∃ w : State, exec i s = .next (w.takeTrap s.cur e) ∧
          (w.unit s.core).op = none ∧ (w.unit s.core).tile T.toNat = tile m ∧ w.me.ctx.cr.mkstep.toNat % 4096 = m ∧
          (∀ j, j < 4 → j ≠ T.toNat → (w.unit s.core).tile j = u.tile j) ∧ ∀ x, w.byte x = s.byte x) ∧
      ∀ flags : Nat → FlagSet,
      (∀ n, s0 ≤ n → n < ns → s.kstep s.core s.rd.ten c n (tile n) = .ok (tile (n + 1), flags n)) →
      ∃ t, exec i s = .next t ∧ UnitDone s t ∧ (t.unit s.core).tile T.toNat = tile ns ∧
        (t.unit s.core).flags = (List.range (ns - s0)).foldl (fun f n => f ||| flags (s0 + n)) u.flags ∧
        (∀ j, j < 4 → j ≠ T.toNat → (t.unit s.core).tile j = u.tile j) ∧
        live t = { live s with cr := { (live s).cr with mkstep := (live s).cr.mkstep &&& ~~~0xFFF#64 } } ∧
        ∀ x, t.byte x = s.byte x)

/-! ## Memory-side synchronisation -/

/-- R249, R250, R252 and R253: every full/empty instruction and every reservation: the condition under which its word serves
it, what it then reads, stores and leaves the word as, the waiters that it serves in turn, the queued `lrw` that a release grants or,
over a poisoned word, traps, and that it parks otherwise, in the list of the word, or, where the station has none of its 4,096 entries left, held at the station.
It rests also on the model's own choice or reading where the rules are silent: log entries 12, 25 and 29. -/
def Obligations.SynchronisingWords : Prop :=
  ∀ (gd : Guard) (d a b : GReg) (lo : LdOrd) (so : StOrd) (s : State),
    Issues gd s → s.src = some s.me.ctx → s.me.after = none → s.slow = false →
    let ea := s.g a
    let ld (pa : Nat) : OutStore → Bool :=
      s.waitsFor (match lo with | .plain => .all | .relaxed => .overlap | .acq => .scope) false [(pa, 8)]
    let st (pa : Nat) : OutStore → Bool :=
      s.waitsFor (match so with | .plain => .all | .relaxed => .overlap | .rel => .scope) false [(pa, 8)]
    let val (u : State) (pa : Nat) : W64 := BitVec.ofNat 64 (u.readN pa 8)
    let put (u : State) (pa : Nat) (v : W64) : State := u.storeBytes pa (bytesOf 8 v)
    let Load (i : Instr) (need : BitVec 4) (takes : Bool) : Prop :=
      WordAccess s i ea 8 need true ld 8 fun u pa =>
        let t := (u.setFull pa false).setG d (val u pa)
        (u.isFull pa = false → exec i s = .next (joins u pa (.fullEmpty pa) i)) ∧
        (u.isFull pa = true → u.isBad pa = true → exec i s = .next (u.takeTrap u.cur ⟨0x09, ea⟩)) ∧
        (u.isFull pa = true → u.isBad pa = false → takes = false → exec i s = .next (u.setG d (val u pa))) ∧
        (u.isFull pa = true → u.isBad pa = false → takes = true → (t.feWaiters pa = [] → exec i s = .next t) ∧
          ∀ w, Scans pa (t.feWaiters pa) t w → exec i s = .next w)
    let Store (i : Instr) (always : Bool) : Prop :=
      WordAccess s i ea 8 (rightW ||| rightS) true st 8 fun u pa =>
        let t := (put u pa (s.g b)).setFull pa true
        (u.isFull pa = true → exec i s = .next (if always then t else joins u pa (.fullEmpty pa) i)) ∧
        (u.isFull pa = false → (t.feWaiters pa = [] → exec i s = .next t) ∧ ∀ w, Scans pa (t.feWaiters pa) t w → exec i s = .next w)
    let Release (i : Instr) (need : BitVec 4) (next : State → Nat → State) : Prop :=
      WordAccess s i ea 8 need true st 8 fun u pa =>
        let t := next u pa
        (u.holder pa ≠ some s.rd.key → exec i s = .next (u.takeTrap u.cur ⟨0x06, ea⟩)) ∧
        (u.holder pa = some s.rd.key → (t.lrwQueue pa = [] → exec i s = .next (t.setHolder pa none)) ∧
          ∀ w, Grants pa (t.lrwQueue pa) (t.setHolder pa none) w → exec i s = .next w)
    Load (.ldfe gd d a lo) (rightR ||| rightW ||| rightS) true ∧ Load (.ldff gd d a lo) (rightR ||| rightS) false ∧
    Store (.stef gd a b so) false ∧ Store (.stff gd a b so) true ∧
    WordAccess s (.lrw gd d a lo) ea 8 (rightR ||| rightS) true ld 8 (fun u pa =>
      (u.isBad pa = true → u.holder pa = none → exec (.lrw gd d a lo) s = .next (u.takeTrap u.cur ⟨0x09, ea⟩)) ∧
      (u.isBad pa = false → u.holder pa = none →
        exec (.lrw gd d a lo) s = .next ((u.setHolder pa (some s.rd.key)).setG d (val u pa))) ∧
      (u.holder pa ≠ none → exec (.lrw gd d a lo) s = .next (joins u pa (.reservation pa) (.lrw gd d a lo)))) ∧
    Release (.sch gd a b so) (rightW ||| rightS) (fun u pa => put u pa (s.g b)) ∧
    Release (.sdrop gd a so) rightS fun u _ => u

/-- R238, R239 and R246 to R248: how an address of stacked memory resolves, with its causes in their order; `halloc` with its
codes, and the object that it places under a handle that was free; `hfree`, which leaves zeros and no object, and no store on
its way to it; and `hq`.
A bank group takes 2,048 blocks; the blocks that stand in it, or are on their way to it, take its room.
It rests also on the model's own choice or reading where the rules are silent: log entries 1, 24, 31, 32, 81 and 109. -/
def Obligations.Handles : Prop :=
  (∀ (ten : Nat) (ea : W64) (need : BitVec 4) (s : State),
    let h := ea.toNat / 2 ^ 40 % 2 ^ 20
    let o := s.obj ten h
    let pa := (ten + 1) * 2 ^ 64 + ea.toNat
    let hole : Prop := h = 0 ∨ o.used = false ∨ o.size ≤ ea.toNat % 2 ^ 40
    let lacks : Prop := ∃ j, j < 4 ∧ need.getLsbD j = true ∧ o.opts.getLsbD j = false
    (hole → s.resolve ten ea need = .error ⟨0x04, ea⟩) ∧
    (¬hole → lacks → s.resolve ten ea need = .error ⟨0x06, ea⟩) ∧
    (¬hole → ¬lacks → s.isLost pa = true → s.resolve ten ea need = .error ⟨0x14, ea⟩) ∧
    (¬hole → ¬lacks → s.isLost pa = false → s.offline pa = true → s.resolve ten ea need = .error ⟨0x0A, ea⟩) ∧
    (¬hole → ¬lacks → s.isLost pa = false → s.offline pa = false → s.resolve ten ea need = .ok pa)) ∧
  ∀ (gd : Guard) (d a b : GReg) (item : BitVec 5) (s : State), Issues gd s → s.slow = false →
    let ea := s.g a
    let ten := s.rd.ten
    let n := (ea.toNat + 4095) / 4096
    let opts := s.g b
    let malformed : Prop := ea.toNat = 0 ∨ 2 ^ 40 < ea.toNat ∨ opts &&& 0xFFFFFFFFFFC08080#64 ≠ 0
    let room := State.placements { s with free := s.free + 1 } s.core n opts (s.free + 1)
    let tile := caTile (opts.toNat / 2 ^ 8 % 128) (opts.toNat / 2 ^ 16 % 64)
    let left (g : Nat) : Nat :=
      if s.inService g = true ∧ s.layer (caDie g) (caLayer g) < 2 then 2048 - s.placesTaken.count g else 0
    let under (t : Nat) : Nat := ((List.range 16).map fun j => left (groupOf t j)).sum
    let stations (die : Nat) (f : Nat → Nat) : Nat := ((List.range 1024).map fun j => f (under (caOfIndex die j))).sum
    let alloc : Instr := .halloc gd d a b
    let free : Instr := .hfree gd d a
    (malformed → exec alloc s = .next (s.setG d 3)) ∧
    (¬malformed → (∃ h, 1 ≤ h ∧ h < 2 ^ 20 ∧ (s.obj ten h).used = false) →
      (room.isSome = true ↔
        match opts.toNat / 2 ^ 5 % 4 with
        | 0 => n ≤ stations (caDie s.core) fun x => min x ((n + 1) / 2)
        | 1 => ∃ j, j < 16 ∧ n ≤ left (groupOf tile j)
        | 2 => ∃ x, x < 8 ∧ ∀ j, j < 8 → (n + 7 - j) / 8 ≤ stations ((x + j) % 8) id
        | _ => n ≤ under tile) ∧
      (∀ l, room = some l → l.length = n ∧
        (opts.toNat / 2 ^ 5 % 4 = 1 → ∃ j, j < 16 ∧ n ≤ left (groupOf tile j) ∧ l = List.replicate n (groupOf tile j)) ∧
        (opts.toNat / 2 ^ 5 % 4 = 3 → ∀ g ∈ l, ∃ j, j < 16 ∧ g = groupOf tile j)) ∧
      ∃ t : State, t = { s with objs := t.objs, free := t.free } ∧
        ((s.tt ten 6).toNat < s.blocksOf ten + n → t.objs = s.objs ∧ exec alloc s = .next (t.setG d 1)) ∧
        (s.blocksOf ten + n ≤ (s.tt ten 6).toNat → room = none → t.objs = s.objs ∧ exec alloc s = .next (t.setG d 2)) ∧
        (s.blocksOf ten + n ≤ (s.tt ten 6).toNat → room ≠ none → ∃ h, 1 ≤ h ∧ h < 2 ^ 20 ∧ (s.obj ten h).used = false ∧
          exec alloc s = .next (t.setG d (BitVec.ofNat 64 (4 * 2 ^ 60 + h * 2 ^ 40))) ∧
          (let o := t.obj ten h
           o.used = true ∧ o.size = 4096 * n ∧ o.opts = opts ∧ room = some o.homes) ∧
          ∀ x y, (x, y) ≠ (ten, h) → y < 2 ^ 20 → t.obj x y = s.obj x y)) ∧
    (ea.toNat / 2 ^ 60 ≠ 4 ∨ ea.toNat % 2 ^ 40 ≠ 0 → exec free s = .next (s.takeTrap s.cur ⟨0x04, ea⟩)) ∧
    (ea.toNat / 2 ^ 60 = 4 → ea.toNat % 2 ^ 40 = 0 →
      (∀ t, s.resolve ten ea 0 = .error t → exec free s = .next (s.takeTrap s.cur t)) ∧
      ∀ pa, s.resolve ten ea 0 = .ok pa → GoesOn s (fun _ => true) [] →
        let u := s.flushWhere s.cur fun _ => true
        let h := ea.toNat / 2 ^ 40 % 2 ^ 20
        (u.holdsQueue ten h = true → exec free s = .next (u.setG d 1)) ∧
        (u.holdsQueue ten h = false → ∃ t : State, exec free s = .next (t.setG d 0) ∧ t.obj ten h = Obj.none ∧
          (∀ x y, (x, y) ≠ (ten, h) → y < 2 ^ 20 → t.obj x y = u.obj x y) ∧
          (∀ x, pa ≤ x → x < pa + 2 ^ 40 → t.holder x = none) ∧
          let onIt (o : OutStore) : Prop := ∃ e ∈ o.parts, paTenant e.1 = some ten ∧ paHandle e.1 = h
          (∀ k, ∀ o ∈ (t.slot k).out, ¬onIt o) ∧
          ((∀ e ∈ u.slots, ∀ o ∈ e.2.out, ¬onIt o ∧ u.storeGone o = false) →
            (∀ x, t.byte x = if pa ≤ x ∧ x < pa + 2 ^ 40 then 0 else u.byte x) ∧
            ((u.waiting fun w => match w.word with | some x => decide (pa ≤ x ∧ x < pa + 2 ^ 40) | none => false) = [] →
              t.slots = u.slots)))) ∧
    (let q (v : W64) : Prop := exec (.hq gd d a item) s = .next (s.setG d v)
     let j := item.toNat
     (7 ≤ j → exec (.hq gd d a item) s = .next (s.takeTrap s.cur ⟨0x01, s.raw⟩)) ∧
     (j < 4 → ea.toNat / 2 ^ 60 ≠ 4 → exec (.hq gd d a item) s = .next (s.takeTrap s.cur ⟨0x04, ea⟩)) ∧
     (j < 4 → ea.toNat / 2 ^ 60 = 4 → ∀ t, s.resolveHandle ten ea = .error t →
       exec (.hq gd d a item) s = .next (s.takeTrap s.cur t)) ∧
     (ea.toNat / 2 ^ 60 = 4 → ∀ pa, s.resolveHandle ten ea = .ok pa →
       let h := ea.toNat / 2 ^ 40 % 2 ^ 20
       (j = 0 → q (BitVec.ofNat 64 (s.obj ten h).size)) ∧ (j = 1 → q (s.obj ten h).opts) ∧
       (j = 2 → q (if s.isLost pa then 0xFFFFFFFFFFFFFFFF#64 else BitVec.ofNat 64 (s.bankOf pa))) ∧
       (j = 3 → q (BitVec.ofNat 64 (s.blks.countP fun e => decide (e.1 / 2 ^ 28 = ten * 2 ^ 20 + h) && e.2.lost)))) ∧
     (j = 4 → q (BitVec.ofNat 64 (min (s.tt ten 6).toNat
       (2048 * ((List.range 8).map fun x => 16384 - s.retired.countP fun e => e.2 && decide (caDie e.1 = x)).sum) -
         s.blocksOf ten))) ∧
     (j = 5 → q (BitVec.ofNat 64 (16384 - s.retired.countP fun e => e.2 && decide (caDie e.1 = ea.toNat % 8)))) ∧
     (j = 6 → ∃ v : W64, q v ∧ v.toNat < 2 ^ 16 ∧ ∀ l, l < 8 → v.toNat / 4 ^ l % 4 = s.layer (ea.toNat % 8) l))

/-- R254 to R257, R299, R300, R301 and R368: where a window address lies, by the translation that its die keeps or by a walk of the
tenant's table; the atomics on stacked memory and the window: their traps, and the one step that reads the old value into gD
and stores what the operation makes of it; `rupd` starts a child with the address in g5, beside the bank of the word, and
answers nothing.
It rests also on the model's own choice or reading where the rules are silent: log entries 12, 25 and 29. -/
def Obligations.MemorySideAtomics : Prop :=
  (∀ (die ten va : Nat) (ea root : W64) (ld st : Bool) (s : State),
    WindowAt s die ten ea ld st (s.translate die ten ea ld st) ∧
    (∀ e, s.walk ten va 4 root = some e ↔
      WalkReaches s ten va (fun l pa => s.isHeld pa = false ∧ s.isBad pa = false ∧ LeafOf l e ∧ s.readW pa = e) 4 root) ∧
    (let covers (x : TlbEntry) : Prop := x.die = die ∧ x.tenant = ten ∧ x.va ≤ va ∧ va < x.va + 4096 * 2 ^ x.k
     (∀ e, s.cached die ten va = some e → ∃ x ∈ s.tlb, covers x ∧ x.pte = e) ∧
     (s.cached die ten va = none ↔ ∀ x ∈ s.tlb, ¬covers x))) ∧
  ∀ (gd : Guard) (d a b : GReg) (o : AmOrd) (op : AtomOp) (imm : BitVec 32) (s : State), Issues gd s →
    let ea := s.g a
    let mode : OrdMode := match o with | .plain => .all | .relaxed => .overlap | _ => .scope
    let Atomic (i : Instr) (n : Nat) (R : Nat → Nat → Prop) : Prop :=
      let traps (u : State) (t : Trap) : Prop := exec i s = .next (u.takeTrap u.cur t)
      let impure : Prop := s.rd.pure = true ∧ ownTcmForm s.core ea = false
      let space := ea.toNat / 2 ^ 60
      let stacked := s.resolve s.rd.ten ea (rightR ||| rightW ||| rightS)
      let window := s.translate (caDie s.core) s.rd.ten ea true true
      let Does (pa : Nat) : Prop :=
        let p := s.waitsFor mode false [(pa, n)]
        GoesOn s p [(pa, n)] →
          let u := s.flushWhere s.cur p
          u.mustQueue i = false →
          (u.isBad pa = true → traps u ⟨0x09, ea⟩) ∧
          (u.isBad pa = false → ∃ new, R (u.readN pa n) new ∧
            exec i s = .next ((u.storeBytes pa (bytesOf n (BitVec.ofNat 64 new))).setG d (BitVec.ofNat 64 (u.readN pa n))))
      (ea.toNat % n ≠ 0 → traps s ⟨0x03, ea⟩) ∧
      (ea.toNat % n = 0 → impure → traps s ⟨0x0B, ea⟩) ∧
      (ea.toNat % n = 0 → ¬impure → space ≠ 4 → space ≠ 8 → traps s ⟨0x04, ea⟩) ∧
      (ea.toNat % n = 0 → ¬impure → space = 4 → (∀ t, stacked = .error t → traps s t) ∧
        ∀ pa, stacked = .ok pa → if s.inDesc pa then traps s ⟨0x0F, ea⟩ else Does pa) ∧
      (ea.toNat % n = 0 → ¬impure → space = 8 → (∀ t, window = .error t → traps s t) ∧
        ∀ pa, window = .ok pa → if pa / 2 ^ 60 = 8 ∧ s.mgmt.atomics = false then traps s ⟨0x06, ea⟩ else Does pa)
    Atomic (.amo gd d a b o op) 8 (fun x y => y = (atomResult op (BitVec.ofNat 64 x) (s.g b)).toNat) ∧
    Atomic (.afadd gd d a b o) 4
      (fun x y => ∃ fl, Sums fmt32 .rne (fmt32.value x) (fmt32.value ((s.g b).toNat % 2 ^ 32)) (y, fl)) ∧
    Atomic (.acas gd d a b o) 8 (fun x y => y = if x = (s.g d).toNat then (s.g b).toNat else x) ∧
    (let i : Instr := .rupd gd a b imm
     let tgt : W64 := BitVec.ofInt 64 ((s.g a).toNat + imm.toInt)
     let ent := s.g b
     let traps (t : Trap) : Prop := exec i s = .next (s.takeTrap s.cur t)
     (s.rd.pure = true → traps ⟨0x0B, tgt⟩) ∧
     (s.rd.pure = false → tgt.toNat % 8 ≠ 0 → traps ⟨0x03, tgt⟩) ∧
     (s.rd.pure = false → tgt.toNat % 8 = 0 → ent.toNat % 8 ≠ 0 → traps ⟨0x03, ent⟩) ∧
     (s.rd.pure = false → tgt.toNat % 8 = 0 → ent.toNat % 8 = 0 → tgt.toNat / 2 ^ 60 ≠ 4 → traps ⟨0x04, tgt⟩) ∧
     (s.rd.pure = false → tgt.toNat % 8 = 0 → ent.toNat % 8 = 0 → tgt.toNat / 2 ^ 60 = 4 → ent.toNat / 2 ^ 60 ≠ 4 →
       traps ⟨0x04, ent⟩) ∧
     (s.rd.pure = false → tgt.toNat % 8 = 0 → ent.toNat % 8 = 0 → tgt.toNat / 2 ^ 60 = 4 → ent.toNat / 2 ^ 60 = 4 →
       (∀ t, s.resolve s.rd.ten tgt rightS = .error t → traps t) ∧
       ∀ pa, s.resolve s.rd.ten tgt rightS = .ok pa → GoesOn s (fun _ => true) [] →
         let u := s.flushWhere s.cur fun _ => true
         let core := s.bankOf pa
         let seats := (coreSlots core).filter fun k => (u.slot k).st.isFree
         (∀ p ∈ u.pkts, p.core = core → p.landed = false ∧ p.sender ≠ some s.core) →
         ∃ t, exec i s = .next t ∧ t.me.st = .run ∧ live t = live u ∧
           (∀ k, seats.head? = some k → (t.slot k).st = .resv ∧
             IsChild s.rd (t.slot k).ctx ent (fun n => if n = 5 then tgt else s.gAt b n) 5 false) ∧
           (seats = [] → ∃ p ∈ t.pkts, p.landed = true ∧ p.core = core ∧ p.ctx.pc = ent ∧ p.ctx.getG 5 = tgt)))

/-! ## Queues -/

/-- R264 to R268 and R272 to R276: the slots that coded entries take, and the descriptor as loads read it; a push gives its entry to a pop that waits, or is stored where its coded slots fit, with a
block borrowed if need be; a pop takes the oldest, the newest or some entry, by the mode; both park or answer FULL or EMPTY
otherwise, and a pop stores the oldest push that is parked, where it fits now; `qcnt` counts; `qmake` makes an empty queue; `qfree` removes one that no request is on its way to.
It rests also on the model's own choice or reading where the rules are silent: log entries 1, 24, 25 and 33. -/
def Obligations.Queues : Prop :=
  (∀ (x y : BitVec 512), entryDiff x y =
    (List.range 8).countP fun j => decide (x.toNat / 2 ^ (64 * j) % 2 ^ 64 ≠ y.toNat / 2 ^ (64 * j) % 2 ^ 64)) ∧
  (∀ (s : State) (pa : Nat) (x : Queue), 2 ^ 64 ≤ pa →
    let entry (j : Nat) : BitVec 512 := ((x.entries[j]?).map Prod.fst).getD 0
    let before (j : Nat) : BitVec 512 := if j = 0 then (if x.mode = 0 then x.last else 0) else entry (j - 1)
    let t := s.setQueue pa x
    let field (o n : Nat) : Nat := t.readN (pa + o) n
    let bit (b : Bool) : Nat := if b then 1 else 0
    x.used = ((List.range x.entries.length).map fun j => 1 + entryDiff (entry j) (before j)).sum ∧ t.queue pa = x ∧
    (x.mode < 4 → x.base < 2 ^ 8 → x.tenant.toNat < 2 ^ 8 →
      field 0 8 = x.mode + bit x.elim * 2 ^ 2 + bit x.live * 2 ^ 3 + x.base * 2 ^ 8 + x.tenant.toNat * 2 ^ 16) ∧
    field 0x08 8 = x.entries.length % 2 ^ 64 ∧ field 0x10 8 = x.used % 2 ^ 64 ∧ field 0x18 8 = 64 * (x.base + x.lent) % 2 ^ 64 ∧
    field 0x20 8 = x.pushes.toNat ∧ field 0x28 8 = x.pops.toNat ∧
    field 0x30 4 = (s.parkedAt pa false).length % 2 ^ 32 ∧
    ((s.parkedAt pa false).length < 2 ^ 32 → field 0x34 4 = (s.parkedAt pa true).length % 2 ^ 32) ∧ field 0x38 8 = 0) ∧
  ∀ (gd : Guard) (d a b : GReg) (v : VReg) (w : Win) (blk : Bool) (s : State), Issues gd s →
    let q := s.g a
    let ten := s.rd.ten
    let ok (u : State) (pa : Nat) : Prop := u.isLost pa = false ∧ u.offline pa = false
    (let i : Instr := .qpush gd d a v w blk
     let e : BitVec 512 := (s.rd.getV v).truncate 512
     QueueAccess s i q [(0, 64)] fun u pa => ok u pa →
       let x := u.queue pa
       let y := { x with entries := x.entries ++ [(e, false)], pushes := x.pushes + 1 }
       (∀ k rest g d' a' v' w' b' sn n, u.parkedAt pa false = k :: rest →
         (u.slot k).st = .park (.queue pa) (.qpop g d' a' v' w' b') sn n →
         exec i s = .next (((served u k fun c => (c.setG d' 0).setV v' (e.zeroExtend 1024)).setQueue pa
           { x with pushes := x.pushes + 1, pops := x.pops + 1 }).setG d 0)) ∧
       (u.parkedAt pa false = [] → y.used ≤ 64 * (x.base + x.lent) → exec i s = .next ((u.setQueue pa y).setG d 0)) ∧
       (u.parkedAt pa false = [] → 64 * (x.base + x.lent) < y.used →
         (u.poolFree x.tenant.toNat ≠ 0 → exec i s = .next ((u.setQueue pa { y with lent := x.lent + 1 }).setG d 0)) ∧
         (u.poolFree x.tenant.toNat = 0 → exec i s = .next
           (if blk then (u.parkAt u.cur (.queue pa) i []).syncDesc pa else u.setG d 1)))) ∧
    (let i : Instr := .qpop gd d a v w blk
     QueueAccess s i q [(0, 64)] fun u pa => ok u pa →
       let x := u.queue pa
       let n := x.entries.length
       (n = 0 → exec i s = .next (if blk then (u.parkAt u.cur (.queue pa) i []).syncDesc pa else u.setG d 2)) ∧
       (0 < n →
         ∃ (j lent : Nat) (e : BitVec 512 × Bool) (y : Queue) (u' : State), x.entries[j]? = some e ∧
           u' = { u with free := u'.free } ∧
           y = { x with entries := x.entries.eraseIdx j, last := e.1, lent := lent, pops := if e.2 then x.pops else x.pops + 1 } ∧
           (x.mode = 0 → j = 0) ∧ (x.mode = 1 → j = n - 1) ∧
           (2 ≤ x.mode → j = n - 1 ∨
             let at_ (m : Nat) : BitVec 512 := ((x.entries[m]?).map Prod.fst).getD 0
             entryDiff (at_ (j + 1)) (if j = 0 then 0 else at_ (j - 1)) ≤
               entryDiff (at_ (j + 1)) (at_ j) + (64 * (x.base + x.lent) - x.used)) ∧
           lent ≤ x.lent ∧ (lent < x.lent → y.used ≤ 64 * (x.base + lent)) ∧ (lent = 0 ∨ 64 * (x.base + lent) < y.used + 64) ∧
           let t := u'.setQueue pa y
           let ends (t : State) : Prop :=
             exec i s = .next (if e.2 then t.takeTrap t.cur ⟨0x09, q⟩ else (t.setG d 0).setV v (e.1.zeroExtend 1024))
           (u.parkedAt pa true = [] → ends t) ∧
           ∀ k rest g d' a' v' w' b' sn m, u.parkedAt pa true = k :: rest →
             (u.slot k).st = .park (.queue pa) (.qpush g d' a' v' w' b') sn m →
             let z : Queue := { y with entries := y.entries ++ [(((u.slot k).ctx.getV v').truncate 512, false)], pushes := y.pushes + 1 }
             let stored (z : Queue) : State := (served (t.setQueue pa z) k fun c => c.setG d' 0).syncDesc pa
             (z.used ≤ 64 * (x.base + lent) → ends (stored z)) ∧
             (64 * (x.base + lent) < z.used → t.poolFree x.tenant.toNat ≠ 0 → ends (stored { z with lent := lent + 1 })) ∧
             (64 * (x.base + lent) < z.used → t.poolFree x.tenant.toNat = 0 → ends t))) ∧
    (let i : Instr := .qcnt gd d a
     QueueAccess s i q [(0, 64)] fun u pa => ok u pa →
       exec i s = .next (u.setG d (BitVec.ofNat 64 (u.queue pa).entries.length))) ∧
    (let i : Instr := .qmake gd d a b
     let o := s.g b
     let base := o.toNat / 2 ^ 8 % 2 ^ 8
     let traps (t : Trap) : Prop := exec i s = .next (s.takeTrap s.cur t)
     let good : Prop := o.toNat < 2 ^ 16 ∧ o.toNat / 8 % 32 = 0 ∧ o.toNat % 4 ≠ 3 ∧ o.toNat % 8 ≠ 4 ∧ base ≠ 0
     s.slow = false →
     (s.rd.pure = true → traps ⟨0x0B, q⟩) ∧
     (s.rd.pure = false → q.toNat % 64 ≠ 0 → traps ⟨0x03, q⟩) ∧
     (s.rd.pure = false → q.toNat % 64 = 0 → q.toNat / 2 ^ 60 ≠ 4 → traps ⟨0x04, q⟩) ∧
     (s.rd.pure = false → q.toNat % 64 = 0 → q.toNat / 2 ^ 60 = 4 →
       (∀ t, s.resolve ten q (rightW ||| rightS) = .error t → traps t) ∧
       ∀ pa, s.resolve ten q (rightW ||| rightS) = .ok pa → GoesOn s (fun _ => true) [(pa, 64)] →
         let u := s.flushWhere s.cur fun _ => true
         (¬good → exec i s = .next (u.setG d 3)) ∧
         (good → (u.queue pa).live = true → exec i s = .next (u.setG d 2)) ∧
         (good → (u.queue pa).live = false → u.poolFree ten < base → exec i s = .next (u.setG d 1)) ∧
         (good → (u.queue pa).live = false → base ≤ u.poolFree ten → ∃ t : State,
           exec i s = .next (t.setG d (q ||| (o &&& 7))) ∧ t.slots = u.slots ∧
           t.queue pa = { Queue.none with
             live := true, tenant := s.rd.cr.tenant, mode := o.toNat % 4, elim := o.getLsbD 2, base := base } ∧
           t.readN (pa + 0x38) 8 = 0 ∧
           (∀ x, x ≠ pa → t.queue x = u.queue x) ∧ ∀ x, x < pa ∨ pa + 64 ≤ x → t.byte x = u.byte x))) ∧
    (let i : Instr := .qfree gd d a
     QueueAccess s i q [(0, 64)] fun u pa =>
       let x := u.queue pa
       let c : State := { u with queues := smSet Queue.none u.queues pa { x with closing := true } }
       (c.queueBusy pa = true → exec i s = .next (c.parkAt c.cur .flight i [1])) ∧
       (c.queueBusy pa = false → ∃ t : State, exec i s = .next (t.setG d (BitVec.ofNat 64 x.entries.length)) ∧
         t.queue pa = Queue.none ∧ (∀ y, y ≠ pa → t.queue y = u.queue y) ∧
         (∀ y, t.byte y = if pa ≤ y ∧ y < pa + 64 then 0 else u.byte y) ∧
         (u.parkedAt pa true = [] → u.parkedAt pa false = [] → t.slots = u.slots) ∧
         ∀ k g d' a' v' w' b' sn n, (u.slot k).st = .park (.queue pa) (.qpop g d' a' v' w' b') sn n →
           (t.slot k).wait = some (.reply (some ⟨0x0F, (u.slot k).ctx.getG a'⟩))))

/-! ## Tasks, saved threads and translations -/

/-- R281, R282, R287, R288, R294, R295 and R302: `tenq` enters a record under a free handle; `tdep` counts a dependence down and
makes the task READY at the last; `tcan` frees a record; `svsl` writes the record of a running thread and frees its slot, and
`ldsl` makes a thread of it again; `tinvl` and `hinv` drop translations. Each with its traps and codes.
It rests also on the model's own choice or reading where the rules are silent: log entries 9, 24, 25, 37, 39, 76 and 96. -/
def Obligations.TasksAndSaves : Prop :=
  ∀ (gd : Guard) (d a b : GReg) (v : VReg) (s : State),
    Issues gd s → s.src = some s.me.ctx → s.me.after = none → s.slow = false →
    let ten := s.rd.cr.tenant
    let traps (i : Instr) (t : Trap) : Prop := exec i s = .next (s.takeTrap s.cur t)
    let u := s.flushWhere s.cur fun _ => true
    let h := s.g a
    (let i : Instr := .tenq gd d v
     let f (n : Nat) : W64 := BitVec.ofNat 64 (laneOf s v 64 n)
     let norm := rectOf (if f 7 = 0xFFFFFFFFFFFFFFFF#64 then packageRect else f 7)
     let l := rectOf s.rd.cr.lrect
     let r := rectOf (f 7)
     let die := caDie (caTile r.xlo r.ylo)
     let inside : Prop := l.has norm.xlo norm.ylo = true ∧ l.has norm.xhi norm.yhi = true
     let good : Prop := (f 0).toNat % 8 = 0 ∧ (f 0).toNat / 2 ^ 60 ∈ [0, 3, 4] ∧ (f 6).toNat / 8 % 2 ^ 13 = 0 ∧
       (f 6).toNat / 2 ^ 32 = 0 ∧ f 7 &&& 0xFFFFFFFF4080C080#64 = 0 ∧ r.xlo ≤ r.xhi ∧ r.ylo ≤ r.yhi ∧ r.xlo / 32 = r.xhi / 32 ∧
       r.ylo / 32 = r.yhi / 32
     (s.rd.pure = true → traps i ⟨0x0B, f 0⟩) ∧
     (s.rd.pure = false → ¬inside → traps i ⟨0x06, f 7⟩) ∧
     (s.rd.pure = false → inside → ¬good → exec i s = .next (s.setG d 0x8000000000000002#64)) ∧
     (s.rd.pure = false → inside → good → GoesOn s (fun _ => true) [] →
       (u.taskRoom ten die = false → exec i s = .next (u.setG d 0x8000000000000001#64)) ∧
       (u.taskRoom ten die = true → ∃ (key : Nat) (t : State),
         t = { u with tasks := t.tasks, free := t.free, stamp := t.stamp } ∧ key / 2 ^ 16 = die ∧ (u.task key).st = .free ∧
         (∀ y, y ≠ key → t.task y = u.task y) ∧
         (let x := t.task key
          x.st = (if (f 6).toNat / 2 ^ 16 % 2 ^ 16 = 0 then .ready else .wait) ∧ x.tenant = ten ∧ x.lnum = s.rd.cr.lnum ∧
          (∀ n, n < 8 → x.at_ n = f n) ∧ x.adv = (u.task key).adv ∧
          exec i s = .next (t.setG d (BitVec.ofNat 64 (key + taskGen key x.adv * 2 ^ 32))))))) ∧
    (let i : Instr := .tdep gd d a
     (s.rd.pure = true → traps i ⟨0x0B, h⟩) ∧
     (s.rd.pure = false → GoesOn s (fun _ => true) [] →
       (u.taskOf ten h = none → exec i s = .next (u.setG d 0x300000000#64)) ∧
       ∀ key, u.taskOf ten h = some key →
         let x := u.task key
         (x.st = .wait → 1 < x.deps → ∃ y : Task, y.st = .wait ∧ y.deps = x.deps - 1 ∧ (∀ n, n ≠ 6 → y.at_ n = x.at_ n) ∧
           exec i s = .next ((u.setTask key y).setG d 0)) ∧
         (x.st = .wait → x.deps ≤ 1 → ∃ (y : Task) (t : State), y.st = .ready ∧ y.deps = 0 ∧ y.since = u.cycle ∧
           t = { u.setTask key y with stamp := t.stamp } ∧ exec i s = .next (t.setG d 0x100000000#64)) ∧
         (x.st ≠ .wait → exec i s = .next ((u.postEvent s.rd.ten
           [BitVec.ofNat 64 (2 * 2 ^ 8 + 7 * 2 ^ 16 + 4 * 2 ^ 19) ||| (s.rd.cr.lnum <<< 32), s.pc, h, s.rd.cr.wid, 0,
             BitVec.ofNat 64 u.cycle, h]).setG d 0x200000000#64)))) ∧
    (let i : Instr := .tcan gd d a
     (s.rd.pure = true → traps i ⟨0x0B, h⟩) ∧
     (s.rd.pure = false →
       (s.taskOf ten h = none → exec i s = .next (s.setG d 0x300000000#64)) ∧
       ∀ key, s.taskOf ten h = some key →
         let x := s.task key
         (x.st = .dispatched → exec i s = .next (s.setG d (BitVec.ofNat 64 (2 ^ 32 + x.slot)))) ∧
         (x.st ≠ .dispatched →
           exec i s = .next ((s.setTask key { Task.free with adv := x.adv + 1 }).setG d 0)))) ∧
    (let ea := s.g b
     let k := h.toNat
     let Checked (i : Instr) (need : BitVec 4) (R : Nat → Prop) : Prop :=
       let bad : Prop := coreAddressOk h = false ∨ caKind k = .station ∨ (caKind k = .compute ∧ s.coreEnabled (caCore k) = false)
       (s.rd.priv = false → traps i ⟨0x02, s.raw⟩) ∧
       (s.rd.priv = true → ea.toNat % 64 ≠ 0 → traps i ⟨0x03, ea⟩) ∧
       let impure : Prop := s.impure ea 0x5000 (need == rightW) = true
       (s.rd.priv = true → ea.toNat % 64 = 0 → impure → traps i ⟨0x0B, ea⟩) ∧
       (s.rd.priv = true → ea.toNat % 64 = 0 → ¬impure → ea.toNat / 2 ^ 60 ≠ 4 → traps i ⟨0x04, ea⟩) ∧
       (s.rd.priv = true → ea.toNat % 64 = 0 → ¬impure → ea.toNat / 2 ^ 60 = 4 →
         (∀ t, s.resolveRange s.rd.ten ea 0x5000 need = .error t → traps i t) ∧
         ∀ pa, s.resolveRange s.rd.ten ea 0x5000 need = .ok pa →
           let kept : Prop := isCobbler (caCore k) = true ∧ ten ≠ 0
           let covers : Prop := need = rightW ∧ ∃ e ∈ s.queues, e.2.live = true ∧ e.1 < pa + 0x5000 ∧ pa < e.1 + 64
           (bad → traps i ⟨0x04, h⟩) ∧ (¬bad → kept → traps i ⟨0x06, h⟩) ∧ (¬bad → ¬kept → covers → traps i ⟨0x0F, ea⟩) ∧
           (¬bad → ¬kept → ¬covers → GoesOn s (fun _ => true) [] → R pa))
     Checked (.svsl gd d a b) rightW (fun pa =>
       let i : Instr := .svsl gd d a b
       let x := u.slot k
       let own : Prop := k = s.cur ∨ (s.rd.gang = true ∧ k = partner s.cur)
       (own → exec i s = .next (u.setG d 3)) ∧
       (¬own → (x.st.live = false ∨ x.ctx.cr.tenant ≠ ten) → exec i s = .next (u.setG d 1)) ∧
       (¬own → x.st.live = true → x.ctx.cr.tenant = ten → x.spillable = false →
         exec i s = .next (u.parkAt u.cur .flight i [])) ∧
       (¬own → x.st = .run → x.ctx.cr.tenant = ten → x.out = [] → u.owns k = false → u.saver k = none →
         u.runHeld pa 0x5000 = false → (∀ p ∈ u.pkts, p.landed = true → p.core ≠ caCore k) →
         ∃ (t : State) (y : Spilled), exec i s = .next t ∧ t.me.st = .run ∧ live t = (live u).setG d 0 ∧
           t.slot k = Slot.free ∧ y ∈ t.spilled ∧ y.soft = true ∧ y.pa = pa ∧ y.tid = x.tid ∧ y.wid = x.ctx.cr.wid ∧
           Recorded t pa k x (recorded u k x.ctx) ∧
           ∀ z, z < pa ∨ pa + 0x5000 ≤ z → t.byte z = u.byte z)) ∧
     Checked (.ldsl gd d a b) rightR fun pa =>
       let i : Instr := .ldsl gd d a b
       let w (j : Nat) : W64 := u.readW (pa + 8 * j)
       let none_ : Prop := recordOk w = false ∨ w 60 ≠ ten ∨ u.savedFor (w 60) (w 65) (w 58) pa = none
       s.runHeld pa 0x5000 = false →
       (∀ j, u.firstBad pa 0x5000 = some j → exec i s = .next (u.takeTrap u.cur ⟨0x09, ea + BitVec.ofNat 64 j⟩)) ∧
       (u.firstBad pa 0x5000 = none → none_ → exec i s = .next (u.setG d 2)) ∧
       ∀ x, u.firstBad pa 0x5000 = none → ¬none_ → u.savedFor (w 60) (w 65) (w 58) pa = some x →
         let bound : Prop := ∃ core, recordHome w = some core ∧ core ≠ caCore k
         (u.slotFits w k = false ∨ bound → exec i s = .next (u.setG d 1)) ∧
         (u.slotFits w k = true → ¬bound → ∃ t : State, exec i s = .next (t.setG d 0) ∧ (t.slot k).st = .resv ∧
           (t.slot k).tid = x.tid ∧ (t.slot k).ctx = recordCtx w ∧
           ∀ y ∈ t.spilled, y.tid ≠ x.tid)) ∧
    (let Drops (i : Instr) (p : TlbEntry → Prop) : Prop :=
       GoesOn s (fun _ => true) [] → ∃ t : State, exec i s = .next t ∧ t = { u.flushWindow ten with tlb := t.tlb } ∧
         (∀ e, e ∈ t.tlb ↔ e ∈ u.tlb ∧ ¬(e.tenant = s.rd.ten ∧ p e)) ∧
         ∀ k, (t.slot k).ctx.cr.tenant = ten → ∀ o ∈ (t.slot k).out, o.ea.toNat / 2 ^ 60 ≠ 8
     let n := (s.g b).toNat
     let va := h.toNat % 2 ^ 57
     (s.rd.priv = false → traps (.tinvl gd a b) ⟨0x02, s.raw⟩ ∧ traps (.hinv gd) ⟨0x02, s.raw⟩) ∧
     (s.rd.priv = true → h.toNat / 2 ^ 57 ≠ 64 → traps (.tinvl gd a b) ⟨0x04, h⟩) ∧
     (s.rd.priv = true → h.toNat / 2 ^ 57 = 64 →
       (n = 0 → exec (.tinvl gd a b) s = .next s) ∧
       (n ≠ 0 → Drops (.tinvl gd a b) fun e => e.va < va + n ∧ va < e.va + 4096 * 2 ^ e.k)) ∧
     (s.rd.priv = true → Drops (.hinv gd) fun _ => True))

/-! ## The Answer Table -/

/-- R306 and R308 to R317: the home of a key, its lookup and the way that a new entry takes; every instruction of the Answer Table with
its codes in `tabst`: a call that is new runs its callee, one
that is COMPLETE or FAILED is answered, one of the caller's own group loops, one on its chain merges the groups of the chain and
loops; another waits, unless its wait walk is too deep, trap 0x0E, or closes a cycle, whose groups merge and whose calls complete
as looping ones; answers are added, read and counted; an entry completes, goes on for another round, or fails, and with it every
member of its group, whose consumers are answered; entries are dropped and looked at.
It rests also on the model's own choice or reading where the rules are silent: log entries 40, 41, 42, 43 and 44. -/
def Obligations.AnswerTable : Prop :=
  ∀ (gd : Guard) (d a b : GReg) (n : BitVec 3) (c : Bool) (item : BitVec 2) (s : State),
    Issues gd s → s.src = some s.me.ctx → s.me.after = none → s.slow = false →
    let ten := s.rd.ten
    let status (code cause count : Nat) (x : Ctx) : Ctx :=
      { x with cr := { x.cr with tabst := BitVec.ofNat 64 (code + cause * 2 ^ 8 + count % 2 ^ 15 * 2 ^ 16) } }
    let leaves (parent : W64) (x : Ctx) : Ctx := { x with cr := { x.cr with tabent := parent } }
    (let i : Instr := .tcall gd d a n
     let callee := s.g a
     let args := (List.range n.toNat).map fun j => s.g (1 + BitVec.ofNat 5 j)
     let key : AtKey := .call callee args
     let home := callHome s.rd.cr.tenant callee args
     let found := s.lookup home s.rd.cr.tenant key
     let Enters (w : Nat) (answers : Nat) : Prop := ∃ t, exec i s = .next t ∧
       (let e := t.entry w
        e.st = .eval ∧ e.tenant = s.rd.cr.tenant ∧ e.key = key ∧ e.producer = some s.me.tid ∧ e.parent = s.rd.cr.tabent) ∧
       t.me.npc = callee ∧
       live t = { ((live s).setG d (BitVec.ofNat 64 (t.refOf w + 2 ^ 63))).setG 30 (BitVec.ofInt 64 (s.pc.toNat + 8)) with
         cr := (status 1 0 answers { live s with cr := { s.rd.cr with tabent := BitVec.ofNat 64 (t.refOf w) } }).cr }
     let Delivers (w : Nat) (code : Nat) (iter : Bool) (t : State) : Prop :=
       let l := (s.entry w).answers
       let m := l.length
       live t = status code 0 m ((((live s).setG 1 ((l.map Prod.fst).headD 0)).setG 2 ((l.map Prod.snd).headD 0)).setG d
         (BitVec.ofNat 64 (s.refOf w + (if iter then 2 ^ 31 else 0) + min m 1 * 2 ^ 32 + m * 2 ^ 48)))
     (home = homeOf (Sha512.digest ((s.rd.cr.tenant :: callee :: BitVec.ofNat 64 args.length :: args).flatMap (bytesOf 8)))) ∧
     (∀ (x : Nat × Nat) (y : AtKey),
       let hit (j : Nat) : Prop :=
         let e := s.entry (x.1 * 2 ^ 18 + j * 2 ^ 15 + x.2)
         e.st ≠ .free ∧ e.tenant = s.rd.cr.tenant ∧ e.key = y
       (∀ w, s.lookup x s.rd.cr.tenant y = some w → ∃ j, j < 8 ∧ w = x.1 * 2 ^ 18 + j * 2 ^ 15 + x.2 ∧ hit j) ∧
       (s.lookup x s.rd.cr.tenant y = none ↔ ∀ j, j < 8 → ¬hit j) ∧ TakesWay s ten x.1 x.2 (s.takeWay ten x.1 x.2)) ∧
     (∀ w, s.freeWay w = { s with entries := (s.freeWay w).entries, pins := s.pins.filter fun p => p.way != w } ∧
       (s.freeWay w).entry w = { AtEntry.free with adv := (s.entry w).adv + 1 } ∧ ∀ y, y ≠ w → (s.freeWay w).entry y = s.entry y) ∧
     (callee.toNat % 8 ≠ 0 → exec i s = .next (s.takeTrap s.cur ⟨0x03, callee⟩)) ∧
     (callee.toNat % 8 = 0 → s.rd.pure = true → exec i s = .next (s.takeTrap s.cur ⟨0x0B, callee⟩)) ∧
     (callee.toNat % 8 = 0 → s.rd.pure = false →
       (∀ t, found = none → s.takeWay ten home.1 home.2 = (none, t) →
         exec i s = .next ((t.setG d 0).upd (status 5 0 0))) ∧
       (∀ w t, found = none → s.takeWay ten home.1 home.2 = (some w, t) → Enters w 0) ∧
       ∀ w, found = some w →
         let e := s.entry w
         let own : Prop := s.myGroup = some e.group
         (e.st = .complete → ∃ t, exec i s = .next t ∧ (t.entry w).lastUse = s.cycle ∧
           (let iter := decide (2 ≤ e.answers.length) && s.logFree w
            Delivers w 2 iter t ∧
            t.pins = s.pins ++ if iter then [⟨w, e.adv, s.rd.cr.tenant, s.rd.cr.lnum⟩] else [])) ∧
         (e.st = .failed → exec i s = .next
           ((s.setG d (BitVec.ofNat 64 (s.refOf w))).upd (status 4 e.cause.toNat 0))) ∧
         (e.st = .eval → own → e.producer = none → e.mround ≠ (s.group e.group).round → Enters w e.answers.length) ∧
         (e.st = .eval → own → (e.producer ≠ none ∨ e.mround = (s.group e.group).round) →
           ∃ t, exec i s = .next t ∧ Delivers w 3 false t ∧ (s.myChain.contains w = false → (t.entry w).readF = true)) ∧
         (e.st = .eval → e.producer ≠ none ∨ ¬own → s.myChain.contains w = true → ∃ t, exec i s = .next t ∧ Delivers w 3 false t ∧
           (s.parkedLeaders = [] → (s.entries.map Prod.fst).Nodup → (t.entry w).readF = true ∧
             MergesGroups s t (((s.myChain.takeWhile (· ≠ w) ++ [w]).filter fun y => (s.entry y).st = .eval).map fun y =>
               (s.entry y).group))) ∧
         (e.st = .eval → ¬own → s.myChain.contains w = false →
           let walk := s.walkGroups s.myGroup 9 [[e.group]] [e.group]
           WalkEnds s e.group walk ∧
           (walk = .deep → exec i s = .next (s.takeTrap s.cur ⟨0x0E, BitVec.ofNat 64 (s.refOf w)⟩)) ∧
           (walk = .clear → exec i s = .next (s.parkAt s.cur (.entry w) i [])) ∧
           ∀ path, walk = .cycle path → s.parkedLeaders = [] → (s.entries.map Prod.fst).Nodup →
             ∃ t, exec i s = .next t ∧ Delivers w 3 false t ∧ (t.entry w).readF = true ∧ MergesGroups s t path ∧
               ∀ g ∈ path, ∀ x ∈ s.waiters g, (s.entry x.2).group ∈ path → ∀ f d' a' n' sn m,
                 (s.slot x.1).st = .park (.entry x.2) (.tcall f d' a' n') sn m →
                   (t.entry x.2).readF = true ∧ (t.slot x.1).st = .park (.reply none) (.tcall f d' a' n') sn m ∧
                   let l := (s.entry x.2).answers
                   t.slot x.1 = Slot.write (fun c => status 3 0 l.length ((((c.setG 1 ((l.map Prod.fst).headD 0)).setG 2
                     ((l.map Prod.snd).headD 0)).setG d' (BitVec.ofNat 64 (s.refOf x.2 + min l.length 1 * 2 ^ 32 + l.length * 2 ^ 48)))))
                     { s.slot x.1 with st := .park (.reply none) (.tcall f d' a' n') sn m }))) ∧
    (let i : Instr := .tnext gd d a c
     let it := s.g a
     (s.wayOf ten it = none → exec i s = .next (s.upd (status 12 0 0))) ∧
     ∀ w, s.wayOf ten it = some w →
       let e := s.entry w
       let lim := if it.getLsbD 63 then e.answers.length else it.toNat / 2 ^ 48 % 2 ^ 15
       let idx := it.toNat / 2 ^ 32 % 2 ^ 16
       (e.st = .failed → exec i s = .next (s.upd (status 4 e.cause.toNat 0))) ∧
       (e.st ≠ .failed → (c = true ∨ lim ≤ idx) → ∃ t : State, t = { s with pins := t.pins } ∧
         (it.getLsbD 31 = false → t.pins = s.pins) ∧ (it.getLsbD 31 = true → t.pins.length = s.pins.length - 1 ∨ ∀ p ∈ s.pins, p.way ≠ w) ∧
         exec i s = .next ((t.setG a (it &&& ~~~0x80000000#64)).upd (status 11 0 lim))) ∧
       (e.st ≠ .failed → c = false → idx < lim → ∀ x, e.answers[idx]? = some x → exec i s = .next
         (((((s.setEntry w { e with lastUse := s.cycle }).setG d x.1).setG (d + 1) x.2).setG a
           (BitVec.ofNat 64 (it.toNat + 2 ^ 32))).upd (status 15 0 lim)))) ∧
    (GoesOn s (fun _ => true) [] →
      let u := s.flushWhere s.cur fun _ => true
      let ans : Instr := .tans gd a b
      let tend : Instr := .tend gd a
      let fail : Instr := .tfail gd a
      let now (f : Ctx → Ctx) : State := u.upd f
      (u.production = none → ∀ i ∈ [ans, tend, fail], exec i s = .next (now (status 0 0 u.tabCount))) ∧
      ∀ w, u.production = some w →
        let e := u.entry w
        let m := e.answers.length
        let g := u.group e.group
        let x := (s.g a, s.g b)
        (e.st = .failed → exec ans s = .next (now (status 4 e.cause.toNat 0)) ∧
          ∀ i ∈ [tend, fail], ∃ t, exec i s = .next t ∧ (t.entry w).producer = none ∧
            live t = leaves e.parent (status 4 e.cause.toNat 0 (live u))) ∧
        (e.st ≠ .failed →
          ((e.pure ≠ none ∨ x ∈ e.answers) → exec ans s = .next (now (status 10 0 m))) ∧
          (e.pure = none → x ∉ e.answers → (32767 ≤ m ∨ u.answerRoom ten (w / 2 ^ 18) = false) →
            exec ans s = .next (now (status 13 0 m))) ∧
          (e.pure = none → x ∉ e.answers → m < 32767 → u.answerRoom ten (w / 2 ^ 18) = true →
            let t := u.setEntry w { e with answers := e.answers ++ [x] }
            exec ans s = .next ((if e.readF then t.setGroup e.group { g with dirty := true } else t).upd (status 9 0 (m + 1)))) ∧
          (BitVec.ofNat 64 ((s.g a).toNat % 2 ^ 31) ≠ s.rd.cr.tabent → exec tend s = .next (now (status 0 0 m))) ∧
          (BitVec.ofNat 64 ((s.g a).toNat % 2 ^ 31) = s.rd.cr.tabent →
            (e.group ≠ w → ∃ t, exec tend s = .next t ∧
              live t = (leaves e.parent (status 8 0 m (live u))).setPs 3 (u.tabPure ten e.parent)) ∧
            (e.group = w → 1 < u.pending w → exec tend s = .next (u.parkAt u.cur (.leader w) tend [])) ∧
            (e.group = w → u.pending w ≤ 1 → g.dirty = true → ∃ t, exec tend s = .next t ∧ t.group w = ⟨g.round + 1, false⟩ ∧
              (t.entry w).st = e.st ∧ (t.entry w).mround = e.mround ∧
              live t = (status 7 0 m (live u)).setPs 3 (u.tabPure ten s.rd.cr.tabent)) ∧
            (e.group = w → u.pending w ≤ 1 → g.dirty = false → e.st = .eval → ∃ t, exec tend s = .next t ∧
              live t = (leaves e.parent (status 6 0 m (live u))).setPs 3 (u.tabPure ten e.parent) ∧
              (e.pure = none → ∀ y, (u.entry y).st = .eval → (u.entry y).group = w →
                let x := u.entry y
                let z := t.entry y
                z.st = .complete ∧ z.producer = none ∧ z.readF = false ∧ z.lastUse = u.cycle ∧ z.answers = x.answers ∧
                Woken u t y fun o d c => status 2 0 x.answers.length
                  (((c.setG 1 ((x.answers.map Prod.fst).headD 0)).setG 2 ((x.answers.map Prod.snd).headD 0)).setG d
                    (BitVec.ofNat 64 (u.refOf y + (if o then 2 ^ 31 else 0) + min x.answers.length 1 * 2 ^ 32 +
                      x.answers.length * 2 ^ 48)))))) ∧
          (e.st = .eval → ∃ t, exec fail s = .next t ∧
            live t = leaves e.parent (status 4 ((s.g a).toNat % 2 ^ 8) 0 (live u)) ∧
            (u.consumers w = [] → (t.entry w).st = .free) ∧
            (u.parkedLeaders = [] → ∀ y, (u.entry y).st = .eval → (u.entry y).group = e.group →
              (Woken u t y fun _ d c => status 4 ((s.g a).toNat % 2 ^ 8) 0 (c.setG d (BitVec.ofNat 64 (u.refOf y)))) ∧
              (y ≠ w → (u.entry y).producer ≠ none → (t.entry y).st = .failed ∧ (t.entry y).cause = (s.g a).truncate 8 ∧
                (t.entry y).producer = (u.entry y).producer) ∧
              (y ≠ w → (u.entry y).producer = none → u.consumers y = [] → (t.entry y).st = .free))))) ∧
    (s.wayOf ten (s.g a) = none → exec (.tinv gd d a) s = .next ((s.setG d 0).upd (status 12 0 0))) ∧
    (∀ w, s.wayOf ten (s.g a) = some w →
      let e := s.entry w
      (e.st = .eval → exec (.tinv gd d a) s = .next (s.setG d 1)) ∧
      (e.st = .failed → exec (.tinv gd d a) s = .next (s.setG d 3)) ∧
      (e.st = .complete → ∃ t : State, t = { s with entries := t.entries, pins := t.pins } ∧
        t.entry w = { AtEntry.free with adv := e.adv + 1 } ∧ (∀ p ∈ t.pins, p.way ≠ w) ∧
        (∀ y, y ≠ w → t.entry y = s.entry y) ∧ exec (.tinv gd d a) s = .next (t.setG d 6))) ∧
    (let die := (s.g a).toNat % 8
     let q (v : W64) : Prop := exec (.tstat gd d a item) s = .next (s.setG d v)
     (item = 0 → (s.wayOf ten (s.g a) = none → q 0) ∧ ∀ w, s.wayOf ten (s.g a) = some w →
       let e := s.entry w
       let bit (p : Bool) (j : Nat) : Nat := if p then 2 ^ j else 0
       q (BitVec.ofNat 64 ((match e.st with | .free => 0 | .eval => 1 | .complete => 2 | .failed => 3) + bit e.pure.isSome 2 +
         bit (decide (e.group = w)) 3 + bit e.producer.isSome 4 + bit e.readF 5 + e.cause.toNat * 2 ^ 8 +
         (if e.st = .failed then 0 else e.answers.length) % 2 ^ 15 * 2 ^ 16 + e.mround.toNat * 2 ^ 32 +
         min (s.pins.countP fun p => decide (p.way = w)) 65535 * 2 ^ 48))) ∧
     (item = 1 → (s.wayOf ten (s.g a) = none → q 0) ∧ ∀ w, s.wayOf ten (s.g a) = some w →
       let e := s.entry w
       let g := s.group e.group
       (e.st ≠ .eval → q 0) ∧
       (e.st = .eval → q (BitVec.ofNat 64 (s.refOf e.group + (if g.dirty then 2 ^ 31 else 0) + g.round.toNat * 2 ^ 32 +
         min (s.pending e.group) 65535 * 2 ^ 48)))) ∧
     (item = 2 → ∃ m k, q (BitVec.ofNat 64 (m % 2 ^ 32 + k * 2 ^ 32)) ∧
       m = s.entries.countP (fun p => decide (p.2.st ≠ .free ∧ p.2.tenant.toNat = ten ∧ p.1 / 2 ^ 18 = die)) ∧
       k = ((s.entries.filter fun p => decide (p.2.st ≠ .free ∧ p.2.tenant.toNat = ten ∧ p.1 / 2 ^ 18 = die)).map
         fun p => p.2.answers.length).sum) ∧
     (item = 3 → q (if s.rd.cr.tenant = 0 then 0xFFFFFFFFFFFFFFFF#64 else s.tt ten (9 + die))))

/-- R306 and R322 to R326: `ptask`: the traps of its argument list and of its tiles, its content key and its home, a task whose key is COMPLETE or FAILED,
one under evaluation, one for which there is no room, and one that is new and runs as a pure task. A pure task reaches its core's
TCM and the bytes of its regions, one by one; its entry is freed as it completes when a tile was written meanwhile or its slice
cannot record its blocks, and later when a block of its tiles is written.
It rests also on the model's own choice or reading where the rules are silent: log entries 14, 25 and 79. -/
def Obligations.PureTasks : Prop :=
  ∀ (gd : Guard) (d a b e : GReg) (k : BitVec 4) (s : State), Issues gd s → s.src = some s.me.ctx → s.me.after = none →
    let i : Instr := .ptask gd d a b k e
    let ten := s.rd.ten
    let code : Tile := ⟨s.g a, s.gAt a 1⟩
    let out : Tile := ⟨s.g e, s.gAt e 1⟩
    let status (n cause : Nat) (x : Ctx) : Ctx := { x with cr := { x.cr with tabst := BitVec.ofNat 64 (n + cause * 2 ^ 8) } }
    (∀ (p : PureRec) (c : Ctx) (core : Nat) (ea : W64) (n : Nat) (st : Bool), 0 < n →
      (ownTcmForm core ea = true ↔ caKind core = .compute ∧
        (ea.toNat / 2 ^ 60 = 0 ∨ ea.toNat / 2 ^ 60 = 1 ∧ ea.toNat / 2 ^ 32 % 2 ^ 14 = caTileOf core)) ∧
      (pureOk (some p) c core ea n st = true ↔ ownTcmForm core ea = true ∨
        ∀ x, ea.toNat ≤ x → x < ea.toNat + n →
          let inside (t : Tile) : Prop := t.addr.toNat ≤ x ∧ x < t.addr.toNat + t.len.toNat
          (st = false ∧ (inside p.code ∨ ∃ t ∈ p.args, inside t)) ∨ inside p.out ∨
            (x / 2 ^ 60 = p.sp.toNat / 2 ^ 60 ∧ c.cr.stklim.toNat ≤ x ∧ x < p.sp.toNat))) ∧
    (∀ (x : Tile) (need : BitVec 4) (st : Bool) (c o : Tile) (l : List Tile),
      TileChecked s x need st (s.tileCheck x need st) ∧
      s.tilesCheck c l o = (((c, 5, false) :: l.map fun t => (t, 1, false)) ++ [(o, 2, true)] : List (Tile × Nat × Bool)).findSome? fun e =>
        s.tileCheck e.1 (BitVec.ofNat 4 e.2.1) e.2.2) ∧
    (∀ (c o : Tile) (l : List Tile) (u : State) (t : Nat) (h : List Byte), u.contentKey t c l o = keyBytes u t c l o ∧
      homeOf h = (leNat (h.take 8) % 2 ^ 3, leNat (h.take 8) / 2 ^ 3 % 2 ^ 15)) ∧
    (∀ (pa w : Nat) (l : List Byte) (p : PureRec), l ≠ [] → 2 ^ 64 ≤ pa → pa < 2 ^ 73 → (s.entries.map Prod.fst).Nodup →
      (s.entry w).pure = some p →
      (∀ x ∈ p.code :: p.out :: p.args, x.addr.toNat % 4096 = 0 ∧ x.len.toNat % 4096 = 0 ∧ 4096 ≤ x.len.toNat) →
      let x := s.entry w
      let meets (t : Tile) : Prop := Meets t x.tenant.toNat pa l.length
      let reads : Prop := ∃ t ∈ p.code :: p.args, meets t
      let y := (s.storeBytes pa l).entry w
      (x.st = .complete → reads ∨ meets p.out → y = { AtEntry.free with adv := x.adv + 1 }) ∧
      (x.st = .complete → ¬(reads ∨ meets p.out) → y = x) ∧
      (x.st = .eval → reads → y = { x with stale := true }) ∧ (x.st = .eval → ¬reads → y = x)) ∧
    (∀ w p, (s.entry w).pure = some p →
      (s.pureDone w = s.freeWay w ∨ s.pureDone w = s) ∧ ((s.entry w).stale = true → s.pureDone w = s.freeWay w)) ∧
    (∀ t, s.argList (s.g b) k.toNat = .error t → exec i s = .next (s.takeTrap s.cur t)) ∧
    ∀ l, s.argList (s.g b) k.toNat = .ok l →
      let args := tilesOf k.toNat l
      let s1 := if k = 0 then s else s.correctRun (s.g b) (16 * k.toNat)
      (∀ t, s1.tilesCheck code args out = some t → exec i s = .next (s1.takeTrap s1.cur t)) ∧
      (s1.tilesCheck code args out = none →
        GoesOn s1 (fun _ => true) ((code :: args).flatMap fun x => x.blocks.map fun v => (paStack ten v.toNat, 4096)) →
        let u := s1.flushWhere s.cur fun _ => true
        let digest := u.contentKey ten code args out
        let home := homeOf digest
        let key : AtKey := .pure (BitVec.ofNat 256 (leNat digest))
        let found := u.lookup home s.rd.cr.tenant key
        (∀ v, u.badLeaf ten (code :: args) = some v → exec i s = .next (u.takeTrap u.cur ⟨0x09, v⟩)) ∧
        (u.badLeaf ten (code :: args) = none →
          (∀ w, found = some w →
            let x := u.entry w
            (x.st = .complete → exec i s = .next (((u.setEntry w { x with lastUse := u.cycle }).setG d
              ((x.pure.map fun p => p.out.addr).getD 0)).upd (status 14 0))) ∧
            (x.st = .failed → exec i s = .next ((u.setG d 0).upd (status 4 x.cause.toNat))) ∧
            (x.st = .eval → exec i s = .next
              (if u.myChain.contains w then u.takeTrap u.cur ⟨0x0E, BitVec.ofNat 64 (u.refOf w)⟩
               else u.parkAt u.cur (.entry w) i l))) ∧
          (∀ t, found = none → u.takeWay ten home.1 home.2 = (none, t) →
            exec i s = .next ((t.setG d 0).upd (status 5 0))) ∧
          ∀ w t', found = none → u.takeWay ten home.1 home.2 = (some w, t') → ∃ t, exec i s = .next t ∧
            (let x := t.entry w
             x.st = .eval ∧ x.key = key ∧ x.tenant = s.rd.cr.tenant ∧ x.producer = some s.me.tid ∧
             x.pure = some ⟨code, args, out, s.g 29⟩) ∧
            t.me.npc = code.addr ∧ t.me.pure = ⟨code, args, out, s.g 29⟩ :: u.me.pure ∧
            (live t).g = (((live s).setG d out.addr).setG 30 (BitVec.ofInt 64 (s.pc.toNat + 8))).g ∧
            (live t).pure = true ∧ (live t).cr.tabent = BitVec.ofNat 64 (t.refOf w) ∧ (live t).cr.tabst = 1))

/-! ## Copy engines -/

/-- R334 to R337, R342 and R344 to R347: `cpyq` with its traps, its request in the FIFO under an id from 1 to 65535, and what a
full FIFO does; `permit`, `cpst` and `uiret`.
It rests also on the model's own choice or reading where the rules are silent: log entries 24 and 48. -/
def Obligations.CopyInstructions : Prop :=
  ∀ (gd : Guard) (d a : GReg) (n : BitVec 4) (blk : Bool) (item : BitVec 2) (s : State), Issues gd s →
    let core := s.core
    let w0 := s.g a
    let w1 := s.gAt a 1
    let w2 := s.gAt a 2
    let w3 := s.gAt a 3
    let dist := w2.getLsbD 44
    (let i : Instr := .cpyq gd d a blk
     let len := w2.toNat % 2 ^ 40
     let space (w : W64) : Prop := w.toNat / 2 ^ 60 ≤ 4 ∨ w.toNat / 2 ^ 60 = 8
     let traps (t : Trap) : Prop := exec i s = .next (s.takeTrap s.cur t)
     let fields : Prop := w2.toNat < 2 ^ 47 ∧ len ≠ 0 ∧ len % 8 = 0
     let dest : Prop := space w1 ∧ (dist = true → w1.toNat / 2 ^ 60 = 1)
     (s.rd.pure = true → traps ⟨0x0B, w0⟩) ∧
     (s.rd.pure = false → w0.toNat % 8 ≠ 0 → traps ⟨0x03, w0⟩) ∧
     (s.rd.pure = false → w0.toNat % 8 = 0 → w1.toNat % 8 ≠ 0 → traps ⟨0x03, w1⟩) ∧
     (s.rd.pure = false → w0.toNat % 8 = 0 → w1.toNat % 8 = 0 → ¬fields → traps ⟨0x04, w0⟩) ∧
     (s.rd.pure = false → w0.toNat % 8 = 0 → w1.toNat % 8 = 0 → fields → ¬space w0 → traps ⟨0x04, w0⟩) ∧
     (s.rd.pure = false → w0.toNat % 8 = 0 → w1.toNat % 8 = 0 → fields → space w0 → ¬dest → traps ⟨0x04, w1⟩) ∧
     (s.rd.pure = false → w0.toNat % 8 = 0 → w1.toNat % 8 = 0 → fields → space w0 → dest →
       (∀ t, s.pblk w3 dist = .error t → traps t) ∧ ParamBlock s w3 dist (s.pblk w3 dist) ∧
       ∀ l, s.pblk w3 dist = .ok l →
         let word (n : Nat) : W64 := BitVec.ofNat 64 (leNat ((l.drop (8 * n)).take 8))
         let deal := s.dealTargets (word 1)
         let snap := if dist then l ++ deal.flatMap (leBytes 2) else l
         let r := s.copyRequest a snap
         (∀ t, s.copyRanges r w0 w1 w3 = some t → traps t) ∧ DealtTo s (rectOf (word 1)) deal ∧
         CopyRanges s ⟨fromAnyCore s w0, fromAnyCore s w1, w0, w1, w3⟩ len dist (word 2).toNat deal (s.copyRanges r w0 w1 w3) ∧
         let s1 := if w3 = 0 then s else s.correctRun w3 64
         (s.copyRanges r w0 w1 w3 = none → GoesOn s1 (fun _ => true) [] →
           let u := s1.flushWhere s.cur fun _ => true
           let x := u.eng core
           (8 ≤ x.reqs.length → exec i s = .next (if blk then u.parkAt u.cur .copyFifo i snap else u.setG d 0)) ∧
           (x.reqs.length < 8 → ∃ (id : Nat) (q : CopyReq), 1 ≤ id ∧ id < 2 ^ 16 ∧ q.id = id ∧ q.len = len ∧
             q.tag = w2.toNat / 2 ^ 40 % 16 ∧ q.dist = dist ∧ q.wake = w2.getLsbD 45 ∧ q.intr = w2.getLsbD 46 ∧
             q.tenant = s.rd.cr.tenant ∧ q.tid = s.me.tid ∧ q.running = false ∧ q.done = 0 ∧ q.lrect = s.rd.cr.lrect ∧
             q.nanrd = s.rd.cr.nanrd.getLsbD 0 ∧ q.src = fromAnyCore s w0 ∧ q.dst = fromAnyCore s w1 ∧
             q.handler = (if w3 = 0 ∨ word 0 = 0 then s.rd.cr.uivec else word 0) ∧ (dist = true → q.bsize = (word 2).toNat) ∧
             q.targets = (if dist = true then deal else if q.dst.toNat / 2 ^ 60 = 1 then
               [caTile (q.dst.toNat / 2 ^ 32 % 128) (q.dst.toNat / 2 ^ 40 % 64)] else []) ∧
             exec i s = .next ((u.setEng core { x with reqs := x.reqs ++ [q], count := x.count + 1 }).setG d
               (BitVec.ofNat 64 id)))))) ∧
    (let k := w0.toNat % 2 ^ 16
     let old := (s.permit core n.toNat).toNat
     let new := if w0.getLsbD 16 then k else min 65535 (old + k)
     (s.permitQueue core = [] → exec (.permit gd d a n) s = .next
       ((s.setPermit core n.toNat (BitVec.ofNat 16 new)).setG d (BitVec.ofNat 64 new))) ∧
     ∀ q, s.permitQueue core = [q] → q.mb = n.toNat → 0 < new → ∃ t : State,
       t = { s with permits := t.permits, permitQ := t.permitQ, copy := t.copy } ∧ t.permitQueue core = [] ∧
       (t.permit core n.toNat).toNat = new - min new q.n ∧
       exec (.permit gd d a n) s = .next (t.setG d (BitVec.ofNat 64 (new - min new q.n)))) ∧
    (s.slow = false →
      let id := w0.toNat % 2 ^ 16
      let e := s.eng core
      let q (v : W64) : Prop := exec (.cpst gd d a item) s = .next (s.setG d v)
      let mine (r : CopyReq) : Bool := decide (r.id = id ∧ r.tenant = s.rd.cr.tenant)
      let past (r : CopyPast) : Bool := decide (r.id = id ∧ r.tenant = s.rd.cr.tenant)
      (∀ r, e.reqs.find? mine = some r →
        (item = 0 → q (BitVec.ofNat 64 (id + (if r.running then 2 else 1) * 2 ^ 16 + min r.pcnt 0xFFFFFF * 2 ^ 40))) ∧
        (item = 1 → q 0) ∧ (2 ≤ item.toNat → q (BitVec.ofNat 64 r.written))) ∧
      (e.reqs.find? mine = none → ∀ r, e.past.reverse.find? past = some r →
        (item = 0 → q r.status) ∧ (item = 1 → q r.bad) ∧ (2 ≤ item.toNat → q r.bytes)) ∧
      (e.reqs.find? mine = none → e.past.reverse.find? past = none →
        q (if item = 0 then BitVec.ofNat 64 id else 0))) ∧
    (let h4 := s.rd.h[3]
     (s.rd.uih = false → exec (.uiret gd) s = .next (s.takeTrap s.cur ⟨0x01, s.raw⟩)) ∧
     (s.rd.uih = true → h4.toNat % 8 ≠ 0 → exec (.uiret gd) s = .next (s.takeTrap s.cur ⟨0x03, h4⟩)) ∧
     (s.rd.uih = true → h4.toNat % 8 = 0 → exec (.uiret gd) s = .next
       ((s.upd fun c => { c with cr := { c.cr with pstate := c.cr.pstate &&& ~~~16#64 } }).setNpc h4)))

/-! ## Ordering -/

/-- R104, R250, R349, R357 to R359: the fences wait for the stores that they name and change nothing else; `isync` drops the lines of the
core's instruction cache; `pinit`, `parr` and `pwait` on a phase object, with the phase that passes when the last arrival
and the last byte have come; a `pwait` whose phase has not passed joins the waiters of its object, or is held at the station where
that has no entry left.
It rests also on the model's own choice or reading where the rules are silent: log entries 12, 25 and 30. -/
def Obligations.FencesAndPhases : Prop :=
  ∀ (gd : Guard) (d a b : GReg) (s : State), Issues gd s →
    let near (o : OutStore) : Bool := o.parts.any fun e => s.inScope s.rd.cr.scope e.1
    let Waits (i : Instr) (p : OutStore → Bool) (f : State → State) : Prop :=
      GoesOn s p [] → exec i s = .next (f (if s.me.out.any p then s.flushWhere s.cur p else s))
    Waits (.fence gd) (fun _ => true) id ∧ Waits (.fenceAcq gd) near id ∧ Waits (.fenceRel gd) near id ∧
    (GoesOn s (fun _ => true) [] → ∃ t : State, exec (.isync gd) s = .next t ∧
      t = { s.flushWhere s.cur fun _ => true with icache := t.icache } ∧
      ∀ k e, e < 2 ^ 20 →
        smGet none t.icache (k * 2 ^ 20 + e) = if e = s.core then none else smGet none s.icache (k * 2 ^ 20 + e)) ∧
    (s.slow = false →
      let ea := s.g a
      let arg := s.g b
      let arr (x : W64) : Nat := x.toNat % 2 ^ 16
      let bytes (x : W64) : Nat := x.toNat / 2 ^ 16 % 2 ^ 32
      let no (x : W64) : Nat := x.toNat / 2 ^ 48
      let word (p q r : Nat) : W64 := BitVec.ofNat 64 (p + q * 2 ^ 16 + r % 2 ^ 16 * 2 ^ 48)
      let put (u : State) (pa : Nat) (x : W64) : State := u.storeBytes pa (bytesOf 8 x)
      let Phase (i : Instr) (need : BitVec 4) (st : Bool) (R : State → Nat → Prop) : Prop :=
        WordAccess s i ea 16 need st (fun _ => near) 16 fun u pa =>
          (∀ v, u.badWord ea [(pa, 16)] = some v → exec i s = .next (u.takeTrap u.cur ⟨0x09, v⟩)) ∧
          (u.badWord ea [(pa, 16)] = none → R u pa)
      Phase (.pinit gd d a b) (rightW ||| rightS) true (fun u pa =>
        (no arg ≠ 0 ∨ arg.toNat % 2 ^ 48 = 0 → exec (.pinit gd d a b) s = .next (u.setG d 1)) ∧
        (no arg = 0 → arg.toNat % 2 ^ 48 ≠ 0 → u.phaseWaiters pa = [] →
          exec (.pinit gd d a b) s = .next ((put (put u (pa + 8) arg) pa arg).setG d 0))) ∧
      Phase (.parr gd d a b) (rightR ||| rightW ||| rightS) true (fun u pa =>
        let i : Instr := .parr gd d a b
        let x := u.readW pa
        let r := u.readW (pa + 8)
        let fits : Prop := no arg = 0 ∧ arr arg ≤ arr x ∧ bytes arg ≤ bytes x
        let last : Prop := arr arg = arr x ∧ bytes arg = bytes x
        let t := put u pa (word (arr r) (bytes r) (no x + 1))
        (¬fits → exec i s = .next (u.setG d (BitVec.ofNat 64 (no x + 2 ^ 17)))) ∧
        (fits → ¬last → exec i s = .next
          ((put u pa (word (arr x - arr arg) (bytes x - bytes arg) (no x))).setG d (BitVec.ofNat 64 (no x)))) ∧
        (fits → last → u.phaseWaiters pa = [] → exec i s = .next (t.setG d (BitVec.ofNat 64 (no x + 2 ^ 16)))) ∧
        (∀ k g e y z sn n, fits → last → u.phaseWaiters pa = [k] → (u.slot k).st = .park (.phase pa) (.pwait g e y z) sn n →
          ((u.slot k).ctx.getG z).toNat % 2 ^ 16 = no x → exec i s = .next
            ((served t k fun c => c.setG e (word (arr r) (bytes r) (no x + 1))).setG d (BitVec.ofNat 64 (no x + 2 ^ 16))))) ∧
      Phase (.pwait gd d a b) (rightR ||| rightS) false (fun u pa =>
        let i : Instr := .pwait gd d a b
        let x := u.readW pa
        (no x ≠ arg.toNat % 2 ^ 16 → exec i s = .next (u.setG d x)) ∧
        (no x = arg.toNat % 2 ^ 16 → exec i s = .next (joins u pa (.phase pa) i))))

/-! ## Slots and threads that travel -/

/-- R53 to R55, R72 to R74, R101, R102, R294 and R340: what the slot arbiter does at the end of a fetch, of an operation, of a load
of a context, of a drain, of `quit`, of `wait` and of `kill`, and the delivery of the completion record that was stored first. A fetch
waits while memory holds it (R242, R243); it corrects its word (R148), and an uncorrectable word is not cached.
It rests also on the model's own choice or reading where the rules are silent: log entries 65 and 66. -/
def Obligations.SlotEvents : Prop :=
  ∀ (k : Nat) (s : State),
    let x := s.slot k
    let core := caCore k
    let again : Slot := { x with st := .run, ctx := { x.after.getD x.ctx with pc := x.npc }, after := none, due := s.cycle + 1 }
    (x.wait = some .fetch →
      (s.fetchHeld k = true → Idle s (.fetchMissFill k)) ∧
      (s.fetchHeld k = false → ∃ t : State, exec (.fetchMissFill k) s = .next t ∧
        (∀ p, s.fetchFrom x.ctx core x.pure.head? = .error p → t = s.setSlot k { x with st := .run, due := s.cycle + 1 }) ∧
        ∀ pa, s.fetchFrom x.ctx core x.pure.head? = .ok pa →
          t = { (if s.isBad pa then s else s.correct pa 8).setSlot k { x with st := .run, due := s.cycle + 1 } with icache := t.icache } ∧
          (s.isBad pa = false → smGet none t.icache (pa * 2 ^ 20 + core) = some (s.readW pa)) ∧
          (s.isBad pa = true → t.icache = s.icache))) ∧
    (x.wait ≠ some .fetch → Idle s (.fetchMissFill k)) ∧
    (x.wait = some (.reply none) → exec (.operationComplete k) s = .next (s.setSlot k again)) ∧
    (∀ t, x.wait = some (.reply (some t)) →
      exec (.operationComplete k) s = .next ((s.setSlot k { x with due := s.cycle + 1 }).takeTrap k t)) ∧
    (∀ n tids gd d a j sn m, x.st = .park (.kill n tids) (.kill gd d a j) sn m →
      ((∀ y ∈ s.threads, y.1 ∉ tids) →
        exec (.operationComplete k) s = .next (served s k fun c => c.setG d (BitVec.ofNat 64 n))) ∧
      ((∃ y ∈ s.threads, y.1 ∈ tids) → Idle s (.operationComplete k))) ∧
    (∀ n ea gd d a b sn m, x.st = .park (.save n ea) (.svsl gd d a b) sn m →
      ((s.slot n).st.spilling = false → exec (.operationComplete k) s = .next (served s k fun c => c.setG d 1)) ∧
      ((s.slot n).st.spilling = true → Idle s (.operationComplete k))) ∧
    (x.st = .resv → exec (.contextLoaded k) s = .next (s.setSlot k { x with st := .run, due := s.cycle + 1 })) ∧
    (x.st ≠ .resv → Idle s (.contextLoaded k)) ∧
    (∀ r i sn n, x.st = .drain false (.reply r) i sn n → x.out = [] → s.owns k = false →
      ∃ t, exec (.drainComplete k) s = .next t ∧ t.slot k = Slot.free) ∧
    (x.wait = some .quit →
      let busy : Prop := x.out ≠ [] ∨ s.owns k = true ∧ (s.unit core).op ≠ none
      (¬busy → ∃ t, exec (.quitComplete k) s = .next t ∧ t.slot k = Slot.free) ∧ (busy → Idle s (.quitComplete k))) ∧
    (∀ d, x.wait = some (.wait d) →
      (d ≤ s.cycle → d < 2 ^ 64 → exec (.waitDeadline k) s = .next (s.setSlot k { again with late := none })) ∧
      (s.cycle < d ∨ 2 ^ 64 ≤ d → Idle s (.waitDeadline k))) ∧
    (∀ d spill i sn n, x.st = .drain spill (.wait d) i sn n →
      (d ≤ s.cycle → d < 2 ^ 64 → exec (.waitDeadline k) s = .next
        (s.setSlot k { x with st := .drain spill (.reply none) i sn n, late := none })) ∧
      (s.cycle < d ∨ 2 ^ 64 ≤ d → Idle s (.waitDeadline k))) ∧
    (s.readyRecord k = none → Idle s (.completionDelivery k)) ∧
    ∀ at_ r, s.readyRecord k = some (at_, r) → ∃ t : State, exec (.completionDelivery k) s = .next t ∧
      t = { s with slots := t.slots, copy := t.copy } ∧ t.eng at_ = { s.eng at_ with recs := (s.eng at_).recs.erase r } ∧
      (∀ c, ∀ q ∈ (s.eng c).recs, q.tid = x.tid → r.order ≤ q.order) ∧
      t.slot k = { x with
        st := .run, after := none, late := none
        ctx := { x.ctx with
          pc := r.handler, h := #v[r.status, r.bytes, r.bad, x.ctx.pc]
          cr := { x.ctx.cr with uixid := BitVec.ofNat 64 (r.id % 2 ^ 16), pstate := x.ctx.cr.pstate ||| 16 } } }

/-- R64, R66, R71, R99, R104, R154, R171, R185, R189, R191 to R193 and R289 to R293: the layout of a saved record, from which the
registers read back as they were; threads that leave a slot, land in the order of their packets and are
admitted, are sent back, spilled, written to their record, and resumed. A slot with a divide, a root or a special function in progress
drains, whatever its C-half waits for (log entry 65).
It rests also on the model's own choice or reading where the rules are silent: log entries 9, 28, 34, 65, 66, 68, 78, 80 and 99. -/
def Obligations.TravelEvents : Prop :=
  (∀ (c : Ctx) (k : Nat) (cls : BitVec 3) (park : W64 × W64) (w : Nat → W64),
    RecordOf (fun j => ((recordWords c k cls park []).lookup j).getD 0) c k cls park ∧
    (RecordOf w c k cls park → (∀ e ∈ savedCrs c.cr, e.2.2 &&& recordReserved e.2.1 = 0) →
      recordCtx w = { c with
        pc := c.pc &&& ~~~7#64, g := c.g.set 0 0, b := c.b &&& 0xFE, rep := { c.rep with i := c.rep.i % 2 ^ 12, k := c.rep.k % 2 ^ 4 } })) ∧
  ∀ (k : Nat) (s : State),
    let x := s.slot k
    let spilling : State := s.setSlot k { x with st := .saving false (.cnop .always), after := none }
    let may : Prop := x.st = .run ∧ x.out = [] ∧ s.poolRoom x.ctx.ten = true ∧ s.owns k = false
    (∀ tgt ea committed regs, x.wait = some (.migrate tgt ea committed regs) →
      (x.out ≠ [] → Idle s (.migrationPacketSend k)) ∧
      (x.out = [] → ∃ t p, exec (.migrationPacketSend k) s = .next t ∧ t.slot k = Slot.free ∧ p ∈ t.pkts ∧ p.core = tgt ∧
        p.tid = x.tid ∧ p.landed = false ∧ p.sender = some (caCore k) ∧
        (let c : Ctx := if committed then { x.after.getD x.ctx with pc := x.npc } else x.ctx
         p.ctx.pc = c.pc ∧ p.ctx.b = c.b ∧ p.ctx.cr = c.cr ∧ p.ctx.v = Ctx.zero.v ∧
         ∀ n, n < 32 → (p.ctx.g.toList)[n]?.getD 0 =
           if n ≠ 0 ∧ (c.cr.lmask.getLsbD n = true ∨ BitVec.ofNat 5 n ∈ regs) then (c.g.toList)[n]?.getD 0 else 0))) ∧
    ((∀ tgt ea committed regs i, x.waits ≠ some (.migrate tgt ea committed regs, i)) → Idle s (.migrationPacketSend k)) ∧
    (∀ id p, s.travelling id = some p →
      let buffer := s.landed p.core
      let moved : State := { s with pkts := (s.pkts.filter fun q => q.id != p.id) ++ [{ p with landed := true, since := s.cycle }] }
      let c : Ctx := p.ctx.setPs 2 p.gang
      (s.inOrder p = false → Idle s (.migrantLanding id) ∧ Idle s (.spawnPacketArrival id)) ∧
      (s.inOrder p = true →
        (∀ origin ea done, p.kind = .migrant origin ea done →
          (p.pend ≠ none ∨ s.migrantTrap p ea = none → buffer.length < 4 → exec (.migrantLanding id) s = .next moved) ∧
          (p.pend ≠ none ∨ s.migrantTrap p ea = none → 4 ≤ buffer.length → Idle s (.migrantLanding id)) ∧
          (∀ tr, p.pend = none → s.migrantTrap p ea = some tr → ∃ t q, exec (.migrantLanding id) s = .next t ∧ q ∈ t.pkts ∧
            q.core = caCore origin ∧ q.pend = some tr ∧ q.landed = false ∧ q.sender = some p.core ∧ q.ctx = p.ctx ∧
            t.slots = s.slots)) ∧
        (p.kind = .task →
          (buffer.length < 4 → exec (.spawnPacketArrival id) s = .next moved) ∧
          (4 ≤ buffer.length → Idle s (.spawnPacketArrival id))) ∧
        ∀ parent ptid blk, p.kind = .spawn parent ptid blk → (∀ q ∈ buffer, s.slotFor q = none) →
          let behind : Prop := blk = true ∧ ∃ q ∈ buffer, q.slot = none
          (4 ≤ buffer.length → Idle s (.spawnPacketArrival id)) ∧
          (buffer.length < 4 → behind → exec (.spawnPacketArrival id) s = .next moved) ∧
          (buffer.length < 4 → ¬behind →
            (∀ j, s.slotFor p = some j → ∃ t, exec (.spawnPacketArrival id) s = .next t ∧ Enters t j p.tid c ∧
              ∀ q ∈ t.pkts, q.id ≠ p.id) ∧
            (s.slotFor p = none → blk = true → exec (.spawnPacketArrival id) s = .next moved) ∧
            ∀ g d a b o sn n, s.slotFor p = none → blk = false → (s.slot parent).tid = ptid →
              (s.slot parent).st = .park (.spawn p.id) (.spawn g d a b o) sn n →
              exec (.spawnPacketArrival id) s = .next (served { s with pkts := s.pkts.filter fun q => q.id != p.id } parent fun c =>
                c.setG d 0xFFFFFFFFFFFFFFFF#64)))) ∧
    (∀ core l p r, s.landed core = l ++ p :: r → (∀ q ∈ l, s.slotFor q = none ∧ q.slot ≠ none) →
      (∀ j, s.slotFor p = some j →
        ∃ t, exec (.landingAdmit core) s = .next t ∧ Enters t j p.tid (p.ctx.setPs 2 p.gang) ∧ ∀ q ∈ t.pkts, q.id ≠ p.id) ∧
      (s.slotFor p = none → p.slot = none → Idle s (.landingAdmit core))) ∧
    (∀ core p, (s.landed core).head? = some p →
      (s.cycle < max p.since (smGet 0 s.freedAt (caCore p.core)) + 4096 * (if caKind core = .bank then 2 else 1) →
        Idle s (.spillToAdmit core)) ∧
      (s.landingVictim core = some k → may →
        let freed := if x.ctx.gang = true then [k, partner k] else [k]
        let kept := if p.slot = none then freed else freed.filter fun j => p.named.contains j
        exec (.spillToAdmit core) s = .next
          { spilling with pkts := s.pkts.map fun q => if q.id = p.id then { q with evict := q.evict ++ kept } else q })) ∧
    (∀ core, s.landingVictim core = none → Idle s (.spillToAdmit core)) ∧
    (∀ e ∈ s.tasks, e.2.st = .ready → e.2.since + 16384 ≤ s.cycle → s.classVictim (e.1 / 2 ^ 16) e.2 = some k → may →
      exec (.spillForClass k) s = .next spilling) ∧
    (∀ e ∈ s.tasks, e.2.st = .ready → e.2.since + 16384 ≤ s.cycle → s.classVictim (e.1 / 2 ^ 16) e.2 = some k →
      ∀ w i sn n, x.st = .park w i sn n → x.slowA = true → w ≠ .matrix → x.spillable = true → s.poolRoom x.ctx.ten = true → s.owns k = false →
        exec (.spillForClass k) s = .next (s.setSlot k { x with st := .drain true w i sn n })) ∧
    (∀ r i sn n w, x.st = .drain true (.reply r) i sn n ∨ x.st = .saving w i ∧ r = none → x.out = [] → s.owns k = false →
      s.saver k = none →
      let c : Ctx := match r, x.after with
        | none, some c => { c with pc := x.npc }
        | _, _ => x.ctx
      (∀ fails pa, fails < 2 → s.recordFor c.ten fails = some pa →
        (s.runHeld pa 0x5000 = true → ∃ t, exec (.spillRecordWritten k fails) s = .next t ∧ t.slot k = x) ∧
        (s.runHeld pa 0x5000 = false → s.landed (caCore k) = [] → ∃ t y,
          exec (.spillRecordWritten k fails) s = .next t ∧ t.slot k = Slot.free ∧ y ∈ t.spilled ∧ y.soft = false ∧ y.pa = pa ∧
          y.tid = x.tid ∧ y.wid = c.cr.wid ∧ Recorded t pa k x (recorded s k c))) ∧
      ∀ fails, 2 ≤ fails → exec (.spillRecordWritten k fails) s = .next
        ((s.setSlot k { x with st := .run, ctx := c, after := none }).faultSlot k ⟨0x13, 0⟩)) ∧
    ∀ idx y, s.spilled[idx]? = some y → y.soft = false →
      let w (j : Nat) : W64 := s.readW (y.pa + 8 * j)
      s.nextStart (caDie y.core) = some ⟨y.cls.toNat, y.tenant.toNat, 0, y.order⟩ → s.mayResume y w k = true →
      let lost : Prop := s.firstBad y.pa 0x5000 ≠ none ∨ s.runGone y.pa 0x5000 = true
      (s.runHeld y.pa 0x5000 = true → Idle s (.resume idx k)) ∧
      (s.runHeld y.pa 0x5000 = false → ∃ t, exec (.resume idx k) s = .next t ∧ (∀ z ∈ t.spilled, z.tid ≠ y.tid) ∧
        (¬lost → Enters t k y.tid (recordCtx w) ∧ (y.sync = true → ∀ a, smGet none t.icache (a * 2 ^ 20 + caCore k) = none)))

/-! ## Arbiters -/

/-- R15, R196, R250, R252, R254, R256, R258 to R263, R268, R269, R348 and R359: an arbiter does what the instruction that waits
for it does; stores are accepted; wake-ups land; and requests meet in the Welt, where adds combine and a push meets a pop.
It rests also on the model's own choice or reading where the rules are silent: log entries 66 and 69. -/
def Obligations.ArbiterEvents : Prop :=
  ∀ (k : Nat) (gd : Guard) (d a b : GReg) (v : VReg) (lo : LdOrd) (so : StOrd) (ao : AmOrd) (op : AtomOp) (w : Win) (blk : Bool)
    (mb n4 : BitVec 4) (off : BitVec 9) (s : State),
    let x := s.slot k
    (∀ i ∈ ([.ldfe gd d a lo, .ldff gd d a lo, .stef gd a b so, .stff gd a b so] : List Instr), Arbitrates s (.fullEmptyRequest k) k i []) ∧
    (∀ i ∈ ([.lrw gd d a lo, .sch gd a b so, .sdrop gd a so] : List Instr), Arbitrates s (.reservationRequest k) k i []) ∧
    (∀ i ∈ ([.pinit gd d a b, .parr gd d a b, .pwait gd d a b] : List Instr), Arbitrates s (.phaseRequest k) k i []) ∧
    (∀ snap ∈ ([[], [1]] : List (List Byte)), Arbitrates s (.remoteRead k) k (.rdr gd v a n4) snap) ∧
    (∀ i ∈ ([.amo gd d a b ao op, .afadd gd d a b ao, .acas gd d a b ao] : List Instr),
      ((x.ctx.getG a).toNat / 2 ^ 60 = 8 → Arbitrates s (.cobblerAtomic k) k i []) ∧
      ((x.ctx.getG a).toNat / 2 ^ 60 ≠ 8 → s.weltOf k = none → Arbitrates s (.accessAccepted k 0) k i [])) ∧
    (s.weltOf k = none → ∀ i ∈ ([.ldd gd d a lo off, .ldw gd d a lo off, .ldh gd d a lo off, .ldb gd d a lo off,
      .ldwz gd d a lo off, .ldhz gd d a lo off, .ldbz gd d a lo off, .std gd d a so off, .stw gd d a so off, .sth gd d a so off,
      .stb gd d a so off, .ldv gd v a lo off, .stv gd v a so off, .tam gd d a b op, .tfadd gd d a b, .lds gd d a, .sts gd d a] : List Instr),
      Arbitrates s (.accessAccepted k 0) k i []) ∧
    (∀ (n : Nat) o, x.out[n]? = some o →
      let waits : Prop := s.storeHeld o = true ∨ ∃ p ∈ x.out.take n, p.meets o.spans = true
      (waits → Idle s (.accessAccepted k (n + 1))) ∧
      (¬waits → exec (.accessAccepted k (n + 1)) s = .next (s.flushWhere k fun p => p == o))) ∧
    (x.ctx.holds gd = true → x.ctx.pure = false → x.ctx.getG a &&& ~~~0x00F03F7F#64 = 0 →
      MaySend (resumed s k) (caTileOf (x.ctx.getG a).toNat) → Arbitrates s (.messageLanding k) k (.send gd d a v mb) []) ∧
    (x.ctx.holds gd = true → x.ctx.pure = false → ((resumed s k).queueRef (x.ctx.getG a)).isOk = true → s.weltOf k = none →
      x.out = [] → s.isHeld (paDesc x.ctx.ten (x.ctx.getG a)) = false →
      ∀ i ∈ ([.qpush gd d a v w blk, .qpop gd d a v w blk, .qcnt gd d a] : List Instr), Arbitrates s (.queueHomeOperation k) k i []) ∧
    (∀ (len : BitVec 12) (data : List Byte) n, x.st = .park .flight (.sendL gd a b mb len) data n →
      let dst := x.ctx.getG a
      let tgt := caTile (dst.toNat / 2 ^ 32 % 128) (dst.toNat / 2 ^ 40 % 64)
      let at_ := dst.toNat % 2 ^ 17
      s.overtakes 3 (caCore k) n [tgt] = false → x.out = [] → (x.ctx.ten = 0 ∨ (s.tcmOwner tgt).toNat = x.ctx.ten) →
      s.runOk tgt at_ data.length = true → NoWaiters s tgt → ∃ t : State, exec (.dataLanding k) s = .next t ∧
        t.slot k = { x with st := .park (.reply none) (.sendL gd a b mb len) data n } ∧
        (∀ y, t.byte y = if paTcm tgt at_ ≤ y ∧ y < paTcm tgt at_ + data.length then (data[y - paTcm tgt at_]?).getD 0 else s.byte y) ∧
        Counts (s.box tgt mb.toNat) (t.box tgt mb.toNat) (x.ctx.cr.nanrd.getLsbD 0) (BitVec.ofNat 32 k)) ∧
    (∀ id u, s.wakes.find? (fun u => u.id == id) = some u → s.overtakes 3 (caCore u.sender.toNat) u.id [caTileOf u.core] = false →
      let t : State := { s with wakes := s.wakes.filter fun v => v.id != id }
      let y := s.box u.core u.mb
      let ok : Prop := u.tenant = 0 ∨ (s.tcmOwner u.core).toNat = u.tenant
      (¬ok → exec (.wakeUpLanding id) s = .next t) ∧
      (ok → 4 ≤ y.ents.length → exec (.wakeUpLanding id) s = .next (t.setBox u.core u.mb { y with full := true })) ∧
      (ok → y.ents.length < 4 → NoWaiters s u.core → ∃ z : Mbox, Counts y z u.nanrd u.sender ∧
        z.ents = y.ents ++ [(u.header, u.payload)] ∧ exec (.wakeUpLanding id) s = .next (t.setBox u.core u.mb z))) ∧
    (∀ id r, s.welt.find? (fun r => r.id == id && !r.held && decide (r.stage < 10)) = some r →
      let l := s.heldWith r
      let each (f : WeltReq → WeltReq) : State := { s with welt := s.welt.map fun q => if q.id = id then f q else q }
      let left (h : WeltReq) : State := { s with welt := (s.welt.filter fun q => q.id != r.id).filter fun q => q.id != h.id }
      (l.find? r.pairs = none → l.length < 8 → exec (.weltSwitchArrival id) s = .next
        (each fun q => { q with held := true, expires := s.cycle + q.win })) ∧
      (l.find? r.pairs = none → 8 ≤ l.length → exec (.weltSwitchArrival id) s = .next (each fun q => { q with stage := q.stage + 1 })) ∧
      (∀ h g d a b o p, l.find? r.pairs = some h → r.i = .amo g d a b o p →
        let side (q : WeltReq) : Nat := q.src / 2 ^ (9 - q.stage) % 2
        let tie : Prop := h.expires = s.cycle + h.win ∧ side r = 0 ∧ side h = 1
        ∀ y z, tie ∧ y = r ∧ z = h ∨ ¬tie ∧ y = h ∧ z = r → ∃ q : WeltReq,
          exec (.weltSwitchArrival id) s = .next { left h with welt := (left h).welt ++ [q] } ∧ q.stage = r.stage + 1 ∧ q.held = false ∧
          q.slots = y.slots ++ z.slots.map (fun e => (e.1, BitVec.ofNat 64 (e.2.toNat + y.data.toNat))) ∧
          q.data.toNat = (y.data.toNat + z.data.toNat) % 2 ^ 64 ∧ q.win = min y.win z.win ∧ q.pa = r.pa) ∧
      ∀ h g1 d1 a1 v1 w1 b1 sn1 n1 g2 d2 a2 v2 w2 b2 sn2 n2 p1 p2, l.find? r.pairs = some h → r.slots = [p1] → h.slots = [p2] →
        r.i = .qpush g1 d1 a1 v1 w1 b1 → (s.slot p1.1).st = .park (.welt r.id) (.qpush g1 d1 a1 v1 w1 b1) sn1 n1 →
        (s.slot p2.1).st = .park (.welt h.id) (.qpop g2 d2 a2 v2 w2 b2) sn2 n2 →
        let st : W64 := BitVec.ofNat 64 ((r.stage + 1) * 2 ^ 8)
        exec (.weltSwitchArrival id) s = .next (served
          (served (left h) p2.1 fun c => (c.setG d2 st).setV v2 (r.data.zeroExtend 1024)) p1.1 fun c => c.setG d1 st)) ∧
    (∀ id, exec (.pairingWindowExpiry id) s = .next { s with welt := s.welt.map fun q =>
      if q.id = id ∧ q.held = true ∧ q.expires ≤ s.cycle then { q with held := false, stage := q.stage + 1 } else q }) ∧
    ∀ id r p l g d a b o f wait spill sn n, s.replies.find? (fun r => r.id == id) = some r → r.slots = p :: l →
      wait = .combined r.id ∨ wait = .welt r.id →
      let y := s.slot p.1
      y.st = .park wait (.amo g d a b o f) sn n ∨ y.st = .drain spill wait (.amo g d a b o f) sn n →
      let rest := s.replies.filter fun q => q.id != id
      let t : State := { s with replies := if l = [] then rest else rest ++ [{ r with slots := l }] }
      (r.trap = none → exec (.combinedReplySplit id) s = .next (served t p.1 fun c => c.setG d (r.old + p.2))) ∧
      ∀ cause, r.trap = some cause → exec (.combinedReplySplit id) s = .next (t.reply p.1 (some ⟨cause, y.ctx.getG a⟩))

/-- R210, R219, R233, R301, R334, R337, R338, R340, R342 and R343: what matrix units, copy engines, permit queues and translation
units do next. A remote command carries the sender's decode tables (R216), and a station's landing waits for its earlier packets
(R189). A transfer that is over sends its wake-ups, and once they are answered its record is stored, where the store has room and
its thread takes one; the oldest `cpyq` that waits takes the entry.
It rests also on the model's own choice or reading where the rules are silent: log entries 45, 46, 47, 49, 50, 66 and 115. -/
def Obligations.EngineEvents : Prop :=
  ∀ (core : Nat) (s : State),
    let c := caTileOf core
    let u := s.unit c
    let eng := s.eng c
    (∀ k gd d a b data n, (s.slot k).st = .park .flight (.mcmd gd d a b) data n → (s.slot k).out = [] →
      let x := s.slot k
      let tgt := caTileOf (x.ctx.getG a).toNat
      let y := s.unit tgt
      let r := s.matRegs (caCore k) x.ctx
      let e := blkCmd data { r with ta := DecTab.unpacked (data.drop 64), tb := DecTab.unpacked (data.drop 1097) } k s.stamp
      s.overtakes 4 (caCore k) n [tgt] = false → y.claimed = true → BitVec.ofNat 64 (leNat (data.take 8)) = s.capability tgt → (x.ctx.ten = 0 ∨ x.ctx.ten = y.tenant) →
      y.queue.length < 4 → y.fault = false → e.kind < 4 → (BitVec.ofNat 64 (leNat ((data.drop 8).take 8)) : W64).toNat / 2 ^ 42 = 0 →
      e.formsOk = true → ∃ t : State, exec (.matrixRemoteCommand k) s = .next t ∧
        t.unit tgt = { y with queue := y.queue ++ [if e.kind = 3 then { e with tile := e.db.toNat / 2 ^ 40 % 4 } else e] } ∧ (t.slot k).wait = some (.reply none) ∧
        (t.slot k).after.getD (t.slot k).ctx = (x.after.getD x.ctx).setGIn x.ctx.uih d 0) ∧
    (∀ e rest, u.op = none → u.ending = false → s.ownWaiting c = none → u.queue = e :: rest → e.alignTrap = none →
      (s.setUnit c { u with queue := rest }).cmdTrap c u.tenant (s.slot u.owner).ctx e = none → ∃ t : State,
      exec (.matrixOpStart core) s = .next t ∧ t = { s with mat := t.mat } ∧ (t.unit c).queue = rest ∧
        (t.unit c).op = some ⟨e, false, 0, false⟩) ∧
    (∀ l r j n, l.length = 64 → BlkHolds l r j n (blkCmd l r j n)) ∧ (∀ r : CopyReq, NextChunk r r.chunk r.need) ∧
    (u.op ≠ none → Idle s (.matrixOpStart core)) ∧
    (u.op = none → Idle s (.matrixKstepComplete core)) ∧
    (∀ o l f, u.op = some o → o.cmd.kind = 1 → o.cmd.tile < 4 →
      let w := s.correctSpans (s.stepSpans c u.tenant o.cmd o.step)
      w.kstep c u.tenant o.cmd o.step (u.tile o.cmd.tile) = .ok (l, f) → l.length = 1024 → (∀ y ∈ l, y < 2 ^ 32) → o.step + 1 < o.cmd.steps → u.ending = false → ∃ t : State,
      exec (.matrixKstepComplete core) s = .next t ∧ t = { w with mat := t.mat } ∧ (t.unit c).tile o.cmd.tile = l ∧
        (t.unit c).flags = u.flags ||| f ∧ (t.unit c).op = some { o with step := o.step + 1 } ∧
        ∀ j, j < 4 → j ≠ o.cmd.tile → (t.unit c).tile j = u.tile j) ∧
    (∀ r, eng.reqs.find? (fun r => !r.running) = some r → (eng.reqs.filter fun r => r.running).length < 4 →
      exec (.copyTransferStart core) s = .next (s.modReq c r.id fun r => { r with running := true })) ∧
    (∀ id r, s.copyReq c id = some r →
      let ch := r.chunk
      let same (r' : CopyReq) : Prop := r' = { r with
        staged := r'.staged, held := r'.held, asked := r'.asked, retry := r'.retry, done := r'.done, wrote := r'.wrote
        pcnt := r'.pcnt, bad := r'.bad }
      (∀ n l, r.moving = true → 8 * r.staged.length < ch.n → r.src.toNat / 2 ^ 60 ≠ 1 →
        s.stageWords c r (min (max n 1) (ch.n / 8 - r.staged.length)) (r.src + BitVec.ofNat 64 (r.done + 8 * r.staged.length)) = .ok l →
        exec (.copyChunk core id n) s = .next ((s.staged l).modReq c id fun r => { r with staged := r.staged ++ l.map Prod.snd })) ∧
      (∀ n t, r.moving = true → ch.n ≤ 8 * r.staged.length → ch.core = some t → 0 < smGet 0 r.held t →
        (r.tenant.toNat % 256 = 0 ∨ (s.tcmOwner t).toNat = r.tenant.toNat % 256) →
        s.runOk t ch.dst.toNat (8 * r.staged.length) = true → s.overtakes 3 (c + 2 ^ 19) s.stamp [t] = false → NoWaiters s t → (∀ e ∈ r.staged, e.2 = false) →
        ∃ (t' : State) (r' : CopyReq), exec (.copyChunk core id n) s = .next t' ∧ t'.copyReq c id = some r' ∧ same r' ∧
          r'.done = r.done + ch.n ∧ r'.staged = [] ∧ r'.pcnt = r.pcnt ∧ smGet 0 r'.held t + 1 = smGet 0 r.held t ∧
          Counts (s.box t r.tag) (t'.box t r.tag) r.nanrd (BitVec.ofNat 32 (c + 2 ^ 19)) ∧
          ∀ j e, r.staged[j]? = some e → t'.readW (paTcm t ch.dst.toNat + 8 * j) = e.1) ∧
      (∀ t n, r.moving = true → r.asked = none → r.retry = none → ch.core = some t → caTileOf t = t → n = r.need - smGet 0 r.held t → n ≠ 0 →
        s.permitQueue t = [] →
        (s.permit t r.tag = 0 → ∃ t' : State, exec (.permitRequest core id) s = .next t' ∧ t'.permitQueue t = [⟨c, id, r.tag, n⟩] ∧
          ∃ r', t'.copyReq c id = some r' ∧ same r' ∧ r'.asked = some t) ∧
        (s.permit t r.tag ≠ 0 → ∃ t' : State, exec (.permitRequest core id) s = .next t' ∧ t'.permitQueue t = [] ∧
          (t'.permit t r.tag).toNat = (s.permit t r.tag).toNat - n ∧
          ∃ r', t'.copyReq c id = some r' ∧ same r' ∧ r'.asked = none ∧
            smGet 0 r'.held (caTileOf t) = smGet 0 r.held (caTileOf t) + min (s.permit t r.tag).toNat n)) ∧
      (∀ n, r.retry = some n → n ≤ s.cycle → ∃ (t : State) (r' : CopyReq), exec (.permitRetryTimeout core id) s = .next t ∧
        t = { s with copy := t.copy } ∧ t.copyReq c id = some r' ∧ same r' ∧ r'.retry = none) ∧
      let fin : Prop := r.running = true ∧ (r.fault.isSome = true ∨ r.len ≤ r.done)
      let tells : Prop := r.intr = true ∧ r.handler ≠ 0 ∧ r.tid ≠ 0
      let wakesNow : Prop := r.fault = none ∧ r.wake = true ∧ r.targets ≠ [] ∧ r.wakes = none
      let answered : Prop := ∀ w ∈ r.wakes.getD [], ∀ x ∈ s.wakes, x.id ≠ w
      (¬fin → Idle s (.copyCompletion core id)) ∧
      (fin → wakesNow → ∃ (t : State) (ws : List Wake) (v : W64), exec (.copyCompletion core id) s = .next t ∧ DoneWord r v ∧
        t.wakes = s.wakes ++ ws ∧ ws.length = r.targets.length ∧ t.copyReq c id = some { r with wakes := some (ws.map fun x => x.id) } ∧
        ∀ (j : Nat) (w : Wake) (k : Nat), ws[j]? = some w → r.targets[j]? = some k → w.core = k ∧ w.mb = r.tag ∧
          w.tenant = r.tenant.toNat % 256 ∧ w.nanrd = r.nanrd ∧ w.sender = BitVec.ofNat 32 (c + 2 ^ 19) ∧
          w.header.toNat = (c + 2 ^ 19) % 2 ^ 24 + r.tag % 16 * 2 ^ 32 + (if r.nanrd then 2 ^ 36 else 0) + 2 * 2 ^ 37 +
            r.id % 2 ^ 16 * 2 ^ 40 + 2 ^ 63 ∧
          w.payload.extractLsb' 0 64 = v ∧ (w.payload.extractLsb' 64 64) = BitVec.ofNat 64 (r.bytesAt j) ∧
          w.payload.toNat < 2 ^ 128) ∧
      (∀ j, r.dist = true → j < r.targets.length → 0 < r.bsize → r.bytesAt j = dealtBytes r.len r.bsize r.targets.length j) ∧
      (∀ j, r.dist = false → r.bytesAt j = r.len) ∧
      (fin → ¬wakesNow → ¬answered → Idle s (.copyCompletion core id)) ∧
      (fin → ¬wakesNow → answered → tells → 16 ≤ eng.recs.length → Idle s (.copyCompletion core id)) ∧
      (fin → ¬wakesNow → answered → (tells → eng.recs.length < 16) →
        let first := (s.waiting (· == Wait.copyFifo)).find? fun k => caCore k == c
        ∃ (t : State) (p : CopyPast), exec (.copyCompletion core id) s = .next t ∧
          p.id = r.id ∧ p.tenant = r.tenant ∧ DoneWord r p.status ∧ p.bytes = BitVec.ofNat 64 (r.done + 8 * r.wrote) ∧
          p.bad = (if r.fault = none ∧ r.pcnt = 0 then 0 else BitVec.ofNat 64 (r.bad.getD 0)) ∧
          (t.eng c).past = (eng.past ++ [p]).drop (eng.past.length - 15) ∧ (¬tells → (t.eng c).recs = eng.recs) ∧
          (tells → ∃ e : CopyRec, (t.eng c).recs = eng.recs ++ [e] ∧ e.id = r.id ∧ e.tid = r.tid ∧ e.handler = r.handler ∧
            e.status = p.status ∧ e.bytes = p.bytes ∧ e.bad = p.bad ∧ e.order = s.stamp) ∧
          (first = none → (t.eng c).reqs = (eng.reqs.filter fun q => q.id != r.id) ∧
            t = { s with copy := t.copy, stamp := t.stamp }) ∧
          ∀ k gd d a blk snap n, first = some k → (s.slot k).st = .park .copyFifo (.cpyq gd d a blk) snap n →
            (eng.reqs.filter fun q => q.id != r.id).length < 8 →
            ∃ (q : CopyReq) (n' : W64), (t.eng c).reqs = (eng.reqs.filter fun q => q.id != r.id) ++ [q] ∧ n'.toNat = q.id ∧
              1 ≤ q.id ∧ q.id < 2 ^ 16 ∧ q.tid = (s.slot k).tid ∧ q.running = false ∧ q.done = 0 ∧
              q.len = ((s.slot k).ctx.getG (a + 2)).toNat % 2 ^ 40 ∧ (t.slot k).wait = some (.reply none) ∧
              (t.slot k).after.getD (t.slot k).ctx = ((s.slot k).after.getD (s.slot k).ctx).setGIn (s.slot k).ctx.uih d n')) ∧
    ∀ die tenant va, die < 8 → tenant < 256 → va < 2 ^ 57 → s.cached die tenant va = none →
      (s.walk tenant va 4 (s.tt tenant 3) = none → Idle s (.translationWalkComplete die tenant va)) ∧
      ∀ pte, s.walk tenant va 4 (s.tt tenant 3) = some pte →
        let k := pte.toNat / 2 ^ 4 % 16
        exec (.translationWalkComplete die tenant va) s = .next
          { s with tlb := s.tlb ++ [⟨die, tenant, va / (4096 * 2 ^ k) * (4096 * 2 ^ k), k, pte⟩] }

/-! ## The board -/

/-- R149, R242 to R244: blocks move and their moves end; layers fault, wake, return and power down; taps, buses and SRAM banks
leave service, and the blocks that stood there move or are lost.
A row that fails in a TCM bank, and a bank that fails in a scratchpad, is remapped while a spare is left.
It rests also on the model's own choice or reading where the rules are silent: log entries 51, 52, 53, 57, 66 and 109. -/
def Obligations.BoardEvents : Prop :=
  ∀ (s : State),
    (∀ tenant handle block dest,
      let x := s.blk tenant handle block
      let home := s.blockHome tenant handle block
      let may : Prop := s.mgmt.stalled = false ∧ Stands s tenant handle block ∧ x.dest = none ∧
        coreAddressOk (BitVec.ofNat 64 dest) = true ∧ caKind dest = .bank ∧ caSlot dest = 0 ∧ dest < 2 ^ 24 ∧
        s.inService dest = true ∧ s.layer (caDie dest) (caLayer dest) < 2 ∧ s.placesTaken.count dest < 2048 ∧ caDie dest = caDie home ∧ dest ≠ home ∧
        s.layer (caDie home) (caLayer home) ≠ 3 ∧ s.inMotion (caDie home) < 64
      (may → exec (.blockRelocation tenant handle block dest) s = .next
        { s with blks := smSet Blk.placed s.blks (blkKey tenant handle block) { x with dest := some dest } }) ∧
      (¬may → Idle s (.blockRelocation tenant handle block dest)) ∧
      (∀ d, x.dest = some d → ∃ t : State, exec (.relocationCutover tenant handle block) s = .next t.repost ∧ t = { s with blks := t.blks } ∧
        t.blockHome tenant handle block = d ∧ (t.blk tenant handle block).dest = none ∧
        ∀ key, key ≠ blkKey tenant handle block → smGet Blk.placed t.blks key = smGet Blk.placed s.blks key) ∧
      (x.dest = none → Idle s (.relocationCutover tenant handle block))) ∧
    (∀ stack layer, stack < 8 → layer < 8 →
      let here (n : Nat) : Prop := caDie n = stack ∧ caLayer n = layer
      let at_ (x : Nat × Nat × Nat) : Prop := here (s.blockHome x.1 x.2.1 x.2.2) ∨ ∃ d, (s.blk x.1 x.2.1 x.2.2).dest = some d ∧ here d
      (∃ t : State, exec (.layerFault stack layer) s = .next t.shedStores.repost ∧ t.layer stack layer = 3 ∧
        (∀ n m, m < 8 → (n ≠ stack ∨ m ≠ layer) → t.layer n m = s.layer n m) ∧ t.mem = s.mem ∧
        (∀ k o, o ∈ (t.shedStores.slot k).out → t.storeGone o = false) ∧
        ∀ k w a, (s.slot k).wait = some w → w.word = some a → here (s.bankOf a) →
          (t.slot k).wait = some (.reply (some ⟨0x0A, BitVec.ofNat 64 a⟩))) ∧
      (s.layer stack layer = 1 → exec (.layerWake stack layer) s = .next (State.repost { s with layers := smSet 0 s.layers (stack * 8 + layer) 0 })) ∧
      (s.layer stack layer ≠ 1 → Idle s (.layerWake stack layer)) ∧
      (s.layer stack layer = 3 → ∃ t : State, exec (.layerReturnActive stack layer) s = .next t ∧
        t = { s with layers := t.layers, bad := t.bad } ∧ t.layer stack layer = 0 ∧
        (∀ a, s.isBad a = true → t.isBad a = true) ∧
        ∀ tenant handle block j, handle < 2 ^ 20 → Stands s tenant handle block → here (s.blockHome tenant handle block) → j < 512 →
          t.isBad (paStack tenant (2 ^ 62 + handle * 2 ^ 40 + block * 4096 + 8 * j)) = true) ∧
      (s.layer stack layer ≠ 3 → Idle s (.layerReturnActive stack layer)) ∧
      (s.layer stack layer < 2 → (∀ x ∈ s.liveBlocks, ¬at_ x) →
        exec (.plannedPowerDown stack layer) s = .next { s with layers := smSet 0 s.layers (stack * 8 + layer) 2 }) ∧
      (2 ≤ s.layer stack layer ∨ (∃ x ∈ s.liveBlocks, at_ x) → Idle s (.plannedPowerDown stack layer))) ∧
    (∀ tile (taps : BitVec 2),
      let stack := caDie tile
      let groups := ((List.range 16).filter fun n => taps.getLsbD (n % 2)).map (groupOf (caTileOf tile))
      let out := s.retire groups
      let room := (((List.range 1024).flatMap fun i => stationBanks (caOfIndex stack i)).map fun g =>
        if out.groupUsable g then 2048 - out.placesTaken.count g else 0).sum
      ∃ t : State, exec (.tapRetirement tile taps) s = .next t.repost ∧ (∀ g, t.inService g = (s.inService g && !groups.contains g)) ∧
        (∀ x ∈ s.blocksIn groups, (t.blk x.1 x.2.1 x.2.2).lost = true ∨
          ∃ g, (t.blk x.1 x.2.1 x.2.2).home = some g ∧ g ∉ groups ∧ caDie g = stack) ∧
        ((s.objs.map Prod.fst).Nodup → (∀ e ∈ s.objs, e.2.size ≤ 2 ^ 40) → (s.blocksIn groups).length ≤ room →
          ∀ x ∈ s.blocksIn groups, (t.blk x.1 x.2.1 x.2.2).lost = false)) ∧
    (∀ tile,
      let groups := (List.range 16).map (groupOf (caTileOf tile))
      ∃ t : State, exec (.busFailure tile) s = .next t.repost ∧ (∀ g, t.inService g = (s.inService g && !groups.contains g)) ∧
        ∀ x ∈ s.blocksIn groups, (t.blk x.1 x.2.1 x.2.2).lost = true) ∧
    (∀ core bank,
      let c := caTileOf core
      let b := 16 * c + bank
      let i : Instr := .tcmBankRetirement core bank
      let noted (kind : Nat) : Mgmt := { s.mgmt with repairs := s.mgmt.repairs ++ [(kind, b)] }
      (16 ≤ bank ∨ s.tcmOk c (bank * 2 ^ 13) = false → Idle s i) ∧
      (bank < 16 → s.tcmOk c (bank * 2 ^ 13) = true →
        (smGet 0 s.spareRows b < 4 → exec i s = .next
          { s with spareRows := smSet 0 s.spareRows b (smGet 0 s.spareRows b + 1), mgmt := noted 0 }) ∧
        (4 ≤ smGet 0 s.spareRows b → s.coreHolds c (· != 0) = true → Idle s i) ∧
        (4 ≤ smGet 0 s.spareRows b → s.coreHolds c (· != 0) = false → ∃ t : State, exec i s = .next t ∧
          t = { s with tbankOut := t.tbankOut, mgmt := noted 1 } ∧
          ∀ k off, t.tcmOk k off = (s.tcmOk k off && !(decide (caTileOf k = c) && decide (off / 2 ^ 13 = bank)))))) ∧
    ∀ q,
      let busy : Prop := ∃ c ∈ clusterCores q, s.coreHolds c (· != 0) = true
      let i : Instr := .scratchpadBankRetirement q
      let noted : Mgmt := { s.mgmt with repairs := s.mgmt.repairs ++ [(2, q)] }
      let fails := smGet 0 s.spadFails q
      let half : Prop := smGet false s.spad32 q = true
      (512 ≤ q ∨ half → Idle s i) ∧
      (q < 512 → ¬half →
        (fails < 4 → exec i s = .next { s with spadFails := smSet 0 s.spadFails q (fails + 1), mgmt := noted }) ∧
        (4 ≤ fails → busy → Idle s i) ∧
        (4 ≤ fails → ¬busy → ∃ t : State, exec i s = .next t ∧ t = { s with spad32 := t.spad32, mgmt := noted } ∧
          ∀ cx cy, cx < 32 → t.spadSize cx cy = if cy * 32 + cx = q then 2 ^ 20 else s.spadSize cx cy))

/-! ## The host and the dispatch units -/

/-- R62, R278 to R286, R298, R366, R367, R374 and R375: what the host reads and writes, the push and the pop of a launch record, a header that
becomes tasks, a task that becomes a thread, the retry of a unit, and the end of a launch.
It rests also on the model's own choice or reading where the rules are silent: log entries 35, 36, 38, 59, 60, 62, 66 and 118. -/
def Obligations.HostAndDispatchEvents : Prop :=
  (∀ (fn off : Nat) (stream : Bool) (s : State),
    let x := s.fn fn
    let m := s.mgmt
    let open_ : Prop := (s.tt fn 0).getLsbD 1 = false ∨ stream = true ∧ x.ide = true
    let there : Prop := s.stopped = false ∧ fn < 256 ∧ (m.ready = true ∨ fn = 0 ∧ m.recov = true) ∧ open_
    let reads (v : W64) : Prop := s.hostRead fn off stream = some v
    let part (pos width value : Nat) : Prop := ∃ v, reads v ∧ v.toNat / 2 ^ pos % 2 ^ width = value
    let base := if fn = 0 then 0x180 else 0x1180
    (s.stopped = true → s.hostRead fn off stream = none) ∧
    (s.stopped = false → fn = 0 → off = 0 → open_ → ∃ v, reads v ∧ v.toNat = m.stage % 8 + (if m.recov then 8 else 0) + (if m.rrbad then 16 else 0) +
      if m.ready then 32 else 0) ∧
    (¬there → fn ≠ 0 ∨ off ≠ 0 → s.hostRead fn off stream = none) ∧
    (there →
      (m.ready = false → off ≠ 0 → off < base ∨ base + 0x40 ≤ off → s.hostRead fn off stream = none) ∧
      (m.ready = true → base ≤ off + 0x80 → off < base → reads 0) ∧ (off = base → reads x.status) ∧ (off = base + 8 → reads x.seq) ∧
      (off = base + 16 → reads x.olen) ∧
      (fn ≠ 0 →
        (off < 0x1000 → reads 0) ∧ (off = 0x1040 → reads (x.taken.zeroExtend 64)) ∧ (off = 0x1048 → reads (x.drop.zeroExtend 64)) ∧
        (off = 0x1050 → reads (x.pushed.zeroExtend 64)) ∧
        ∀ k, k < 32 → off = 0x1000 + k / 4 * 8 → part (k % 4 * 16) 16 (smGet 0 x.wbits k).toNat) ∧
      (fn = 0 → m.ready = true → ∀ stack, stack < 8 →
        let at_ := 0x1000 + 512 * stack
        (off = at_ + 0x1A0 → reads ((smGet 0 m.thr stack).zeroExtend 64)) ∧ (off = at_ + 0x1A8 → reads ((smGet 0 m.pwr stack).zeroExtend 64)) ∧
        ∀ j, j < 144 →
          (off = at_ + j / 8 * 8 → part (j % 8 * 8) 8 (smGet 0 m.temp (512 * stack + j)).toNat) ∧
          (off = at_ + 0x100 + j / 8 * 8 → part (j % 8 * 8) 8 (smGet 0 m.valve (512 * stack + j)).toNat)))) ∧
  (∀ (fn off : Nat) (data : List W64) (whole stream : Bool) (s : State),
    let x := s.fn fn
    let there : Prop := fn < 256 ∧ (s.mgmt.ready = true ∨ fn = 0 ∧ s.mgmt.recov = true) ∧
      ((s.tt fn 0).getLsbD 1 = false ∨ stream = true ∧ x.ide = true)
    let Both (t : State) : Prop := exec (.hostRegisterWrite fn off data whole stream) s = .next t ∧
      (fn ≠ 0 → exec (.launchWindowWrite fn off data whole stream) s = .next t)
    let base := if fn = 0 then 0x100 else 0x1100
    Idle s (.launchWindowWrite 0 off data whole stream) ∧
    (¬there → Both s) ∧
    (there → fn ≠ 0 → (whole = false ∨ off % 8 ≠ 0) → Both (withFn s fn (dropsOne x))) ∧
    ∀ v, there → whole = true → off % 8 = 0 → data = [v] →
      (fn ≠ 0 → off < 0x1000 →
        let k := off / 128
        let j := off / 8 % 16
        let y := { x with recs := smSet 0 x.recs (16 * k + j) v, wbits := smSet 0 x.wbits k (smGet 0 x.wbits k ||| 1#16 <<< j) }
        let z := { y with wbits := smSet 0 y.wbits k 0 }
        (x.taken.getLsbD k = true → Incomplete x 32 → Both (withFn s fn (dropsOne x))) ∧
        (x.taken.getLsbD k = false → Incomplete y 32 → Both (withFn s fn y)) ∧
        (x.taken.getLsbD k = false → Incomplete y k → smGet 0 y.wbits k = 0xFFFF#16 →
          ((s.tt fn 0).getLsbD 0 = false → Both (withFn s fn z)) ∧
          ((s.tt fn 0).getLsbD 0 = true → x.pushes = [] → s.liveQueue fn (s.tt fn 1) = none → Both (withFn s fn { z with
            taken := z.taken ||| 1#32 <<< k, pushes := [(k, (List.range 16).map fun j => smGet 0 y.recs (16 * k + j))] })))) ∧
      (fn ≠ 0 → off = 0x1048 → Incomplete x 32 → Both (withFn s fn { x with drop := v.truncate 32 })) ∧
      (base ≤ off → off < base + 0x80 →
        let j := (off - base) / 8
        let y := { x with cmd := smSet 0 x.cmd j v, marks := x.marks ||| 1#16 <<< j }
        let z := { y with marks := 0, busy := true }
        let op := smGet 0 y.cmd 0
        (fn ≠ 0 → x.busy = true → Incomplete x 32 → Both (withFn s fn (dropsOne x))) ∧
        (x.busy = false → Incomplete y 32 → Both (withFn s fn y)) ∧
        (x.busy = false → y.marks = 0xFFFF#16 → (∀ k, k < 32 → smGet 0 y.wbits k ≠ 0xFFFF#16) →
          (∀ code, (withFn s fn z).cmdRefused fn = some code → Both (withFn s fn { z with
            busy := false, status := BitVec.ofNat 64 code, olen := 0, seq := smGet 0 y.cmd 1 })) ∧
          ((withFn s fn z).cmdRefused fn = none → Both (withFn s fn z)) ∧
          (s.mgmt.recov = false → op ≠ 1 → op ≠ 2 → op ≠ 0x10 → (withFn s fn z).cmdRefused fn = some 1) ∧
          (s.mgmt.recov = true → op ≠ 0x10 → (withFn s fn z).cmdRefused fn = some 6)))) ∧
  (∀ (fn : Nat) (s : State),
    let x := s.fn fn
    (x.pushes = [] ∨ s.liveQueue fn (s.tt fn 1) = none → Idle s (.launchPushStored fn)) ∧
    (∀ pa, s.liveQueue fn (s.tt fn 1) = some pa → s.isHeld pa = true ∨ s.runGone pa 64 = true → Idle s (.launchPushStored fn)) ∧
    ∀ k l rest pa, x.pushes = (k, l) :: rest → s.liveQueue fn (s.tt fn 1) = some pa → s.isHeld pa = false → s.runGone pa 64 = false →
      s.parkedAt pa false = [] →
      let q := s.queue pa
      let e0 := entryOf (l.take 8)
      let e1 := entryOf (l.drop 8)
      let q1 := { q with entries := q.entries ++ [(e0, false)], pushes := q.pushes + 1 }
      let q2 := { q with entries := q.entries ++ [(e0, false), (e1, false)], pushes := q.pushes + 2 }
      (q2.used ≤ q.cap → ∃ t : State, exec (.launchPushStored fn) s = .next t ∧ t.queue pa = q2 ∧ t.slots = s.slots ∧
        t.fn fn = { x with pushes := rest, taken := x.taken &&& ~~~(1#32 <<< k), pushed := x.pushed + 1 }) ∧
      (q.cap < q1.used → s.poolFree q.tenant.toNat = 0 → Idle s (.launchPushStored fn))) ∧
  (∀ (die tenant : Nat) (s : State), s.liveQueue tenant (s.tt tenant 1) = none → Idle s (.launchPop die tenant)) ∧
  (∀ (tenant pa : Nat) (s : State), s.liveQueue tenant (s.tt tenant 1) = some pa →
    let die := caDie (s.bankOf pa)
    let q := s.queue pa
    (q.entries.length < 2 ∨ s.isHeld pa = true ∨ s.runGone pa 64 = true → Idle s (.launchPop die tenant)) ∧
    ∀ e0 e1 rest, s.isHeld pa = false → s.runGone pa 64 = false → q.mode = 0 → q.entries = (e0, false) :: (e1, false) :: rest → s.parkedAt pa true = [] →
      let h (j : Nat) : W64 := if j < 16 then BitVec.ofNat 64 (lane (if j < 8 then e0 else e1) 64 (j % 8)) else 0
      let ok := s.headerOk (BitVec.ofNat 64 tenant) h
      (ok = true ↔ HeaderForm s (BitVec.ofNat 64 tenant) h) ∧
      let norm (v : W64) : W64 := if v = 0xFFFFFFFFFFFFFFFF#64 then packageRect else v
      ∃ (t : State) (l : Launch), exec (.launchPop die tenant) s = .next t ∧ t.launches = s.launches ++ [l] ∧
        l.tenant = BitVec.ofNat 64 tenant ∧ l.lnum = lnumAfter tenant (smGet 0 s.lnums tenant) ∧
        smGet 0 t.lnums tenant = smGet 0 s.lnums tenant + 1 ∧
        (∀ j, j < 16 → l.at_ j = if j = 1 ∨ j = 5 then norm (h j) else h j) ∧ l.done = false ∧ l.refused = !ok ∧ l.failed = !ok ∧
        (ok = true → l.toDies = (rectOf (l.at_ 1)).dies ∧ (t.queue pa).entries = rest) ∧ (ok = false → l.toDies = [])) ∧
  (∀ (die idx : Nat) (s : State) (l : Launch), s.launches[idx]? = some l →
    let r := rectOf (l.at_ 1)
    let f (wid : W64) : Vector W64 8 := #v[l.at_ 0, wid, l.at_ 10, l.at_ 11, l.at_ 12, l.at_ 13, l.at_ 4 &&& 7, l.at_ 1]
    let Takes (t : State) : Prop := exec (.launchHeaderArrival die idx) s = .next t ∧
      t.launches[idx]? = some { l with toDies := l.toDies.filter (· != die) }
    let first : Prop := die ∈ l.toDies ∧ ∀ m ∈ s.launches.take idx, m.tenant = l.tenant → die ∉ m.toDies
    let cores := ((List.range 1024).map (caOfIndex die)).filter fun c =>
      decide (r.xlo ≤ caX c ∧ caX c ≤ r.xhi ∧ r.ylo ≤ caY c ∧ caY c ≤ r.yhi) && s.coreEnabled c && !isCobbler c
    let made : List (Nat × Vector W64 8 × Option Nat) :=
      if (l.at_ 4).getLsbD 4 = true then (if caDie (caTile r.xlo r.ylo) = die then [(die, f 0, none)] else [])
      else cores.map fun c => (die, f (BitVec.ofNat 64 c), some c)
    let room : Prop := s.taskCount l.tenant die + made.length ≤ (s.tt (l.tenant.toNat % 256) 8).toNat ∧ TableRoom s die made.length
    (¬first → Idle s (.launchHeaderArrival die idx)) ∧
    (first → l.failed = true → ∃ t, Takes t ∧ t.tasks = s.tasks) ∧
    (die < 8 → first → l.failed = false → room → ∃ t, Takes t ∧ TasksEnter s t l.tenant l.lnum made) ∧
    (die < 8 → first → l.failed = false → ¬room → Idle s (.launchHeaderArrival die idx))) ∧
  (∀ (die task core : Nat) (s : State), task < 2 ^ 16 →
    let key := die * 2 ^ 16 + task
    let x := s.task key
    (x.st ≠ .ready ∨ s.taskFits die x core = false → Idle s (.taskDispatch die task core)) ∧
    ∀ l k rest, s.launch x.tenant x.lnum = some l → s.nextStart die = some ⟨x.cls, x.tenant.toNat, 1, x.order⟩ →
      s.dispatchSlots core x.bound.isSome = k :: rest → x.st = .ready → s.taskFits die x core = true →
      ∃ (t : State) (p : Pkt), exec (.taskDispatch die task core) s = .next t ∧ p ∈ t.pkts ∧ p.kind = .task ∧ p.core = core ∧
        p.slot = some k ∧ p.landed = false ∧ p.tid = s.nextTid ∧ IsTaskThread p.ctx x l ∧
        t.task key = { x with st := .dispatched, tid := s.nextTid, slot := k } ∧ ∀ y, y ≠ key → t.task y = s.task y) ∧
  (∀ (idx : Nat) (s : State) (l : Launch), s.launches[idx]? = some l →
    (l.redo = [] → Idle s (.containmentRetry idx)) ∧
    ∀ level u rest, l.redo = (level, u) :: rest →
      let low := shapeLow (l.at_ 2) level
      let inside (tenant lnum wid : W64) : Prop := tenant = l.tenant ∧ lnum = l.lnum ∧ wid >>> low = u
      let mine (c : Task) : Bool := c.at_ 1 >>> low == u
      let again : Launch := { l with
        redo := rest
        retries := l.retries.map fun r => if r.1 = level ∧ r.2.1 = u then (r.1, r.2.1, r.2.2 + 1) else r }
      ((∃ e ∈ s.threads, inside e.2.tenant e.2.lnum e.2.wid) → Idle s (.containmentRetry idx)) ∧
      ((∀ e ∈ s.threads, ¬inside e.2.tenant e.2.lnum e.2.wid) →
        (l.copies.filter mine = [] → ∃ t : State, exec (.containmentRetry idx) s = .next t ∧ t = { s with launches := t.launches } ∧
          t.launches[idx]? = some again) ∧
        let work := l.copies.filter mine
        let room : Prop := ∀ die, die ∈ work.map (fun c => caDie c.slot) → TableRoom s die (work.countP fun c => caDie c.slot = die)
        (room → ∃ t : State, exec (.containmentRetry idx) s = .next t ∧
          t.launches[idx]? = some { again with copies := l.copies.filter fun c => !mine c } ∧
          TasksEnter s t l.tenant l.lnum (work.map fun c =>
            (caDie c.slot, c.f.setIfInBounds 6 (c.at_ 6 &&& ~~~0xFFFF0000#64), c.bound))) ∧
        (¬room → Idle s (.containmentRetry idx)))) ∧
  ∀ (die idx : Nat) (s : State) (l : Launch), s.launches[idx]? = some l →
    let over_ : Prop := l.toDies = [] ∧ l.redo = [] ∧ (∀ e ∈ s.threads, ¬(e.2.tenant = l.tenant ∧ e.2.lnum = l.lnum)) ∧
      ∀ e ∈ s.tasks, (e.2.st = .wait ∨ e.2.st = .ready) → ¬(e.2.tenant = l.tenant ∧ e.2.lnum = l.lnum)
    let u : State := { s with
      pins := s.pins.filter fun p => !(p.tenant == l.tenant && p.lnum == l.lnum), launches := s.launches.eraseIdx idx }
    let ea := l.at_ 6
    (¬over_ → Idle s (.dispatchCountReport die idx)) ∧
    (over_ → (∀ e ∈ s.resv, ∀ k, e.2 = some k → ¬(k.tenant = l.tenant ∧ k.lnum = l.lnum)) →
      (ea = 0 → exec (.dispatchCountReport die idx) s = .next u) ∧
      (ea.toNat / 2 ^ 60 = 4 ∨ ea.toNat / 2 ^ 60 = 8 →
        (∀ pa, u.completionAt die (l.tenant.toNat % 256) ea = .ok pa → s.isHeld pa = true → Idle s (.dispatchCountReport die idx)) ∧
        (∀ pa, u.completionAt die (l.tenant.toNat % 256) ea = .ok pa → s.isHeld pa = false → exec (.dispatchCountReport die idx) s = .next
          (u.storeBytes pa (bytesOf 8 (if l.failed then l.at_ 7 ||| 0x8000000000000000#64 else l.at_ 7 &&& 0x7FFFFFFFFFFFFFFF#64)))) ∧
        ∀ t, u.completionAt die (l.tenant.toNat % 256) ea = .error t → exec (.dispatchCountReport die idx) s = .next
          (u.postEvent (l.tenant.toNat % 256)
            [BitVec.ofNat 64 (t.cause.toNat + 2 ^ 8 + 7 * 2 ^ 16 + 4 * 2 ^ 19) ||| (l.lnum <<< 32), 0, ea, 0, 0,
              BitVec.ofNat 64 u.cycle, 0])))

/-! ## The management plane -/

/-- R14, R143, R364, R368 to R373 and R375: throttling and cooling, the stall of the ring, boot, the owners of memory, the tenant table and
the end of a tenant, peers, measurements, IDE, and the commands of the host.
It rests also on the model's own choice or reading where the rules are silent: log entries 56, 58, 61, 63, 66 and 84. -/
def Obligations.ManagementEvents : Prop :=
  ∀ (s : State),
    let cool : Prop := ∀ e ∈ s.mgmt.temp, e.2.toNat < 125
    (∀ die (level : BitVec 3),
      let hot : Prop := ∃ e ∈ s.mgmt.temp, e.1 / 512 = die ∧ 115 ≤ e.2.toNat
      let sets (v : BitVec 3) : Prop := exec (.throttleRequest die level) s = .next
        { s with mgmt := { s.mgmt with thr := smSet 0 s.mgmt.thr die v } }
      (s.mgmt.stalled = false → die < 8 → s.mgmt.ready = true → cool → (hot → sets 7) ∧ (¬hot → sets level)) ∧
      (s.mgmt.stalled = true ∨ 8 ≤ die ∨ s.mgmt.ready = false → Idle s (.throttleRequest die level))) ∧
    (∀ stack (temps valves : List Byte) (level : BitVec 3) (pwr : BitVec 32) (idle : BitVec 8),
      let i : Instr := .orreryTick stack temps valves level pwr idle
      let zone (j : Nat) : Byte := (temps[j]?).getD 0
      let hot := ((temps.take 144).filter fun b => decide (115 ≤ b.toNat)).length
      (8 ≤ stack ∨ s.mgmt.ready = false → Idle s i) ∧
      (stack < 8 → s.mgmt.ready = true → (∃ j, j < 144 ∧ 125 ≤ (zone j).toNat) → ∃ t : State, exec i s = .next t ∧ t.stopped = true ∧ t.slots = []) ∧
      (stack < 8 → s.mgmt.ready = true → cool → (∀ j, j < 144 → (zone j).toNat < 125) → ∃ t : State, exec i s = .next t ∧
        t = { s with mgmt := t.mgmt, layers := t.layers } ∧
        (∀ j, j < 144 → smGet 0 t.mgmt.temp (512 * stack + j) = zone j ∧ smGet 0 t.mgmt.valve (512 * stack + j) = (valves[j]?).getD 0) ∧
        smGet 0 t.mgmt.pwr stack = pwr ∧ t.mgmt.events = s.mgmt.events + hot ∧
        smGet 0 t.mgmt.thr stack = (if s.mgmt.stalled then smGet 0 s.mgmt.thr stack else if hot = 0 then level else 7) ∧
        ∀ l, l < 8 → t.layer stack l = if idle.getLsbD l = true ∧ s.layer stack l = 0 then 1 else s.layer stack l)) ∧
    (∀ b, exec (.managementRingStall b) s = .next { s with mgmt := { s.mgmt with stalled := b } }) ∧
    (∀ masks rows spads groups,
      let i : Instr := .packageReset masks rows spads groups
      let Boots (t : State) (stage : BitVec 3) : Prop := exec i s = .next t ∧ t.queues = [] ∧ t.objs = [] ∧ t.entries = [] ∧
        t.tasks = [] ∧ t.launches = [] ∧ t.spilled = [] ∧ t.pkts = [] ∧ t.mbox = [] ∧ t.mat = [] ∧ t.copy = [] ∧ t.cycle = 0 ∧
        t.stopped = false ∧ t.mgmt.ready = decide (stage = 5) ∧ t.mgmt.recov = decide (stage ≠ 5) ∧ t.mgmt.stage = stage.toNat ∧
        t.mgmt.flash = s.mgmt.flash ∧ t.mgmt.chain = s.mgmt.chain ∧ t.mgmt.repair = s.mgmt.repair ∧ t.mgmt.repairs = s.mgmt.repairs ∧
        t.peers = s.peers ∧ (∀ a, paOutside a = true → t.byte a = s.byte a) ∧
        ∀ a, paOutside a = false → (∀ die, die < 8 → ¬(paTcm (caCobbler die) 0 ≤ a ∧ a < paTcm (caCobbler die) 0x20000)) → t.byte a = 0
      let signed := Config.imageSigned s.mgmt.flash
      (signed = true → s.mgmt.flash.length ≤ 0x20000 → ∃ t, Boots t 5 ∧ t.tenantValid 0 = true ∧
        (∀ n, n ≠ 0 → smGet 0 t.tenants n = 0) ∧ t.mgmt.image = s.mgmt.flash ∧
        t.mgmt.rrbad = !Config.repairSigned s.mgmt.repair ∧
        (∀ j, j < 128 → ∀ n, n < 64 → (smGet allOnes t.coremask j).getLsbD n = true →
          ((masks[j]?).getD 0xFFFFFFFFFFFFFFFF#64).getLsbD n = true) ∧
        (Config.repairSigned s.mgmt.repair = false →
          ∀ j, j < 128 → smGet allOnes t.coremask j = (masks[j]?).getD 0xFFFFFFFFFFFFFFFF#64) ∧
        (Config.repairSigned s.mgmt.repair = true → (∀ core ∈ (Config.repairSays s.mgmt.repair).1, t.coreEnabled core = false) ∧
          ∀ g, coreAddressOk (BitVec.ofNat 64 g) = true → caKind g = .bank → caSlot g = 0 →
            g ∈ (Config.repairSays s.mgmt.repair).2.2.2 ∨ (3, g) ∈ s.mgmt.repairs → t.inService g = false) ∧
        (∀ k, (∀ die, die < 8 → k ≠ caCobbler die) → t.slot k = Slot.free) ∧
        ∀ die, die < 8 →
          let x := t.slot (caCobbler die)
          let at_ := x.ctx.pc.toNat
          x.st = .run ∧ x.ctx.priv = true ∧ x.ctx.cr.tenant = 0 ∧ at_ % 8 = 0 ∧ at_ < 0x20000 ∧
            at_ + s.mgmt.flash.length ≤ 0x20000 ∧ ∀ j b, s.mgmt.flash[j]? = some b → t.byte (paTcm (caCobbler die) (at_ + j)) = b) ∧
      (signed = true → 0x20000 < s.mgmt.flash.length → ∃ t, Boots t 2 ∧ t.slots = []) ∧
      (signed = false → ∃ t, Boots t 1 ∧ t.slots = [])) ∧
    (∀ unit tenant,
      let c := caTileOf unit
      let Owns (kind : Nat) (lo n : Nat) (R : State → Prop) : Prop :=
        ∃ t : State, exec (.memoryOwnerAssignment kind unit tenant) s = .next t ∧ R t ∧
          ∀ a, t.byte a = if lo ≤ a ∧ a < lo + n then 0 else s.byte a
      let old (k : Nat) : Bool := k == (s.tcmOwner c).toNat
      (256 ≤ tenant → ∀ kind, Idle s (.memoryOwnerAssignment kind unit tenant)) ∧
      (tenant < 256 → s.coreHolds c old = true → Idle s (.memoryOwnerAssignment 0 unit tenant)) ∧
      (tenant < 256 → s.coreHolds c old = false → Owns 0 (paTcm c 0) 0x20000 fun t =>
        (t.tcmOwner c).toNat = tenant ∧ (∀ k, caTileOf k ≠ c → t.tcmOwner k = s.tcmOwner k) ∧
        (∀ k, t.permitQueue k = s.permitQueue k) ∧ ∀ n, n < 16 → t.box c n = Mbox.empty ∧ t.permit c n = 0) ∧
      (tenant < 256 → unit < 512 → Owns 1 (paSpad (unit % 32) (unit / 32) 0) 0x200000 fun t =>
        t = { s with mem := t.mem, bad := t.bad, flaws := t.flaws, sowner := smSet 0 s.sowner unit (BitVec.ofNat 8 tenant) }) ∧
      (tenant < 256 → unit < 6144 → Owns 2 (paShared (unit / 768) (unit % 768 * 0x10000)) 0x10000 fun t =>
        t = { s with mem := t.mem, bad := t.bad, flaws := t.flaws, gowner := smSet 0 s.gowner unit (BitVec.ofNat 8 tenant) })) ∧
    (∀ tenant idx (v : W64),
      (tenant < 256 → idx < 22 → exec (.tenantTableWrite tenant idx v) s = .next { s with
        tenants := smSet 0 s.tenants (tenant * 32 + idx) (if idx = 0 then v &&& 0xFF03#64 else v) }) ∧
      (256 ≤ tenant ∨ 22 ≤ idx → Idle s (.tenantTableWrite tenant idx v))) ∧
    (Idle s (.tenantDestruction 0) ∧ ∀ tenant, 0 < tenant → tenant < 256 → ∃ t, exec (.tenantDestruction tenant) s = .next t ∧
      t.tenantValid tenant = false ∧ (∀ h, h < 2 ^ 20 → (t.obj tenant h).used = false) ∧
      (∀ pa, (t.queue pa).live = true → (t.queue pa).tenant ≠ BitVec.ofNat 64 tenant) ∧
      (∀ p ∈ t.pins, p.tenant ≠ BitVec.ofNat 64 tenant) ∧
      ∀ n, (smGet 0 t.sowner n).toNat ≠ tenant ∧ (smGet 0 t.gowner n).toNat ≠ tenant) ∧
    (∀ peer (exports : List Export), ∃ t : State, exec (.peerUnreachable peer exports) s = .next t ∧ t = { s with peers := t.peers } ∧
      ∀ tenant, tenant < 256 →
        ((∀ e ∈ exports, e.tenant % 256 ≠ tenant) → smGet Peer.none t.peers (peer * 256 + tenant) = Peer.none) ∧
        (∀ e l, exports = l ++ [e] → e.tenant = tenant →
          smGet Peer.none t.peers (peer * 256 + tenant) = ⟨min e.size (2 ^ 40), e.rights, e.gone⟩) ∧
        ∀ p, p ≠ peer → smGet Peer.none t.peers (p * 256 + tenant) = smGet Peer.none s.peers (p * 256 + tenant)) ∧
    (∀ tenant off (op : PeerOp),
      let t := s.servePeer tenant off op
      let r := s.peerReply tenant off op
      (s.exportAt tenant off op = none → t = s ∧ r = .error 0x05) ∧
      ∀ pa, s.exportAt tenant off op = some pa →
        (∀ cause, s.peerFails pa op = some cause → t = s ∧ r = .error cause) ∧
        (∀ l d, op = .store l → (s.queue d).live = true → d < pa + l.length → pa < d + 64 → s.peerFails pa op = some 0x0F) ∧
        (s.peerFails pa op = none → s.runHeld pa op.size = false →
          (∀ n, op = .load n → t = s ∧ r = .ok (s.readBytes pa n)) ∧ (∀ l, op = .store l → t = s.storeBytes pa l) ∧
          (∀ f v, op = .amo f v → r = .ok (s.readBytes pa 8) ∧
            t = s.storeBytes pa (bytesOf 8 (atomResult f (BitVec.ofNat 64 (s.readN pa 8)) v))) ∧
          ∀ a b, op = .acas a b → r = .ok (s.readBytes pa 8) ∧
            t = s.storeBytes pa (bytesOf 8 (if BitVec.ofNat 64 (s.readN pa 8) = a then b else BitVec.ofNat 64 (s.readN pa 8))))) ∧
    ∀ fn,
      let x := s.fn fn
      let there : Prop := s.mgmt.ready = true ∧ fn < 256
      (∀ nonce : List W64,
        let m := wordsOf (Sha512.digest s.mgmt.image ++ Sha512.digest s.mgmt.record ++ Sha512.digest (s.entryBytes fn))
        (there → exec (.spdmGetMeasurements fn nonce) s = .next (withFn s fn { x with spdm := m ++ Config.signature (m ++ nonce) })) ∧
        (¬there → Idle s (.spdmGetMeasurements fn nonce))) ∧
      (∀ b, (there → exec (.ideKm fn b) s = .next (withFn s fn { x with ide := b })) ∧ (¬there → Idle s (.ideKm fn b))) ∧
      let arg (j : Nat) : Nat := (smGet 0 x.cmd j).toNat
      let answer (status olen : Nat) : HostFn :=
        { x with busy := false, status := BitVec.ofNat 64 status, olen := BitVec.ofNat 64 olen, seq := smGet 0 x.cmd 1 }
      let runs (op : Nat) : Prop := x.busy = true ∧ arg 0 = op
      let src := 2 ^ 63 + arg 2
      let n := arg 3
      let dst := 2 ^ 63 + arg 4
      let salt := (List.range 4).flatMap fun j => bytesOf 8 (s.tt fn (17 + j))
      let key := Gcm.hkdf Config.identitySecret salt (Sha512.digest s.mgmt.image)
      let extra := bytesOf 8 (BitVec.ofNat 64 fn)
      let byte (a : Nat) : Byte := s.byte a
      let cut : Prop := (s.tt fn 0).getLsbD 1 = true ∧ x.ide = false
      (∀ ok, (¬runs 1 → Idle s (.seal fn ok)) ∧ (¬runs 2 → Idle s (.unseal fn ok)) ∧ (¬runs 16 → Idle s (.flashUpdate fn ok))) ∧
      (∀ ok, cut →
        (runs 1 → exec (.seal fn ok) s = .next (withFn s fn (answer 6 0))) ∧
        (runs 2 → exec (.unseal fn ok) s = .next (withFn s fn (answer 6 0))) ∧
        (runs 16 → exec (.flashUpdate fn ok) s = .next (withFn s fn (answer 3 0)))) ∧
      (¬cut →
        (runs 1 → exec (.seal fn false) s = .next (withFn s fn (answer 3 0))) ∧
        (runs 2 → exec (.unseal fn false) s = .next (withFn s fn (answer 3 0))) ∧
        (runs 16 → exec (.flashUpdate fn false) s = .next (withFn s fn (answer 3 0)))) ∧
      (¬cut → runs 1 → ∃ t : State, exec (.seal fn true) s = .next t ∧ t.fn fn = answer 0 (n + 28) ∧
        smGet 0 t.mgmt.nonces fn = smGet 0 s.mgmt.nonces fn + 1 ∧
        (let nonce := (List.range 12).map fun j => t.byte (dst + j)
         let cipher := Gcm.crypt key nonce ((List.range n).map fun j => byte (src + j))
         (List.range n).map (fun j => t.byte (dst + 12 + j)) = cipher ∧
         (List.range 16).map (fun j => t.byte (dst + 12 + n + j)) = Gcm.tag key nonce extra cipher) ∧
        ∀ a, a < dst ∨ dst + n + 28 ≤ a → t.byte a = byte a) ∧
      (¬cut → runs 2 → 29 ≤ n →
        let blob := (List.range n).map fun j => byte (src + j)
        let cipher := (blob.drop 12).take (n - 28)
        let good : Prop := Gcm.tag key (blob.take 12) extra cipher = blob.drop (n - 16)
        (¬good → exec (.unseal fn true) s = .next (withFn s fn (answer 4 0))) ∧
        (good → ∃ t : State, exec (.unseal fn true) s = .next t ∧ t.fn fn = answer 0 (n - 28) ∧
          (List.range (n - 28)).map (fun j => t.byte (dst + j)) = Gcm.crypt key (blob.take 12) cipher ∧
          ∀ a, a < dst ∨ dst + n - 28 ≤ a → t.byte a = byte a)) ∧
      (¬cut → runs 16 →
        let image := (List.range n).map fun j => byte (src + j)
        exec (.flashUpdate fn true) s = .next (if Config.imageSigned image = true then
          withFn { s with mgmt := { s.mgmt with flash := image } } fn (answer 0 0) else withFn s fn (answer 5 0)))

/-! ## Reset, decoding and steps -/

/-- R54, R66, R130, R150, R195, R197, R208, R337 and R366: what reset leaves. That memory which nothing has written reads as 0, and that
the registers to which the spec gives no reset value read as 0, is the model's choice (log entries 4 and 5).
It rests also on the model's own choice or reading where the rules are silent: log entries 6 and 7. -/
def Obligations.ResetState : Prop :=
  let s := State.reset
  let c := (s.slot 0).ctx
  (∀ k, s.slot k = Slot.free) ∧ s.cycle = 0 ∧ s.stopped = false ∧ Safety.memoryOk s = true ∧ (∀ a, s.byte a = 0) ∧
  (∀ a, s.isBad a = false) ∧ c = Ctx.zero ∧ (∀ n, c.getG n = 0) ∧ (∀ n, c.getB n = decide (n = 0)) ∧ (∀ n, c.getM n = 0) ∧
  (∀ n, c.getV n = 0) ∧ c.pc = 0 ∧ c.rep.act = false ∧
  c.cr = { c.cr with
    rmode := 0, fpflags := 0, nanrd := 0, srseed := 0, srctr := 0, fmta := 0, fmtb := 0, fmtc := 0, scla := 0, sclb := 0, mkstep := 0
    qwin := 0, lmask := 0, stklim := 0, scope := 0xBF7F0000#64, uivec := 0, wid := 0, wshape := 0x40#64, tenant := 0, pstate := 0
    tabent := 0, tabst := 0, lnum := 0, tvec := 0, cause := 0, epc := 0, tval := 0, lrect := 0xBF7F0000#64 } ∧
  s.flaws = [] ∧ s.spareRows = [] ∧ s.spadFails = [] ∧ s.peers = [] ∧
  (∀ k, State.readCr { s with cur := k } 0x103 = BitVec.ofNat 64 k) ∧
  (∀ core n, s.box core n = Mbox.empty ∧ s.permit core n = 0) ∧ (∀ core, s.unit core = MatUnit.idle) ∧
  (∀ n, smGet DecTab.zero s.dts n = DecTab.zero) ∧ (∀ n, smGet 0 s.ccount n = 0 ∧ smGet 0 s.ucount n = 0) ∧
  (∀ core, s.coreEnabled core = true) ∧ (∀ fn, s.fn fn = HostFn.reset) ∧ s.queues = [] ∧ s.entries = [] ∧ s.tasks = []

/-- A step is a turn or a step of the device. Where the agenda gives slot k a turn, or nothing is due and its turn comes first, its
bundle is fetched, or the slot traps (R102), or waits for its memory. A bundle that does not decode, or with a word that only a compute
core has (R166, R208), traps with cause 0x01 (R41, R42). One that decodes executes both halves from the registers at issue: both
commit and the pc moves on; or the C-half parks and the rest is kept for its completion; or the trap of one half is taken, that of the
C-half first, and nothing commits (R22, R25, R50, R52, R53). A thread that is to migrate leaves in the same step, as MIGRATION_PACKET_SEND has it, unless an
earlier access is outstanding (R55, R154; that it is the same step: log entry 120). A step of the device, or an access of a peer, on the agenda is performed.
After 125 degrees nothing but a reset of the package runs (R373).
It rests also on the model's own choice or reading where the rules are silent: log entries 2, 83, 110 and 120. -/
def Obligations.StepRunsDecodedBundle : Prop :=
  (∀ (k : Nat) (rest : List Act) (s : State),
    s.agenda = .turn k .plain :: rest ∨ s.agenda = [] ∧ rest = [] ∧ s.dueEvents = [] ∧ s.nextMove = .turn k .plain →
    s.stopped = false →
    let t := State.beginTurn { s with agenda := rest } k .plain
    let x := t.slot k
    let ends (v : State) : Prop :=
      let w : State := { v with src := none, trapped := none, slow := false, raw := 0 }
      let leaves : Prop := (w.slot k).slowA = false ∧
        ∃ tgt ea committed regs i, (w.slot k).waits = some (.migrate tgt ea committed regs, i)
      (leaves → step s = exec (.migrationPacketSend k) w) ∧ (¬leaves → step s = .next w)
    x.st = .run →
    (∀ p, x.pend = some p → ends ((t.setSlot k { x with pend := none }).takeTrap k p)) ∧
    (x.pend = none → t.readyRecord k = none → x.ctx.rep.act = false →
      (∀ p, t.fetchFresh k = .error p → ends (t.takeTrap k p)) ∧
      ∀ w : W64, t.fetchFresh k = .ok w →
        let f := t.fetched k
        let field (pos width : Nat) : Nat := w.toNat / 2 ^ pos % 2 ^ width
        let alone : Prop :=
          field 21 4 ≠ 1 ∧ (field 25 6 ∈ [0x20, 0x23, 0x24, 0x25, 0x2A, 0x2B, 0x31] ∨ field 25 6 = 0 ∧ field 0 6 = 0x0A) ∨
          field 31 1 = 0 ∧ field 54 4 ≠ 1 ∧ 0x20 ≤ field 58 6 ∧ field 58 6 ≤ 0x29
        (t.fetchHeld k = true → ∃ u, step s = .next u ∧ (u.slot k).wait = some .fetch) ∧
        (t.fetchHeld k = false →
          (decodeBundle w = none ∨ caKind k ≠ .compute ∧ alone → ends (f.takeTrap k ⟨0x01, w⟩)) ∧
          ∀ b, decodeBundle w = some b → x.ctx.rep.refuses w = false → (caKind k = .compute ∨ ¬alone) →
            let u : State := { f.setSlot k { x with npc := x.ctx.pc + 8 } with cur := k, src := some x.ctx, raw := w, trapped := none }
            ∀ sc sa, exec b.c u = .next sc → exec b.a u = .next sa →
              (∀ z, sc.trapped = none → sa.trapped = none → sc.me.st = .run → exec b.a { sc with dts := u.dts } = .next z →
                ends (State.setSlot { z with dts := sc.dts } z.cur { z.me with ctx := { z.me.ctx with pc := z.me.npc } })) ∧
              (∀ p i sn n, sc.trapped = none → sa.trapped = none → sc.me.st = .park p i sn n → sc.me.leaving = false →
                ends (sc.setSlot sc.cur { sc.me with after := some sa.me.ctx, slowA := false })) ∧
              (sc.trapped = none → sc.me.leaving = true → ends sc) ∧
              (∀ p, sc.trapped = some p → ends sc) ∧
              ∀ q, sc.trapped = none → sa.trapped = some q → sc.me.leaving = false → ends sa))) ∧
  (∀ (i : Instr) (rest : List Act) (s : State), s.agenda = .event i :: rest → s.stopped = false →
    step s = exec i { s with agenda := rest, src := none, trapped := none, slow := false }) ∧
  (∀ (tenant off : Nat) (op : PeerOp) (rest : List Act) (s : State), s.agenda = .peer tenant off op :: rest → s.stopped = false →
    step s = .next (State.servePeer { s with agenda := rest } tenant off op)) ∧
  ∀ s : State, s.stopped = true → isReset s.nextAct.1 = false → step s = .fault .packageStopped

/-- R28 to R42: words written out from the tables of encodings decode to the instructions they stand for; a C-word and an A-word whose
majors have no meaning, and a bundle whose halves write one register, decode to none. -/
def Obligations.DecodeWords : Prop :=
  let g : Guard := ⟨0, false⟩
  let C (w : BitVec 32) (i : Instr) : Prop := decodeC (CFmt.unpack w) 0 = some i
  let A (w : BitVec 32) (i : Instr) : Prop := decodeA (AFmt.unpack w) = some i
  C 0x18040802 (.wfld g 4 1) ∧ C 0x1000580C (.cwr g 11 0x00C) ∧ C 0x0E050100 (.crd g 5 0x100) ∧ C 0x06000005 (.jl g 5) ∧
  C 0x04800006 (.br ⟨2, false⟩ 6) ∧ C 0x00000004 (.ret g) ∧ C 0x00004805 (.jr g 9) ∧ C 0x00004806 (.jlr g 9) ∧
  C 0x0A07FFFD (.lpd g 7 0xFFFD) ∧ C 0x0C000004 (.enter g 4) ∧ C 0x00000007 (.leave g) ∧ C 0x3C0531C0 (.tam g 5 6 7 .add) ∧
  C 0x3A0531C3 (.tfadd g 5 6 7) ∧ C 0x3A140882 (.shp g 20 1 2) ∧ C 0x3A05A000 (.lds g 5 20) ∧ C 0x3A003005 (.migr g 6) ∧
  C 0x3E076840 (.lea g 7 13 64) ∧ C 0x40002800 (.dtld g 0 5) ∧ decodeC (CFmt.unpack 0x960531C0) 1 = some (.spawn g 5 6 7 1) ∧
  A 0x840221E2 (.vcmp g 1 2 3 .f32 .lt) ∧ A 0x88082181 (.vsel g 4 2 3 1) ∧ A 0x940A1003 (.mpop g 5 1) ∧ A 0x8C024060 (.vbc g 1 4 .f32) ∧
  A 0x8C0C4065 (.vredAdd g 6 4 .f32) ∧ A 0xA0041030 (.t8enc g 2 1 0 false .f32 0) ∧ A 0xA40850EA (.vcvt g 4 5 1 .f32 .bf16 false) ∧
  decodeC (CFmt.unpack 0x1A000000) 0 = none ∧ decodeC (CFmt.unpack 0x66000000) 0 = none ∧ decodeA (AFmt.unpack 0x3C000000) = none ∧
  decodeA (AFmt.unpack 0x9C000000) = none ∧ decodeBundle 0x04081100_18040802 = none

/-- R28 to R42: decoding what a well-formed bundle encodes to gives the bundle back, with every operand at every value that its
field admits; and a bundle that decodes, neither half of which is guarded "never" (R27), is what its decoding encodes to, so that no
other bit pattern is an instruction. -/
def Obligations.BundleRoundTrip : Prop :=
  ∀ (b : Bundle) (w : BitVec 64),
    (b.c.wf = true → b.a.wf = true → clash b.c b.a = false → (b.long = true → b.a = .anop .always) →
      encodeBundle b = some w → decodeBundle w = some b) ∧
    (decodeBundle w = some b → guardOf b.c ≠ some Guard.never → guardOf b.a ≠ some Guard.never → encodeBundle b = some w)

/-- Every step keeps memory in its canonical form: addresses strictly rising, and no entry that an unlisted address reads as. -/
def Obligations.CanonicalMemoryKept : Prop :=
  ∀ s t : State, Safety.memoryOk s = true → step s = .next t → Safety.memoryOk t = true

end Statements
end

