-- ==== Sys2Proof/Laws/Decode.lean ====
section
/-!
SUPPORT. Laws of the decoder's bit-field operations: cutting what was joined gives the parts back, for the
fields, for the coded fields and for the whole formats.
-/

namespace Sys2Proof

@[simp] theorem hi_app (n m : Nat) (x : BitVec n) (y : BitVec m) : hi n m (app n m x y) = x := by
  ext i h
  simp only [hi, app, BitVec.getElem_extractLsb', BitVec.getLsbD_append]
  have : ¬ (m + i < m) := by omega
  simp [this, h]

@[simp] theorem lo_app (n m : Nat) (x : BitVec n) (y : BitVec m) : lo n m (app n m x y) = y := by
  ext i h
  simp [lo, app, BitVec.getLsbD_append, h]

@[simp] theorem app_hi_lo (n m : Nat) (x : BitVec (n + m)) : app n m (hi n m x) (lo n m x) = x := by
  ext i h
  simp only [hi, lo, app, BitVec.getElem_append, BitVec.getElem_extractLsb']
  split
  · simp [BitVec.getLsbD_eq_getElem, h]
  · rename_i h2
    rw [show m + (i - m) = i by omega, BitVec.getLsbD_eq_getElem]

@[simp] theorem bit_ofBit (b : Bool) : bit (ofBit b) = b := by cases b <;> rfl
@[simp] theorem ofBit_bit (x : BitVec 1) : ofBit (bit x) = x := by
  revert x; decide

@[simp] theorem ETy.ofBits_bits (t : ETy) : ETy.ofBits t.bits = t := by cases t <;> rfl
@[simp] theorem FTy.ofBits_bits (t : FTy) : FTy.ofBits t.bits = t := by cases t <;> rfl
@[simp] theorem AmOrd.ofBits_bits (t : AmOrd) : AmOrd.ofBits t.bits = t := by cases t <;> rfl
@[simp] theorem FCond.ofBits_bits (t : FCond) : FCond.ofBits t.bits = t := by cases t <;> rfl
@[simp] theorem AtomOp.ofBits_bits (t : AtomOp) : AtomOp.ofBits t.bits = some t := by cases t <;> rfl
@[simp] theorem LdOrd.ofBits_bits (t : LdOrd) : LdOrd.ofBits t.bits = some t := by cases t <;> rfl
@[simp] theorem StOrd.ofBits_bits (t : StOrd) : StOrd.ofBits t.bits = some t := by cases t <;> rfl
@[simp] theorem CmpCond.ofBits_bits (t : CmpCond) : CmpCond.ofBits t.bits = some t := by cases t <;> rfl
@[simp] theorem VCond.ofBits_bits (t : VCond) : VCond.ofBits t.bits = some t := by cases t <;> rfl
@[simp] theorem Win.ofBits_bits (w : Win) : Win.ofBits w.bits = some w := by
  cases w with
  | qwin => rfl
  | code k => revert k; decide

@[simp] theorem Guard.ofBits_bits (g : Guard) : Guard.ofBits g.bits = g := by
  simp [Guard.ofBits, Guard.bits]

@[simp] theorem CFmt.bf_mk (long : Bool) (mj : BitVec 6) (g : Guard) (d a : BitVec 5) (i : BitVec 11) :
    CFmt.bf ⟨long, mj, g, d, a, hi 5 6 i, lo 5 6 i⟩ = i := app_hi_lo 5 6 i

@[simp] theorem CFmt.unpack_pack (f : CFmt) : CFmt.unpack f.pack = f := by
  simp [CFmt.unpack, CFmt.pack, CFmt.dabf, CFmt.abf, CFmt.bf]

@[simp] theorem AFmt.unpack_pack (f : AFmt) : AFmt.unpack f.pack = f := by
  simp [AFmt.unpack, AFmt.pack, AFmt.dabf, AFmt.abf, AFmt.bf]

@[simp] theorem mkCI_bf (mj : BitVec 6) (g : Guard) (d a : BitVec 5) (i : BitVec 11) :
    (mkCI mj g d a i).bf = i := app_hi_lo 5 6 i
@[simp] theorem mkCW_abf (mj : BitVec 6) (g : Guard) (d : BitVec 5) (i : BitVec 16) :
    (mkCW mj g d i).abf = i := by
  simp [CFmt.abf, mkCW, mkCI, mkCR, CFmt.bf]
@[simp] theorem mkCJ_dabf (mj : BitVec 6) (g : Guard) (i : BitVec 21) : (mkCJ mj g i).dabf = i := by
  simp [CFmt.dabf, CFmt.abf, mkCJ, mkCW, mkCI, mkCR, CFmt.bf]
@[simp] theorem mkAI_bf (mj : BitVec 6) (g : Guard) (d a : BitVec 5) (i : BitVec 12) :
    (mkAI mj g d a i).bf = i := app_hi_lo 5 7 i
@[simp] theorem mkAW_abf (mj : BitVec 6) (g : Guard) (d : BitVec 5) (i : BitVec 17) :
    (mkAW mj g d i).abf = i := by
  simp [AFmt.abf, mkAW, mkAI, mkAR, AFmt.bf]
@[simp] theorem mkAJ_dabf (mj : BitVec 6) (g : Guard) (i : BitVec 22) : (mkAJ mj g i).dabf = i := by
  simp [AFmt.dabf, AFmt.abf, mkAJ, mkAW, mkAI, mkAR, AFmt.bf]

end Sys2Proof
end

