-- ==== Sys2Proof/Laws/Exec.lean ====
section
/-!
SUPPORT. Every instruction answers a next state: no meaning faults and none refuses.
-/

namespace Sys2Proof.Laws

open Sys2Proof.Machine

/-- An instruction and a step of the device answer a next state in every state. -/
theorem exec_answers (i : Instr) (s : State) : ∃ t, exec i s = .next t := by
  cases i <;> exact ⟨_, rfl⟩

end Sys2Proof.Laws
end

