-- ==== Sys2Proof/Laws/SMap.lean ====
section
/-!
SUPPORT. Laws of sparse maps: reading after writing, at the same key and at another, and that every operation
keeps the canonical form.
-/

namespace Sys2Proof.Machine

theorem smGet_erase_same {α : Type} (d : α) (m : SMap α) (n : Nat) : smGet d (smErase m n) n = d := by
  induction m with
  | nil => rfl
  | cons p t ih =>
    obtain ⟨k, v⟩ := p
    by_cases h : k = n
    · simpa [smErase, h] using ih
    · simpa [smErase, h, smGet] using ih

theorem smGet_erase_ne {α : Type} (d : α) (m : SMap α) (n k : Nat) (h : k ≠ n) :
    smGet d (smErase m n) k = smGet d m k := by
  induction m with
  | nil => rfl
  | cons p t ih =>
    obtain ⟨j, v⟩ := p
    by_cases hj : j = n
    · have hk : ¬ n = k := fun e => h e.symm
      simpa [smErase, hj, smGet, hk] using ih
    · by_cases hk : j = k
      · subst hk; simp [smErase, h, smGet]
      · simpa [smErase, hj, smGet, hk] using ih

theorem smGet_insert_same {α : Type} (d : α) (m : SMap α) (n : Nat) (v : α) (h : ∀ p ∈ m, p.1 ≠ n) :
    smGet d (smInsert n v m) n = v := by
  induction m with
  | nil => simp [smInsert, smGet]
  | cons p t ih =>
    obtain ⟨k, w⟩ := p
    have hk : k ≠ n := h (k, w) (by simp)
    by_cases hl : n < k
    · simp [smInsert, hl, smGet]
    · simp [smInsert, hl, smGet, hk]
      exact ih fun p hp => h p (by simp [hp])

theorem smGet_insert_ne {α : Type} (d : α) (m : SMap α) (n k : Nat) (v : α) (h : k ≠ n) :
    smGet d (smInsert n v m) k = smGet d m k := by
  induction m with
  | nil => simp [smInsert, smGet, Ne.symm h]
  | cons p t ih =>
    obtain ⟨j, w⟩ := p
    by_cases hl : n < j
    · simp [smInsert, hl, smGet, Ne.symm h]
    · simp [smInsert, hl, smGet, ih]

theorem smErase_not_mem {α : Type} (m : SMap α) (n : Nat) : ∀ p ∈ smErase m n, p.1 ≠ n := by
  intro p hp
  have := (List.mem_filter.mp hp).2
  simpa using this

/-- A read of the key just written gives the value written. -/
@[simp] theorem smGet_set_same {α : Type} [DecidableEq α] (d : α) (m : SMap α) (n : Nat) (v : α) :
    smGet d (smSet d m n v) n = v := by
  unfold smSet
  split
  · rename_i h; rw [smGet_erase_same, h]
  · exact smGet_insert_same d _ n v (smErase_not_mem m n)

/-- A write leaves every other key alone. -/
theorem smGet_set_ne {α : Type} [DecidableEq α] (d : α) (m : SMap α) (n k : Nat) (v : α) (h : k ≠ n) :
    smGet d (smSet d m n v) k = smGet d m k := by
  unfold smSet
  split
  · exact smGet_erase_ne d m n k h
  · rw [smGet_insert_ne d _ n k v h, smGet_erase_ne d m n k h]

theorem smGet_set {α : Type} [DecidableEq α] (d : α) (m : SMap α) (n k : Nat) (v : α) :
    smGet d (smSet d m n v) k = if k = n then v else smGet d m k := by
  by_cases h : k = n
  · subst h; simp
  · simp [h, smGet_set_ne d m n k v h]

theorem smSorted_iff {α : Type} (m : SMap α) :
    smSorted m = true ↔ m.Pairwise fun p q => p.1 < q.1 := by
  induction m with
  | nil => simp [smSorted]
  | cons p t ih =>
    obtain ⟨k, v⟩ := p
    cases t with
    | nil => simp [smSorted]
    | cons q r =>
      obtain ⟨k', v'⟩ := q
      simp only [smSorted, Bool.and_eq_true, decide_eq_true_eq, ih, List.pairwise_cons]
      refine and_congr_left fun rest => ⟨fun low => List.forall_mem_cons.mpr ⟨low, fun e he => low.trans (rest.1 e he)⟩, ?_⟩
      exact fun all => all _ List.mem_cons_self

theorem mem_smInsert {α : Type} (m : SMap α) (n : Nat) (v : α) (p : Nat × α) :
    p ∈ smInsert n v m ↔ p = (n, v) ∨ p ∈ m := by
  induction m with
  | nil => simp [smInsert]
  | cons q t ih =>
    obtain ⟨k, w⟩ := q
    by_cases h : n < k
    · simp [smInsert, h]
    · simp only [smInsert, h, if_false, List.mem_cons, ih]
      tauto

theorem smInsert_sorted {α : Type} (m : SMap α) (n : Nat) (v : α) (hs : m.Pairwise fun p q => p.1 < q.1)
    (hn : ∀ p ∈ m, p.1 ≠ n) : (smInsert n v m).Pairwise fun p q => p.1 < q.1 := by
  induction m with
  | nil => simp [smInsert]
  | cons q t ih =>
    obtain ⟨k, w⟩ := q
    obtain ⟨h1, h2⟩ := List.pairwise_cons.mp hs
    by_cases h : n < k
    · simp only [smInsert, h, if_true, List.pairwise_cons]
      exact ⟨List.forall_mem_cons.mpr ⟨h, fun e he => h.trans (h1 e he)⟩, h1, h2⟩
    · simp only [smInsert, h, if_false, List.pairwise_cons]
      refine ⟨?_, ih h2 fun p hp => hn p (by simp [hp])⟩
      intro a ha
      have hk : k ≠ n := hn (k, w) (by simp)
      rcases (mem_smInsert t n v a).mp ha with rfl | ha
      · simp only; omega
      · exact h1 a ha

/-- A write keeps the canonical form. -/
theorem smWf_set {α : Type} [DecidableEq α] (d : α) (m : SMap α) (n : Nat) (v : α) (h : smWf d m = true) :
    smWf d (smSet d m n v) = true := by
  simp only [smWf, Bool.and_eq_true, smSorted_iff, List.all_eq_true, decide_eq_true_eq] at h ⊢
  obtain ⟨hs, hd⟩ := h
  have hse : (smErase m n).Pairwise fun p q => p.1 < q.1 := hs.filter _
  have hde : ∀ p ∈ smErase m n, p.2 ≠ d := fun p hp => hd p (List.mem_filter.mp hp).1
  unfold smSet
  split
  · exact ⟨hse, hde⟩
  · rename_i hv
    refine ⟨smInsert_sorted _ n v hse (smErase_not_mem m n), ?_⟩
    intro p hp
    rcases (mem_smInsert _ n v p).mp hp with rfl | hp
    · exact hv
    · exact hde p hp

theorem smErase_erase {α : Type} (m : SMap α) (n : Nat) : smErase (smErase m n) n = smErase m n := by
  simp [smErase, List.filter_filter]

theorem smErase_insert {α : Type} (m : SMap α) (n : Nat) (v : α) : smErase (smInsert n v m) n = smErase m n := by
  induction m with
  | nil => simp [smInsert, smErase]
  | cons p t ih =>
    obtain ⟨k, w⟩ := p
    unfold smErase at ih
    by_cases h : n < k
    · simp [smInsert, h, smErase]
    · simp only [smInsert, h, if_false, smErase, List.filter_cons, ih]

/-- Of two writes to one key the second stands. -/
theorem smSet_set {α : Type} [DecidableEq α] (d : α) (m : SMap α) (n : Nat) (v w : α) :
    smSet d (smSet d m n v) n w = smSet d m n w := by
  have h : smErase (smSet d m n v) n = smErase m n := by
    unfold smSet
    split
    · exact smErase_erase m n
    · rw [smErase_insert, smErase_erase]
  show (if w = d then smErase (smSet d m n v) n else smInsert n w (smErase (smSet d m n v) n)) = _
  rw [h]
  rfl

@[simp] theorem smWf_nil {α : Type} [DecidableEq α] (d : α) : smWf d ([] : SMap α) = true := rfl

end Sys2Proof.Machine
end

