-- ==== Sys2Proof/Laws/Memory.lean ====
section
/-!
SUPPORT. Every operation on memory keeps the canonical form of memory, and memory after reset has it.
-/

namespace Sys2Proof.Laws

open Sys2Proof.Machine Sys2Proof.Safety

/-- Dropping entries keeps the canonical form. -/
theorem smWf_filter {α : Type} [DecidableEq α] (d : α) (m : SMap α) (p : Nat × α → Bool) (h : smWf d m = true) :
    smWf d (m.filter p) = true := by
  simp only [smWf, Bool.and_eq_true, smSorted_iff, List.all_eq_true] at h ⊢
  exact ⟨h.1.filter p, fun x hx => h.2 x (List.mem_filter.mp hx).1⟩

theorem State.setByte_memoryOk (s : State) (a : Nat) (v : Byte) (h : memoryOk s = true) : memoryOk (s.setByte a v) = true :=
  smWf_set 0 s.mem a v h

theorem State.writeBytes_memoryOk (l : List Byte) : ∀ (s : State) (a : Nat), memoryOk s = true → memoryOk (s.writeBytes a l) = true := by
  induction l with
  | nil => intro s a h; exact h
  | cons b t ih => intro s a h; exact ih _ _ (State.setByte_memoryOk s a b h)

theorem State.writeN_memoryOk (s : State) (a n v : Nat) (h : memoryOk s = true) : memoryOk (s.writeN a n v) = true :=
  State.writeBytes_memoryOk _ s a h

theorem State.writeW_memoryOk (s : State) (a : Nat) (v : W64) (h : memoryOk s = true) : memoryOk (s.writeW a v) = true :=
  State.writeN_memoryOk s a 8 _ h

theorem State.cleared_memoryOk (s : State) (h : memoryOk s = true) : memoryOk s.cleared = true := smWf_filter 0 s.mem _ h

/-- What leaves memory as it is keeps its form. -/
theorem memoryOk_of_mem {s t : State} (e : t.mem = s.mem) (h : memoryOk s = true) : memoryOk t = true := by
  simpa [memoryOk, e] using h

theorem reset_memoryOk : memoryOk State.reset = true := rfl

/-- Steps that each leave memory as it is leave it so together. -/
theorem State.steps_mem {α : Type} (f : State → α → State) (hf : ∀ t e, (f t e).mem = t.mem) (l : List α) (s : State) :
    (l.foldl f s).mem = s.mem :=
  List.foldlRecOn l f (motive := fun t => t.mem = s.mem) rfl fun t h e _ => (hf t e).trans h

theorem State.clearBad_mem (s : State) (a n : Nat) : (s.clearBad a n).mem = s.mem := by
  unfold State.clearBad
  split
  · refine State.steps_mem _ (fun t j => ?_) _ s
    rfl
  · rfl

theorem State.noteRow_mem (s : State) (pa : Nat) : (s.noteRow pa).mem = s.mem := by
  unfold State.noteRow State.rowFails
  split
  · rfl
  · dsimp only
    split
    · split <;> rfl
    · rfl

theorem State.correct_mem (s : State) (a n : Nat) : (s.correct a n).mem = s.mem := by
  unfold State.correct
  split
  · rfl
  · refine State.steps_mem _ (fun t w => ?_) _ s
    unfold State.correctWord
    split
    · exact State.noteRow_mem _ _
    · rfl

theorem State.remapWord_mem (s : State) (a : Nat) : (s.remapWord a).mem = s.mem := by
  unfold State.remapWord
  split
  · split <;> rfl
  · rfl

theorem State.recode_mem (s : State) (a n : Nat) : (s.recode a n).mem = s.mem := by
  unfold State.recode
  split
  · rfl
  · split
    · refine State.steps_mem _ (fun t w => ?_) _ s
      rfl
    · exact State.correct_mem s a n

theorem State.remapRun_mem (s : State) (a n : Nat) : (s.remapRun a n).mem = s.mem := by
  unfold State.remapRun
  split
  · rfl
  · exact State.steps_mem _ State.remapWord_mem _ s

theorem State.freshen_mem (s : State) (a n : Nat) : (s.freshen a n).mem = s.mem :=
  (State.remapRun_mem _ a n).trans (State.recode_mem s a n)

theorem State.wipe_memoryOk (s : State) (pa n : Nat) (h : memoryOk s = true) : memoryOk (s.wipe pa n) = true :=
  smWf_filter 0 _ _ (memoryOk_of_mem (State.remapRun_mem s pa n) h)

theorem State.watch_mem (s : State) (pa n : Nat) : (s.watch pa n).mem = s.mem := by
  unfold State.watch
  split
  · rfl
  · refine State.steps_mem _ (fun t e => ?_) _ s
    cases e.2.pure with
    | none => rfl
    | some p => dsimp only; split_ifs <;> rfl

theorem State.storeBytes_memoryOk (s : State) (pa : Nat) (l : List Byte) (h : memoryOk s = true) :
    memoryOk (s.storeBytes pa l) = true :=
  memoryOk_of_mem (State.clearBad_mem _ pa l.length)
    (State.writeBytes_memoryOk l _ pa
      (memoryOk_of_mem ((State.freshen_mem _ pa l.length).trans (State.watch_mem s pa l.length)) h))

theorem State.storeSpans_memoryOk (l : List (Nat × Nat)) : ∀ (s : State) (data : List Byte), memoryOk s = true →
    memoryOk (s.storeSpans l data) = true := by
  induction l with
  | nil => intro s data h; exact h
  | cons e t ih => intro s data h; exact ih _ _ (State.storeBytes_memoryOk s e.1 _ h)

theorem State.writeRecord_memoryOk (s : State) (pa n : Nat) (l : List (Nat × W64)) (h : memoryOk s = true) :
    memoryOk (s.writeRecord pa n l) = true := by
  refine List.foldlRecOn (motive := fun t => memoryOk t = true) _ _ ?_ fun t ht e _ => State.writeW_memoryOk t _ _ ht
  refine smWf_filter 0 _ _ ?_
  exact memoryOk_of_mem ((State.clearBad_mem _ pa n).trans (State.watch_mem s pa n)) h

theorem State.wakeWords_mem (s : State) (p : Nat → Bool) (cause : BitVec 8) : (s.wakeWords p cause).mem = s.mem := by
  refine State.steps_mem _ (fun t k => ?_) _ s
  split
  · split <;> rfl
  · rfl

theorem State.freeObject_mem (s : State) (tenant handle : Nat) :
    ∃ p, (s.freeObject tenant handle).mem = s.mem.filter p := by
  unfold State.freeObject
  dsimp only
  simp only [State.watch_mem, State.wakeWords_mem]
  exact ⟨_, rfl⟩

theorem State.freeObject_memoryOk (s : State) (tenant handle : Nat) (h : memoryOk s = true) :
    memoryOk (s.freeObject tenant handle) = true := by
  obtain ⟨p, e⟩ := State.freeObject_mem s tenant handle
  rw [memoryOk, Memory.wf, e]
  exact smWf_filter 0 s.mem p h

end Sys2Proof.Laws
end

