-- ==== Sys2Proof/Laws/Names.lean ====
section
/-!
SUPPORT. The handles of task records and the references of Answer Table entries name what they were made from, whatever the
first generation is.
-/

namespace Sys2Proof.Machine

theorem taskGen_lt (key adv : Nat) : taskGen key adv < 2 ^ 16 := Nat.mod_lt _ (by decide)

theorem genOf_bounds (way adv : Nat) : 1 ≤ genOf way adv ∧ genOf way adv ≤ 1023 := by
  have : (Config.firstGen way + adv) % 1023 < 1023 := Nat.mod_lt _ (by decide)
  simp only [genOf]; omega

theorem State.taskOf_handle (s : State) (key : Nat) (hk : key < 2 ^ 19) (h : (s.task key).st ≠ .free) :
    s.taskOf (s.task key).tenant (s.taskHandle key) = some key := by
  have g := taskGen_lt key (s.task key).adv
  unfold State.taskHandle
  generalize hg : taskGen key (s.task key).adv = n at g ⊢
  have e : (BitVec.ofNat 64 (key + n * 2 ^ 32)).toNat = key + n * 2 ^ 32 := by
    rw [BitVec.toNat_ofNat]; omega
  have a : bitsAt (w64 (key + n * 2 ^ 32)) 18 0 = key := by simp only [bitsAt, w64, e]; omega
  have b : bitsAt (w64 (key + n * 2 ^ 32)) 31 19 = 0 := by simp only [bitsAt, w64, e]; omega
  have c : bitsAt (w64 (key + n * 2 ^ 32)) 63 48 = 0 := by simp only [bitsAt, w64, e]; omega
  have d : bitsAt (w64 (key + n * 2 ^ 32)) 47 32 = n := by simp only [bitsAt, w64, e]; omega
  simp only [State.taskOf, a, b, c, d, hg]
  simp [h]

theorem State.wayOf_refOf (s : State) (way hi : Nat) (hw : way < 2 ^ 21) (hh : hi < 2 ^ 33) (h : (s.entry way).st ≠ .free) :
    s.wayOf (s.entry way).tenant.toNat (BitVec.ofNat 64 (s.refOf way + hi * 2 ^ 31)) = some way := by
  have g := genOf_bounds way (s.entry way).adv
  unfold State.refOf
  generalize hg : genOf way (s.entry way).adv = n at g ⊢
  have e : (BitVec.ofNat 64 (way + n * 2 ^ 21 + hi * 2 ^ 31)).toNat = way + n * 2 ^ 21 + hi * 2 ^ 31 := by
    rw [BitVec.toNat_ofNat]; omega
  have a : (BitVec.ofNat 64 (way + n * 2 ^ 21 + hi * 2 ^ 31)).toNat % 2 ^ 21 = way := by rw [e]; omega
  have b : bitsAt (BitVec.ofNat 64 (way + n * 2 ^ 21 + hi * 2 ^ 31)) 30 21 = n := by simp only [bitsAt, e]; omega
  simp only [State.wayOf, a, b, hg]
  simp [h]

end Sys2Proof.Machine
end

