-- ==== Sys2Proof/Laws/State.lean ====
section
/-!
SUPPORT. What each update of the state leaves: one lemma for each field and each update, and what a slot and a register read
after a write.
-/

namespace Sys2Proof.Machine

/-! ## setSlot -/

@[simp] theorem State.setSlot_mem (s : State) (k : Nat) (x : Slot) : (s.setSlot k x).mem = s.mem := rfl
@[simp] theorem State.setSlot_bad (s : State) (k : Nat) (x : Slot) : (s.setSlot k x).bad = s.bad := rfl
@[simp] theorem State.setSlot_flaws (s : State) (k : Nat) (x : Slot) : (s.setSlot k x).flaws = s.flaws := rfl
@[simp] theorem State.setSlot_rowSeen (s : State) (k : Nat) (x : Slot) : (s.setSlot k x).rowSeen = s.rowSeen := rfl
@[simp] theorem State.setSlot_rowBad (s : State) (k : Nat) (x : Slot) : (s.setSlot k x).rowBad = s.rowBad := rfl
@[simp] theorem State.setSlot_spareRows (s : State) (k : Nat) (x : Slot) : (s.setSlot k x).spareRows = s.spareRows := rfl
@[simp] theorem State.setSlot_spadFails (s : State) (k : Nat) (x : Slot) : (s.setSlot k x).spadFails = s.spadFails := rfl
@[simp] theorem State.setSlot_feFlip (s : State) (k : Nat) (x : Slot) : (s.setSlot k x).feFlip = s.feFlip := rfl
@[simp] theorem State.setSlot_objs (s : State) (k : Nat) (x : Slot) : (s.setSlot k x).objs = s.objs := rfl
@[simp] theorem State.setSlot_blks (s : State) (k : Nat) (x : Slot) : (s.setSlot k x).blks = s.blks := rfl
@[simp] theorem State.setSlot_resv (s : State) (k : Nat) (x : Slot) : (s.setSlot k x).resv = s.resv := rfl
@[simp] theorem State.setSlot_layers (s : State) (k : Nat) (x : Slot) : (s.setSlot k x).layers = s.layers := rfl
@[simp] theorem State.setSlot_retired (s : State) (k : Nat) (x : Slot) : (s.setSlot k x).retired = s.retired := rfl
@[simp] theorem State.setSlot_queues (s : State) (k : Nat) (x : Slot) : (s.setSlot k x).queues = s.queues := rfl
@[simp] theorem State.setSlot_welt (s : State) (k : Nat) (x : Slot) : (s.setSlot k x).welt = s.welt := rfl
@[simp] theorem State.setSlot_replies (s : State) (k : Nat) (x : Slot) : (s.setSlot k x).replies = s.replies := rfl
@[simp] theorem State.setSlot_entries (s : State) (k : Nat) (x : Slot) : (s.setSlot k x).entries = s.entries := rfl
@[simp] theorem State.setSlot_groups (s : State) (k : Nat) (x : Slot) : (s.setSlot k x).groups = s.groups := rfl
@[simp] theorem State.setSlot_pins (s : State) (k : Nat) (x : Slot) : (s.setSlot k x).pins = s.pins := rfl
@[simp] theorem State.setSlot_tasks (s : State) (k : Nat) (x : Slot) : (s.setSlot k x).tasks = s.tasks := rfl
@[simp] theorem State.setSlot_launches (s : State) (k : Nat) (x : Slot) : (s.setSlot k x).launches = s.launches := rfl
@[simp] theorem State.setSlot_lnums (s : State) (k : Nat) (x : Slot) : (s.setSlot k x).lnums = s.lnums := rfl
@[simp] theorem State.setSlot_spilled (s : State) (k : Nat) (x : Slot) : (s.setSlot k x).spilled = s.spilled := rfl
@[simp] theorem State.setSlot_pkts (s : State) (k : Nat) (x : Slot) : (s.setSlot k x).pkts = s.pkts := rfl
@[simp] theorem State.setSlot_freedAt (s : State) (k : Nat) (x : Slot) : (s.setSlot k x).freedAt = s.freedAt := rfl
@[simp] theorem State.setSlot_mbox (s : State) (k : Nat) (x : Slot) : (s.setSlot k x).mbox = s.mbox := rfl
@[simp] theorem State.setSlot_wakes (s : State) (k : Nat) (x : Slot) : (s.setSlot k x).wakes = s.wakes := rfl
@[simp] theorem State.setSlot_dts (s : State) (k : Nat) (x : Slot) : (s.setSlot k x).dts = s.dts := rfl
@[simp] theorem State.setSlot_mat (s : State) (k : Nat) (x : Slot) : (s.setSlot k x).mat = s.mat := rfl
@[simp] theorem State.setSlot_mcapk (s : State) (k : Nat) (x : Slot) : (s.setSlot k x).mcapk = s.mcapk := rfl
@[simp] theorem State.setSlot_dropped (s : State) (k : Nat) (x : Slot) : (s.setSlot k x).dropped = s.dropped := rfl
@[simp] theorem State.setSlot_events (s : State) (k : Nat) (x : Slot) : (s.setSlot k x).events = s.events := rfl
@[simp] theorem State.setSlot_tenants (s : State) (k : Nat) (x : Slot) : (s.setSlot k x).tenants = s.tenants := rfl
@[simp] theorem State.setSlot_tlb (s : State) (k : Nat) (x : Slot) : (s.setSlot k x).tlb = s.tlb := rfl
@[simp] theorem State.setSlot_peers (s : State) (k : Nat) (x : Slot) : (s.setSlot k x).peers = s.peers := rfl
@[simp] theorem State.setSlot_tbankOut (s : State) (k : Nat) (x : Slot) : (s.setSlot k x).tbankOut = s.tbankOut := rfl
@[simp] theorem State.setSlot_towner (s : State) (k : Nat) (x : Slot) : (s.setSlot k x).towner = s.towner := rfl
@[simp] theorem State.setSlot_spad32 (s : State) (k : Nat) (x : Slot) : (s.setSlot k x).spad32 = s.spad32 := rfl
@[simp] theorem State.setSlot_sowner (s : State) (k : Nat) (x : Slot) : (s.setSlot k x).sowner = s.sowner := rfl
@[simp] theorem State.setSlot_gowner (s : State) (k : Nat) (x : Slot) : (s.setSlot k x).gowner = s.gowner := rfl
@[simp] theorem State.setSlot_ccount (s : State) (k : Nat) (x : Slot) : (s.setSlot k x).ccount = s.ccount := rfl
@[simp] theorem State.setSlot_ucount (s : State) (k : Nat) (x : Slot) : (s.setSlot k x).ucount = s.ucount := rfl
@[simp] theorem State.setSlot_coremask (s : State) (k : Nat) (x : Slot) : (s.setSlot k x).coremask = s.coremask := rfl
@[simp] theorem State.setSlot_icache (s : State) (k : Nat) (x : Slot) : (s.setSlot k x).icache = s.icache := rfl
@[simp] theorem State.setSlot_copy (s : State) (k : Nat) (x : Slot) : (s.setSlot k x).copy = s.copy := rfl
@[simp] theorem State.setSlot_permits (s : State) (k : Nat) (x : Slot) : (s.setSlot k x).permits = s.permits := rfl
@[simp] theorem State.setSlot_permitQ (s : State) (k : Nat) (x : Slot) : (s.setSlot k x).permitQ = s.permitQ := rfl
@[simp] theorem State.setSlot_visits (s : State) (k : Nat) (x : Slot) : (s.setSlot k x).visits = s.visits := rfl
@[simp] theorem State.setSlot_fns (s : State) (k : Nat) (x : Slot) : (s.setSlot k x).fns = s.fns := rfl
@[simp] theorem State.setSlot_mgmt (s : State) (k : Nat) (x : Slot) : (s.setSlot k x).mgmt = s.mgmt := rfl
@[simp] theorem State.setSlot_cycle (s : State) (k : Nat) (x : Slot) : (s.setSlot k x).cycle = s.cycle := rfl
@[simp] theorem State.setSlot_agenda (s : State) (k : Nat) (x : Slot) : (s.setSlot k x).agenda = s.agenda := rfl
@[simp] theorem State.setSlot_cur (s : State) (k : Nat) (x : Slot) : (s.setSlot k x).cur = s.cur := rfl
@[simp] theorem State.setSlot_src (s : State) (k : Nat) (x : Slot) : (s.setSlot k x).src = s.src := rfl
@[simp] theorem State.setSlot_raw (s : State) (k : Nat) (x : Slot) : (s.setSlot k x).raw = s.raw := rfl
@[simp] theorem State.setSlot_trapped (s : State) (k : Nat) (x : Slot) : (s.setSlot k x).trapped = s.trapped := rfl
@[simp] theorem State.setSlot_slow (s : State) (k : Nat) (x : Slot) : (s.setSlot k x).slow = s.slow := rfl
@[simp] theorem State.setSlot_free (s : State) (k : Nat) (x : Slot) : (s.setSlot k x).free = s.free := rfl
@[simp] theorem State.setSlot_nextTid (s : State) (k : Nat) (x : Slot) : (s.setSlot k x).nextTid = s.nextTid := rfl
@[simp] theorem State.setSlot_stamp (s : State) (k : Nat) (x : Slot) : (s.setSlot k x).stamp = s.stamp := rfl
@[simp] theorem State.setSlot_stopped (s : State) (k : Nat) (x : Slot) : (s.setSlot k x).stopped = s.stopped := rfl

/-! ## modSlot -/

@[simp] theorem State.modSlot_mem (s : State) (k : Nat) (f : Slot → Slot) : (s.modSlot k f).mem = s.mem := rfl
@[simp] theorem State.modSlot_bad (s : State) (k : Nat) (f : Slot → Slot) : (s.modSlot k f).bad = s.bad := rfl
@[simp] theorem State.modSlot_flaws (s : State) (k : Nat) (f : Slot → Slot) : (s.modSlot k f).flaws = s.flaws := rfl
@[simp] theorem State.modSlot_rowSeen (s : State) (k : Nat) (f : Slot → Slot) : (s.modSlot k f).rowSeen = s.rowSeen := rfl
@[simp] theorem State.modSlot_rowBad (s : State) (k : Nat) (f : Slot → Slot) : (s.modSlot k f).rowBad = s.rowBad := rfl
@[simp] theorem State.modSlot_spareRows (s : State) (k : Nat) (f : Slot → Slot) : (s.modSlot k f).spareRows = s.spareRows := rfl
@[simp] theorem State.modSlot_spadFails (s : State) (k : Nat) (f : Slot → Slot) : (s.modSlot k f).spadFails = s.spadFails := rfl
@[simp] theorem State.modSlot_feFlip (s : State) (k : Nat) (f : Slot → Slot) : (s.modSlot k f).feFlip = s.feFlip := rfl
@[simp] theorem State.modSlot_objs (s : State) (k : Nat) (f : Slot → Slot) : (s.modSlot k f).objs = s.objs := rfl
@[simp] theorem State.modSlot_blks (s : State) (k : Nat) (f : Slot → Slot) : (s.modSlot k f).blks = s.blks := rfl
@[simp] theorem State.modSlot_resv (s : State) (k : Nat) (f : Slot → Slot) : (s.modSlot k f).resv = s.resv := rfl
@[simp] theorem State.modSlot_layers (s : State) (k : Nat) (f : Slot → Slot) : (s.modSlot k f).layers = s.layers := rfl
@[simp] theorem State.modSlot_retired (s : State) (k : Nat) (f : Slot → Slot) : (s.modSlot k f).retired = s.retired := rfl
@[simp] theorem State.modSlot_queues (s : State) (k : Nat) (f : Slot → Slot) : (s.modSlot k f).queues = s.queues := rfl
@[simp] theorem State.modSlot_welt (s : State) (k : Nat) (f : Slot → Slot) : (s.modSlot k f).welt = s.welt := rfl
@[simp] theorem State.modSlot_replies (s : State) (k : Nat) (f : Slot → Slot) : (s.modSlot k f).replies = s.replies := rfl
@[simp] theorem State.modSlot_entries (s : State) (k : Nat) (f : Slot → Slot) : (s.modSlot k f).entries = s.entries := rfl
@[simp] theorem State.modSlot_groups (s : State) (k : Nat) (f : Slot → Slot) : (s.modSlot k f).groups = s.groups := rfl
@[simp] theorem State.modSlot_pins (s : State) (k : Nat) (f : Slot → Slot) : (s.modSlot k f).pins = s.pins := rfl
@[simp] theorem State.modSlot_tasks (s : State) (k : Nat) (f : Slot → Slot) : (s.modSlot k f).tasks = s.tasks := rfl
@[simp] theorem State.modSlot_launches (s : State) (k : Nat) (f : Slot → Slot) : (s.modSlot k f).launches = s.launches := rfl
@[simp] theorem State.modSlot_lnums (s : State) (k : Nat) (f : Slot → Slot) : (s.modSlot k f).lnums = s.lnums := rfl
@[simp] theorem State.modSlot_spilled (s : State) (k : Nat) (f : Slot → Slot) : (s.modSlot k f).spilled = s.spilled := rfl
@[simp] theorem State.modSlot_pkts (s : State) (k : Nat) (f : Slot → Slot) : (s.modSlot k f).pkts = s.pkts := rfl
@[simp] theorem State.modSlot_freedAt (s : State) (k : Nat) (f : Slot → Slot) : (s.modSlot k f).freedAt = s.freedAt := rfl
@[simp] theorem State.modSlot_mbox (s : State) (k : Nat) (f : Slot → Slot) : (s.modSlot k f).mbox = s.mbox := rfl
@[simp] theorem State.modSlot_wakes (s : State) (k : Nat) (f : Slot → Slot) : (s.modSlot k f).wakes = s.wakes := rfl
@[simp] theorem State.modSlot_dts (s : State) (k : Nat) (f : Slot → Slot) : (s.modSlot k f).dts = s.dts := rfl
@[simp] theorem State.modSlot_mat (s : State) (k : Nat) (f : Slot → Slot) : (s.modSlot k f).mat = s.mat := rfl
@[simp] theorem State.modSlot_mcapk (s : State) (k : Nat) (f : Slot → Slot) : (s.modSlot k f).mcapk = s.mcapk := rfl
@[simp] theorem State.modSlot_dropped (s : State) (k : Nat) (f : Slot → Slot) : (s.modSlot k f).dropped = s.dropped := rfl
@[simp] theorem State.modSlot_events (s : State) (k : Nat) (f : Slot → Slot) : (s.modSlot k f).events = s.events := rfl
@[simp] theorem State.modSlot_tenants (s : State) (k : Nat) (f : Slot → Slot) : (s.modSlot k f).tenants = s.tenants := rfl
@[simp] theorem State.modSlot_tlb (s : State) (k : Nat) (f : Slot → Slot) : (s.modSlot k f).tlb = s.tlb := rfl
@[simp] theorem State.modSlot_peers (s : State) (k : Nat) (f : Slot → Slot) : (s.modSlot k f).peers = s.peers := rfl
@[simp] theorem State.modSlot_tbankOut (s : State) (k : Nat) (f : Slot → Slot) : (s.modSlot k f).tbankOut = s.tbankOut := rfl
@[simp] theorem State.modSlot_towner (s : State) (k : Nat) (f : Slot → Slot) : (s.modSlot k f).towner = s.towner := rfl
@[simp] theorem State.modSlot_spad32 (s : State) (k : Nat) (f : Slot → Slot) : (s.modSlot k f).spad32 = s.spad32 := rfl
@[simp] theorem State.modSlot_sowner (s : State) (k : Nat) (f : Slot → Slot) : (s.modSlot k f).sowner = s.sowner := rfl
@[simp] theorem State.modSlot_gowner (s : State) (k : Nat) (f : Slot → Slot) : (s.modSlot k f).gowner = s.gowner := rfl
@[simp] theorem State.modSlot_ccount (s : State) (k : Nat) (f : Slot → Slot) : (s.modSlot k f).ccount = s.ccount := rfl
@[simp] theorem State.modSlot_ucount (s : State) (k : Nat) (f : Slot → Slot) : (s.modSlot k f).ucount = s.ucount := rfl
@[simp] theorem State.modSlot_coremask (s : State) (k : Nat) (f : Slot → Slot) : (s.modSlot k f).coremask = s.coremask := rfl
@[simp] theorem State.modSlot_icache (s : State) (k : Nat) (f : Slot → Slot) : (s.modSlot k f).icache = s.icache := rfl
@[simp] theorem State.modSlot_copy (s : State) (k : Nat) (f : Slot → Slot) : (s.modSlot k f).copy = s.copy := rfl
@[simp] theorem State.modSlot_permits (s : State) (k : Nat) (f : Slot → Slot) : (s.modSlot k f).permits = s.permits := rfl
@[simp] theorem State.modSlot_permitQ (s : State) (k : Nat) (f : Slot → Slot) : (s.modSlot k f).permitQ = s.permitQ := rfl
@[simp] theorem State.modSlot_visits (s : State) (k : Nat) (f : Slot → Slot) : (s.modSlot k f).visits = s.visits := rfl
@[simp] theorem State.modSlot_fns (s : State) (k : Nat) (f : Slot → Slot) : (s.modSlot k f).fns = s.fns := rfl
@[simp] theorem State.modSlot_mgmt (s : State) (k : Nat) (f : Slot → Slot) : (s.modSlot k f).mgmt = s.mgmt := rfl
@[simp] theorem State.modSlot_cycle (s : State) (k : Nat) (f : Slot → Slot) : (s.modSlot k f).cycle = s.cycle := rfl
@[simp] theorem State.modSlot_agenda (s : State) (k : Nat) (f : Slot → Slot) : (s.modSlot k f).agenda = s.agenda := rfl
@[simp] theorem State.modSlot_cur (s : State) (k : Nat) (f : Slot → Slot) : (s.modSlot k f).cur = s.cur := rfl
@[simp] theorem State.modSlot_src (s : State) (k : Nat) (f : Slot → Slot) : (s.modSlot k f).src = s.src := rfl
@[simp] theorem State.modSlot_raw (s : State) (k : Nat) (f : Slot → Slot) : (s.modSlot k f).raw = s.raw := rfl
@[simp] theorem State.modSlot_trapped (s : State) (k : Nat) (f : Slot → Slot) : (s.modSlot k f).trapped = s.trapped := rfl
@[simp] theorem State.modSlot_slow (s : State) (k : Nat) (f : Slot → Slot) : (s.modSlot k f).slow = s.slow := rfl
@[simp] theorem State.modSlot_free (s : State) (k : Nat) (f : Slot → Slot) : (s.modSlot k f).free = s.free := rfl
@[simp] theorem State.modSlot_nextTid (s : State) (k : Nat) (f : Slot → Slot) : (s.modSlot k f).nextTid = s.nextTid := rfl
@[simp] theorem State.modSlot_stamp (s : State) (k : Nat) (f : Slot → Slot) : (s.modSlot k f).stamp = s.stamp := rfl
@[simp] theorem State.modSlot_stopped (s : State) (k : Nat) (f : Slot → Slot) : (s.modSlot k f).stopped = s.stopped := rfl

/-! ## upd -/

@[simp] theorem State.upd_mem (s : State) (f : Ctx → Ctx) : (s.upd f).mem = s.mem := rfl
@[simp] theorem State.upd_bad (s : State) (f : Ctx → Ctx) : (s.upd f).bad = s.bad := rfl
@[simp] theorem State.upd_flaws (s : State) (f : Ctx → Ctx) : (s.upd f).flaws = s.flaws := rfl
@[simp] theorem State.upd_rowSeen (s : State) (f : Ctx → Ctx) : (s.upd f).rowSeen = s.rowSeen := rfl
@[simp] theorem State.upd_rowBad (s : State) (f : Ctx → Ctx) : (s.upd f).rowBad = s.rowBad := rfl
@[simp] theorem State.upd_spareRows (s : State) (f : Ctx → Ctx) : (s.upd f).spareRows = s.spareRows := rfl
@[simp] theorem State.upd_spadFails (s : State) (f : Ctx → Ctx) : (s.upd f).spadFails = s.spadFails := rfl
@[simp] theorem State.upd_feFlip (s : State) (f : Ctx → Ctx) : (s.upd f).feFlip = s.feFlip := rfl
@[simp] theorem State.upd_objs (s : State) (f : Ctx → Ctx) : (s.upd f).objs = s.objs := rfl
@[simp] theorem State.upd_blks (s : State) (f : Ctx → Ctx) : (s.upd f).blks = s.blks := rfl
@[simp] theorem State.upd_resv (s : State) (f : Ctx → Ctx) : (s.upd f).resv = s.resv := rfl
@[simp] theorem State.upd_layers (s : State) (f : Ctx → Ctx) : (s.upd f).layers = s.layers := rfl
@[simp] theorem State.upd_retired (s : State) (f : Ctx → Ctx) : (s.upd f).retired = s.retired := rfl
@[simp] theorem State.upd_queues (s : State) (f : Ctx → Ctx) : (s.upd f).queues = s.queues := rfl
@[simp] theorem State.upd_welt (s : State) (f : Ctx → Ctx) : (s.upd f).welt = s.welt := rfl
@[simp] theorem State.upd_replies (s : State) (f : Ctx → Ctx) : (s.upd f).replies = s.replies := rfl
@[simp] theorem State.upd_entries (s : State) (f : Ctx → Ctx) : (s.upd f).entries = s.entries := rfl
@[simp] theorem State.upd_groups (s : State) (f : Ctx → Ctx) : (s.upd f).groups = s.groups := rfl
@[simp] theorem State.upd_pins (s : State) (f : Ctx → Ctx) : (s.upd f).pins = s.pins := rfl
@[simp] theorem State.upd_tasks (s : State) (f : Ctx → Ctx) : (s.upd f).tasks = s.tasks := rfl
@[simp] theorem State.upd_launches (s : State) (f : Ctx → Ctx) : (s.upd f).launches = s.launches := rfl
@[simp] theorem State.upd_lnums (s : State) (f : Ctx → Ctx) : (s.upd f).lnums = s.lnums := rfl
@[simp] theorem State.upd_spilled (s : State) (f : Ctx → Ctx) : (s.upd f).spilled = s.spilled := rfl
@[simp] theorem State.upd_pkts (s : State) (f : Ctx → Ctx) : (s.upd f).pkts = s.pkts := rfl
@[simp] theorem State.upd_freedAt (s : State) (f : Ctx → Ctx) : (s.upd f).freedAt = s.freedAt := rfl
@[simp] theorem State.upd_mbox (s : State) (f : Ctx → Ctx) : (s.upd f).mbox = s.mbox := rfl
@[simp] theorem State.upd_wakes (s : State) (f : Ctx → Ctx) : (s.upd f).wakes = s.wakes := rfl
@[simp] theorem State.upd_dts (s : State) (f : Ctx → Ctx) : (s.upd f).dts = s.dts := rfl
@[simp] theorem State.upd_mat (s : State) (f : Ctx → Ctx) : (s.upd f).mat = s.mat := rfl
@[simp] theorem State.upd_mcapk (s : State) (f : Ctx → Ctx) : (s.upd f).mcapk = s.mcapk := rfl
@[simp] theorem State.upd_dropped (s : State) (f : Ctx → Ctx) : (s.upd f).dropped = s.dropped := rfl
@[simp] theorem State.upd_events (s : State) (f : Ctx → Ctx) : (s.upd f).events = s.events := rfl
@[simp] theorem State.upd_tenants (s : State) (f : Ctx → Ctx) : (s.upd f).tenants = s.tenants := rfl
@[simp] theorem State.upd_tlb (s : State) (f : Ctx → Ctx) : (s.upd f).tlb = s.tlb := rfl
@[simp] theorem State.upd_peers (s : State) (f : Ctx → Ctx) : (s.upd f).peers = s.peers := rfl
@[simp] theorem State.upd_tbankOut (s : State) (f : Ctx → Ctx) : (s.upd f).tbankOut = s.tbankOut := rfl
@[simp] theorem State.upd_towner (s : State) (f : Ctx → Ctx) : (s.upd f).towner = s.towner := rfl
@[simp] theorem State.upd_spad32 (s : State) (f : Ctx → Ctx) : (s.upd f).spad32 = s.spad32 := rfl
@[simp] theorem State.upd_sowner (s : State) (f : Ctx → Ctx) : (s.upd f).sowner = s.sowner := rfl
@[simp] theorem State.upd_gowner (s : State) (f : Ctx → Ctx) : (s.upd f).gowner = s.gowner := rfl
@[simp] theorem State.upd_ccount (s : State) (f : Ctx → Ctx) : (s.upd f).ccount = s.ccount := rfl
@[simp] theorem State.upd_ucount (s : State) (f : Ctx → Ctx) : (s.upd f).ucount = s.ucount := rfl
@[simp] theorem State.upd_coremask (s : State) (f : Ctx → Ctx) : (s.upd f).coremask = s.coremask := rfl
@[simp] theorem State.upd_icache (s : State) (f : Ctx → Ctx) : (s.upd f).icache = s.icache := rfl
@[simp] theorem State.upd_copy (s : State) (f : Ctx → Ctx) : (s.upd f).copy = s.copy := rfl
@[simp] theorem State.upd_permits (s : State) (f : Ctx → Ctx) : (s.upd f).permits = s.permits := rfl
@[simp] theorem State.upd_permitQ (s : State) (f : Ctx → Ctx) : (s.upd f).permitQ = s.permitQ := rfl
@[simp] theorem State.upd_visits (s : State) (f : Ctx → Ctx) : (s.upd f).visits = s.visits := rfl
@[simp] theorem State.upd_fns (s : State) (f : Ctx → Ctx) : (s.upd f).fns = s.fns := rfl
@[simp] theorem State.upd_mgmt (s : State) (f : Ctx → Ctx) : (s.upd f).mgmt = s.mgmt := rfl
@[simp] theorem State.upd_cycle (s : State) (f : Ctx → Ctx) : (s.upd f).cycle = s.cycle := rfl
@[simp] theorem State.upd_agenda (s : State) (f : Ctx → Ctx) : (s.upd f).agenda = s.agenda := rfl
@[simp] theorem State.upd_cur (s : State) (f : Ctx → Ctx) : (s.upd f).cur = s.cur := rfl
@[simp] theorem State.upd_src (s : State) (f : Ctx → Ctx) : (s.upd f).src = s.src := rfl
@[simp] theorem State.upd_raw (s : State) (f : Ctx → Ctx) : (s.upd f).raw = s.raw := rfl
@[simp] theorem State.upd_trapped (s : State) (f : Ctx → Ctx) : (s.upd f).trapped = s.trapped := rfl
@[simp] theorem State.upd_slow (s : State) (f : Ctx → Ctx) : (s.upd f).slow = s.slow := rfl
@[simp] theorem State.upd_free (s : State) (f : Ctx → Ctx) : (s.upd f).free = s.free := rfl
@[simp] theorem State.upd_nextTid (s : State) (f : Ctx → Ctx) : (s.upd f).nextTid = s.nextTid := rfl
@[simp] theorem State.upd_stamp (s : State) (f : Ctx → Ctx) : (s.upd f).stamp = s.stamp := rfl
@[simp] theorem State.upd_stopped (s : State) (f : Ctx → Ctx) : (s.upd f).stopped = s.stopped := rfl

/-! ## setG -/

@[simp] theorem State.setG_mem (s : State) (n : GReg) (v : W64) : (s.setG n v).mem = s.mem := rfl
@[simp] theorem State.setG_bad (s : State) (n : GReg) (v : W64) : (s.setG n v).bad = s.bad := rfl
@[simp] theorem State.setG_flaws (s : State) (n : GReg) (v : W64) : (s.setG n v).flaws = s.flaws := rfl
@[simp] theorem State.setG_rowSeen (s : State) (n : GReg) (v : W64) : (s.setG n v).rowSeen = s.rowSeen := rfl
@[simp] theorem State.setG_rowBad (s : State) (n : GReg) (v : W64) : (s.setG n v).rowBad = s.rowBad := rfl
@[simp] theorem State.setG_spareRows (s : State) (n : GReg) (v : W64) : (s.setG n v).spareRows = s.spareRows := rfl
@[simp] theorem State.setG_spadFails (s : State) (n : GReg) (v : W64) : (s.setG n v).spadFails = s.spadFails := rfl
@[simp] theorem State.setG_feFlip (s : State) (n : GReg) (v : W64) : (s.setG n v).feFlip = s.feFlip := rfl
@[simp] theorem State.setG_objs (s : State) (n : GReg) (v : W64) : (s.setG n v).objs = s.objs := rfl
@[simp] theorem State.setG_blks (s : State) (n : GReg) (v : W64) : (s.setG n v).blks = s.blks := rfl
@[simp] theorem State.setG_resv (s : State) (n : GReg) (v : W64) : (s.setG n v).resv = s.resv := rfl
@[simp] theorem State.setG_layers (s : State) (n : GReg) (v : W64) : (s.setG n v).layers = s.layers := rfl
@[simp] theorem State.setG_retired (s : State) (n : GReg) (v : W64) : (s.setG n v).retired = s.retired := rfl
@[simp] theorem State.setG_queues (s : State) (n : GReg) (v : W64) : (s.setG n v).queues = s.queues := rfl
@[simp] theorem State.setG_welt (s : State) (n : GReg) (v : W64) : (s.setG n v).welt = s.welt := rfl
@[simp] theorem State.setG_replies (s : State) (n : GReg) (v : W64) : (s.setG n v).replies = s.replies := rfl
@[simp] theorem State.setG_entries (s : State) (n : GReg) (v : W64) : (s.setG n v).entries = s.entries := rfl
@[simp] theorem State.setG_groups (s : State) (n : GReg) (v : W64) : (s.setG n v).groups = s.groups := rfl
@[simp] theorem State.setG_pins (s : State) (n : GReg) (v : W64) : (s.setG n v).pins = s.pins := rfl
@[simp] theorem State.setG_tasks (s : State) (n : GReg) (v : W64) : (s.setG n v).tasks = s.tasks := rfl
@[simp] theorem State.setG_launches (s : State) (n : GReg) (v : W64) : (s.setG n v).launches = s.launches := rfl
@[simp] theorem State.setG_lnums (s : State) (n : GReg) (v : W64) : (s.setG n v).lnums = s.lnums := rfl
@[simp] theorem State.setG_spilled (s : State) (n : GReg) (v : W64) : (s.setG n v).spilled = s.spilled := rfl
@[simp] theorem State.setG_pkts (s : State) (n : GReg) (v : W64) : (s.setG n v).pkts = s.pkts := rfl
@[simp] theorem State.setG_freedAt (s : State) (n : GReg) (v : W64) : (s.setG n v).freedAt = s.freedAt := rfl
@[simp] theorem State.setG_mbox (s : State) (n : GReg) (v : W64) : (s.setG n v).mbox = s.mbox := rfl
@[simp] theorem State.setG_wakes (s : State) (n : GReg) (v : W64) : (s.setG n v).wakes = s.wakes := rfl
@[simp] theorem State.setG_dts (s : State) (n : GReg) (v : W64) : (s.setG n v).dts = s.dts := rfl
@[simp] theorem State.setG_mat (s : State) (n : GReg) (v : W64) : (s.setG n v).mat = s.mat := rfl
@[simp] theorem State.setG_mcapk (s : State) (n : GReg) (v : W64) : (s.setG n v).mcapk = s.mcapk := rfl
@[simp] theorem State.setG_dropped (s : State) (n : GReg) (v : W64) : (s.setG n v).dropped = s.dropped := rfl
@[simp] theorem State.setG_events (s : State) (n : GReg) (v : W64) : (s.setG n v).events = s.events := rfl
@[simp] theorem State.setG_tenants (s : State) (n : GReg) (v : W64) : (s.setG n v).tenants = s.tenants := rfl
@[simp] theorem State.setG_tlb (s : State) (n : GReg) (v : W64) : (s.setG n v).tlb = s.tlb := rfl
@[simp] theorem State.setG_peers (s : State) (n : GReg) (v : W64) : (s.setG n v).peers = s.peers := rfl
@[simp] theorem State.setG_tbankOut (s : State) (n : GReg) (v : W64) : (s.setG n v).tbankOut = s.tbankOut := rfl
@[simp] theorem State.setG_towner (s : State) (n : GReg) (v : W64) : (s.setG n v).towner = s.towner := rfl
@[simp] theorem State.setG_spad32 (s : State) (n : GReg) (v : W64) : (s.setG n v).spad32 = s.spad32 := rfl
@[simp] theorem State.setG_sowner (s : State) (n : GReg) (v : W64) : (s.setG n v).sowner = s.sowner := rfl
@[simp] theorem State.setG_gowner (s : State) (n : GReg) (v : W64) : (s.setG n v).gowner = s.gowner := rfl
@[simp] theorem State.setG_ccount (s : State) (n : GReg) (v : W64) : (s.setG n v).ccount = s.ccount := rfl
@[simp] theorem State.setG_ucount (s : State) (n : GReg) (v : W64) : (s.setG n v).ucount = s.ucount := rfl
@[simp] theorem State.setG_coremask (s : State) (n : GReg) (v : W64) : (s.setG n v).coremask = s.coremask := rfl
@[simp] theorem State.setG_icache (s : State) (n : GReg) (v : W64) : (s.setG n v).icache = s.icache := rfl
@[simp] theorem State.setG_copy (s : State) (n : GReg) (v : W64) : (s.setG n v).copy = s.copy := rfl
@[simp] theorem State.setG_permits (s : State) (n : GReg) (v : W64) : (s.setG n v).permits = s.permits := rfl
@[simp] theorem State.setG_permitQ (s : State) (n : GReg) (v : W64) : (s.setG n v).permitQ = s.permitQ := rfl
@[simp] theorem State.setG_visits (s : State) (n : GReg) (v : W64) : (s.setG n v).visits = s.visits := rfl
@[simp] theorem State.setG_fns (s : State) (n : GReg) (v : W64) : (s.setG n v).fns = s.fns := rfl
@[simp] theorem State.setG_mgmt (s : State) (n : GReg) (v : W64) : (s.setG n v).mgmt = s.mgmt := rfl
@[simp] theorem State.setG_cycle (s : State) (n : GReg) (v : W64) : (s.setG n v).cycle = s.cycle := rfl
@[simp] theorem State.setG_agenda (s : State) (n : GReg) (v : W64) : (s.setG n v).agenda = s.agenda := rfl
@[simp] theorem State.setG_cur (s : State) (n : GReg) (v : W64) : (s.setG n v).cur = s.cur := rfl
@[simp] theorem State.setG_src (s : State) (n : GReg) (v : W64) : (s.setG n v).src = s.src := rfl
@[simp] theorem State.setG_raw (s : State) (n : GReg) (v : W64) : (s.setG n v).raw = s.raw := rfl
@[simp] theorem State.setG_trapped (s : State) (n : GReg) (v : W64) : (s.setG n v).trapped = s.trapped := rfl
@[simp] theorem State.setG_slow (s : State) (n : GReg) (v : W64) : (s.setG n v).slow = s.slow := rfl
@[simp] theorem State.setG_free (s : State) (n : GReg) (v : W64) : (s.setG n v).free = s.free := rfl
@[simp] theorem State.setG_nextTid (s : State) (n : GReg) (v : W64) : (s.setG n v).nextTid = s.nextTid := rfl
@[simp] theorem State.setG_stamp (s : State) (n : GReg) (v : W64) : (s.setG n v).stamp = s.stamp := rfl
@[simp] theorem State.setG_stopped (s : State) (n : GReg) (v : W64) : (s.setG n v).stopped = s.stopped := rfl

/-! ## setB -/

@[simp] theorem State.setB_mem (s : State) (n : PReg) (v : Bool) : (s.setB n v).mem = s.mem := rfl
@[simp] theorem State.setB_bad (s : State) (n : PReg) (v : Bool) : (s.setB n v).bad = s.bad := rfl
@[simp] theorem State.setB_flaws (s : State) (n : PReg) (v : Bool) : (s.setB n v).flaws = s.flaws := rfl
@[simp] theorem State.setB_rowSeen (s : State) (n : PReg) (v : Bool) : (s.setB n v).rowSeen = s.rowSeen := rfl
@[simp] theorem State.setB_rowBad (s : State) (n : PReg) (v : Bool) : (s.setB n v).rowBad = s.rowBad := rfl
@[simp] theorem State.setB_spareRows (s : State) (n : PReg) (v : Bool) : (s.setB n v).spareRows = s.spareRows := rfl
@[simp] theorem State.setB_spadFails (s : State) (n : PReg) (v : Bool) : (s.setB n v).spadFails = s.spadFails := rfl
@[simp] theorem State.setB_feFlip (s : State) (n : PReg) (v : Bool) : (s.setB n v).feFlip = s.feFlip := rfl
@[simp] theorem State.setB_objs (s : State) (n : PReg) (v : Bool) : (s.setB n v).objs = s.objs := rfl
@[simp] theorem State.setB_blks (s : State) (n : PReg) (v : Bool) : (s.setB n v).blks = s.blks := rfl
@[simp] theorem State.setB_resv (s : State) (n : PReg) (v : Bool) : (s.setB n v).resv = s.resv := rfl
@[simp] theorem State.setB_layers (s : State) (n : PReg) (v : Bool) : (s.setB n v).layers = s.layers := rfl
@[simp] theorem State.setB_retired (s : State) (n : PReg) (v : Bool) : (s.setB n v).retired = s.retired := rfl
@[simp] theorem State.setB_queues (s : State) (n : PReg) (v : Bool) : (s.setB n v).queues = s.queues := rfl
@[simp] theorem State.setB_welt (s : State) (n : PReg) (v : Bool) : (s.setB n v).welt = s.welt := rfl
@[simp] theorem State.setB_replies (s : State) (n : PReg) (v : Bool) : (s.setB n v).replies = s.replies := rfl
@[simp] theorem State.setB_entries (s : State) (n : PReg) (v : Bool) : (s.setB n v).entries = s.entries := rfl
@[simp] theorem State.setB_groups (s : State) (n : PReg) (v : Bool) : (s.setB n v).groups = s.groups := rfl
@[simp] theorem State.setB_pins (s : State) (n : PReg) (v : Bool) : (s.setB n v).pins = s.pins := rfl
@[simp] theorem State.setB_tasks (s : State) (n : PReg) (v : Bool) : (s.setB n v).tasks = s.tasks := rfl
@[simp] theorem State.setB_launches (s : State) (n : PReg) (v : Bool) : (s.setB n v).launches = s.launches := rfl
@[simp] theorem State.setB_lnums (s : State) (n : PReg) (v : Bool) : (s.setB n v).lnums = s.lnums := rfl
@[simp] theorem State.setB_spilled (s : State) (n : PReg) (v : Bool) : (s.setB n v).spilled = s.spilled := rfl
@[simp] theorem State.setB_pkts (s : State) (n : PReg) (v : Bool) : (s.setB n v).pkts = s.pkts := rfl
@[simp] theorem State.setB_freedAt (s : State) (n : PReg) (v : Bool) : (s.setB n v).freedAt = s.freedAt := rfl
@[simp] theorem State.setB_mbox (s : State) (n : PReg) (v : Bool) : (s.setB n v).mbox = s.mbox := rfl
@[simp] theorem State.setB_wakes (s : State) (n : PReg) (v : Bool) : (s.setB n v).wakes = s.wakes := rfl
@[simp] theorem State.setB_dts (s : State) (n : PReg) (v : Bool) : (s.setB n v).dts = s.dts := rfl
@[simp] theorem State.setB_mat (s : State) (n : PReg) (v : Bool) : (s.setB n v).mat = s.mat := rfl
@[simp] theorem State.setB_mcapk (s : State) (n : PReg) (v : Bool) : (s.setB n v).mcapk = s.mcapk := rfl
@[simp] theorem State.setB_dropped (s : State) (n : PReg) (v : Bool) : (s.setB n v).dropped = s.dropped := rfl
@[simp] theorem State.setB_events (s : State) (n : PReg) (v : Bool) : (s.setB n v).events = s.events := rfl
@[simp] theorem State.setB_tenants (s : State) (n : PReg) (v : Bool) : (s.setB n v).tenants = s.tenants := rfl
@[simp] theorem State.setB_tlb (s : State) (n : PReg) (v : Bool) : (s.setB n v).tlb = s.tlb := rfl
@[simp] theorem State.setB_peers (s : State) (n : PReg) (v : Bool) : (s.setB n v).peers = s.peers := rfl
@[simp] theorem State.setB_tbankOut (s : State) (n : PReg) (v : Bool) : (s.setB n v).tbankOut = s.tbankOut := rfl
@[simp] theorem State.setB_towner (s : State) (n : PReg) (v : Bool) : (s.setB n v).towner = s.towner := rfl
@[simp] theorem State.setB_spad32 (s : State) (n : PReg) (v : Bool) : (s.setB n v).spad32 = s.spad32 := rfl
@[simp] theorem State.setB_sowner (s : State) (n : PReg) (v : Bool) : (s.setB n v).sowner = s.sowner := rfl
@[simp] theorem State.setB_gowner (s : State) (n : PReg) (v : Bool) : (s.setB n v).gowner = s.gowner := rfl
@[simp] theorem State.setB_ccount (s : State) (n : PReg) (v : Bool) : (s.setB n v).ccount = s.ccount := rfl
@[simp] theorem State.setB_ucount (s : State) (n : PReg) (v : Bool) : (s.setB n v).ucount = s.ucount := rfl
@[simp] theorem State.setB_coremask (s : State) (n : PReg) (v : Bool) : (s.setB n v).coremask = s.coremask := rfl
@[simp] theorem State.setB_icache (s : State) (n : PReg) (v : Bool) : (s.setB n v).icache = s.icache := rfl
@[simp] theorem State.setB_copy (s : State) (n : PReg) (v : Bool) : (s.setB n v).copy = s.copy := rfl
@[simp] theorem State.setB_permits (s : State) (n : PReg) (v : Bool) : (s.setB n v).permits = s.permits := rfl
@[simp] theorem State.setB_permitQ (s : State) (n : PReg) (v : Bool) : (s.setB n v).permitQ = s.permitQ := rfl
@[simp] theorem State.setB_visits (s : State) (n : PReg) (v : Bool) : (s.setB n v).visits = s.visits := rfl
@[simp] theorem State.setB_fns (s : State) (n : PReg) (v : Bool) : (s.setB n v).fns = s.fns := rfl
@[simp] theorem State.setB_mgmt (s : State) (n : PReg) (v : Bool) : (s.setB n v).mgmt = s.mgmt := rfl
@[simp] theorem State.setB_cycle (s : State) (n : PReg) (v : Bool) : (s.setB n v).cycle = s.cycle := rfl
@[simp] theorem State.setB_agenda (s : State) (n : PReg) (v : Bool) : (s.setB n v).agenda = s.agenda := rfl
@[simp] theorem State.setB_cur (s : State) (n : PReg) (v : Bool) : (s.setB n v).cur = s.cur := rfl
@[simp] theorem State.setB_src (s : State) (n : PReg) (v : Bool) : (s.setB n v).src = s.src := rfl
@[simp] theorem State.setB_raw (s : State) (n : PReg) (v : Bool) : (s.setB n v).raw = s.raw := rfl
@[simp] theorem State.setB_trapped (s : State) (n : PReg) (v : Bool) : (s.setB n v).trapped = s.trapped := rfl
@[simp] theorem State.setB_slow (s : State) (n : PReg) (v : Bool) : (s.setB n v).slow = s.slow := rfl
@[simp] theorem State.setB_free (s : State) (n : PReg) (v : Bool) : (s.setB n v).free = s.free := rfl
@[simp] theorem State.setB_nextTid (s : State) (n : PReg) (v : Bool) : (s.setB n v).nextTid = s.nextTid := rfl
@[simp] theorem State.setB_stamp (s : State) (n : PReg) (v : Bool) : (s.setB n v).stamp = s.stamp := rfl
@[simp] theorem State.setB_stopped (s : State) (n : PReg) (v : Bool) : (s.setB n v).stopped = s.stopped := rfl

/-! ## setM -/

@[simp] theorem State.setM_mem (s : State) (n : MReg) (v : W64) : (s.setM n v).mem = s.mem := rfl
@[simp] theorem State.setM_bad (s : State) (n : MReg) (v : W64) : (s.setM n v).bad = s.bad := rfl
@[simp] theorem State.setM_flaws (s : State) (n : MReg) (v : W64) : (s.setM n v).flaws = s.flaws := rfl
@[simp] theorem State.setM_rowSeen (s : State) (n : MReg) (v : W64) : (s.setM n v).rowSeen = s.rowSeen := rfl
@[simp] theorem State.setM_rowBad (s : State) (n : MReg) (v : W64) : (s.setM n v).rowBad = s.rowBad := rfl
@[simp] theorem State.setM_spareRows (s : State) (n : MReg) (v : W64) : (s.setM n v).spareRows = s.spareRows := rfl
@[simp] theorem State.setM_spadFails (s : State) (n : MReg) (v : W64) : (s.setM n v).spadFails = s.spadFails := rfl
@[simp] theorem State.setM_feFlip (s : State) (n : MReg) (v : W64) : (s.setM n v).feFlip = s.feFlip := rfl
@[simp] theorem State.setM_objs (s : State) (n : MReg) (v : W64) : (s.setM n v).objs = s.objs := rfl
@[simp] theorem State.setM_blks (s : State) (n : MReg) (v : W64) : (s.setM n v).blks = s.blks := rfl
@[simp] theorem State.setM_resv (s : State) (n : MReg) (v : W64) : (s.setM n v).resv = s.resv := rfl
@[simp] theorem State.setM_layers (s : State) (n : MReg) (v : W64) : (s.setM n v).layers = s.layers := rfl
@[simp] theorem State.setM_retired (s : State) (n : MReg) (v : W64) : (s.setM n v).retired = s.retired := rfl
@[simp] theorem State.setM_queues (s : State) (n : MReg) (v : W64) : (s.setM n v).queues = s.queues := rfl
@[simp] theorem State.setM_welt (s : State) (n : MReg) (v : W64) : (s.setM n v).welt = s.welt := rfl
@[simp] theorem State.setM_replies (s : State) (n : MReg) (v : W64) : (s.setM n v).replies = s.replies := rfl
@[simp] theorem State.setM_entries (s : State) (n : MReg) (v : W64) : (s.setM n v).entries = s.entries := rfl
@[simp] theorem State.setM_groups (s : State) (n : MReg) (v : W64) : (s.setM n v).groups = s.groups := rfl
@[simp] theorem State.setM_pins (s : State) (n : MReg) (v : W64) : (s.setM n v).pins = s.pins := rfl
@[simp] theorem State.setM_tasks (s : State) (n : MReg) (v : W64) : (s.setM n v).tasks = s.tasks := rfl
@[simp] theorem State.setM_launches (s : State) (n : MReg) (v : W64) : (s.setM n v).launches = s.launches := rfl
@[simp] theorem State.setM_lnums (s : State) (n : MReg) (v : W64) : (s.setM n v).lnums = s.lnums := rfl
@[simp] theorem State.setM_spilled (s : State) (n : MReg) (v : W64) : (s.setM n v).spilled = s.spilled := rfl
@[simp] theorem State.setM_pkts (s : State) (n : MReg) (v : W64) : (s.setM n v).pkts = s.pkts := rfl
@[simp] theorem State.setM_freedAt (s : State) (n : MReg) (v : W64) : (s.setM n v).freedAt = s.freedAt := rfl
@[simp] theorem State.setM_mbox (s : State) (n : MReg) (v : W64) : (s.setM n v).mbox = s.mbox := rfl
@[simp] theorem State.setM_wakes (s : State) (n : MReg) (v : W64) : (s.setM n v).wakes = s.wakes := rfl
@[simp] theorem State.setM_dts (s : State) (n : MReg) (v : W64) : (s.setM n v).dts = s.dts := rfl
@[simp] theorem State.setM_mat (s : State) (n : MReg) (v : W64) : (s.setM n v).mat = s.mat := rfl
@[simp] theorem State.setM_mcapk (s : State) (n : MReg) (v : W64) : (s.setM n v).mcapk = s.mcapk := rfl
@[simp] theorem State.setM_dropped (s : State) (n : MReg) (v : W64) : (s.setM n v).dropped = s.dropped := rfl
@[simp] theorem State.setM_events (s : State) (n : MReg) (v : W64) : (s.setM n v).events = s.events := rfl
@[simp] theorem State.setM_tenants (s : State) (n : MReg) (v : W64) : (s.setM n v).tenants = s.tenants := rfl
@[simp] theorem State.setM_tlb (s : State) (n : MReg) (v : W64) : (s.setM n v).tlb = s.tlb := rfl
@[simp] theorem State.setM_peers (s : State) (n : MReg) (v : W64) : (s.setM n v).peers = s.peers := rfl
@[simp] theorem State.setM_tbankOut (s : State) (n : MReg) (v : W64) : (s.setM n v).tbankOut = s.tbankOut := rfl
@[simp] theorem State.setM_towner (s : State) (n : MReg) (v : W64) : (s.setM n v).towner = s.towner := rfl
@[simp] theorem State.setM_spad32 (s : State) (n : MReg) (v : W64) : (s.setM n v).spad32 = s.spad32 := rfl
@[simp] theorem State.setM_sowner (s : State) (n : MReg) (v : W64) : (s.setM n v).sowner = s.sowner := rfl
@[simp] theorem State.setM_gowner (s : State) (n : MReg) (v : W64) : (s.setM n v).gowner = s.gowner := rfl
@[simp] theorem State.setM_ccount (s : State) (n : MReg) (v : W64) : (s.setM n v).ccount = s.ccount := rfl
@[simp] theorem State.setM_ucount (s : State) (n : MReg) (v : W64) : (s.setM n v).ucount = s.ucount := rfl
@[simp] theorem State.setM_coremask (s : State) (n : MReg) (v : W64) : (s.setM n v).coremask = s.coremask := rfl
@[simp] theorem State.setM_icache (s : State) (n : MReg) (v : W64) : (s.setM n v).icache = s.icache := rfl
@[simp] theorem State.setM_copy (s : State) (n : MReg) (v : W64) : (s.setM n v).copy = s.copy := rfl
@[simp] theorem State.setM_permits (s : State) (n : MReg) (v : W64) : (s.setM n v).permits = s.permits := rfl
@[simp] theorem State.setM_permitQ (s : State) (n : MReg) (v : W64) : (s.setM n v).permitQ = s.permitQ := rfl
@[simp] theorem State.setM_visits (s : State) (n : MReg) (v : W64) : (s.setM n v).visits = s.visits := rfl
@[simp] theorem State.setM_fns (s : State) (n : MReg) (v : W64) : (s.setM n v).fns = s.fns := rfl
@[simp] theorem State.setM_mgmt (s : State) (n : MReg) (v : W64) : (s.setM n v).mgmt = s.mgmt := rfl
@[simp] theorem State.setM_cycle (s : State) (n : MReg) (v : W64) : (s.setM n v).cycle = s.cycle := rfl
@[simp] theorem State.setM_agenda (s : State) (n : MReg) (v : W64) : (s.setM n v).agenda = s.agenda := rfl
@[simp] theorem State.setM_cur (s : State) (n : MReg) (v : W64) : (s.setM n v).cur = s.cur := rfl
@[simp] theorem State.setM_src (s : State) (n : MReg) (v : W64) : (s.setM n v).src = s.src := rfl
@[simp] theorem State.setM_raw (s : State) (n : MReg) (v : W64) : (s.setM n v).raw = s.raw := rfl
@[simp] theorem State.setM_trapped (s : State) (n : MReg) (v : W64) : (s.setM n v).trapped = s.trapped := rfl
@[simp] theorem State.setM_slow (s : State) (n : MReg) (v : W64) : (s.setM n v).slow = s.slow := rfl
@[simp] theorem State.setM_free (s : State) (n : MReg) (v : W64) : (s.setM n v).free = s.free := rfl
@[simp] theorem State.setM_nextTid (s : State) (n : MReg) (v : W64) : (s.setM n v).nextTid = s.nextTid := rfl
@[simp] theorem State.setM_stamp (s : State) (n : MReg) (v : W64) : (s.setM n v).stamp = s.stamp := rfl
@[simp] theorem State.setM_stopped (s : State) (n : MReg) (v : W64) : (s.setM n v).stopped = s.stopped := rfl

/-! ## setV -/

@[simp] theorem State.setV_mem (s : State) (n : VReg) (v : BitVec 1024) : (s.setV n v).mem = s.mem := rfl
@[simp] theorem State.setV_bad (s : State) (n : VReg) (v : BitVec 1024) : (s.setV n v).bad = s.bad := rfl
@[simp] theorem State.setV_flaws (s : State) (n : VReg) (v : BitVec 1024) : (s.setV n v).flaws = s.flaws := rfl
@[simp] theorem State.setV_rowSeen (s : State) (n : VReg) (v : BitVec 1024) : (s.setV n v).rowSeen = s.rowSeen := rfl
@[simp] theorem State.setV_rowBad (s : State) (n : VReg) (v : BitVec 1024) : (s.setV n v).rowBad = s.rowBad := rfl
@[simp] theorem State.setV_spareRows (s : State) (n : VReg) (v : BitVec 1024) : (s.setV n v).spareRows = s.spareRows := rfl
@[simp] theorem State.setV_spadFails (s : State) (n : VReg) (v : BitVec 1024) : (s.setV n v).spadFails = s.spadFails := rfl
@[simp] theorem State.setV_feFlip (s : State) (n : VReg) (v : BitVec 1024) : (s.setV n v).feFlip = s.feFlip := rfl
@[simp] theorem State.setV_objs (s : State) (n : VReg) (v : BitVec 1024) : (s.setV n v).objs = s.objs := rfl
@[simp] theorem State.setV_blks (s : State) (n : VReg) (v : BitVec 1024) : (s.setV n v).blks = s.blks := rfl
@[simp] theorem State.setV_resv (s : State) (n : VReg) (v : BitVec 1024) : (s.setV n v).resv = s.resv := rfl
@[simp] theorem State.setV_layers (s : State) (n : VReg) (v : BitVec 1024) : (s.setV n v).layers = s.layers := rfl
@[simp] theorem State.setV_retired (s : State) (n : VReg) (v : BitVec 1024) : (s.setV n v).retired = s.retired := rfl
@[simp] theorem State.setV_queues (s : State) (n : VReg) (v : BitVec 1024) : (s.setV n v).queues = s.queues := rfl
@[simp] theorem State.setV_welt (s : State) (n : VReg) (v : BitVec 1024) : (s.setV n v).welt = s.welt := rfl
@[simp] theorem State.setV_replies (s : State) (n : VReg) (v : BitVec 1024) : (s.setV n v).replies = s.replies := rfl
@[simp] theorem State.setV_entries (s : State) (n : VReg) (v : BitVec 1024) : (s.setV n v).entries = s.entries := rfl
@[simp] theorem State.setV_groups (s : State) (n : VReg) (v : BitVec 1024) : (s.setV n v).groups = s.groups := rfl
@[simp] theorem State.setV_pins (s : State) (n : VReg) (v : BitVec 1024) : (s.setV n v).pins = s.pins := rfl
@[simp] theorem State.setV_tasks (s : State) (n : VReg) (v : BitVec 1024) : (s.setV n v).tasks = s.tasks := rfl
@[simp] theorem State.setV_launches (s : State) (n : VReg) (v : BitVec 1024) : (s.setV n v).launches = s.launches := rfl
@[simp] theorem State.setV_lnums (s : State) (n : VReg) (v : BitVec 1024) : (s.setV n v).lnums = s.lnums := rfl
@[simp] theorem State.setV_spilled (s : State) (n : VReg) (v : BitVec 1024) : (s.setV n v).spilled = s.spilled := rfl
@[simp] theorem State.setV_pkts (s : State) (n : VReg) (v : BitVec 1024) : (s.setV n v).pkts = s.pkts := rfl
@[simp] theorem State.setV_freedAt (s : State) (n : VReg) (v : BitVec 1024) : (s.setV n v).freedAt = s.freedAt := rfl
@[simp] theorem State.setV_mbox (s : State) (n : VReg) (v : BitVec 1024) : (s.setV n v).mbox = s.mbox := rfl
@[simp] theorem State.setV_wakes (s : State) (n : VReg) (v : BitVec 1024) : (s.setV n v).wakes = s.wakes := rfl
@[simp] theorem State.setV_dts (s : State) (n : VReg) (v : BitVec 1024) : (s.setV n v).dts = s.dts := rfl
@[simp] theorem State.setV_mat (s : State) (n : VReg) (v : BitVec 1024) : (s.setV n v).mat = s.mat := rfl
@[simp] theorem State.setV_mcapk (s : State) (n : VReg) (v : BitVec 1024) : (s.setV n v).mcapk = s.mcapk := rfl
@[simp] theorem State.setV_dropped (s : State) (n : VReg) (v : BitVec 1024) : (s.setV n v).dropped = s.dropped := rfl
@[simp] theorem State.setV_events (s : State) (n : VReg) (v : BitVec 1024) : (s.setV n v).events = s.events := rfl
@[simp] theorem State.setV_tenants (s : State) (n : VReg) (v : BitVec 1024) : (s.setV n v).tenants = s.tenants := rfl
@[simp] theorem State.setV_tlb (s : State) (n : VReg) (v : BitVec 1024) : (s.setV n v).tlb = s.tlb := rfl
@[simp] theorem State.setV_peers (s : State) (n : VReg) (v : BitVec 1024) : (s.setV n v).peers = s.peers := rfl
@[simp] theorem State.setV_tbankOut (s : State) (n : VReg) (v : BitVec 1024) : (s.setV n v).tbankOut = s.tbankOut := rfl
@[simp] theorem State.setV_towner (s : State) (n : VReg) (v : BitVec 1024) : (s.setV n v).towner = s.towner := rfl
@[simp] theorem State.setV_spad32 (s : State) (n : VReg) (v : BitVec 1024) : (s.setV n v).spad32 = s.spad32 := rfl
@[simp] theorem State.setV_sowner (s : State) (n : VReg) (v : BitVec 1024) : (s.setV n v).sowner = s.sowner := rfl
@[simp] theorem State.setV_gowner (s : State) (n : VReg) (v : BitVec 1024) : (s.setV n v).gowner = s.gowner := rfl
@[simp] theorem State.setV_ccount (s : State) (n : VReg) (v : BitVec 1024) : (s.setV n v).ccount = s.ccount := rfl
@[simp] theorem State.setV_ucount (s : State) (n : VReg) (v : BitVec 1024) : (s.setV n v).ucount = s.ucount := rfl
@[simp] theorem State.setV_coremask (s : State) (n : VReg) (v : BitVec 1024) : (s.setV n v).coremask = s.coremask := rfl
@[simp] theorem State.setV_icache (s : State) (n : VReg) (v : BitVec 1024) : (s.setV n v).icache = s.icache := rfl
@[simp] theorem State.setV_copy (s : State) (n : VReg) (v : BitVec 1024) : (s.setV n v).copy = s.copy := rfl
@[simp] theorem State.setV_permits (s : State) (n : VReg) (v : BitVec 1024) : (s.setV n v).permits = s.permits := rfl
@[simp] theorem State.setV_permitQ (s : State) (n : VReg) (v : BitVec 1024) : (s.setV n v).permitQ = s.permitQ := rfl
@[simp] theorem State.setV_visits (s : State) (n : VReg) (v : BitVec 1024) : (s.setV n v).visits = s.visits := rfl
@[simp] theorem State.setV_fns (s : State) (n : VReg) (v : BitVec 1024) : (s.setV n v).fns = s.fns := rfl
@[simp] theorem State.setV_mgmt (s : State) (n : VReg) (v : BitVec 1024) : (s.setV n v).mgmt = s.mgmt := rfl
@[simp] theorem State.setV_cycle (s : State) (n : VReg) (v : BitVec 1024) : (s.setV n v).cycle = s.cycle := rfl
@[simp] theorem State.setV_agenda (s : State) (n : VReg) (v : BitVec 1024) : (s.setV n v).agenda = s.agenda := rfl
@[simp] theorem State.setV_cur (s : State) (n : VReg) (v : BitVec 1024) : (s.setV n v).cur = s.cur := rfl
@[simp] theorem State.setV_src (s : State) (n : VReg) (v : BitVec 1024) : (s.setV n v).src = s.src := rfl
@[simp] theorem State.setV_raw (s : State) (n : VReg) (v : BitVec 1024) : (s.setV n v).raw = s.raw := rfl
@[simp] theorem State.setV_trapped (s : State) (n : VReg) (v : BitVec 1024) : (s.setV n v).trapped = s.trapped := rfl
@[simp] theorem State.setV_slow (s : State) (n : VReg) (v : BitVec 1024) : (s.setV n v).slow = s.slow := rfl
@[simp] theorem State.setV_free (s : State) (n : VReg) (v : BitVec 1024) : (s.setV n v).free = s.free := rfl
@[simp] theorem State.setV_nextTid (s : State) (n : VReg) (v : BitVec 1024) : (s.setV n v).nextTid = s.nextTid := rfl
@[simp] theorem State.setV_stamp (s : State) (n : VReg) (v : BitVec 1024) : (s.setV n v).stamp = s.stamp := rfl
@[simp] theorem State.setV_stopped (s : State) (n : VReg) (v : BitVec 1024) : (s.setV n v).stopped = s.stopped := rfl

/-! ## raise -/

@[simp] theorem State.raise_mem (s : State) (f : FlagSet) : (s.raise f).mem = s.mem := rfl
@[simp] theorem State.raise_bad (s : State) (f : FlagSet) : (s.raise f).bad = s.bad := rfl
@[simp] theorem State.raise_flaws (s : State) (f : FlagSet) : (s.raise f).flaws = s.flaws := rfl
@[simp] theorem State.raise_rowSeen (s : State) (f : FlagSet) : (s.raise f).rowSeen = s.rowSeen := rfl
@[simp] theorem State.raise_rowBad (s : State) (f : FlagSet) : (s.raise f).rowBad = s.rowBad := rfl
@[simp] theorem State.raise_spareRows (s : State) (f : FlagSet) : (s.raise f).spareRows = s.spareRows := rfl
@[simp] theorem State.raise_spadFails (s : State) (f : FlagSet) : (s.raise f).spadFails = s.spadFails := rfl
@[simp] theorem State.raise_feFlip (s : State) (f : FlagSet) : (s.raise f).feFlip = s.feFlip := rfl
@[simp] theorem State.raise_objs (s : State) (f : FlagSet) : (s.raise f).objs = s.objs := rfl
@[simp] theorem State.raise_blks (s : State) (f : FlagSet) : (s.raise f).blks = s.blks := rfl
@[simp] theorem State.raise_resv (s : State) (f : FlagSet) : (s.raise f).resv = s.resv := rfl
@[simp] theorem State.raise_layers (s : State) (f : FlagSet) : (s.raise f).layers = s.layers := rfl
@[simp] theorem State.raise_retired (s : State) (f : FlagSet) : (s.raise f).retired = s.retired := rfl
@[simp] theorem State.raise_queues (s : State) (f : FlagSet) : (s.raise f).queues = s.queues := rfl
@[simp] theorem State.raise_welt (s : State) (f : FlagSet) : (s.raise f).welt = s.welt := rfl
@[simp] theorem State.raise_replies (s : State) (f : FlagSet) : (s.raise f).replies = s.replies := rfl
@[simp] theorem State.raise_entries (s : State) (f : FlagSet) : (s.raise f).entries = s.entries := rfl
@[simp] theorem State.raise_groups (s : State) (f : FlagSet) : (s.raise f).groups = s.groups := rfl
@[simp] theorem State.raise_pins (s : State) (f : FlagSet) : (s.raise f).pins = s.pins := rfl
@[simp] theorem State.raise_tasks (s : State) (f : FlagSet) : (s.raise f).tasks = s.tasks := rfl
@[simp] theorem State.raise_launches (s : State) (f : FlagSet) : (s.raise f).launches = s.launches := rfl
@[simp] theorem State.raise_lnums (s : State) (f : FlagSet) : (s.raise f).lnums = s.lnums := rfl
@[simp] theorem State.raise_spilled (s : State) (f : FlagSet) : (s.raise f).spilled = s.spilled := rfl
@[simp] theorem State.raise_pkts (s : State) (f : FlagSet) : (s.raise f).pkts = s.pkts := rfl
@[simp] theorem State.raise_freedAt (s : State) (f : FlagSet) : (s.raise f).freedAt = s.freedAt := rfl
@[simp] theorem State.raise_mbox (s : State) (f : FlagSet) : (s.raise f).mbox = s.mbox := rfl
@[simp] theorem State.raise_wakes (s : State) (f : FlagSet) : (s.raise f).wakes = s.wakes := rfl
@[simp] theorem State.raise_dts (s : State) (f : FlagSet) : (s.raise f).dts = s.dts := rfl
@[simp] theorem State.raise_mat (s : State) (f : FlagSet) : (s.raise f).mat = s.mat := rfl
@[simp] theorem State.raise_mcapk (s : State) (f : FlagSet) : (s.raise f).mcapk = s.mcapk := rfl
@[simp] theorem State.raise_dropped (s : State) (f : FlagSet) : (s.raise f).dropped = s.dropped := rfl
@[simp] theorem State.raise_events (s : State) (f : FlagSet) : (s.raise f).events = s.events := rfl
@[simp] theorem State.raise_tenants (s : State) (f : FlagSet) : (s.raise f).tenants = s.tenants := rfl
@[simp] theorem State.raise_tlb (s : State) (f : FlagSet) : (s.raise f).tlb = s.tlb := rfl
@[simp] theorem State.raise_peers (s : State) (f : FlagSet) : (s.raise f).peers = s.peers := rfl
@[simp] theorem State.raise_tbankOut (s : State) (f : FlagSet) : (s.raise f).tbankOut = s.tbankOut := rfl
@[simp] theorem State.raise_towner (s : State) (f : FlagSet) : (s.raise f).towner = s.towner := rfl
@[simp] theorem State.raise_spad32 (s : State) (f : FlagSet) : (s.raise f).spad32 = s.spad32 := rfl
@[simp] theorem State.raise_sowner (s : State) (f : FlagSet) : (s.raise f).sowner = s.sowner := rfl
@[simp] theorem State.raise_gowner (s : State) (f : FlagSet) : (s.raise f).gowner = s.gowner := rfl
@[simp] theorem State.raise_ccount (s : State) (f : FlagSet) : (s.raise f).ccount = s.ccount := rfl
@[simp] theorem State.raise_ucount (s : State) (f : FlagSet) : (s.raise f).ucount = s.ucount := rfl
@[simp] theorem State.raise_coremask (s : State) (f : FlagSet) : (s.raise f).coremask = s.coremask := rfl
@[simp] theorem State.raise_icache (s : State) (f : FlagSet) : (s.raise f).icache = s.icache := rfl
@[simp] theorem State.raise_copy (s : State) (f : FlagSet) : (s.raise f).copy = s.copy := rfl
@[simp] theorem State.raise_permits (s : State) (f : FlagSet) : (s.raise f).permits = s.permits := rfl
@[simp] theorem State.raise_permitQ (s : State) (f : FlagSet) : (s.raise f).permitQ = s.permitQ := rfl
@[simp] theorem State.raise_visits (s : State) (f : FlagSet) : (s.raise f).visits = s.visits := rfl
@[simp] theorem State.raise_fns (s : State) (f : FlagSet) : (s.raise f).fns = s.fns := rfl
@[simp] theorem State.raise_mgmt (s : State) (f : FlagSet) : (s.raise f).mgmt = s.mgmt := rfl
@[simp] theorem State.raise_cycle (s : State) (f : FlagSet) : (s.raise f).cycle = s.cycle := rfl
@[simp] theorem State.raise_agenda (s : State) (f : FlagSet) : (s.raise f).agenda = s.agenda := rfl
@[simp] theorem State.raise_cur (s : State) (f : FlagSet) : (s.raise f).cur = s.cur := rfl
@[simp] theorem State.raise_src (s : State) (f : FlagSet) : (s.raise f).src = s.src := rfl
@[simp] theorem State.raise_raw (s : State) (f : FlagSet) : (s.raise f).raw = s.raw := rfl
@[simp] theorem State.raise_trapped (s : State) (f : FlagSet) : (s.raise f).trapped = s.trapped := rfl
@[simp] theorem State.raise_slow (s : State) (f : FlagSet) : (s.raise f).slow = s.slow := rfl
@[simp] theorem State.raise_free (s : State) (f : FlagSet) : (s.raise f).free = s.free := rfl
@[simp] theorem State.raise_nextTid (s : State) (f : FlagSet) : (s.raise f).nextTid = s.nextTid := rfl
@[simp] theorem State.raise_stamp (s : State) (f : FlagSet) : (s.raise f).stamp = s.stamp := rfl
@[simp] theorem State.raise_stopped (s : State) (f : FlagSet) : (s.raise f).stopped = s.stopped := rfl

/-! ## setNpc -/

@[simp] theorem State.setNpc_mem (s : State) (v : W64) : (s.setNpc v).mem = s.mem := rfl
@[simp] theorem State.setNpc_bad (s : State) (v : W64) : (s.setNpc v).bad = s.bad := rfl
@[simp] theorem State.setNpc_flaws (s : State) (v : W64) : (s.setNpc v).flaws = s.flaws := rfl
@[simp] theorem State.setNpc_rowSeen (s : State) (v : W64) : (s.setNpc v).rowSeen = s.rowSeen := rfl
@[simp] theorem State.setNpc_rowBad (s : State) (v : W64) : (s.setNpc v).rowBad = s.rowBad := rfl
@[simp] theorem State.setNpc_spareRows (s : State) (v : W64) : (s.setNpc v).spareRows = s.spareRows := rfl
@[simp] theorem State.setNpc_spadFails (s : State) (v : W64) : (s.setNpc v).spadFails = s.spadFails := rfl
@[simp] theorem State.setNpc_feFlip (s : State) (v : W64) : (s.setNpc v).feFlip = s.feFlip := rfl
@[simp] theorem State.setNpc_objs (s : State) (v : W64) : (s.setNpc v).objs = s.objs := rfl
@[simp] theorem State.setNpc_blks (s : State) (v : W64) : (s.setNpc v).blks = s.blks := rfl
@[simp] theorem State.setNpc_resv (s : State) (v : W64) : (s.setNpc v).resv = s.resv := rfl
@[simp] theorem State.setNpc_layers (s : State) (v : W64) : (s.setNpc v).layers = s.layers := rfl
@[simp] theorem State.setNpc_retired (s : State) (v : W64) : (s.setNpc v).retired = s.retired := rfl
@[simp] theorem State.setNpc_queues (s : State) (v : W64) : (s.setNpc v).queues = s.queues := rfl
@[simp] theorem State.setNpc_welt (s : State) (v : W64) : (s.setNpc v).welt = s.welt := rfl
@[simp] theorem State.setNpc_replies (s : State) (v : W64) : (s.setNpc v).replies = s.replies := rfl
@[simp] theorem State.setNpc_entries (s : State) (v : W64) : (s.setNpc v).entries = s.entries := rfl
@[simp] theorem State.setNpc_groups (s : State) (v : W64) : (s.setNpc v).groups = s.groups := rfl
@[simp] theorem State.setNpc_pins (s : State) (v : W64) : (s.setNpc v).pins = s.pins := rfl
@[simp] theorem State.setNpc_tasks (s : State) (v : W64) : (s.setNpc v).tasks = s.tasks := rfl
@[simp] theorem State.setNpc_launches (s : State) (v : W64) : (s.setNpc v).launches = s.launches := rfl
@[simp] theorem State.setNpc_lnums (s : State) (v : W64) : (s.setNpc v).lnums = s.lnums := rfl
@[simp] theorem State.setNpc_spilled (s : State) (v : W64) : (s.setNpc v).spilled = s.spilled := rfl
@[simp] theorem State.setNpc_pkts (s : State) (v : W64) : (s.setNpc v).pkts = s.pkts := rfl
@[simp] theorem State.setNpc_freedAt (s : State) (v : W64) : (s.setNpc v).freedAt = s.freedAt := rfl
@[simp] theorem State.setNpc_mbox (s : State) (v : W64) : (s.setNpc v).mbox = s.mbox := rfl
@[simp] theorem State.setNpc_wakes (s : State) (v : W64) : (s.setNpc v).wakes = s.wakes := rfl
@[simp] theorem State.setNpc_dts (s : State) (v : W64) : (s.setNpc v).dts = s.dts := rfl
@[simp] theorem State.setNpc_mat (s : State) (v : W64) : (s.setNpc v).mat = s.mat := rfl
@[simp] theorem State.setNpc_mcapk (s : State) (v : W64) : (s.setNpc v).mcapk = s.mcapk := rfl
@[simp] theorem State.setNpc_dropped (s : State) (v : W64) : (s.setNpc v).dropped = s.dropped := rfl
@[simp] theorem State.setNpc_events (s : State) (v : W64) : (s.setNpc v).events = s.events := rfl
@[simp] theorem State.setNpc_tenants (s : State) (v : W64) : (s.setNpc v).tenants = s.tenants := rfl
@[simp] theorem State.setNpc_tlb (s : State) (v : W64) : (s.setNpc v).tlb = s.tlb := rfl
@[simp] theorem State.setNpc_peers (s : State) (v : W64) : (s.setNpc v).peers = s.peers := rfl
@[simp] theorem State.setNpc_tbankOut (s : State) (v : W64) : (s.setNpc v).tbankOut = s.tbankOut := rfl
@[simp] theorem State.setNpc_towner (s : State) (v : W64) : (s.setNpc v).towner = s.towner := rfl
@[simp] theorem State.setNpc_spad32 (s : State) (v : W64) : (s.setNpc v).spad32 = s.spad32 := rfl
@[simp] theorem State.setNpc_sowner (s : State) (v : W64) : (s.setNpc v).sowner = s.sowner := rfl
@[simp] theorem State.setNpc_gowner (s : State) (v : W64) : (s.setNpc v).gowner = s.gowner := rfl
@[simp] theorem State.setNpc_ccount (s : State) (v : W64) : (s.setNpc v).ccount = s.ccount := rfl
@[simp] theorem State.setNpc_ucount (s : State) (v : W64) : (s.setNpc v).ucount = s.ucount := rfl
@[simp] theorem State.setNpc_coremask (s : State) (v : W64) : (s.setNpc v).coremask = s.coremask := rfl
@[simp] theorem State.setNpc_icache (s : State) (v : W64) : (s.setNpc v).icache = s.icache := rfl
@[simp] theorem State.setNpc_copy (s : State) (v : W64) : (s.setNpc v).copy = s.copy := rfl
@[simp] theorem State.setNpc_permits (s : State) (v : W64) : (s.setNpc v).permits = s.permits := rfl
@[simp] theorem State.setNpc_permitQ (s : State) (v : W64) : (s.setNpc v).permitQ = s.permitQ := rfl
@[simp] theorem State.setNpc_visits (s : State) (v : W64) : (s.setNpc v).visits = s.visits := rfl
@[simp] theorem State.setNpc_fns (s : State) (v : W64) : (s.setNpc v).fns = s.fns := rfl
@[simp] theorem State.setNpc_mgmt (s : State) (v : W64) : (s.setNpc v).mgmt = s.mgmt := rfl
@[simp] theorem State.setNpc_cycle (s : State) (v : W64) : (s.setNpc v).cycle = s.cycle := rfl
@[simp] theorem State.setNpc_agenda (s : State) (v : W64) : (s.setNpc v).agenda = s.agenda := rfl
@[simp] theorem State.setNpc_cur (s : State) (v : W64) : (s.setNpc v).cur = s.cur := rfl
@[simp] theorem State.setNpc_src (s : State) (v : W64) : (s.setNpc v).src = s.src := rfl
@[simp] theorem State.setNpc_raw (s : State) (v : W64) : (s.setNpc v).raw = s.raw := rfl
@[simp] theorem State.setNpc_trapped (s : State) (v : W64) : (s.setNpc v).trapped = s.trapped := rfl
@[simp] theorem State.setNpc_slow (s : State) (v : W64) : (s.setNpc v).slow = s.slow := rfl
@[simp] theorem State.setNpc_free (s : State) (v : W64) : (s.setNpc v).free = s.free := rfl
@[simp] theorem State.setNpc_nextTid (s : State) (v : W64) : (s.setNpc v).nextTid = s.nextTid := rfl
@[simp] theorem State.setNpc_stamp (s : State) (v : W64) : (s.setNpc v).stamp = s.stamp := rfl
@[simp] theorem State.setNpc_stopped (s : State) (v : W64) : (s.setNpc v).stopped = s.stopped := rfl

/-! ## parkAt -/

@[simp] theorem State.parkAt_mem (s : State) (k : Nat) (w : Wait) (i : Instr) (l : List Byte) : (s.parkAt k w i l).mem = s.mem := rfl
@[simp] theorem State.parkAt_bad (s : State) (k : Nat) (w : Wait) (i : Instr) (l : List Byte) : (s.parkAt k w i l).bad = s.bad := rfl
@[simp] theorem State.parkAt_flaws (s : State) (k : Nat) (w : Wait) (i : Instr) (l : List Byte) : (s.parkAt k w i l).flaws = s.flaws := rfl
@[simp] theorem State.parkAt_rowSeen (s : State) (k : Nat) (w : Wait) (i : Instr) (l : List Byte) : (s.parkAt k w i l).rowSeen = s.rowSeen := rfl
@[simp] theorem State.parkAt_rowBad (s : State) (k : Nat) (w : Wait) (i : Instr) (l : List Byte) : (s.parkAt k w i l).rowBad = s.rowBad := rfl
@[simp] theorem State.parkAt_spareRows (s : State) (k : Nat) (w : Wait) (i : Instr) (l : List Byte) : (s.parkAt k w i l).spareRows = s.spareRows := rfl
@[simp] theorem State.parkAt_spadFails (s : State) (k : Nat) (w : Wait) (i : Instr) (l : List Byte) : (s.parkAt k w i l).spadFails = s.spadFails := rfl
@[simp] theorem State.parkAt_feFlip (s : State) (k : Nat) (w : Wait) (i : Instr) (l : List Byte) : (s.parkAt k w i l).feFlip = s.feFlip := rfl
@[simp] theorem State.parkAt_objs (s : State) (k : Nat) (w : Wait) (i : Instr) (l : List Byte) : (s.parkAt k w i l).objs = s.objs := rfl
@[simp] theorem State.parkAt_blks (s : State) (k : Nat) (w : Wait) (i : Instr) (l : List Byte) : (s.parkAt k w i l).blks = s.blks := rfl
@[simp] theorem State.parkAt_resv (s : State) (k : Nat) (w : Wait) (i : Instr) (l : List Byte) : (s.parkAt k w i l).resv = s.resv := rfl
@[simp] theorem State.parkAt_layers (s : State) (k : Nat) (w : Wait) (i : Instr) (l : List Byte) : (s.parkAt k w i l).layers = s.layers := rfl
@[simp] theorem State.parkAt_retired (s : State) (k : Nat) (w : Wait) (i : Instr) (l : List Byte) : (s.parkAt k w i l).retired = s.retired := rfl
@[simp] theorem State.parkAt_queues (s : State) (k : Nat) (w : Wait) (i : Instr) (l : List Byte) : (s.parkAt k w i l).queues = s.queues := rfl
@[simp] theorem State.parkAt_welt (s : State) (k : Nat) (w : Wait) (i : Instr) (l : List Byte) : (s.parkAt k w i l).welt = s.welt := rfl
@[simp] theorem State.parkAt_replies (s : State) (k : Nat) (w : Wait) (i : Instr) (l : List Byte) : (s.parkAt k w i l).replies = s.replies := rfl
@[simp] theorem State.parkAt_entries (s : State) (k : Nat) (w : Wait) (i : Instr) (l : List Byte) : (s.parkAt k w i l).entries = s.entries := rfl
@[simp] theorem State.parkAt_groups (s : State) (k : Nat) (w : Wait) (i : Instr) (l : List Byte) : (s.parkAt k w i l).groups = s.groups := rfl
@[simp] theorem State.parkAt_pins (s : State) (k : Nat) (w : Wait) (i : Instr) (l : List Byte) : (s.parkAt k w i l).pins = s.pins := rfl
@[simp] theorem State.parkAt_tasks (s : State) (k : Nat) (w : Wait) (i : Instr) (l : List Byte) : (s.parkAt k w i l).tasks = s.tasks := rfl
@[simp] theorem State.parkAt_launches (s : State) (k : Nat) (w : Wait) (i : Instr) (l : List Byte) : (s.parkAt k w i l).launches = s.launches := rfl
@[simp] theorem State.parkAt_lnums (s : State) (k : Nat) (w : Wait) (i : Instr) (l : List Byte) : (s.parkAt k w i l).lnums = s.lnums := rfl
@[simp] theorem State.parkAt_spilled (s : State) (k : Nat) (w : Wait) (i : Instr) (l : List Byte) : (s.parkAt k w i l).spilled = s.spilled := rfl
@[simp] theorem State.parkAt_pkts (s : State) (k : Nat) (w : Wait) (i : Instr) (l : List Byte) : (s.parkAt k w i l).pkts = s.pkts := rfl
@[simp] theorem State.parkAt_freedAt (s : State) (k : Nat) (w : Wait) (i : Instr) (l : List Byte) : (s.parkAt k w i l).freedAt = s.freedAt := rfl
@[simp] theorem State.parkAt_mbox (s : State) (k : Nat) (w : Wait) (i : Instr) (l : List Byte) : (s.parkAt k w i l).mbox = s.mbox := rfl
@[simp] theorem State.parkAt_wakes (s : State) (k : Nat) (w : Wait) (i : Instr) (l : List Byte) : (s.parkAt k w i l).wakes = s.wakes := rfl
@[simp] theorem State.parkAt_dts (s : State) (k : Nat) (w : Wait) (i : Instr) (l : List Byte) : (s.parkAt k w i l).dts = s.dts := rfl
@[simp] theorem State.parkAt_mat (s : State) (k : Nat) (w : Wait) (i : Instr) (l : List Byte) : (s.parkAt k w i l).mat = s.mat := rfl
@[simp] theorem State.parkAt_mcapk (s : State) (k : Nat) (w : Wait) (i : Instr) (l : List Byte) : (s.parkAt k w i l).mcapk = s.mcapk := rfl
@[simp] theorem State.parkAt_dropped (s : State) (k : Nat) (w : Wait) (i : Instr) (l : List Byte) : (s.parkAt k w i l).dropped = s.dropped := rfl
@[simp] theorem State.parkAt_events (s : State) (k : Nat) (w : Wait) (i : Instr) (l : List Byte) : (s.parkAt k w i l).events = s.events := rfl
@[simp] theorem State.parkAt_tenants (s : State) (k : Nat) (w : Wait) (i : Instr) (l : List Byte) : (s.parkAt k w i l).tenants = s.tenants := rfl
@[simp] theorem State.parkAt_tlb (s : State) (k : Nat) (w : Wait) (i : Instr) (l : List Byte) : (s.parkAt k w i l).tlb = s.tlb := rfl
@[simp] theorem State.parkAt_peers (s : State) (k : Nat) (w : Wait) (i : Instr) (l : List Byte) : (s.parkAt k w i l).peers = s.peers := rfl
@[simp] theorem State.parkAt_tbankOut (s : State) (k : Nat) (w : Wait) (i : Instr) (l : List Byte) : (s.parkAt k w i l).tbankOut = s.tbankOut := rfl
@[simp] theorem State.parkAt_towner (s : State) (k : Nat) (w : Wait) (i : Instr) (l : List Byte) : (s.parkAt k w i l).towner = s.towner := rfl
@[simp] theorem State.parkAt_spad32 (s : State) (k : Nat) (w : Wait) (i : Instr) (l : List Byte) : (s.parkAt k w i l).spad32 = s.spad32 := rfl
@[simp] theorem State.parkAt_sowner (s : State) (k : Nat) (w : Wait) (i : Instr) (l : List Byte) : (s.parkAt k w i l).sowner = s.sowner := rfl
@[simp] theorem State.parkAt_gowner (s : State) (k : Nat) (w : Wait) (i : Instr) (l : List Byte) : (s.parkAt k w i l).gowner = s.gowner := rfl
@[simp] theorem State.parkAt_ccount (s : State) (k : Nat) (w : Wait) (i : Instr) (l : List Byte) : (s.parkAt k w i l).ccount = s.ccount := rfl
@[simp] theorem State.parkAt_ucount (s : State) (k : Nat) (w : Wait) (i : Instr) (l : List Byte) : (s.parkAt k w i l).ucount = s.ucount := rfl
@[simp] theorem State.parkAt_coremask (s : State) (k : Nat) (w : Wait) (i : Instr) (l : List Byte) : (s.parkAt k w i l).coremask = s.coremask := rfl
@[simp] theorem State.parkAt_icache (s : State) (k : Nat) (w : Wait) (i : Instr) (l : List Byte) : (s.parkAt k w i l).icache = s.icache := rfl
@[simp] theorem State.parkAt_copy (s : State) (k : Nat) (w : Wait) (i : Instr) (l : List Byte) : (s.parkAt k w i l).copy = s.copy := rfl
@[simp] theorem State.parkAt_permits (s : State) (k : Nat) (w : Wait) (i : Instr) (l : List Byte) : (s.parkAt k w i l).permits = s.permits := rfl
@[simp] theorem State.parkAt_permitQ (s : State) (k : Nat) (w : Wait) (i : Instr) (l : List Byte) : (s.parkAt k w i l).permitQ = s.permitQ := rfl
@[simp] theorem State.parkAt_visits (s : State) (k : Nat) (w : Wait) (i : Instr) (l : List Byte) : (s.parkAt k w i l).visits = s.visits := rfl
@[simp] theorem State.parkAt_fns (s : State) (k : Nat) (w : Wait) (i : Instr) (l : List Byte) : (s.parkAt k w i l).fns = s.fns := rfl
@[simp] theorem State.parkAt_mgmt (s : State) (k : Nat) (w : Wait) (i : Instr) (l : List Byte) : (s.parkAt k w i l).mgmt = s.mgmt := rfl
@[simp] theorem State.parkAt_cycle (s : State) (k : Nat) (w : Wait) (i : Instr) (l : List Byte) : (s.parkAt k w i l).cycle = s.cycle := rfl
@[simp] theorem State.parkAt_agenda (s : State) (k : Nat) (w : Wait) (i : Instr) (l : List Byte) : (s.parkAt k w i l).agenda = s.agenda := rfl
@[simp] theorem State.parkAt_cur (s : State) (k : Nat) (w : Wait) (i : Instr) (l : List Byte) : (s.parkAt k w i l).cur = s.cur := rfl
@[simp] theorem State.parkAt_src (s : State) (k : Nat) (w : Wait) (i : Instr) (l : List Byte) : (s.parkAt k w i l).src = s.src := rfl
@[simp] theorem State.parkAt_raw (s : State) (k : Nat) (w : Wait) (i : Instr) (l : List Byte) : (s.parkAt k w i l).raw = s.raw := rfl
@[simp] theorem State.parkAt_trapped (s : State) (k : Nat) (w : Wait) (i : Instr) (l : List Byte) : (s.parkAt k w i l).trapped = s.trapped := rfl
@[simp] theorem State.parkAt_slow (s : State) (k : Nat) (w : Wait) (i : Instr) (l : List Byte) : (s.parkAt k w i l).slow = s.slow := rfl
@[simp] theorem State.parkAt_free (s : State) (k : Nat) (w : Wait) (i : Instr) (l : List Byte) : (s.parkAt k w i l).free = s.free := rfl
@[simp] theorem State.parkAt_nextTid (s : State) (k : Nat) (w : Wait) (i : Instr) (l : List Byte) : (s.parkAt k w i l).nextTid = s.nextTid := rfl
@[simp] theorem State.parkAt_stopped (s : State) (k : Nat) (w : Wait) (i : Instr) (l : List Byte) : (s.parkAt k w i l).stopped = s.stopped := rfl

/-! ## setByte -/

@[simp] theorem State.setByte_slots (s : State) (a : Nat) (v : Byte) : (s.setByte a v).slots = s.slots := rfl
@[simp] theorem State.setByte_bad (s : State) (a : Nat) (v : Byte) : (s.setByte a v).bad = s.bad := rfl
@[simp] theorem State.setByte_flaws (s : State) (a : Nat) (v : Byte) : (s.setByte a v).flaws = s.flaws := rfl
@[simp] theorem State.setByte_rowSeen (s : State) (a : Nat) (v : Byte) : (s.setByte a v).rowSeen = s.rowSeen := rfl
@[simp] theorem State.setByte_rowBad (s : State) (a : Nat) (v : Byte) : (s.setByte a v).rowBad = s.rowBad := rfl
@[simp] theorem State.setByte_spareRows (s : State) (a : Nat) (v : Byte) : (s.setByte a v).spareRows = s.spareRows := rfl
@[simp] theorem State.setByte_spadFails (s : State) (a : Nat) (v : Byte) : (s.setByte a v).spadFails = s.spadFails := rfl
@[simp] theorem State.setByte_feFlip (s : State) (a : Nat) (v : Byte) : (s.setByte a v).feFlip = s.feFlip := rfl
@[simp] theorem State.setByte_objs (s : State) (a : Nat) (v : Byte) : (s.setByte a v).objs = s.objs := rfl
@[simp] theorem State.setByte_blks (s : State) (a : Nat) (v : Byte) : (s.setByte a v).blks = s.blks := rfl
@[simp] theorem State.setByte_resv (s : State) (a : Nat) (v : Byte) : (s.setByte a v).resv = s.resv := rfl
@[simp] theorem State.setByte_layers (s : State) (a : Nat) (v : Byte) : (s.setByte a v).layers = s.layers := rfl
@[simp] theorem State.setByte_retired (s : State) (a : Nat) (v : Byte) : (s.setByte a v).retired = s.retired := rfl
@[simp] theorem State.setByte_queues (s : State) (a : Nat) (v : Byte) : (s.setByte a v).queues = s.queues := rfl
@[simp] theorem State.setByte_welt (s : State) (a : Nat) (v : Byte) : (s.setByte a v).welt = s.welt := rfl
@[simp] theorem State.setByte_replies (s : State) (a : Nat) (v : Byte) : (s.setByte a v).replies = s.replies := rfl
@[simp] theorem State.setByte_entries (s : State) (a : Nat) (v : Byte) : (s.setByte a v).entries = s.entries := rfl
@[simp] theorem State.setByte_groups (s : State) (a : Nat) (v : Byte) : (s.setByte a v).groups = s.groups := rfl
@[simp] theorem State.setByte_pins (s : State) (a : Nat) (v : Byte) : (s.setByte a v).pins = s.pins := rfl
@[simp] theorem State.setByte_tasks (s : State) (a : Nat) (v : Byte) : (s.setByte a v).tasks = s.tasks := rfl
@[simp] theorem State.setByte_launches (s : State) (a : Nat) (v : Byte) : (s.setByte a v).launches = s.launches := rfl
@[simp] theorem State.setByte_lnums (s : State) (a : Nat) (v : Byte) : (s.setByte a v).lnums = s.lnums := rfl
@[simp] theorem State.setByte_spilled (s : State) (a : Nat) (v : Byte) : (s.setByte a v).spilled = s.spilled := rfl
@[simp] theorem State.setByte_pkts (s : State) (a : Nat) (v : Byte) : (s.setByte a v).pkts = s.pkts := rfl
@[simp] theorem State.setByte_freedAt (s : State) (a : Nat) (v : Byte) : (s.setByte a v).freedAt = s.freedAt := rfl
@[simp] theorem State.setByte_mbox (s : State) (a : Nat) (v : Byte) : (s.setByte a v).mbox = s.mbox := rfl
@[simp] theorem State.setByte_wakes (s : State) (a : Nat) (v : Byte) : (s.setByte a v).wakes = s.wakes := rfl
@[simp] theorem State.setByte_dts (s : State) (a : Nat) (v : Byte) : (s.setByte a v).dts = s.dts := rfl
@[simp] theorem State.setByte_mat (s : State) (a : Nat) (v : Byte) : (s.setByte a v).mat = s.mat := rfl
@[simp] theorem State.setByte_mcapk (s : State) (a : Nat) (v : Byte) : (s.setByte a v).mcapk = s.mcapk := rfl
@[simp] theorem State.setByte_dropped (s : State) (a : Nat) (v : Byte) : (s.setByte a v).dropped = s.dropped := rfl
@[simp] theorem State.setByte_events (s : State) (a : Nat) (v : Byte) : (s.setByte a v).events = s.events := rfl
@[simp] theorem State.setByte_tenants (s : State) (a : Nat) (v : Byte) : (s.setByte a v).tenants = s.tenants := rfl
@[simp] theorem State.setByte_tlb (s : State) (a : Nat) (v : Byte) : (s.setByte a v).tlb = s.tlb := rfl
@[simp] theorem State.setByte_peers (s : State) (a : Nat) (v : Byte) : (s.setByte a v).peers = s.peers := rfl
@[simp] theorem State.setByte_tbankOut (s : State) (a : Nat) (v : Byte) : (s.setByte a v).tbankOut = s.tbankOut := rfl
@[simp] theorem State.setByte_towner (s : State) (a : Nat) (v : Byte) : (s.setByte a v).towner = s.towner := rfl
@[simp] theorem State.setByte_spad32 (s : State) (a : Nat) (v : Byte) : (s.setByte a v).spad32 = s.spad32 := rfl
@[simp] theorem State.setByte_sowner (s : State) (a : Nat) (v : Byte) : (s.setByte a v).sowner = s.sowner := rfl
@[simp] theorem State.setByte_gowner (s : State) (a : Nat) (v : Byte) : (s.setByte a v).gowner = s.gowner := rfl
@[simp] theorem State.setByte_ccount (s : State) (a : Nat) (v : Byte) : (s.setByte a v).ccount = s.ccount := rfl
@[simp] theorem State.setByte_ucount (s : State) (a : Nat) (v : Byte) : (s.setByte a v).ucount = s.ucount := rfl
@[simp] theorem State.setByte_coremask (s : State) (a : Nat) (v : Byte) : (s.setByte a v).coremask = s.coremask := rfl
@[simp] theorem State.setByte_icache (s : State) (a : Nat) (v : Byte) : (s.setByte a v).icache = s.icache := rfl
@[simp] theorem State.setByte_copy (s : State) (a : Nat) (v : Byte) : (s.setByte a v).copy = s.copy := rfl
@[simp] theorem State.setByte_permits (s : State) (a : Nat) (v : Byte) : (s.setByte a v).permits = s.permits := rfl
@[simp] theorem State.setByte_permitQ (s : State) (a : Nat) (v : Byte) : (s.setByte a v).permitQ = s.permitQ := rfl
@[simp] theorem State.setByte_visits (s : State) (a : Nat) (v : Byte) : (s.setByte a v).visits = s.visits := rfl
@[simp] theorem State.setByte_fns (s : State) (a : Nat) (v : Byte) : (s.setByte a v).fns = s.fns := rfl
@[simp] theorem State.setByte_mgmt (s : State) (a : Nat) (v : Byte) : (s.setByte a v).mgmt = s.mgmt := rfl
@[simp] theorem State.setByte_cycle (s : State) (a : Nat) (v : Byte) : (s.setByte a v).cycle = s.cycle := rfl
@[simp] theorem State.setByte_agenda (s : State) (a : Nat) (v : Byte) : (s.setByte a v).agenda = s.agenda := rfl
@[simp] theorem State.setByte_cur (s : State) (a : Nat) (v : Byte) : (s.setByte a v).cur = s.cur := rfl
@[simp] theorem State.setByte_src (s : State) (a : Nat) (v : Byte) : (s.setByte a v).src = s.src := rfl
@[simp] theorem State.setByte_raw (s : State) (a : Nat) (v : Byte) : (s.setByte a v).raw = s.raw := rfl
@[simp] theorem State.setByte_trapped (s : State) (a : Nat) (v : Byte) : (s.setByte a v).trapped = s.trapped := rfl
@[simp] theorem State.setByte_slow (s : State) (a : Nat) (v : Byte) : (s.setByte a v).slow = s.slow := rfl
@[simp] theorem State.setByte_free (s : State) (a : Nat) (v : Byte) : (s.setByte a v).free = s.free := rfl
@[simp] theorem State.setByte_nextTid (s : State) (a : Nat) (v : Byte) : (s.setByte a v).nextTid = s.nextTid := rfl
@[simp] theorem State.setByte_stamp (s : State) (a : Nat) (v : Byte) : (s.setByte a v).stamp = s.stamp := rfl
@[simp] theorem State.setByte_stopped (s : State) (a : Nat) (v : Byte) : (s.setByte a v).stopped = s.stopped := rfl

/-! ## setBad -/

@[simp] theorem State.setBad_slots (s : State) (a : Nat) (b : Bool) : (s.setBad a b).slots = s.slots := rfl
@[simp] theorem State.setBad_mem (s : State) (a : Nat) (b : Bool) : (s.setBad a b).mem = s.mem := rfl
@[simp] theorem State.setBad_flaws (s : State) (a : Nat) (b : Bool) : (s.setBad a b).flaws = s.flaws := rfl
@[simp] theorem State.setBad_rowSeen (s : State) (a : Nat) (b : Bool) : (s.setBad a b).rowSeen = s.rowSeen := rfl
@[simp] theorem State.setBad_rowBad (s : State) (a : Nat) (b : Bool) : (s.setBad a b).rowBad = s.rowBad := rfl
@[simp] theorem State.setBad_spareRows (s : State) (a : Nat) (b : Bool) : (s.setBad a b).spareRows = s.spareRows := rfl
@[simp] theorem State.setBad_spadFails (s : State) (a : Nat) (b : Bool) : (s.setBad a b).spadFails = s.spadFails := rfl
@[simp] theorem State.setBad_feFlip (s : State) (a : Nat) (b : Bool) : (s.setBad a b).feFlip = s.feFlip := rfl
@[simp] theorem State.setBad_objs (s : State) (a : Nat) (b : Bool) : (s.setBad a b).objs = s.objs := rfl
@[simp] theorem State.setBad_blks (s : State) (a : Nat) (b : Bool) : (s.setBad a b).blks = s.blks := rfl
@[simp] theorem State.setBad_resv (s : State) (a : Nat) (b : Bool) : (s.setBad a b).resv = s.resv := rfl
@[simp] theorem State.setBad_layers (s : State) (a : Nat) (b : Bool) : (s.setBad a b).layers = s.layers := rfl
@[simp] theorem State.setBad_retired (s : State) (a : Nat) (b : Bool) : (s.setBad a b).retired = s.retired := rfl
@[simp] theorem State.setBad_queues (s : State) (a : Nat) (b : Bool) : (s.setBad a b).queues = s.queues := rfl
@[simp] theorem State.setBad_welt (s : State) (a : Nat) (b : Bool) : (s.setBad a b).welt = s.welt := rfl
@[simp] theorem State.setBad_replies (s : State) (a : Nat) (b : Bool) : (s.setBad a b).replies = s.replies := rfl
@[simp] theorem State.setBad_entries (s : State) (a : Nat) (b : Bool) : (s.setBad a b).entries = s.entries := rfl
@[simp] theorem State.setBad_groups (s : State) (a : Nat) (b : Bool) : (s.setBad a b).groups = s.groups := rfl
@[simp] theorem State.setBad_pins (s : State) (a : Nat) (b : Bool) : (s.setBad a b).pins = s.pins := rfl
@[simp] theorem State.setBad_tasks (s : State) (a : Nat) (b : Bool) : (s.setBad a b).tasks = s.tasks := rfl
@[simp] theorem State.setBad_launches (s : State) (a : Nat) (b : Bool) : (s.setBad a b).launches = s.launches := rfl
@[simp] theorem State.setBad_lnums (s : State) (a : Nat) (b : Bool) : (s.setBad a b).lnums = s.lnums := rfl
@[simp] theorem State.setBad_spilled (s : State) (a : Nat) (b : Bool) : (s.setBad a b).spilled = s.spilled := rfl
@[simp] theorem State.setBad_pkts (s : State) (a : Nat) (b : Bool) : (s.setBad a b).pkts = s.pkts := rfl
@[simp] theorem State.setBad_freedAt (s : State) (a : Nat) (b : Bool) : (s.setBad a b).freedAt = s.freedAt := rfl
@[simp] theorem State.setBad_mbox (s : State) (a : Nat) (b : Bool) : (s.setBad a b).mbox = s.mbox := rfl
@[simp] theorem State.setBad_wakes (s : State) (a : Nat) (b : Bool) : (s.setBad a b).wakes = s.wakes := rfl
@[simp] theorem State.setBad_dts (s : State) (a : Nat) (b : Bool) : (s.setBad a b).dts = s.dts := rfl
@[simp] theorem State.setBad_mat (s : State) (a : Nat) (b : Bool) : (s.setBad a b).mat = s.mat := rfl
@[simp] theorem State.setBad_mcapk (s : State) (a : Nat) (b : Bool) : (s.setBad a b).mcapk = s.mcapk := rfl
@[simp] theorem State.setBad_dropped (s : State) (a : Nat) (b : Bool) : (s.setBad a b).dropped = s.dropped := rfl
@[simp] theorem State.setBad_events (s : State) (a : Nat) (b : Bool) : (s.setBad a b).events = s.events := rfl
@[simp] theorem State.setBad_tenants (s : State) (a : Nat) (b : Bool) : (s.setBad a b).tenants = s.tenants := rfl
@[simp] theorem State.setBad_tlb (s : State) (a : Nat) (b : Bool) : (s.setBad a b).tlb = s.tlb := rfl
@[simp] theorem State.setBad_peers (s : State) (a : Nat) (b : Bool) : (s.setBad a b).peers = s.peers := rfl
@[simp] theorem State.setBad_tbankOut (s : State) (a : Nat) (b : Bool) : (s.setBad a b).tbankOut = s.tbankOut := rfl
@[simp] theorem State.setBad_towner (s : State) (a : Nat) (b : Bool) : (s.setBad a b).towner = s.towner := rfl
@[simp] theorem State.setBad_spad32 (s : State) (a : Nat) (b : Bool) : (s.setBad a b).spad32 = s.spad32 := rfl
@[simp] theorem State.setBad_sowner (s : State) (a : Nat) (b : Bool) : (s.setBad a b).sowner = s.sowner := rfl
@[simp] theorem State.setBad_gowner (s : State) (a : Nat) (b : Bool) : (s.setBad a b).gowner = s.gowner := rfl
@[simp] theorem State.setBad_ccount (s : State) (a : Nat) (b : Bool) : (s.setBad a b).ccount = s.ccount := rfl
@[simp] theorem State.setBad_ucount (s : State) (a : Nat) (b : Bool) : (s.setBad a b).ucount = s.ucount := rfl
@[simp] theorem State.setBad_coremask (s : State) (a : Nat) (b : Bool) : (s.setBad a b).coremask = s.coremask := rfl
@[simp] theorem State.setBad_icache (s : State) (a : Nat) (b : Bool) : (s.setBad a b).icache = s.icache := rfl
@[simp] theorem State.setBad_copy (s : State) (a : Nat) (b : Bool) : (s.setBad a b).copy = s.copy := rfl
@[simp] theorem State.setBad_permits (s : State) (a : Nat) (b : Bool) : (s.setBad a b).permits = s.permits := rfl
@[simp] theorem State.setBad_permitQ (s : State) (a : Nat) (b : Bool) : (s.setBad a b).permitQ = s.permitQ := rfl
@[simp] theorem State.setBad_visits (s : State) (a : Nat) (b : Bool) : (s.setBad a b).visits = s.visits := rfl
@[simp] theorem State.setBad_fns (s : State) (a : Nat) (b : Bool) : (s.setBad a b).fns = s.fns := rfl
@[simp] theorem State.setBad_mgmt (s : State) (a : Nat) (b : Bool) : (s.setBad a b).mgmt = s.mgmt := rfl
@[simp] theorem State.setBad_cycle (s : State) (a : Nat) (b : Bool) : (s.setBad a b).cycle = s.cycle := rfl
@[simp] theorem State.setBad_agenda (s : State) (a : Nat) (b : Bool) : (s.setBad a b).agenda = s.agenda := rfl
@[simp] theorem State.setBad_cur (s : State) (a : Nat) (b : Bool) : (s.setBad a b).cur = s.cur := rfl
@[simp] theorem State.setBad_src (s : State) (a : Nat) (b : Bool) : (s.setBad a b).src = s.src := rfl
@[simp] theorem State.setBad_raw (s : State) (a : Nat) (b : Bool) : (s.setBad a b).raw = s.raw := rfl
@[simp] theorem State.setBad_trapped (s : State) (a : Nat) (b : Bool) : (s.setBad a b).trapped = s.trapped := rfl
@[simp] theorem State.setBad_slow (s : State) (a : Nat) (b : Bool) : (s.setBad a b).slow = s.slow := rfl
@[simp] theorem State.setBad_free (s : State) (a : Nat) (b : Bool) : (s.setBad a b).free = s.free := rfl
@[simp] theorem State.setBad_nextTid (s : State) (a : Nat) (b : Bool) : (s.setBad a b).nextTid = s.nextTid := rfl
@[simp] theorem State.setBad_stamp (s : State) (a : Nat) (b : Bool) : (s.setBad a b).stamp = s.stamp := rfl
@[simp] theorem State.setBad_stopped (s : State) (a : Nat) (b : Bool) : (s.setBad a b).stopped = s.stopped := rfl

/-! ## Slots after a write -/

@[simp] theorem State.slot_setSlot_same (s : State) (k : Nat) (x : Slot) : (s.setSlot k x).slot k = x :=
  smGet_set_same _ _ _ _

theorem State.slot_setSlot_ne (s : State) (k j : Nat) (x : Slot) (h : j ≠ k) : (s.setSlot k x).slot j = s.slot j :=
  smGet_set_ne _ _ _ _ _ h

@[simp] theorem State.slot_modSlot_same (s : State) (k : Nat) (f : Slot → Slot) : (s.modSlot k f).slot k = f (s.slot k) :=
  smGet_set_same _ _ _ _

theorem State.slot_modSlot_ne (s : State) (k j : Nat) (f : Slot → Slot) (h : j ≠ k) : (s.modSlot k f).slot j = s.slot j :=
  smGet_set_ne _ _ _ _ _ h

@[simp] theorem State.me_upd (s : State) (f : Ctx → Ctx) : (s.upd f).me = Slot.write f s.me := smGet_set_same _ _ _ _

@[simp] theorem State.me_setNpc (s : State) (v : W64) : (s.setNpc v).me = { s.me with npc := v } := smGet_set_same _ _ _ _

@[simp] theorem Slot.write_st (f : Ctx → Ctx) (x : Slot) : (Slot.write f x).st = x.st := by
  unfold Slot.write; split <;> rfl

@[simp] theorem Slot.write_out (f : Ctx → Ctx) (x : Slot) : (Slot.write f x).out = x.out := by
  unfold Slot.write; split <;> rfl

@[simp] theorem Slot.write_npc (f : Ctx → Ctx) (x : Slot) : (Slot.write f x).npc = x.npc := by
  unfold Slot.write; split <;> rfl

/-- While a bundle executes, its registers at issue do not change. -/
theorem State.rd_setSlot (s : State) (k : Nat) (x : Slot) (h : s.src.isSome = true) : (s.setSlot k x).rd = s.rd := by
  obtain ⟨c, hc⟩ := Option.isSome_iff_exists.mp h
  simp [State.rd, hc]

theorem State.rd_upd (s : State) (f : Ctx → Ctx) (h : s.src.isSome = true) : (s.upd f).rd = s.rd := s.rd_setSlot _ _ h

theorem State.rd_setG (s : State) (n : GReg) (v : W64) (h : s.src.isSome = true) : (s.setG n v).rd = s.rd := s.rd_setSlot _ _ h

/-! ## Registers after a write -/

@[simp] theorem Ctx.getG_zero (c : Ctx) : c.getG 0 = 0 := by simp [Ctx.getG]

@[simp] theorem Ctx.setG_zero (c : Ctx) (v : W64) : c.setG 0 v = c := by simp [Ctx.setG, Ctx.setGIn]

/-! ## Bytes after a write -/

@[simp] theorem State.byte_setByte_same (s : State) (a : Nat) (v : Byte) : (s.setByte a v).byte a = v := smGet_set_same _ _ _ _

theorem State.byte_setByte_ne (s : State) (a b : Nat) (v : Byte) (h : b ≠ a) : (s.setByte a v).byte b = s.byte b :=
  smGet_set_ne _ _ _ _ _ h

/-- What a byte reads as after a store of bytes from a on. -/
theorem State.byte_writeBytes (s : State) (a : Nat) (l : List Byte) (b : Nat) :
    (s.writeBytes a l).byte b = if a ≤ b ∧ b < a + l.length then (l[b - a]?).getD 0 else s.byte b := by
  induction l generalizing s a with
  | nil =>
    rw [if_neg (by simp only [List.length_nil]; omega)]
    rfl
  | cons x t ih =>
    rw [State.writeBytes, ih]
    by_cases h1 : a + 1 ≤ b ∧ b < a + 1 + t.length
    · have e : b - a = b - (a + 1) + 1 := by omega
      simp only [h1, and_self, if_true, List.length_cons]
      rw [if_pos (by omega), e, List.getElem?_cons_succ]
    · rw [if_neg h1]
      by_cases h2 : b = a
      · subst h2; simp
      · rw [State.byte_setByte_ne _ _ _ _ h2, if_neg (by simp only [List.length_cons]; omega)]

/-- A write of bytes changes memory only. -/
theorem State.writeBytes_eq (s : State) (a : Nat) (l : List Byte) : s.writeBytes a l = { s with mem := (s.writeBytes a l).mem } := by
  induction l generalizing s a with
  | nil => rfl
  | cons x t ih => rw [State.writeBytes, ih]; rfl

/-! ## Bad marks after a write -/

@[simp] theorem State.isBad_setBad_same (s : State) (a : Nat) (b : Bool) : (s.setBad a b).isBad a = b := smGet_set_same _ _ _ _

theorem State.isBad_setBad_ne (s : State) (a c : Nat) (b : Bool) (h : wordOf c ≠ wordOf a) : (s.setBad a b).isBad c = s.isBad c :=
  smGet_set_ne _ _ _ _ _ h

end Sys2Proof.Machine
end

