-- ==== Sys2Proof/Laws/Ops.lean ====
section
/-!
SUPPORT. What each shared operation can do, said once: a half with its guard, the wait for earlier stores, a trap, and the
loads, stores and atomics.
-/

namespace Sys2Proof.Machine

/-! ## Halves -/

theorem half_runs (gd : Guard) (s : State) (f : State → State) (h : s.me.st.isRun = true) (hg : s.rd.holds gd = true) :
    half gd s f = .next (f s) := by simp [half, h, hg]

theorem half_skips (gd : Guard) (s : State) (f : State → State) (h : s.rd.holds gd = false) : half gd s f = .next s := by
  simp [half, h]

theorem half_next (gd : Guard) (s t : State) (f : State → State) (h : half gd s f = .next t) : t = f s ∨ t = s := by
  simp only [half, Host.Outcome.next.injEq] at h
  split at h <;> simp [h]

theorem halfPark_runs (gd : Guard) (i : Instr) (s : State) (p : Bool) (f : State → State) (h : s.me.st.isRun = true)
    (hg : s.rd.holds gd = true) (hs : s.slow = false) : halfPark gd i s p f = .next (f s) := by
  simp [halfPark, half, h, hg, hs]

theorem halfPark_skips (gd : Guard) (i : Instr) (s : State) (p : Bool) (f : State → State) (h : s.rd.holds gd = false) :
    halfPark gd i s p f = .next s := half_skips gd s _ h

/-- A half that may park does what it does at once, parks, or does nothing. -/
theorem halfPark_next (gd : Guard) (i : Instr) (s t : State) (p : Bool) (f : State → State) (h : halfPark gd i s p f = .next t) :
    t = f s ∨ t = s.parkAt s.cur .flight i [] ∨ t = s := by
  rcases half_next gd s t _ h with h | h
  · subst h
    dsimp only
    split
    · generalize ((f s).trapped.isSome || _) = c
      cases c
      · exact .inr (.inl rfl)
      · exact .inl rfl
    · exact .inl rfl
  · exact .inr (.inr h)

/-! ## The wait for earlier stores (R349) -/

theorem State.afterStores_goes (s : State) (i : Instr) (p : OutStore → Bool) (l : List (Nat × Nat)) (f : State → State)
    (ho : ∀ o ∈ s.me.out, p o = true → s.storeHeld o = false) (hl : ∀ e ∈ l, s.isHeld e.1 = false) :
    s.afterStores i p l f = f (s.flushWhere s.cur p) := by
  unfold State.afterStores State.afterStoresWith
  rw [if_neg]
  simp only [Bool.or_eq_true, List.any_eq_true, Bool.and_eq_true, not_or, not_exists, not_and]
  exact ⟨fun o h hp => by simp [ho o h hp], fun e h => by simp [hl e h]⟩

/-- An access goes on or parks until its stores are accepted and its bytes are not held. -/
theorem State.afterStores_cases (s : State) (i : Instr) (p : OutStore → Bool) (l : List (Nat × Nat)) (f : State → State) :
    s.afterStores i p l f = f (s.flushWhere s.cur p) ∨ s.afterStores i p l f = s.parkAt s.cur .flight i [] := by
  unfold State.afterStores State.afterStoresWith
  split <;> simp

theorem State.flushWhere_nil (s : State) (k : Nat) (p : OutStore → Bool) (h : (s.slot k).out = []) :
    s.flushWhere k p = s.setSlot k (s.slot k) := by
  have e : s.slot k = { s.slot k with out := [] } := by rw [← h]
  simp only [State.flushWhere, h, List.filter_nil, List.foldl_nil, State.modSlot]
  rw [← e]

/-! ## Traps (R61, R115) -/

theorem Ctx.enterTrap_pc (c : Ctx) (t : Trap) (b : Bool) : (c.enterTrap t b).pc = c.cr.tvec := rfl
theorem Ctx.enterTrap_epc (c : Ctx) (t : Trap) (b : Bool) : (c.enterTrap t b).cr.epc = c.pc := rfl
theorem Ctx.enterTrap_tval (c : Ctx) (t : Trap) (b : Bool) : (c.enterTrap t b).cr.tval = t.tval := rfl
theorem Ctx.enterTrap_g (c : Ctx) (t : Trap) (b : Bool) : (c.enterTrap t b).g = c.g := rfl

/-- A trap of a thread that is not ganged, and that a handler receives. -/
theorem State.takeTrap_handled (s : State) (k : Nat) (t : Trap) (hc : t.cause ≠ 0x09) (hg : (s.slot k).ctx.gang = false)
    (hf : (s.slot k).ctx.isFault t = false) (hk : k ≠ s.cur) :
    s.takeTrap k t = s.setSlot k
      { s.slot k with
        st := .run, ctx := (s.slot k).ctx.enterTrap t false, npc := (s.slot k).ctx.cr.tvec, after := none, late := none } := by
  simp only [State.takeTrap, State.countError, State.splitGang, hc, hg, hk, if_false, Bool.false_eq_true]
  simp only [State.slot_modSlot_same, hf, Bool.false_eq_true, if_false]
  simp only [State.modSlot, State.setSlot, State.slot, smGet_set_same]
  rw [smSet_set]

/-! ## Loads, stores and atomics -/

theorem State.load_misaligned (s : State) (i : Instr) (ea : W64) (al n : Nat) (m : OrdMode) (f : List Byte → State → State)
    (h : ea.toNat % al ≠ 0) : s.load i ea al n m f = s.takeTrap s.cur ⟨0x03, ea⟩ := by
  simp [State.load, h, State.trap]

theorem State.load_trap (s : State) (i : Instr) (ea : W64) (al n : Nat) (m : OrdMode) (f : List Byte → State → State) (t : Trap)
    (h : ea.toNat % al = 0) (hs : s.spans ea n true false = .error (.trap t)) : s.load i ea al n m f = s.takeTrap s.cur t := by
  simp [State.load, h, hs, State.elsewhere]

theorem State.load_migrate (s : State) (i : Instr) (ea : W64) (al n core : Nat) (m : OrdMode) (f : List Byte → State → State)
    (h : ea.toNat % al = 0) (hs : s.spans ea n true false = .error (.migrate core)) :
    s.load i ea al n m f = s.startMigration i core ea false := by
  simp [State.load, h, hs, State.elsewhere]

/-- A load whose address has spans, once it may go on. -/
theorem State.load_goes (s : State) (i : Instr) (ea : W64) (al n : Nat) (m : OrdMode) (f : List Byte → State → State)
    (l : List (Nat × Nat)) (h : ea.toNat % al = 0) (hs : s.spans ea n true false = .ok l)
    (ho : ∀ o ∈ s.me.out, s.waitsFor m (l.all fun e => isOwn s.core e.1) l o = true → s.storeHeld o = false)
    (hl : ∀ e ∈ l, s.isHeld e.1 = false) :
    s.load i ea al n m f =
      (let u := s.flushWhere s.cur (s.waitsFor m (l.all fun e => isOwn s.core e.1) l)
       match u.badWord ea l with
       | some v => u.trap 0x09 v
       | none => f (u.readSpans l) (u.correctSpans l)) := by
  simp only [State.load, h, hs, ne_eq, not_true_eq_false, if_false]
  exact State.afterStores_goes s i _ l _ ho hl

theorem State.store_misaligned (s : State) (i : Instr) (ea : W64) (al : Nat) (m : StOrd) (data : List Byte) (f : State → State)
    (h : ea.toNat % al ≠ 0) : s.store i ea al m data f = s.takeTrap s.cur ⟨0x03, ea⟩ := by
  simp [State.store, h, State.trap]

theorem State.store_trap (s : State) (i : Instr) (ea : W64) (al : Nat) (m : StOrd) (data : List Byte) (f : State → State) (t : Trap)
    (h : ea.toNat % al = 0) (hs : s.spans ea data.length false true = .error (.trap t)) :
    s.store i ea al m data f = s.takeTrap s.cur t := by
  simp [State.store, h, hs, State.elsewhere]

theorem State.store_migrate (s : State) (i : Instr) (ea : W64) (al core : Nat) (m : StOrd) (data : List Byte) (f : State → State)
    (h : ea.toNat % al = 0) (hs : s.spans ea data.length false true = .error (.migrate core)) :
    s.store i ea al m data f = s.startMigration i core ea false := by
  simp [State.store, h, hs, State.elsewhere]

theorem State.store_desc (s : State) (i : Instr) (ea : W64) (al : Nat) (m : StOrd) (data : List Byte) (f : State → State)
    (l : List (Nat × Nat)) (h : ea.toNat % al = 0) (hs : s.spans ea data.length false true = .ok l) (hd : s.hitsDesc l = true) :
    s.store i ea al m data f = s.takeTrap s.cur ⟨0x0F, ea⟩ := by
  simp [State.store, h, hs, hd, State.trap]

/-- A store that is not relaxed, once it may go on. -/
theorem State.store_goes (s : State) (i : Instr) (ea : W64) (al : Nat) (m : StOrd) (data : List Byte) (f : State → State)
    (l : List (Nat × Nat)) (h : ea.toNat % al = 0) (hs : s.spans ea data.length false true = .ok l) (hd : s.hitsDesc l = false)
    (hm : m ≠ .relaxed)
    (ho : ∀ o ∈ s.me.out, s.waitsFor (stMode m) (l.all fun e => isOwn s.core e.1) l o = true → s.storeHeld o = false)
    (hl : ∀ e ∈ l, s.isHeld e.1 = false) :
    s.store i ea al m data f =
      (let u := s.flushWhere s.cur (s.waitsFor (stMode m) (l.all fun e => isOwn s.core e.1) l)
       match u.narrowBad ea data.length l with
       | some v => u.trap 0x09 v
       | none => f (u.storeSpans l data)) := by
  simp only [State.store, h, hs, hd, ne_eq, not_true_eq_false, if_false, Bool.false_eq_true, hm, false_and]
  exact State.afterStores_goes s i _ l _ ho hl

theorem State.rmw_bad (s : State) (ea : W64) (pa n : Nat) (op : Nat → Nat) (f : Nat → State → State) (v : W64)
    (h : s.badWord ea [(pa, n)] = some v) : s.rmw ea pa n op f = s.takeTrap s.cur ⟨0x09, v⟩ := by
  simp [State.rmw, h, State.trap]

theorem State.rmw_goes (s : State) (ea : W64) (pa n : Nat) (op : Nat → Nat) (f : Nat → State → State)
    (h : s.badWord ea [(pa, n)] = none) :
    s.rmw ea pa n op f = f (s.readN pa n) ((s.correct pa n).storeBytes pa (leBytes n (op (s.readN pa n)))) := by
  simp [State.rmw, h]

/-- Sorting keeps every element. -/
theorem length_sortBy {α : Type} (f : α → Nat) (l : List α) : (sortBy f l).length = l.length := by
  have h (l done : List α) : (l.foldl (fun done x =>
      (done.takeWhile fun y => f y ≤ f x) ++ x :: done.dropWhile fun y => f y ≤ f x) done).length = done.length + l.length := by
    induction l generalizing done with
    | nil => rfl
    | cons x t ih =>
      have e := congrArg List.length (List.takeWhile_append_dropWhile (p := fun y => decide (f y ≤ f x)) (l := done))
      simp only [List.length_append] at e
      simp only [List.foldl_cons, ih, List.length_append, List.length_cons]
      omega
  have := h l []
  simpa [sortBy] using this

end Sys2Proof.Machine
end

