-- ==== Sys2Proof/Laws/PerInstr.lean ====
section
/-!
SUPPORT. The per-instruction family RoundTrip: what the encoder writes for a well-formed instruction is read back
by the decoder as that instruction, whatever the word above a short C-word is (R28 to R38).
-/

namespace Sys2Proof

/-- Decoding what i encodes to gives i back. A step of the device encodes to nothing. -/
def Laws.RoundTrip.Statement (i : Instr) : Prop :=
  i.wf = true →
    match i.encode with
    | .none => True
    | .c f => f.long = false ∧ ∀ x, decodeC f x = some i
    | .long f x => f.long = true ∧ decodeC f x = some i
    | .a f => decodeA f = some i

/-- A short C-word with a guard that may hold decodes by the map of its major. -/
theorem decodeC_short (f : CFmt) (x : BitVec 32) (i : Instr) (hg : f.gd.runs = true) (hl : f.long = false)
    (hw : i.wf = true) (hd : decCShort f.gd f = some i) : decodeC f x = some i := by
  simp [decodeC, hg, hl, hd, keepWf, hw]

/-- A long C-word with a guard that may hold decodes by the map of its major, with its X-word. -/
theorem decodeC_long (f : CFmt) (x : BitVec 32) (i : Instr) (hg : f.gd.runs = true) (hl : f.long = true)
    (hw : i.wf = true) (hd : decCLong f.gd f x = some i) : decodeC f x = some i := by
  simp [decodeC, hg, hl, hd, keepWf, hw]

/-- An A-word with a guard that may hold decodes by the map of its major. -/
theorem decodeA_map (f : AFmt) (i : Instr) (hg : f.gd.runs = true) (hw : i.wf = true)
    (hd : decAMap f.gd f = some i) : decodeA f = some i := by
  simp [decodeA, hg, hd, keepWf, hw]

/-- The bit of `t8enc` and `t8dec` that says which of the two a word is (R38). -/
theorem t8_choice (s : Bool) (t : ETy) (m : MReg) (b : BitVec 1) :
    hi 1 2 (lo 4 3 (app 1 6 (ofBit s) (app 3 3 t.bits (app 1 2 b m)))) = b := by
  cases s <;> cases t <;> revert m b <;> decide

/-- The same bit, as the entry of `t8dec` leaves it. -/
theorem t8dec_choice (t : ETy) (m : MReg) :
    hi 1 2 (lo 4 3 (app 1 6 0#1 (app 3 3 t.bits (app 1 2 1#1 m)))) = 1#1 := t8_choice false t m 1

namespace Laws
open RoundTrip

theorem RoundTrip.cnop (gd : Guard) : Statement (.cnop gd) := by
  intro _
  refine ⟨rfl, fun x => ?_⟩
  cases hg : gd.runs
  · simp [decodeC, mkCR, hg]
  · exact decodeC_short _ x _ hg rfl rfl (by simp [decCShort, decC00, mkCR])

theorem RoundTrip.isync (gd : Guard) : Statement (.isync gd) := by
  intro h
  exact ⟨rfl, fun x => decodeC_short _ x _ h rfl h (by simp [decCShort, decC00, mkCR])⟩

theorem RoundTrip.eret (gd : Guard) : Statement (.eret gd) := by
  intro h
  exact ⟨rfl, fun x => decodeC_short _ x _ h rfl h (by simp [decCShort, decC00, mkCR])⟩

theorem RoundTrip.brk (gd : Guard) : Statement (.brk gd) := by
  intro h
  exact ⟨rfl, fun x => decodeC_short _ x _ h rfl h (by simp [decCShort, decC00, mkCR])⟩

theorem RoundTrip.ret (gd : Guard) : Statement (.ret gd) := by
  intro h
  exact ⟨rfl, fun x => decodeC_short _ x _ h rfl h (by simp [decCShort, decC00, mkCR])⟩

theorem RoundTrip.jr (gd : Guard) (a : GReg) : Statement (.jr gd a) := by
  intro h
  exact ⟨rfl, fun x => decodeC_short _ x _ h rfl h (by simp [decCShort, decC00, mkCR])⟩

theorem RoundTrip.jlr (gd : Guard) (a : GReg) : Statement (.jlr gd a) := by
  intro h
  exact ⟨rfl, fun x => decodeC_short _ x _ h rfl h (by simp [decCShort, decC00, mkCR])⟩

theorem RoundTrip.leave (gd : Guard) : Statement (.leave gd) := by
  intro h
  exact ⟨rfl, fun x => decodeC_short _ x _ h rfl h (by simp [decCShort, decC00, mkCR])⟩

theorem RoundTrip.quit (gd : Guard) : Statement (.quit gd) := by
  intro h
  exact ⟨rfl, fun x => decodeC_short _ x _ h rfl h (by simp [decCShort, decC00, mkCR])⟩

theorem RoundTrip.split (gd : Guard) : Statement (.split gd) := by
  intro h
  exact ⟨rfl, fun x => decodeC_short _ x _ h rfl h (by simp [decCShort, decC00, mkCR])⟩

theorem RoundTrip.uiret (gd : Guard) : Statement (.uiret gd) := by
  intro h
  exact ⟨rfl, fun x => decodeC_short _ x _ h rfl h (by simp [decCShort, decC00, mkCR])⟩

theorem RoundTrip.trap (gd : Guard) (i : BitVec 11) : Statement (.trap gd i) := by
  intro h
  exact ⟨rfl, fun x => decodeC_short _ x _ h rfl h (by simp [decCShort, mkCI, mkCR, CFmt.bf])⟩

theorem RoundTrip.br (gd : Guard) (off : BitVec 21) : Statement (.br gd off) := by
  intro h
  exact ⟨rfl, fun x => decodeC_short _ x _ h rfl h (by simp [decCShort, mkCJ, mkCW, mkCI, mkCR, CFmt.bf, CFmt.abf, CFmt.dabf])⟩

theorem RoundTrip.jl (gd : Guard) (off : BitVec 21) : Statement (.jl gd off) := by
  intro h
  exact ⟨rfl, fun x => decodeC_short _ x _ h rfl h (by simp [decCShort, mkCJ, mkCW, mkCI, mkCR, CFmt.bf, CFmt.abf, CFmt.dabf])⟩

theorem RoundTrip.j (gd : Guard) (off : BitVec 21) (imm : BitVec 32) : Statement (.j gd off imm) := by
  intro h
  exact ⟨rfl, decodeC_long _ _ _ h rfl h (by simp [decCLong, mkCJ, mkCW, mkCI, mkCR, CFmt.bf, CFmt.abf, CFmt.dabf])⟩

theorem RoundTrip.lpd (gd : Guard) (d : GReg) (off : BitVec 16) : Statement (.lpd gd d off) := by
  intro h
  exact ⟨rfl, fun x => decodeC_short _ x _ (Bool.and_eq_true_iff.mp h).1 rfl h (by simp [decCShort, mkCW, mkCI, mkCR, CFmt.bf, CFmt.abf])⟩

theorem RoundTrip.enter (gd : Guard) (i : BitVec 11) : Statement (.enter gd i) := by
  intro h
  exact ⟨rfl, fun x => decodeC_short _ x _ h rfl h (by simp [decCShort, mkCI, mkCR, CFmt.bf])⟩

theorem RoundTrip.crd (gd : Guard) (d : GReg) (i : BitVec 11) : Statement (.crd gd d i) := by
  intro h
  exact ⟨rfl, fun x => decodeC_short _ x _ (Bool.and_eq_true_iff.mp h).1 rfl h (by simp [decCShort, mkCI, mkCR, CFmt.bf])⟩

theorem RoundTrip.cwr (gd : Guard) (a : GReg) (i : BitVec 11) : Statement (.cwr gd a i) := by
  intro h
  exact ⟨rfl, fun x => decodeC_short _ x _ (Bool.and_eq_true_iff.mp h).1 rfl h (by simp [decCShort, mkCI, mkCR, CFmt.bf])⟩

theorem RoundTrip.crset (gd : Guard) (d : GReg) (a : GReg) (i : BitVec 11) : Statement (.crset gd d a i) := by
  intro h
  exact ⟨rfl, fun x => decodeC_short _ x _ (Bool.and_eq_true_iff.mp h).1 rfl h (by simp [decCShort, mkCI, mkCR, CFmt.bf])⟩

theorem RoundTrip.crclr (gd : Guard) (d : GReg) (a : GReg) (i : BitVec 11) : Statement (.crclr gd d a i) := by
  intro h
  exact ⟨rfl, fun x => decodeC_short _ x _ (Bool.and_eq_true_iff.mp h).1 rfl h (by simp [decCShort, mkCI, mkCR, CFmt.bf])⟩

theorem RoundTrip.spawn (gd : Guard) (d : GReg) (a : GReg) (b : GReg) (opts : BitVec 3) : Statement (.spawn gd d a b opts) := by
  intro h
  exact ⟨rfl, decodeC_long _ _ _ (Bool.and_eq_true_iff.mp h).1 rfl h (by simp [decCLong, mkCR])⟩

theorem RoundTrip.wait (gd : Guard) (a : GReg) : Statement (.wait gd a) := by
  intro h
  exact ⟨rfl, fun x => decodeC_short _ x _ h rfl h (by simp [decCShort, decC0C, mkCR])⟩

theorem RoundTrip.gang (gd : Guard) (d : GReg) : Statement (.gang gd d) := by
  intro h
  exact ⟨rfl, fun x => decodeC_short _ x _ h rfl h (by simp [decCShort, decC0C, mkCR])⟩

theorem RoundTrip.wfld (gd : Guard) (d : GReg) (k : BitVec 5) : Statement (.wfld gd d k) := by
  intro h
  exact ⟨rfl, fun x => decodeC_short _ x _ (Bool.and_eq_true_iff.mp h).1 rfl h (by simp [decCShort, decC0C, mkCR])⟩

theorem RoundTrip.kill (gd : Guard) (d : GReg) (a : GReg) (k : BitVec 5) : Statement (.kill gd d a k) := by
  intro h
  exact ⟨rfl, fun x => decodeC_short _ x _ (Bool.and_eq_true_iff.mp h).1 rfl h (by simp [decCShort, decC0C, mkCR])⟩

theorem RoundTrip.cmap (gd : Guard) (d : GReg) (a : GReg) : Statement (.cmap gd d a) := by
  intro h
  exact ⟨rfl, fun x => decodeC_short _ x _ h rfl h (by simp [decCShort, decC0C, mkCR])⟩

theorem RoundTrip.ldb (gd : Guard) (d : GReg) (a : GReg) (o : LdOrd) (i : BitVec 9) : Statement (.ldb gd d a o i) := by
  intro h
  exact ⟨rfl, fun x => decodeC_short _ x _ h rfl h (by simp [decCShort, mkCI, mkCR, CFmt.bf])⟩

theorem RoundTrip.ldh (gd : Guard) (d : GReg) (a : GReg) (o : LdOrd) (i : BitVec 9) : Statement (.ldh gd d a o i) := by
  intro h
  exact ⟨rfl, fun x => decodeC_short _ x _ h rfl h (by simp [decCShort, mkCI, mkCR, CFmt.bf])⟩

theorem RoundTrip.ldw (gd : Guard) (d : GReg) (a : GReg) (o : LdOrd) (i : BitVec 9) : Statement (.ldw gd d a o i) := by
  intro h
  exact ⟨rfl, fun x => decodeC_short _ x _ h rfl h (by simp [decCShort, mkCI, mkCR, CFmt.bf])⟩

theorem RoundTrip.ldd (gd : Guard) (d : GReg) (a : GReg) (o : LdOrd) (i : BitVec 9) : Statement (.ldd gd d a o i) := by
  intro h
  exact ⟨rfl, fun x => decodeC_short _ x _ h rfl h (by simp [decCShort, mkCI, mkCR, CFmt.bf])⟩

theorem RoundTrip.ldbz (gd : Guard) (d : GReg) (a : GReg) (o : LdOrd) (i : BitVec 9) : Statement (.ldbz gd d a o i) := by
  intro h
  exact ⟨rfl, fun x => decodeC_short _ x _ h rfl h (by simp [decCShort, mkCI, mkCR, CFmt.bf])⟩

theorem RoundTrip.ldhz (gd : Guard) (d : GReg) (a : GReg) (o : LdOrd) (i : BitVec 9) : Statement (.ldhz gd d a o i) := by
  intro h
  exact ⟨rfl, fun x => decodeC_short _ x _ h rfl h (by simp [decCShort, mkCI, mkCR, CFmt.bf])⟩

theorem RoundTrip.ldwz (gd : Guard) (d : GReg) (a : GReg) (o : LdOrd) (i : BitVec 9) : Statement (.ldwz gd d a o i) := by
  intro h
  exact ⟨rfl, fun x => decodeC_short _ x _ h rfl h (by simp [decCShort, mkCI, mkCR, CFmt.bf])⟩

theorem RoundTrip.ldv (gd : Guard) (d : VReg) (a : GReg) (o : LdOrd) (i : BitVec 9) : Statement (.ldv gd d a o i) := by
  intro h
  exact ⟨rfl, fun x => decodeC_short _ x _ h rfl h (by simp [decCShort, mkCI, mkCR, CFmt.bf])⟩

theorem RoundTrip.stb (gd : Guard) (d : GReg) (a : GReg) (o : StOrd) (i : BitVec 9) : Statement (.stb gd d a o i) := by
  intro h
  exact ⟨rfl, fun x => decodeC_short _ x _ h rfl h (by simp [decCShort, mkCI, mkCR, CFmt.bf])⟩

theorem RoundTrip.sth (gd : Guard) (d : GReg) (a : GReg) (o : StOrd) (i : BitVec 9) : Statement (.sth gd d a o i) := by
  intro h
  exact ⟨rfl, fun x => decodeC_short _ x _ h rfl h (by simp [decCShort, mkCI, mkCR, CFmt.bf])⟩

theorem RoundTrip.stw (gd : Guard) (d : GReg) (a : GReg) (o : StOrd) (i : BitVec 9) : Statement (.stw gd d a o i) := by
  intro h
  exact ⟨rfl, fun x => decodeC_short _ x _ h rfl h (by simp [decCShort, mkCI, mkCR, CFmt.bf])⟩

theorem RoundTrip.std (gd : Guard) (d : GReg) (a : GReg) (o : StOrd) (i : BitVec 9) : Statement (.std gd d a o i) := by
  intro h
  exact ⟨rfl, fun x => decodeC_short _ x _ h rfl h (by simp [decCShort, mkCI, mkCR, CFmt.bf])⟩

theorem RoundTrip.stv (gd : Guard) (d : VReg) (a : GReg) (o : StOrd) (i : BitVec 9) : Statement (.stv gd d a o i) := by
  intro h
  exact ⟨rfl, fun x => decodeC_short _ x _ h rfl h (by simp [decCShort, mkCI, mkCR, CFmt.bf])⟩

theorem RoundTrip.lds (gd : Guard) (d : GReg) (a : GReg) : Statement (.lds gd d a) := by
  intro h
  exact ⟨rfl, fun x => decodeC_short _ x _ (Bool.and_eq_true_iff.mp h).1 rfl h (by simp [decCShort, decC1D, mkCR])⟩

theorem RoundTrip.sts (gd : Guard) (d : GReg) (a : GReg) : Statement (.sts gd d a) := by
  intro h
  exact ⟨rfl, fun x => decodeC_short _ x _ (Bool.and_eq_true_iff.mp h).1 rfl h (by simp [decCShort, decC1D, mkCR])⟩

theorem RoundTrip.shp (gd : Guard) (d : GReg) (a : GReg) (b : GReg) : Statement (.shp gd d a b) := by
  intro h
  exact ⟨rfl, fun x => decodeC_short _ x _ (Bool.and_eq_true_iff.mp h).1 rfl h (by simp [decCShort, decC1D, mkCR])⟩

theorem RoundTrip.tfadd (gd : Guard) (d : GReg) (a : GReg) (b : GReg) : Statement (.tfadd gd d a b) := by
  intro h
  exact ⟨rfl, fun x => decodeC_short _ x _ h rfl h (by simp [decCShort, decC1D, mkCR])⟩

theorem RoundTrip.rdr (gd : Guard) (d : VReg) (a : GReg) (n : BitVec 4) : Statement (.rdr gd d a n) := by
  intro h
  exact ⟨rfl, fun x => decodeC_short _ x _ h rfl h (by simp [decCShort, decC1D, mkCR])⟩

theorem RoundTrip.migr (gd : Guard) (a : GReg) : Statement (.migr gd a) := by
  intro h
  exact ⟨rfl, fun x => decodeC_short _ x _ h rfl h (by simp [decCShort, decC1D, mkCR])⟩

theorem RoundTrip.tam (gd : Guard) (d : GReg) (a : GReg) (b : GReg) (op : AtomOp) : Statement (.tam gd d a b op) := by
  intro h
  exact ⟨rfl, fun x => decodeC_short _ x _ h rfl h (by simp [decCShort, mkCR])⟩

theorem RoundTrip.lea (gd : Guard) (d : GReg) (a : GReg) (i : BitVec 11) : Statement (.lea gd d a i) := by
  intro h
  exact ⟨rfl, fun x => decodeC_short _ x _ h rfl h (by simp [decCShort, mkCI, mkCR, CFmt.bf])⟩

theorem RoundTrip.dtld (gd : Guard) (t : MReg) (a : GReg) : Statement (.dtld gd t a) := by
  intro h
  exact ⟨rfl, fun x => decodeC_short _ x _ h rfl h (by simp [decCShort, decC20, mkCR])⟩

theorem RoundTrip.dtst (gd : Guard) (t : MReg) (a : GReg) : Statement (.dtst gd t a) := by
  intro h
  exact ⟨rfl, fun x => decodeC_short _ x _ h rfl h (by simp [decCShort, decC20, mkCR])⟩

theorem RoundTrip.send (gd : Guard) (d : GReg) (a : GReg) (v : VReg) (mb : BitVec 4) : Statement (.send gd d a v mb) := by
  intro h
  exact ⟨rfl, fun x => decodeC_short _ x _ h rfl h (by simp [decCShort, mkCR])⟩

theorem RoundTrip.sendL (gd : Guard) (a : GReg) (b : GReg) (tag : BitVec 4) (len : BitVec 12) : Statement (.sendL gd a b tag len) := by
  intro h
  exact ⟨rfl, decodeC_long _ _ _ (Bool.and_eq_true_iff.mp h).1 rfl h (by simp [decCLong, mkCR])⟩

theorem RoundTrip.recv (gd : Guard) (d : GReg) (a : GReg) (v : VReg) : Statement (.recv gd d a v) := by
  intro h
  exact ⟨rfl, fun x => decodeC_short _ x _ h rfl h (by simp [decCShort, decC23, mkCR])⟩

theorem RoundTrip.mbc (gd : Guard) (d : GReg) (k : BitVec 4) : Statement (.mbc gd d k) := by
  intro h
  exact ⟨rfl, fun x => decodeC_short _ x _ h rfl h (by simp [decCShort, decC23, mkCR])⟩

theorem RoundTrip.waitc (gd : Guard) (d : GReg) (a : GReg) (k : BitVec 4) : Statement (.waitc gd d a k) := by
  intro h
  exact ⟨rfl, fun x => decodeC_short _ x _ h rfl h (by simp [decCShort, decC23, mkCR])⟩

theorem RoundTrip.mbclr (gd : Guard) (d : GReg) (a : GReg) : Statement (.mbclr gd d a) := by
  intro h
  exact ⟨rfl, fun x => decodeC_short _ x _ h rfl h (by simp [decCShort, decC23, mkCR])⟩

theorem RoundTrip.mcast (gd : Guard) (d : GReg) (a : GReg) : Statement (.mcast gd d a) := by
  intro h
  exact ⟨rfl, fun x => decodeC_short _ x _ (Bool.and_eq_true_iff.mp h).1 rfl h (by simp [decCShort, decC23, mkCR])⟩

theorem RoundTrip.mclaim (gd : Guard) (d : GReg) (soft : Bool) : Statement (.mclaim gd d soft) := by
  intro h
  exact ⟨rfl, fun x => decodeC_short _ x _ h rfl h (by simp [decCShort, decC24, mkCR])⟩

theorem RoundTrip.mrel (gd : Guard) : Statement (.mrel gd) := by
  intro h
  exact ⟨rfl, fun x => decodeC_short _ x _ h rfl h (by simp [decCShort, decC24, mkCR])⟩

theorem RoundTrip.mzero (gd : Guard) (t : MReg) : Statement (.mzero gd t) := by
  intro h
  exact ⟨rfl, fun x => decodeC_short _ x _ h rfl h (by simp [decCShort, decC24, mkCR])⟩

theorem RoundTrip.mload (gd : Guard) (t : MReg) (a : GReg) (b : GReg) : Statement (.mload gd t a b) := by
  intro h
  exact ⟨rfl, fun x => decodeC_short _ x _ h rfl h (by simp [decCShort, decC24, mkCR])⟩

theorem RoundTrip.mdrain (gd : Guard) (t : MReg) (a : GReg) (b : GReg) : Statement (.mdrain gd t a b) := by
  intro h
  exact ⟨rfl, fun x => decodeC_short _ x _ h rfl h (by simp [decCShort, decC24, mkCR])⟩

theorem RoundTrip.mdrainr (gd : Guard) (d : GReg) (a : GReg) (b : GReg) : Statement (.mdrainr gd d a b) := by
  intro h
  exact ⟨rfl, fun x => decodeC_short _ x _ h rfl h (by simp [decCShort, decC24, mkCR])⟩

theorem RoundTrip.mcmd (gd : Guard) (d : GReg) (a : GReg) (b : GReg) : Statement (.mcmd gd d a b) := by
  intro h
  exact ⟨rfl, fun x => decodeC_short _ x _ h rfl h (by simp [decCShort, decC24, mkCR])⟩

theorem RoundTrip.mstat (gd : Guard) (d : GReg) (clr : Bool) : Statement (.mstat gd d clr) := by
  intro h
  exact ⟨rfl, fun x => decodeC_short _ x _ h rfl h (by simp [decCShort, decC24, mkCR])⟩

theorem RoundTrip.mmac (gd : Guard) (t : MReg) (a : BitVec 5) (b : BitVec 5) (z : Bool) (bv : Bool) (av : Bool) (sr : BitVec 3) (steps : BitVec 12) : Statement (.mmac gd t a b z bv av sr steps) := by
  intro h
  exact ⟨rfl, decodeC_long _ _ _ (Bool.and_eq_true_iff.mp h).1 rfl h (by simp [decCLong, mkCR])⟩

theorem RoundTrip.ldfe (gd : Guard) (d : GReg) (a : GReg) (o : LdOrd) : Statement (.ldfe gd d a o) := by
  intro h
  exact ⟨rfl, fun x => decodeC_short _ x _ h rfl h (by simp [decCShort, decC26, mkCR])⟩

theorem RoundTrip.ldff (gd : Guard) (d : GReg) (a : GReg) (o : LdOrd) : Statement (.ldff gd d a o) := by
  intro h
  exact ⟨rfl, fun x => decodeC_short _ x _ h rfl h (by simp [decCShort, decC26, mkCR])⟩

theorem RoundTrip.stef (gd : Guard) (a : GReg) (b : GReg) (o : StOrd) : Statement (.stef gd a b o) := by
  intro h
  exact ⟨rfl, fun x => decodeC_short _ x _ h rfl h (by simp [decCShort, decC26, mkCR])⟩

theorem RoundTrip.stff (gd : Guard) (a : GReg) (b : GReg) (o : StOrd) : Statement (.stff gd a b o) := by
  intro h
  exact ⟨rfl, fun x => decodeC_short _ x _ h rfl h (by simp [decCShort, decC26, mkCR])⟩

theorem RoundTrip.lrw (gd : Guard) (d : GReg) (a : GReg) (o : LdOrd) : Statement (.lrw gd d a o) := by
  intro h
  exact ⟨rfl, fun x => decodeC_short _ x _ h rfl h (by simp [decCShort, decC26, mkCR])⟩

theorem RoundTrip.sch (gd : Guard) (a : GReg) (b : GReg) (o : StOrd) : Statement (.sch gd a b o) := by
  intro h
  exact ⟨rfl, fun x => decodeC_short _ x _ h rfl h (by simp [decCShort, decC26, mkCR])⟩

theorem RoundTrip.sdrop (gd : Guard) (a : GReg) (o : StOrd) : Statement (.sdrop gd a o) := by
  intro h
  exact ⟨rfl, fun x => decodeC_short _ x _ h rfl h (by simp [decCShort, decC26, mkCR])⟩

theorem RoundTrip.amo (gd : Guard) (d : GReg) (a : GReg) (b : GReg) (o : AmOrd) (op : AtomOp) : Statement (.amo gd d a b o op) := by
  intro h
  exact ⟨rfl, fun x => decodeC_short _ x _ h rfl h (by cases op <;> simp [decCShort, decC27, mkCR] <;> simp [AtomOp.bits])⟩

theorem RoundTrip.afadd (gd : Guard) (d : GReg) (a : GReg) (b : GReg) (o : AmOrd) : Statement (.afadd gd d a b o) := by
  intro h
  exact ⟨rfl, fun x => decodeC_short _ x _ h rfl h (by simp [decCShort, decC27, mkCR])⟩

theorem RoundTrip.acas (gd : Guard) (d : GReg) (a : GReg) (b : GReg) (o : AmOrd) : Statement (.acas gd d a b o) := by
  intro h
  exact ⟨rfl, fun x => decodeC_short _ x _ h rfl h (by simp [decCShort, decC27, mkCR])⟩

theorem RoundTrip.rupd (gd : Guard) (a : GReg) (b : GReg) (imm : BitVec 32) : Statement (.rupd gd a b imm) := by
  intro h
  exact ⟨rfl, decodeC_long _ _ _ (Bool.and_eq_true_iff.mp h).1 rfl h (by simp [decCLong, mkCR])⟩

theorem RoundTrip.halloc (gd : Guard) (d : GReg) (a : GReg) (b : GReg) : Statement (.halloc gd d a b) := by
  intro h
  exact ⟨rfl, fun x => decodeC_short _ x _ h rfl h (by simp [decCShort, decC29, mkCR])⟩

theorem RoundTrip.hfree (gd : Guard) (d : GReg) (a : GReg) : Statement (.hfree gd d a) := by
  intro h
  exact ⟨rfl, fun x => decodeC_short _ x _ h rfl h (by simp [decCShort, decC29, mkCR])⟩

theorem RoundTrip.hq (gd : Guard) (d : GReg) (a : GReg) (item : BitVec 5) : Statement (.hq gd d a item) := by
  intro h
  exact ⟨rfl, fun x => decodeC_short _ x _ (Bool.and_eq_true_iff.mp h).1 rfl h (by simp [decCShort, decC29, mkCR])⟩

theorem RoundTrip.qpush (gd : Guard) (d : GReg) (a : GReg) (v : VReg) (w : Win) (blk : Bool) : Statement (.qpush gd d a v w blk) := by
  intro h
  exact ⟨rfl, fun x => decodeC_short _ x _ h rfl h (by simp [decCShort, mkCR])⟩

theorem RoundTrip.qpop (gd : Guard) (d : GReg) (a : GReg) (v : VReg) (w : Win) (blk : Bool) : Statement (.qpop gd d a v w blk) := by
  intro h
  exact ⟨rfl, fun x => decodeC_short _ x _ h rfl h (by simp [decCShort, mkCR])⟩

theorem RoundTrip.qcnt (gd : Guard) (d : GReg) (a : GReg) : Statement (.qcnt gd d a) := by
  intro h
  exact ⟨rfl, fun x => decodeC_short _ x _ h rfl h (by simp [decCShort, decC2C, mkCR])⟩

theorem RoundTrip.qmake (gd : Guard) (d : GReg) (a : GReg) (b : GReg) : Statement (.qmake gd d a b) := by
  intro h
  exact ⟨rfl, fun x => decodeC_short _ x _ h rfl h (by simp [decCShort, decC2C, mkCR])⟩

theorem RoundTrip.qfree (gd : Guard) (d : GReg) (a : GReg) : Statement (.qfree gd d a) := by
  intro h
  exact ⟨rfl, fun x => decodeC_short _ x _ h rfl h (by simp [decCShort, decC2C, mkCR])⟩

theorem RoundTrip.tenq (gd : Guard) (d : GReg) (v : VReg) : Statement (.tenq gd d v) := by
  intro h
  exact ⟨rfl, fun x => decodeC_short _ x _ h rfl h (by simp [decCShort, decC2D, mkCR])⟩

theorem RoundTrip.tdep (gd : Guard) (d : GReg) (a : GReg) : Statement (.tdep gd d a) := by
  intro h
  exact ⟨rfl, fun x => decodeC_short _ x _ h rfl h (by simp [decCShort, decC2D, mkCR])⟩

theorem RoundTrip.tcan (gd : Guard) (d : GReg) (a : GReg) : Statement (.tcan gd d a) := by
  intro h
  exact ⟨rfl, fun x => decodeC_short _ x _ h rfl h (by simp [decCShort, decC2D, mkCR])⟩

theorem RoundTrip.svsl (gd : Guard) (d : GReg) (a : GReg) (b : GReg) : Statement (.svsl gd d a b) := by
  intro h
  exact ⟨rfl, fun x => decodeC_short _ x _ h rfl h (by simp [decCShort, decC2D, mkCR])⟩

theorem RoundTrip.ldsl (gd : Guard) (d : GReg) (a : GReg) (b : GReg) : Statement (.ldsl gd d a b) := by
  intro h
  exact ⟨rfl, fun x => decodeC_short _ x _ h rfl h (by simp [decCShort, decC2D, mkCR])⟩

theorem RoundTrip.tinvl (gd : Guard) (a : GReg) (b : GReg) : Statement (.tinvl gd a b) := by
  intro h
  exact ⟨rfl, fun x => decodeC_short _ x _ h rfl h (by simp [decCShort, decC2D, mkCR])⟩

theorem RoundTrip.hinv (gd : Guard) : Statement (.hinv gd) := by
  intro h
  exact ⟨rfl, fun x => decodeC_short _ x _ h rfl h (by simp [decCShort, decC2D, mkCR])⟩

theorem RoundTrip.tcall (gd : Guard) (d : GReg) (a : GReg) (n : BitVec 3) : Statement (.tcall gd d a n) := by
  intro h
  exact ⟨rfl, fun x => decodeC_short _ x _ (Bool.and_eq_true_iff.mp h).1 rfl h (by simp [decCShort, mkCR])⟩

theorem RoundTrip.tnext (gd : Guard) (d : GReg) (a : GReg) (c : Bool) : Statement (.tnext gd d a c) := by
  intro h
  exact ⟨rfl, fun x => decodeC_short _ x _ (Bool.and_eq_true_iff.mp h).1 rfl h (by simp [decCShort, decC2F, mkCR])⟩

theorem RoundTrip.tans (gd : Guard) (a : GReg) (b : GReg) : Statement (.tans gd a b) := by
  intro h
  exact ⟨rfl, fun x => decodeC_short _ x _ h rfl h (by simp [decCShort, decC2F, mkCR])⟩

theorem RoundTrip.tend (gd : Guard) (a : GReg) : Statement (.tend gd a) := by
  intro h
  exact ⟨rfl, fun x => decodeC_short _ x _ h rfl h (by simp [decCShort, decC2F, mkCR])⟩

theorem RoundTrip.tfail (gd : Guard) (a : GReg) : Statement (.tfail gd a) := by
  intro h
  exact ⟨rfl, fun x => decodeC_short _ x _ h rfl h (by simp [decCShort, decC2F, mkCR])⟩

theorem RoundTrip.tinv (gd : Guard) (d : GReg) (a : GReg) : Statement (.tinv gd d a) := by
  intro h
  exact ⟨rfl, fun x => decodeC_short _ x _ h rfl h (by simp [decCShort, decC2F, mkCR])⟩

theorem RoundTrip.tstat (gd : Guard) (d : GReg) (a : GReg) (item : BitVec 2) : Statement (.tstat gd d a item) := by
  intro h
  exact ⟨rfl, fun x => decodeC_short _ x _ h rfl h (by simp [decCShort, decC2F, mkCR])⟩

theorem RoundTrip.ptask (gd : Guard) (d : GReg) (a : GReg) (b : GReg) (k : BitVec 4) (e : GReg) : Statement (.ptask gd d a b k e) := by
  intro h
  exact ⟨rfl, decodeC_long _ _ _ (Bool.and_eq_true_iff.mp h).1 rfl h (by simp [decCLong, mkCR])⟩

theorem RoundTrip.cpyq (gd : Guard) (d : GReg) (a : GReg) (blk : Bool) : Statement (.cpyq gd d a blk) := by
  intro h
  exact ⟨rfl, fun x => decodeC_short _ x _ (Bool.and_eq_true_iff.mp h).1 rfl h (by simp [decCShort, decC31, mkCR])⟩

theorem RoundTrip.permit (gd : Guard) (d : GReg) (a : GReg) (n : BitVec 4) : Statement (.permit gd d a n) := by
  intro h
  exact ⟨rfl, fun x => decodeC_short _ x _ h rfl h (by simp [decCShort, decC31, mkCR])⟩

theorem RoundTrip.cpst (gd : Guard) (d : GReg) (a : GReg) (item : BitVec 2) : Statement (.cpst gd d a item) := by
  intro h
  exact ⟨rfl, fun x => decodeC_short _ x _ (Bool.and_eq_true_iff.mp h).1 rfl h (by simp [decCShort, decC31, mkCR])⟩

theorem RoundTrip.fence (gd : Guard) : Statement (.fence gd) := by
  intro h
  exact ⟨rfl, fun x => decodeC_short _ x _ h rfl h (by simp [decCShort, decC32, mkCR])⟩

theorem RoundTrip.fenceAcq (gd : Guard) : Statement (.fenceAcq gd) := by
  intro h
  exact ⟨rfl, fun x => decodeC_short _ x _ h rfl h (by simp [decCShort, decC32, mkCR])⟩

theorem RoundTrip.fenceRel (gd : Guard) : Statement (.fenceRel gd) := by
  intro h
  exact ⟨rfl, fun x => decodeC_short _ x _ h rfl h (by simp [decCShort, decC32, mkCR])⟩

theorem RoundTrip.parr (gd : Guard) (d : GReg) (a : GReg) (b : GReg) : Statement (.parr gd d a b) := by
  intro h
  exact ⟨rfl, fun x => decodeC_short _ x _ h rfl h (by simp [decCShort, decC32, mkCR])⟩

theorem RoundTrip.pwait (gd : Guard) (d : GReg) (a : GReg) (b : GReg) : Statement (.pwait gd d a b) := by
  intro h
  exact ⟨rfl, fun x => decodeC_short _ x _ h rfl h (by simp [decCShort, decC32, mkCR])⟩

theorem RoundTrip.pinit (gd : Guard) (d : GReg) (a : GReg) (b : GReg) : Statement (.pinit gd d a b) := by
  intro h
  exact ⟨rfl, fun x => decodeC_short _ x _ h rfl h (by simp [decCShort, decC32, mkCR])⟩

theorem RoundTrip.anop (gd : Guard) : Statement (.anop gd) := by
  intro _
  cases hg : gd.runs
  · simp [Instr.encode, decodeA, mkAR, hg]
  · exact decodeA_map _ _ hg rfl (by simp [decAMap, mkAR])

theorem RoundTrip.add (gd : Guard) (d : GReg) (a : GReg) (b : GReg) : Statement (.add gd d a b) := by
  intro h
  exact decodeA_map _ _ h h (by simp [decAMap, decA01, mkAR])

theorem RoundTrip.sub (gd : Guard) (d : GReg) (a : GReg) (b : GReg) : Statement (.sub gd d a b) := by
  intro h
  exact decodeA_map _ _ h h (by simp [decAMap, decA01, mkAR])

theorem RoundTrip.and (gd : Guard) (d : GReg) (a : GReg) (b : GReg) : Statement (.and gd d a b) := by
  intro h
  exact decodeA_map _ _ h h (by simp [decAMap, decA01, mkAR])

theorem RoundTrip.or (gd : Guard) (d : GReg) (a : GReg) (b : GReg) : Statement (.or gd d a b) := by
  intro h
  exact decodeA_map _ _ h h (by simp [decAMap, decA01, mkAR])

theorem RoundTrip.xor (gd : Guard) (d : GReg) (a : GReg) (b : GReg) : Statement (.xor gd d a b) := by
  intro h
  exact decodeA_map _ _ h h (by simp [decAMap, decA01, mkAR])

theorem RoundTrip.sll (gd : Guard) (d : GReg) (a : GReg) (b : GReg) : Statement (.sll gd d a b) := by
  intro h
  exact decodeA_map _ _ h h (by simp [decAMap, decA01, mkAR])

theorem RoundTrip.srl (gd : Guard) (d : GReg) (a : GReg) (b : GReg) : Statement (.srl gd d a b) := by
  intro h
  exact decodeA_map _ _ h h (by simp [decAMap, decA01, mkAR])

theorem RoundTrip.sra (gd : Guard) (d : GReg) (a : GReg) (b : GReg) : Statement (.sra gd d a b) := by
  intro h
  exact decodeA_map _ _ h h (by simp [decAMap, decA01, mkAR])

theorem RoundTrip.mul (gd : Guard) (d : GReg) (a : GReg) (b : GReg) : Statement (.mul gd d a b) := by
  intro h
  exact decodeA_map _ _ h h (by simp [decAMap, decA01, mkAR])

theorem RoundTrip.mulh (gd : Guard) (d : GReg) (a : GReg) (b : GReg) : Statement (.mulh gd d a b) := by
  intro h
  exact decodeA_map _ _ h h (by simp [decAMap, decA01, mkAR])

theorem RoundTrip.mulhu (gd : Guard) (d : GReg) (a : GReg) (b : GReg) : Statement (.mulhu gd d a b) := by
  intro h
  exact decodeA_map _ _ h h (by simp [decAMap, decA01, mkAR])

theorem RoundTrip.div (gd : Guard) (d : GReg) (a : GReg) (b : GReg) : Statement (.div gd d a b) := by
  intro h
  exact decodeA_map _ _ h h (by simp [decAMap, decA01, mkAR])

theorem RoundTrip.divu (gd : Guard) (d : GReg) (a : GReg) (b : GReg) : Statement (.divu gd d a b) := by
  intro h
  exact decodeA_map _ _ h h (by simp [decAMap, decA01, mkAR])

theorem RoundTrip.rem (gd : Guard) (d : GReg) (a : GReg) (b : GReg) : Statement (.rem gd d a b) := by
  intro h
  exact decodeA_map _ _ h h (by simp [decAMap, decA01, mkAR])

theorem RoundTrip.remu (gd : Guard) (d : GReg) (a : GReg) (b : GReg) : Statement (.remu gd d a b) := by
  intro h
  exact decodeA_map _ _ h h (by simp [decAMap, decA01, mkAR])

theorem RoundTrip.min (gd : Guard) (d : GReg) (a : GReg) (b : GReg) : Statement (.min gd d a b) := by
  intro h
  exact decodeA_map _ _ h h (by simp [decAMap, decA01, mkAR])

theorem RoundTrip.minu (gd : Guard) (d : GReg) (a : GReg) (b : GReg) : Statement (.minu gd d a b) := by
  intro h
  exact decodeA_map _ _ h h (by simp [decAMap, decA01, mkAR])

theorem RoundTrip.max (gd : Guard) (d : GReg) (a : GReg) (b : GReg) : Statement (.max gd d a b) := by
  intro h
  exact decodeA_map _ _ h h (by simp [decAMap, decA01, mkAR])

theorem RoundTrip.maxu (gd : Guard) (d : GReg) (a : GReg) (b : GReg) : Statement (.maxu gd d a b) := by
  intro h
  exact decodeA_map _ _ h h (by simp [decAMap, decA01, mkAR])

theorem RoundTrip.clz (gd : Guard) (d : GReg) (a : GReg) : Statement (.clz gd d a) := by
  intro h
  exact decodeA_map _ _ h h (by simp [decAMap, decA01, mkAR])

theorem RoundTrip.ctz (gd : Guard) (d : GReg) (a : GReg) : Statement (.ctz gd d a) := by
  intro h
  exact decodeA_map _ _ h h (by simp [decAMap, decA01, mkAR])

theorem RoundTrip.popc (gd : Guard) (d : GReg) (a : GReg) : Statement (.popc gd d a) := by
  intro h
  exact decodeA_map _ _ h h (by simp [decAMap, decA01, mkAR])

theorem RoundTrip.brev (gd : Guard) (d : GReg) (a : GReg) : Statement (.brev gd d a) := by
  intro h
  exact decodeA_map _ _ h h (by simp [decAMap, decA01, mkAR])

theorem RoundTrip.addi (gd : Guard) (d : GReg) (a : GReg) (i : BitVec 12) : Statement (.addi gd d a i) := by
  intro h
  exact decodeA_map _ _ h h (by simp [decAMap, mkAI, mkAR, AFmt.bf])

theorem RoundTrip.andi (gd : Guard) (d : GReg) (a : GReg) (i : BitVec 12) : Statement (.andi gd d a i) := by
  intro h
  exact decodeA_map _ _ h h (by simp [decAMap, mkAI, mkAR, AFmt.bf])

theorem RoundTrip.ori (gd : Guard) (d : GReg) (a : GReg) (i : BitVec 12) : Statement (.ori gd d a i) := by
  intro h
  exact decodeA_map _ _ h h (by simp [decAMap, mkAI, mkAR, AFmt.bf])

theorem RoundTrip.xori (gd : Guard) (d : GReg) (a : GReg) (i : BitVec 12) : Statement (.xori gd d a i) := by
  intro h
  exact decodeA_map _ _ h h (by simp [decAMap, mkAI, mkAR, AFmt.bf])

theorem RoundTrip.slli (gd : Guard) (d : GReg) (a : GReg) (sh : BitVec 6) : Statement (.slli gd d a sh) := by
  intro h
  exact decodeA_map _ _ h h (by simp [decAMap, decA06, mkAI, mkAR, AFmt.bf])

theorem RoundTrip.srli (gd : Guard) (d : GReg) (a : GReg) (sh : BitVec 6) : Statement (.srli gd d a sh) := by
  intro h
  exact decodeA_map _ _ h h (by simp [decAMap, decA06, mkAI, mkAR, AFmt.bf])

theorem RoundTrip.srai (gd : Guard) (d : GReg) (a : GReg) (sh : BitVec 6) : Statement (.srai gd d a sh) := by
  intro h
  exact decodeA_map _ _ h h (by simp [decAMap, decA06, mkAI, mkAR, AFmt.bf])

theorem RoundTrip.ext (gd : Guard) (d : GReg) (a : GReg) (pos : BitVec 6) (wm1 : BitVec 6) : Statement (.ext gd d a pos wm1) := by
  intro h
  exact decodeA_map _ _ (Bool.and_eq_true_iff.mp h).1 h (by simp [decAMap, mkAI, mkAR, AFmt.bf])

theorem RoundTrip.li (gd : Guard) (d : GReg) (i : BitVec 17) : Statement (.li gd d i) := by
  intro h
  exact decodeA_map _ _ h h (by simp [decAMap, mkAW, mkAI, mkAR, AFmt.bf, AFmt.abf])

theorem RoundTrip.lui1 (gd : Guard) (d : GReg) (c : BitVec 16) : Statement (.lui1 gd d c) := by
  intro h
  exact decodeA_map _ _ h h (by simp [decAMap, mkAW, mkAI, mkAR, AFmt.bf, AFmt.abf])

theorem RoundTrip.lui2 (gd : Guard) (d : GReg) (c : BitVec 16) : Statement (.lui2 gd d c) := by
  intro h
  exact decodeA_map _ _ h h (by simp [decAMap, mkAW, mkAI, mkAR, AFmt.bf, AFmt.abf])

theorem RoundTrip.lui3 (gd : Guard) (d : GReg) (c : BitVec 16) : Statement (.lui3 gd d c) := by
  intro h
  exact decodeA_map _ _ h h (by simp [decAMap, mkAW, mkAI, mkAR, AFmt.bf, AFmt.abf])

theorem RoundTrip.cmp (gd : Guard) (d : PReg) (a : GReg) (b : GReg) (c : CmpCond) : Statement (.cmp gd d a b c) := by
  intro h
  exact decodeA_map _ _ h h (by simp [decAMap, mkAR])

theorem RoundTrip.band (gd : Guard) (d : PReg) (a : PReg) (b : PReg) : Statement (.band gd d a b) := by
  intro h
  exact decodeA_map _ _ h h (by simp [decAMap, decA0D, mkAR])

theorem RoundTrip.bor (gd : Guard) (d : PReg) (a : PReg) (b : PReg) : Statement (.bor gd d a b) := by
  intro h
  exact decodeA_map _ _ h h (by simp [decAMap, decA0D, mkAR])

theorem RoundTrip.bxor (gd : Guard) (d : PReg) (a : PReg) (b : PReg) : Statement (.bxor gd d a b) := by
  intro h
  exact decodeA_map _ _ h h (by simp [decAMap, decA0D, mkAR])

theorem RoundTrip.bnot (gd : Guard) (d : PReg) (a : PReg) : Statement (.bnot gd d a) := by
  intro h
  exact decodeA_map _ _ h h (by simp [decAMap, decA0D, mkAR])

theorem RoundTrip.bmov (gd : Guard) (d : PReg) (a : PReg) : Statement (.bmov gd d a) := by
  intro h
  exact decodeA_map _ _ h h (by simp [decAMap, decA0D, mkAR])

theorem RoundTrip.bpack (gd : Guard) (d : GReg) : Statement (.bpack gd d) := by
  intro h
  exact decodeA_map _ _ h h (by simp [decAMap, decA0D, mkAR])

theorem RoundTrip.bunpk (gd : Guard) (a : GReg) : Statement (.bunpk gd a) := by
  intro h
  exact decodeA_map _ _ h h (by simp [decAMap, decA0D, mkAR])

theorem RoundTrip.sel (gd : Guard) (d : GReg) (a : GReg) (b : GReg) (p : PReg) : Statement (.sel gd d a b p) := by
  intro h
  exact decodeA_map _ _ h h (by simp [decAMap, mkAR])

theorem RoundTrip.fadd (gd : Guard) (d : GReg) (a : GReg) (b : GReg) (f : FTy) : Statement (.fadd gd d a b f) := by
  intro h
  exact decodeA_map _ _ h h (by simp [decAMap, decA10, mkAR])

theorem RoundTrip.fsub (gd : Guard) (d : GReg) (a : GReg) (b : GReg) (f : FTy) : Statement (.fsub gd d a b f) := by
  intro h
  exact decodeA_map _ _ h h (by simp [decAMap, decA10, mkAR])

theorem RoundTrip.fmul (gd : Guard) (d : GReg) (a : GReg) (b : GReg) (f : FTy) : Statement (.fmul gd d a b f) := by
  intro h
  exact decodeA_map _ _ h h (by simp [decAMap, decA10, mkAR])

theorem RoundTrip.fdiv (gd : Guard) (d : GReg) (a : GReg) (b : GReg) (f : FTy) : Statement (.fdiv gd d a b f) := by
  intro h
  exact decodeA_map _ _ h h (by simp [decAMap, decA10, mkAR])

theorem RoundTrip.fsqrt (gd : Guard) (d : GReg) (a : GReg) (f : FTy) : Statement (.fsqrt gd d a f) := by
  intro h
  exact decodeA_map _ _ h h (by simp [decAMap, decA10, mkAR])

theorem RoundTrip.fmin (gd : Guard) (d : GReg) (a : GReg) (b : GReg) (f : FTy) : Statement (.fmin gd d a b f) := by
  intro h
  exact decodeA_map _ _ h h (by simp [decAMap, decA10, mkAR])

theorem RoundTrip.fmax (gd : Guard) (d : GReg) (a : GReg) (b : GReg) (f : FTy) : Statement (.fmax gd d a b f) := by
  intro h
  exact decodeA_map _ _ h h (by simp [decAMap, decA10, mkAR])

theorem RoundTrip.fabs (gd : Guard) (d : GReg) (a : GReg) (f : FTy) : Statement (.fabs gd d a f) := by
  intro h
  exact decodeA_map _ _ h h (by simp [decAMap, decA10, mkAR])

theorem RoundTrip.fneg (gd : Guard) (d : GReg) (a : GReg) (f : FTy) : Statement (.fneg gd d a f) := by
  intro h
  exact decodeA_map _ _ h h (by simp [decAMap, decA10, mkAR])

theorem RoundTrip.fsgnj (gd : Guard) (d : GReg) (a : GReg) (b : GReg) (f : FTy) : Statement (.fsgnj gd d a b f) := by
  intro h
  exact decodeA_map _ _ h h (by simp [decAMap, decA10, mkAR])

theorem RoundTrip.fclass (gd : Guard) (d : GReg) (a : GReg) (f : FTy) : Statement (.fclass gd d a f) := by
  intro h
  exact decodeA_map _ _ h h (by simp [decAMap, decA10, mkAR])

theorem RoundTrip.fcvt (gd : Guard) (d : GReg) (a : GReg) (f : FTy) : Statement (.fcvt gd d a f) := by
  intro h
  exact decodeA_map _ _ h h (by simp [decAMap, decA10, mkAR])

theorem RoundTrip.fcvti (gd : Guard) (d : GReg) (a : GReg) (tr : Bool) (u : Bool) (f : FTy) : Statement (.fcvti gd d a tr u f) := by
  intro h
  exact decodeA_map _ _ h h (by simp [decAMap, decA10, mkAR])

theorem RoundTrip.icvtf (gd : Guard) (d : GReg) (a : GReg) (u : Bool) (f : FTy) : Statement (.icvtf gd d a u f) := by
  intro h
  exact decodeA_map _ _ h h (by simp [decAMap, decA10, mkAR])

theorem RoundTrip.fma (gd : Guard) (d : GReg) (a : GReg) (b : GReg) (f : FTy) : Statement (.fma gd d a b f) := by
  intro h
  exact decodeA_map _ _ h h (by simp [decAMap, decA11, mkAR])

theorem RoundTrip.fms (gd : Guard) (d : GReg) (a : GReg) (b : GReg) (f : FTy) : Statement (.fms gd d a b f) := by
  intro h
  exact decodeA_map _ _ h h (by simp [decAMap, decA11, mkAR])

theorem RoundTrip.fnma (gd : Guard) (d : GReg) (a : GReg) (b : GReg) (f : FTy) : Statement (.fnma gd d a b f) := by
  intro h
  exact decodeA_map _ _ h h (by simp [decAMap, decA11, mkAR])

theorem RoundTrip.fcmp (gd : Guard) (d : PReg) (a : GReg) (b : GReg) (f : FTy) (c : FCond) : Statement (.fcmp gd d a b f c) := by
  intro h
  exact decodeA_map _ _ h h (by simp [decAMap, mkAR])

theorem RoundTrip.vadd (gd : Guard) (d : VReg) (a : VReg) (b : VReg) (t : ETy) : Statement (.vadd gd d a b t) := by
  intro h
  exact decodeA_map _ _ h h (by simp [decAMap, decA20, mkAR])

theorem RoundTrip.vsub (gd : Guard) (d : VReg) (a : VReg) (b : VReg) (t : ETy) : Statement (.vsub gd d a b t) := by
  intro h
  exact decodeA_map _ _ h h (by simp [decAMap, decA20, mkAR])

theorem RoundTrip.vmul (gd : Guard) (d : VReg) (a : VReg) (b : VReg) (t : ETy) : Statement (.vmul gd d a b t) := by
  intro h
  exact decodeA_map _ _ h h (by simp [decAMap, decA20, mkAR])

theorem RoundTrip.vmin (gd : Guard) (d : VReg) (a : VReg) (b : VReg) (t : ETy) : Statement (.vmin gd d a b t) := by
  intro h
  exact decodeA_map _ _ h h (by simp [decAMap, decA20, mkAR])

theorem RoundTrip.vmax (gd : Guard) (d : VReg) (a : VReg) (b : VReg) (t : ETy) : Statement (.vmax gd d a b t) := by
  intro h
  exact decodeA_map _ _ h h (by simp [decAMap, decA20, mkAR])

theorem RoundTrip.vabs (gd : Guard) (d : VReg) (a : VReg) (t : ETy) : Statement (.vabs gd d a t) := by
  intro h
  exact decodeA_map _ _ h h (by simp [decAMap, decA20, mkAR])

theorem RoundTrip.vneg (gd : Guard) (d : VReg) (a : VReg) (t : ETy) : Statement (.vneg gd d a t) := by
  intro h
  exact decodeA_map _ _ h h (by simp [decAMap, decA20, mkAR])

theorem RoundTrip.vand (gd : Guard) (d : VReg) (a : VReg) (b : VReg) (t : ETy) : Statement (.vand gd d a b t) := by
  intro h
  exact decodeA_map _ _ (Bool.and_eq_true_iff.mp h).1 h (by simp [decAMap, decA20, mkAR])

theorem RoundTrip.vor (gd : Guard) (d : VReg) (a : VReg) (b : VReg) (t : ETy) : Statement (.vor gd d a b t) := by
  intro h
  exact decodeA_map _ _ (Bool.and_eq_true_iff.mp h).1 h (by simp [decAMap, decA20, mkAR])

theorem RoundTrip.vxor (gd : Guard) (d : VReg) (a : VReg) (b : VReg) (t : ETy) : Statement (.vxor gd d a b t) := by
  intro h
  exact decodeA_map _ _ (Bool.and_eq_true_iff.mp h).1 h (by simp [decAMap, decA20, mkAR])

theorem RoundTrip.vsll (gd : Guard) (d : VReg) (a : VReg) (b : VReg) (t : ETy) : Statement (.vsll gd d a b t) := by
  intro h
  exact decodeA_map _ _ (Bool.and_eq_true_iff.mp h).1 h (by simp [decAMap, decA20, mkAR])

theorem RoundTrip.vsrl (gd : Guard) (d : VReg) (a : VReg) (b : VReg) (t : ETy) : Statement (.vsrl gd d a b t) := by
  intro h
  exact decodeA_map _ _ (Bool.and_eq_true_iff.mp h).1 h (by simp [decAMap, decA20, mkAR])

theorem RoundTrip.vsra (gd : Guard) (d : VReg) (a : VReg) (b : VReg) (t : ETy) : Statement (.vsra gd d a b t) := by
  intro h
  exact decodeA_map _ _ (Bool.and_eq_true_iff.mp h).1 h (by simp [decAMap, decA20, mkAR])

theorem RoundTrip.vmov (gd : Guard) (d : VReg) (a : VReg) (t : ETy) : Statement (.vmov gd d a t) := by
  intro h
  exact decodeA_map _ _ h h (by simp [decAMap, decA20, mkAR])

theorem RoundTrip.vfma (gd : Guard) (d : VReg) (a : VReg) (b : VReg) (t : ETy) : Statement (.vfma gd d a b t) := by
  intro h
  exact decodeA_map _ _ (Bool.and_eq_true_iff.mp h).1 h (by simp [decAMap, decA20, mkAR])

theorem RoundTrip.vfms (gd : Guard) (d : VReg) (a : VReg) (b : VReg) (t : ETy) : Statement (.vfms gd d a b t) := by
  intro h
  exact decodeA_map _ _ (Bool.and_eq_true_iff.mp h).1 h (by simp [decAMap, decA20, mkAR])

theorem RoundTrip.vcmp (gd : Guard) (d : MReg) (a : VReg) (b : VReg) (t : ETy) (c : VCond) : Statement (.vcmp gd d a b t c) := by
  intro h
  exact decodeA_map _ _ (Bool.and_eq_true_iff.mp h).1 h (by simp [decAMap, mkAR])

theorem RoundTrip.vsel (gd : Guard) (d : VReg) (a : VReg) (b : VReg) (m : MReg) : Statement (.vsel gd d a b m) := by
  intro h
  exact decodeA_map _ _ h h (by simp [decAMap, mkAR])

theorem RoundTrip.vbc (gd : Guard) (d : VReg) (a : GReg) (t : ETy) : Statement (.vbc gd d a t) := by
  intro h
  exact decodeA_map _ _ h h (by simp [decAMap, decA23, mkAR])

theorem RoundTrip.vext (gd : Guard) (d : GReg) (a : VReg) (i : BitVec 5) (t : ETy) : Statement (.vext gd d a i t) := by
  intro h
  exact decodeA_map _ _ h h (by simp [decAMap, decA23, mkAR])

theorem RoundTrip.vins (gd : Guard) (d : VReg) (a : GReg) (i : BitVec 5) (t : ETy) : Statement (.vins gd d a i t) := by
  intro h
  exact decodeA_map _ _ h h (by simp [decAMap, decA23, mkAR])

theorem RoundTrip.vperm (gd : Guard) (d : VReg) (a : VReg) (b : VReg) (t : ETy) : Statement (.vperm gd d a b t) := by
  intro h
  exact decodeA_map _ _ h h (by simp [decAMap, decA23, mkAR])

theorem RoundTrip.vslide (gd : Guard) (d : VReg) (a : VReg) (sh : BitVec 5) (t : ETy) : Statement (.vslide gd d a sh t) := by
  intro h
  exact decodeA_map _ _ h h (by simp [decAMap, decA23, mkAR])

theorem RoundTrip.vredAdd (gd : Guard) (d : VReg) (a : VReg) (t : ETy) : Statement (.vredAdd gd d a t) := by
  intro h
  exact decodeA_map _ _ h h (by simp [decAMap, decA23, mkAR])

theorem RoundTrip.vredMin (gd : Guard) (d : VReg) (a : VReg) (t : ETy) : Statement (.vredMin gd d a t) := by
  intro h
  exact decodeA_map _ _ h h (by simp [decAMap, decA23, mkAR])

theorem RoundTrip.vredMax (gd : Guard) (d : VReg) (a : VReg) (t : ETy) : Statement (.vredMax gd d a t) := by
  intro h
  exact decodeA_map _ _ h h (by simp [decAMap, decA23, mkAR])

theorem RoundTrip.vscanAdd (gd : Guard) (d : VReg) (a : VReg) (t : ETy) : Statement (.vscanAdd gd d a t) := by
  intro h
  exact decodeA_map _ _ h h (by simp [decAMap, decA23, mkAR])

theorem RoundTrip.vwid (gd : Guard) (d : VReg) (a : VReg) (k : BitVec 5) (t : ETy) : Statement (.vwid gd d a k t) := by
  intro h
  exact decodeA_map _ _ (Bool.and_eq_true_iff.mp h).1 h (by simp [decAMap, decA23, mkAR])

theorem RoundTrip.vnar (gd : Guard) (d : VReg) (a : VReg) (k : BitVec 5) (t : ETy) : Statement (.vnar gd d a k t) := by
  intro h
  exact decodeA_map _ _ (Bool.and_eq_true_iff.mp h).1 h (by simp [decAMap, decA23, mkAR])

theorem RoundTrip.vexp2 (gd : Guard) (d : VReg) (a : VReg) (t : ETy) : Statement (.vexp2 gd d a t) := by
  intro h
  exact decodeA_map _ _ (Bool.and_eq_true_iff.mp h).1 h (by simp [decAMap, decA24, mkAR])

theorem RoundTrip.vlog2 (gd : Guard) (d : VReg) (a : VReg) (t : ETy) : Statement (.vlog2 gd d a t) := by
  intro h
  exact decodeA_map _ _ (Bool.and_eq_true_iff.mp h).1 h (by simp [decAMap, decA24, mkAR])

theorem RoundTrip.vrcp (gd : Guard) (d : VReg) (a : VReg) (t : ETy) : Statement (.vrcp gd d a t) := by
  intro h
  exact decodeA_map _ _ (Bool.and_eq_true_iff.mp h).1 h (by simp [decAMap, decA24, mkAR])

theorem RoundTrip.vrsq (gd : Guard) (d : VReg) (a : VReg) (t : ETy) : Statement (.vrsq gd d a t) := by
  intro h
  exact decodeA_map _ _ (Bool.and_eq_true_iff.mp h).1 h (by simp [decAMap, decA24, mkAR])

theorem RoundTrip.vsqrt (gd : Guard) (d : VReg) (a : VReg) (t : ETy) : Statement (.vsqrt gd d a t) := by
  intro h
  exact decodeA_map _ _ (Bool.and_eq_true_iff.mp h).1 h (by simp [decAMap, decA24, mkAR])

theorem RoundTrip.vsin (gd : Guard) (d : VReg) (a : VReg) (t : ETy) : Statement (.vsin gd d a t) := by
  intro h
  exact decodeA_map _ _ (Bool.and_eq_true_iff.mp h).1 h (by simp [decAMap, decA24, mkAR])

theorem RoundTrip.vcos (gd : Guard) (d : VReg) (a : VReg) (t : ETy) : Statement (.vcos gd d a t) := by
  intro h
  exact decodeA_map _ _ (Bool.and_eq_true_iff.mp h).1 h (by simp [decAMap, decA24, mkAR])

theorem RoundTrip.vtanh (gd : Guard) (d : VReg) (a : VReg) (t : ETy) : Statement (.vtanh gd d a t) := by
  intro h
  exact decodeA_map _ _ (Bool.and_eq_true_iff.mp h).1 h (by simp [decAMap, decA24, mkAR])

theorem RoundTrip.mand (gd : Guard) (d : MReg) (a : MReg) (b : MReg) : Statement (.mand gd d a b) := by
  intro h
  exact decodeA_map _ _ h h (by simp [decAMap, decA25, mkAR])

theorem RoundTrip.mor (gd : Guard) (d : MReg) (a : MReg) (b : MReg) : Statement (.mor gd d a b) := by
  intro h
  exact decodeA_map _ _ h h (by simp [decAMap, decA25, mkAR])

theorem RoundTrip.mnot (gd : Guard) (d : MReg) (a : MReg) : Statement (.mnot gd d a) := by
  intro h
  exact decodeA_map _ _ h h (by simp [decAMap, decA25, mkAR])

theorem RoundTrip.mpop (gd : Guard) (d : GReg) (a : MReg) : Statement (.mpop gd d a) := by
  intro h
  exact decodeA_map _ _ h h (by simp [decAMap, decA25, mkAR])

theorem RoundTrip.rep (gd : Guard) (len : BitVec 4) (cnt : BitVec 12) (str : BitVec 3) (st : BitVec 3) : Statement (.rep gd len cnt str st) := by
  intro h
  exact decodeA_map _ _ h h (by simp [decAMap, mkAJ, mkAW, mkAI, mkAR, AFmt.bf, AFmt.abf, AFmt.dabf])

theorem RoundTrip.t8enc (gd : Guard) (d : VReg) (a : VReg) (k : BitVec 5) (sr : Bool) (t : ETy) (dt : MReg) : Statement (.t8enc gd d a k sr t dt) := by
  intro h
  exact decodeA_map _ _ (Bool.and_eq_true_iff.mp h).1 h (by simp [decAMap, decA28, mkAR]; erw [t8_choice]; rfl)

theorem RoundTrip.t8dec (gd : Guard) (d : VReg) (a : VReg) (k : BitVec 5) (t : ETy) (dt : MReg) : Statement (.t8dec gd d a k t dt) := by
  intro h
  exact decodeA_map _ _ (Bool.and_eq_true_iff.mp h).1 h (by simp [decAMap, decA28, mkAR, t8dec_choice])

theorem RoundTrip.vcvt (gd : Guard) (d : VReg) (a : VReg) (k : BitVec 5) (ts : ETy) (td : ETy) (sr : Bool) : Statement (.vcvt gd d a k ts td sr) := by
  intro h
  exact decodeA_map _ _ (Bool.and_eq_true_iff.mp h).1 h (by simp [decAMap, mkAR])

theorem RoundTrip.fetchMissFill (slot : Nat) : Statement (.fetchMissFill slot) := fun _ => trivial

theorem RoundTrip.operationComplete (slot : Nat) : Statement (.operationComplete slot) := fun _ => trivial

theorem RoundTrip.contextLoaded (slot : Nat) : Statement (.contextLoaded slot) := fun _ => trivial

theorem RoundTrip.drainComplete (slot : Nat) : Statement (.drainComplete slot) := fun _ => trivial

theorem RoundTrip.quitComplete (slot : Nat) : Statement (.quitComplete slot) := fun _ => trivial

theorem RoundTrip.waitDeadline (slot : Nat) : Statement (.waitDeadline slot) := fun _ => trivial

theorem RoundTrip.migrationPacketSend (slot : Nat) : Statement (.migrationPacketSend slot) := fun _ => trivial

theorem RoundTrip.migrantLanding (pkt : Nat) : Statement (.migrantLanding pkt) := fun _ => trivial

theorem RoundTrip.landingAdmit (core : Nat) : Statement (.landingAdmit core) := fun _ => trivial

theorem RoundTrip.spawnPacketArrival (pkt : Nat) : Statement (.spawnPacketArrival pkt) := fun _ => trivial

theorem RoundTrip.spillToAdmit (core : Nat) : Statement (.spillToAdmit core) := fun _ => trivial

theorem RoundTrip.spillForClass (slot : Nat) : Statement (.spillForClass slot) := fun _ => trivial

theorem RoundTrip.spillRecordWritten (slot : Nat) (fails : Nat) : Statement (.spillRecordWritten slot fails) := fun _ => trivial

theorem RoundTrip.resume (idx : Nat) (slot : Nat) : Statement (.resume idx slot) := fun _ => trivial

theorem RoundTrip.messageLanding (slot : Nat) : Statement (.messageLanding slot) := fun _ => trivial

theorem RoundTrip.wakeUpLanding (pkt : Nat) : Statement (.wakeUpLanding pkt) := fun _ => trivial

theorem RoundTrip.dataLanding (slot : Nat) : Statement (.dataLanding slot) := fun _ => trivial

theorem RoundTrip.remoteRead (slot : Nat) : Statement (.remoteRead slot) := fun _ => trivial

theorem RoundTrip.accessAccepted (slot : Nat) (n : Nat) : Statement (.accessAccepted slot n) := fun _ => trivial

theorem RoundTrip.fullEmptyRequest (slot : Nat) : Statement (.fullEmptyRequest slot) := fun _ => trivial

theorem RoundTrip.reservationRequest (slot : Nat) : Statement (.reservationRequest slot) := fun _ => trivial

theorem RoundTrip.phaseRequest (slot : Nat) : Statement (.phaseRequest slot) := fun _ => trivial

theorem RoundTrip.weltSwitchArrival (req : Nat) : Statement (.weltSwitchArrival req) := fun _ => trivial

theorem RoundTrip.pairingWindowExpiry (req : Nat) : Statement (.pairingWindowExpiry req) := fun _ => trivial

theorem RoundTrip.combinedReplySplit (req : Nat) : Statement (.combinedReplySplit req) := fun _ => trivial

theorem RoundTrip.queueHomeOperation (slot : Nat) : Statement (.queueHomeOperation slot) := fun _ => trivial

theorem RoundTrip.blockRelocation (tenant : Nat) (handle : Nat) (block : Nat) (dest : Nat) : Statement (.blockRelocation tenant handle block dest) := fun _ => trivial

theorem RoundTrip.relocationCutover (tenant : Nat) (handle : Nat) (block : Nat) : Statement (.relocationCutover tenant handle block) := fun _ => trivial

theorem RoundTrip.layerFault (stack : Nat) (layer : Nat) : Statement (.layerFault stack layer) := fun _ => trivial

theorem RoundTrip.layerWake (stack : Nat) (layer : Nat) : Statement (.layerWake stack layer) := fun _ => trivial

theorem RoundTrip.layerReturnActive (stack : Nat) (layer : Nat) : Statement (.layerReturnActive stack layer) := fun _ => trivial

theorem RoundTrip.tapRetirement (tile : Nat) (taps : BitVec 2) : Statement (.tapRetirement tile taps) := fun _ => trivial

theorem RoundTrip.busFailure (tile : Nat) : Statement (.busFailure tile) := fun _ => trivial

theorem RoundTrip.tcmBankRetirement (core : Nat) (bank : Nat) : Statement (.tcmBankRetirement core bank) := fun _ => trivial

theorem RoundTrip.launchWindowWrite (fn : Nat) (off : Nat) (data : List W64) (whole : Bool) (stream : Bool) : Statement (.launchWindowWrite fn off data whole stream) := fun _ => trivial

theorem RoundTrip.launchPushStored (fn : Nat) : Statement (.launchPushStored fn) := fun _ => trivial

theorem RoundTrip.launchPop (die : Nat) (tenant : Nat) : Statement (.launchPop die tenant) := fun _ => trivial

theorem RoundTrip.launchHeaderArrival (die : Nat) (idx : Nat) : Statement (.launchHeaderArrival die idx) := fun _ => trivial

theorem RoundTrip.taskDispatch (die : Nat) (task : Nat) (core : Nat) : Statement (.taskDispatch die task core) := fun _ => trivial

theorem RoundTrip.containmentRetry (idx : Nat) : Statement (.containmentRetry idx) := fun _ => trivial

theorem RoundTrip.dispatchCountReport (die : Nat) (idx : Nat) : Statement (.dispatchCountReport die idx) := fun _ => trivial

theorem RoundTrip.throttleRequest (die : Nat) (level : BitVec 3) : Statement (.throttleRequest die level) := fun _ => trivial

theorem RoundTrip.orreryTick (stack : Nat) (temps : List Byte) (valves : List Byte) (level : BitVec 3) (pwr : BitVec 32) (idle : BitVec 8) : Statement (.orreryTick stack temps valves level pwr idle) := fun _ => trivial

theorem RoundTrip.matrixRemoteCommand (slot : Nat) : Statement (.matrixRemoteCommand slot) := fun _ => trivial

theorem RoundTrip.matrixOpStart (core : Nat) : Statement (.matrixOpStart core) := fun _ => trivial

theorem RoundTrip.matrixKstepComplete (core : Nat) : Statement (.matrixKstepComplete core) := fun _ => trivial

theorem RoundTrip.copyTransferStart (core : Nat) : Statement (.copyTransferStart core) := fun _ => trivial

theorem RoundTrip.copyChunk (core : Nat) (id : Nat) (n : Nat) : Statement (.copyChunk core id n) := fun _ => trivial

theorem RoundTrip.permitRequest (core : Nat) (id : Nat) : Statement (.permitRequest core id) := fun _ => trivial

theorem RoundTrip.permitRetryTimeout (core : Nat) (id : Nat) : Statement (.permitRetryTimeout core id) := fun _ => trivial

theorem RoundTrip.copyCompletion (core : Nat) (id : Nat) : Statement (.copyCompletion core id) := fun _ => trivial

theorem RoundTrip.completionDelivery (slot : Nat) : Statement (.completionDelivery slot) := fun _ => trivial

theorem RoundTrip.translationWalkComplete (die : Nat) (tenant : Nat) (va : Nat) : Statement (.translationWalkComplete die tenant va) := fun _ => trivial

theorem RoundTrip.cobblerAtomic (slot : Nat) : Statement (.cobblerAtomic slot) := fun _ => trivial

theorem RoundTrip.spdmGetMeasurements (fn : Nat) (nonce : List W64) : Statement (.spdmGetMeasurements fn nonce) := fun _ => trivial

theorem RoundTrip.ideKm (fn : Nat) (on : Bool) : Statement (.ideKm fn on) := fun _ => trivial

theorem RoundTrip.seal (fn : Nat) (ok : Bool) : Statement (.seal fn ok) := fun _ => trivial

theorem RoundTrip.unseal (fn : Nat) (ok : Bool) : Statement (.unseal fn ok) := fun _ => trivial

theorem RoundTrip.flashUpdate (fn : Nat) (ok : Bool) : Statement (.flashUpdate fn ok) := fun _ => trivial

theorem RoundTrip.hostRegisterWrite (fn : Nat) (off : Nat) (data : List W64) (whole : Bool) (stream : Bool) : Statement (.hostRegisterWrite fn off data whole stream) := fun _ => trivial

theorem RoundTrip.packageReset (masks : List W64) (banks : List Nat) (clusters : List Nat) (groups : List Nat) : Statement (.packageReset masks banks clusters groups) := fun _ => trivial

theorem RoundTrip.plannedPowerDown (stack : Nat) (layer : Nat) : Statement (.plannedPowerDown stack layer) := fun _ => trivial

theorem RoundTrip.scratchpadBankRetirement (cluster : Nat) : Statement (.scratchpadBankRetirement cluster) := fun _ => trivial

theorem RoundTrip.managementRingStall (on : Bool) : Statement (.managementRingStall on) := fun _ => trivial

theorem RoundTrip.tenantTableWrite (tenant : Nat) (idx : Nat) (data : W64) : Statement (.tenantTableWrite tenant idx data) := fun _ => trivial

theorem RoundTrip.memoryOwnerAssignment (kind : Nat) (unit : Nat) (tenant : Nat) : Statement (.memoryOwnerAssignment kind unit tenant) := fun _ => trivial

theorem RoundTrip.tenantDestruction (tenant : Nat) : Statement (.tenantDestruction tenant) := fun _ => trivial

theorem RoundTrip.peerUnreachable (peer : Nat) (exports : List Export) : Statement (.peerUnreachable peer exports) := fun _ => trivial

end Laws
end Sys2Proof
end

