-- ==== Sys2Proof/Tests/Slice0.lean ====
section
/-!
SUPPORT. Tests: words written out from the encoding tables decode to the instructions they stand for; ill-formed instructions
are refused; small single steps with results worked out by hand from the rules; and, for each statement with hypotheses,
states that meet them.
-/

namespace Sys2Proof.Tests

set_option Elab.async false

open Machine Claims

/-! ## Small states -/

/-- The guard that always holds. -/
abbrev gd : Guard := ⟨0, false⟩

/-- A context with these general registers. -/
def regs (l : List (Nat × W64)) : Ctx := { Ctx.zero with pc := 0x1000, g := l.foldl (fun v e => v.setIfInBounds e.1 e.2) Ctx.zero.g }

/-- A context with these vector registers besides. -/
def vregs (l : List (Nat × W64)) (v : List (Nat × BitVec 1024)) : Ctx :=
  { regs l with v := v.foldl (fun w e => w.setIfInBounds e.1 e.2) Ctx.zero.v }

/-- The state in which slot k issues a bundle with the registers c. -/
def run (k : Nat) (c : Ctx) : State :=
  { State.reset.setSlot k { Slot.free with st := .run, tid := 1, ctx := c, npc := c.pc + 8 } with cur := k, src := some c, nextTid := 2 }

/-- The state in which slot 0 of core 0, a compute core, issues a bundle. -/
def one (l : List (Nat × W64)) : State := run 0 (regs l)

/-- With an object of two blocks under handle 1 of tenant 0, with these options. -/
def withObj (opts : W64) (s : State) : State := { s with objs := [(1, { Obj.none with used := true, size := 8192, opts := opts })] }

/-- The address of a byte of that object, and where the byte lies. -/
def objEa (off : Nat) : W64 := BitVec.ofNat 64 (2 ^ 62 + 2 ^ 40 + off)
def objPa (off : Nat) : Nat := paStack 0 (2 ^ 62 + 2 ^ 40 + off)

/-- Another slot with this state and these registers. -/
def parked (st : SlotSt) (c : Ctx) : Slot := { Slot.free with st := st, tid := 9, ctx := c, npc := c.pc + 8 }

/-- The outcome is a next state with this property. -/
def after (o : Res) (p : State → Bool) : Bool :=
  match o with
  | .next t => p t
  | _ => false

/-- The half traps. -/
def trapsWith (o : Res) (t : Trap) : Bool := after o fun u => u.trapped == some t

/-! ## Decoding -/

theorem test_decode_sys : ∀ p ∈ ([
    (0x00A00000, .cnop ⟨2, true⟩), (0x00A00001, .isync ⟨2, true⟩), (0x00A00002, .eret ⟨2, true⟩), (0x00A00003, .brk ⟨2, true⟩),
     (0x00A00004, .ret ⟨2, true⟩), (0x00A03005, .jr ⟨2, true⟩ 6), (0x00A03006, .jlr ⟨2, true⟩ 6),
     (0x00A00007, .leave ⟨2, true⟩), (0x00A00008, .quit ⟨2, true⟩), (0x00A00009, .split ⟨2, true⟩),
     (0x00A0000A, .uiret ⟨2, true⟩), (0x02A005A5, .trap ⟨2, true⟩ 1445), (0x04BFFFFD, .br ⟨2, true⟩ 2097149),
     (0x06BFFFFD, .jl ⟨2, true⟩ 2097149), (0x0AA5FFFE, .lpd ⟨2, true⟩ 5 65534)] : List (BitVec 32 × Instr)),
    decodeC (CFmt.unpack p.1) 0 = some p.2 := by decide

theorem test_decode_thread : ∀ p ∈ ([
    (0x0CA005A5, .enter ⟨2, true⟩ 1445), (0x0EA50100, .crd ⟨2, true⟩ 5 256), (0x10A0300C, .cwr ⟨2, true⟩ 6 12),
     (0x12A53104, .crset ⟨2, true⟩ 5 6 260), (0x14A53401, .crclr ⟨2, true⟩ 5 6 1025), (0x18A03000, .wait ⟨2, true⟩ 6),
     (0x18A50001, .gang ⟨2, true⟩ 5), (0x18A51802, .wfld ⟨2, true⟩ 5 3), (0x18A53083, .kill ⟨2, true⟩ 5 6 2),
     (0x18A53004, .cmap ⟨2, true⟩ 5 6)] : List (BitVec 32 × Instr)),
    decodeC (CFmt.unpack p.1) 0 = some p.2 := by decide

theorem test_decode_load : ∀ p ∈ ([
    (0x20A535FE, .ldb ⟨2, true⟩ 5 6 .acq 510), (0x22A535FE, .ldh ⟨2, true⟩ 5 6 .acq 510),
     (0x24A535FE, .ldw ⟨2, true⟩ 5 6 .acq 510), (0x26A535FE, .ldd ⟨2, true⟩ 5 6 .acq 510),
     (0x28A535FE, .ldbz ⟨2, true⟩ 5 6 .acq 510), (0x2AA535FE, .ldhz ⟨2, true⟩ 5 6 .acq 510),
     (0x2CA535FE, .ldwz ⟨2, true⟩ 5 6 .acq 510), (0x2EA235FE, .ldv ⟨2, true⟩ 2 6 .acq 510),
     (0x30A535FE, .stb ⟨2, true⟩ 5 6 .rel 510), (0x32A535FE, .sth ⟨2, true⟩ 5 6 .rel 510),
     (0x34A535FE, .stw ⟨2, true⟩ 5 6 .rel 510), (0x36A535FE, .std ⟨2, true⟩ 5 6 .rel 510),
     (0x38A235FE, .stv ⟨2, true⟩ 2 6 .rel 510)] : List (BitVec 32 × Instr)),
    decodeC (CFmt.unpack p.1) 0 = some p.2 := by decide

theorem test_decode_local : ∀ p ∈ ([
    (0x3AA53000, .lds ⟨2, true⟩ 5 6), (0x3AA53001, .sts ⟨2, true⟩ 5 6), (0x3AA531C2, .shp ⟨2, true⟩ 5 6 7),
     (0x3AA531C3, .tfadd ⟨2, true⟩ 5 6 7), (0x3AA23104, .rdr ⟨2, true⟩ 2 6 4), (0x3AA03005, .migr ⟨2, true⟩ 6),
     (0x3CA531C3, .tam ⟨2, true⟩ 5 6 7 .xor), (0x3EA535A5, .lea ⟨2, true⟩ 5 6 1445)] : List (BitVec 32 × Instr)),
    decodeC (CFmt.unpack p.1) 0 = some p.2 := by decide

theorem test_decode_mesh : ∀ p ∈ ([
    (0x40A23000, .dtld ⟨2, true⟩ 2 6), (0x40A23001, .dtst ⟨2, true⟩ 2 6), (0x42A5320B, .send ⟨2, true⟩ 5 6 8 11),
     (0x46A53200, .recv ⟨2, true⟩ 5 6 8), (0x46A502C1, .mbc ⟨2, true⟩ 5 11), (0x46A532C2, .waitc ⟨2, true⟩ 5 6 11),
     (0x46A53003, .mbclr ⟨2, true⟩ 5 6), (0x46A53004, .mcast ⟨2, true⟩ 5 6)] : List (BitVec 32 × Instr)),
    decodeC (CFmt.unpack p.1) 0 = some p.2 := by decide

theorem test_decode_matrix : ∀ p ∈ ([
    (0x48A50040, .mclaim ⟨2, true⟩ 5 true), (0x48A00001, .mrel ⟨2, true⟩), (0x48A20002, .mzero ⟨2, true⟩ 2),
     (0x48A231C3, .mload ⟨2, true⟩ 2 6 7), (0x48A231C4, .mdrain ⟨2, true⟩ 2 6 7), (0x48A531C5, .mdrainr ⟨2, true⟩ 5 6 7),
     (0x48A531C6, .mcmd ⟨2, true⟩ 5 6 7), (0x48A50047, .mstat ⟨2, true⟩ 5 true)] : List (BitVec 32 × Instr)),
    decodeC (CFmt.unpack p.1) 0 = some p.2 := by decide

theorem test_decode_stacked : ∀ p ∈ ([
    (0x4CA53020, .ldfe ⟨2, true⟩ 5 6 .acq), (0x4CA53021, .ldff ⟨2, true⟩ 5 6 .acq), (0x4CA031E2, .stef ⟨2, true⟩ 6 7 .rel),
     (0x4CA031E3, .stff ⟨2, true⟩ 6 7 .rel), (0x4CA53024, .lrw ⟨2, true⟩ 5 6 .acq), (0x4CA031E5, .sch ⟨2, true⟩ 6 7 .rel),
     (0x4CA03026, .sdrop ⟨2, true⟩ 6 .rel), (0x4EA531F3, .amo ⟨2, true⟩ 5 6 7 .rel .xor),
     (0x4EA531F9, .afadd ⟨2, true⟩ 5 6 7 .rel), (0x4EA531FA, .acas ⟨2, true⟩ 5 6 7 .rel),
     (0x52A531C0, .halloc ⟨2, true⟩ 5 6 7), (0x52A53001, .hfree ⟨2, true⟩ 5 6), (0x52A53082, .hq ⟨2, true⟩ 5 6 2)] : List (BitVec 32 × Instr)),
    decodeC (CFmt.unpack p.1) 0 = some p.2 := by decide

theorem test_decode_queue : ∀ p ∈ ([
    (0x54A5322D, .qpush ⟨2, true⟩ 5 6 8 (.code 3) true), (0x56A5322D, .qpop ⟨2, true⟩ 5 6 8 (.code 3) true),
     (0x58A53000, .qcnt ⟨2, true⟩ 5 6), (0x58A531C1, .qmake ⟨2, true⟩ 5 6 7), (0x58A53002, .qfree ⟨2, true⟩ 5 6),
     (0x5AA50200, .tenq ⟨2, true⟩ 5 8), (0x5AA53001, .tdep ⟨2, true⟩ 5 6), (0x5AA53002, .tcan ⟨2, true⟩ 5 6),
     (0x5AA531C3, .svsl ⟨2, true⟩ 5 6 7), (0x5AA531C4, .ldsl ⟨2, true⟩ 5 6 7), (0x5AA031C5, .tinvl ⟨2, true⟩ 6 7),
     (0x5AA00006, .hinv ⟨2, true⟩)] : List (BitVec 32 × Instr)),
    decodeC (CFmt.unpack p.1) 0 = some p.2 := by decide

theorem test_decode_table : ∀ p ∈ ([
    (0x5CA53003, .tcall ⟨2, true⟩ 5 6 3), (0x5EA55040, .tnext ⟨2, true⟩ 5 10 true), (0x5EA031C1, .tans ⟨2, true⟩ 6 7),
     (0x5EA03002, .tend ⟨2, true⟩ 6), (0x5EA03003, .tfail ⟨2, true⟩ 6), (0x5EA53004, .tinv ⟨2, true⟩ 5 6),
     (0x5EA53085, .tstat ⟨2, true⟩ 5 6 2)] : List (BitVec 32 × Instr)),
    decodeC (CFmt.unpack p.1) 0 = some p.2 := by decide

theorem test_decode_copy : ∀ p ∈ ([
    (0x62A53040, .cpyq ⟨2, true⟩ 5 6 true), (0x62A532C1, .permit ⟨2, true⟩ 5 6 11), (0x62A53042, .cpst ⟨2, true⟩ 5 6 1),
     (0x64A00000, .fence ⟨2, true⟩), (0x64A00001, .fenceAcq ⟨2, true⟩), (0x64A00002, .fenceRel ⟨2, true⟩),
     (0x64A531C3, .parr ⟨2, true⟩ 5 6 7), (0x64A531C4, .pwait ⟨2, true⟩ 5 6 7), (0x64A531C5, .pinit ⟨2, true⟩ 5 6 7)] : List (BitVec 32 × Instr)),
    decodeC (CFmt.unpack p.1) 0 = some p.2 := by decide

theorem test_decode_integer : ∀ p ∈ ([
    (0x01400000, .anop ⟨2, true⟩), (0x054A6380, .add ⟨2, true⟩ 5 6 7), (0x054A6381, .sub ⟨2, true⟩ 5 6 7),
     (0x054A6382, .and ⟨2, true⟩ 5 6 7), (0x054A6383, .or ⟨2, true⟩ 5 6 7), (0x054A6384, .xor ⟨2, true⟩ 5 6 7),
     (0x054A6385, .sll ⟨2, true⟩ 5 6 7), (0x054A6386, .srl ⟨2, true⟩ 5 6 7), (0x054A6387, .sra ⟨2, true⟩ 5 6 7),
     (0x054A6388, .mul ⟨2, true⟩ 5 6 7), (0x054A6389, .mulh ⟨2, true⟩ 5 6 7), (0x054A638A, .mulhu ⟨2, true⟩ 5 6 7),
     (0x054A638B, .div ⟨2, true⟩ 5 6 7), (0x054A638C, .divu ⟨2, true⟩ 5 6 7), (0x054A638D, .rem ⟨2, true⟩ 5 6 7),
     (0x054A638E, .remu ⟨2, true⟩ 5 6 7), (0x054A638F, .min ⟨2, true⟩ 5 6 7), (0x054A6390, .minu ⟨2, true⟩ 5 6 7),
     (0x054A6391, .max ⟨2, true⟩ 5 6 7), (0x054A6392, .maxu ⟨2, true⟩ 5 6 7), (0x054A6013, .clz ⟨2, true⟩ 5 6),
     (0x054A6014, .ctz ⟨2, true⟩ 5 6), (0x054A6015, .popc ⟨2, true⟩ 5 6), (0x054A6016, .brev ⟨2, true⟩ 5 6)] : List (BitVec 32 × Instr)),
    decodeA (AFmt.unpack p.1) = some p.2 := by decide

theorem test_decode_immediate : ∀ p ∈ ([
    (0x094A6ABC, .addi ⟨2, true⟩ 5 6 2748), (0x0D4A6ABC, .andi ⟨2, true⟩ 5 6 2748), (0x114A6ABC, .ori ⟨2, true⟩ 5 6 2748),
     (0x154A6ABC, .xori ⟨2, true⟩ 5 6 2748), (0x194A602B, .slli ⟨2, true⟩ 5 6 43), (0x194A606B, .srli ⟨2, true⟩ 5 6 43),
     (0x194A60AB, .srai ⟨2, true⟩ 5 6 43), (0x1D4A6AD4, .ext ⟨2, true⟩ 5 6 43 20), (0x214BABCD, .li ⟨2, true⟩ 5 109517),
     (0x254AFFFE, .lui1 ⟨2, true⟩ 5 65534), (0x294AFFFE, .lui2 ⟨2, true⟩ 5 65534), (0x2D4AFFFE, .lui3 ⟨2, true⟩ 5 65534)] : List (BitVec 32 × Instr)),
    decodeA (AFmt.unpack p.1) = some p.2 := by decide

theorem test_decode_compare : ∀ p ∈ ([
    (0x31466382, .cmp ⟨2, true⟩ 3 6 7 .lt), (0x35461100, .band ⟨2, true⟩ 3 1 2), (0x35461101, .bor ⟨2, true⟩ 3 1 2),
     (0x35461102, .bxor ⟨2, true⟩ 3 1 2), (0x35461003, .bnot ⟨2, true⟩ 3 1), (0x35461004, .bmov ⟨2, true⟩ 3 1),
     (0x354A0005, .bpack ⟨2, true⟩ 5), (0x35406006, .bunpk ⟨2, true⟩ 6), (0x394A6385, .sel ⟨2, true⟩ 5 6 7 5)] : List (BitVec 32 × Instr)),
    decodeA (AFmt.unpack p.1) = some p.2 := by decide

theorem test_decode_float : ∀ p ∈ ([
    (0x414A63C0, .fadd ⟨2, true⟩ 5 6 7 .d), (0x414A63C1, .fsub ⟨2, true⟩ 5 6 7 .d), (0x414A63C2, .fmul ⟨2, true⟩ 5 6 7 .d),
     (0x414A63C3, .fdiv ⟨2, true⟩ 5 6 7 .d), (0x414A6044, .fsqrt ⟨2, true⟩ 5 6 .d), (0x414A63C5, .fmin ⟨2, true⟩ 5 6 7 .d),
     (0x414A63C6, .fmax ⟨2, true⟩ 5 6 7 .d), (0x414A6047, .fabs ⟨2, true⟩ 5 6 .d), (0x414A6048, .fneg ⟨2, true⟩ 5 6 .d),
     (0x414A63C9, .fsgnj ⟨2, true⟩ 5 6 7 .d), (0x414A604A, .fclass ⟨2, true⟩ 5 6 .d), (0x414A604B, .fcvt ⟨2, true⟩ 5 6 .d),
     (0x414A61CC, .fcvti ⟨2, true⟩ 5 6 true true .d), (0x414A60CD, .icvtf ⟨2, true⟩ 5 6 true .d),
     (0x454A63C0, .fma ⟨2, true⟩ 5 6 7 .d), (0x454A63C1, .fms ⟨2, true⟩ 5 6 7 .d), (0x454A63C2, .fnma ⟨2, true⟩ 5 6 7 .d),
     (0x494663C2, .fcmp ⟨2, true⟩ 3 6 7 .d .le)] : List (BitVec 32 × Instr)),
    decodeA (AFmt.unpack p.1) = some p.2 := by decide

theorem test_decode_vector_arith : ∀ p ∈ ([
    (0x81443210, .vadd ⟨2, true⟩ 2 3 4 .i16), (0x81443211, .vsub ⟨2, true⟩ 2 3 4 .i16),
     (0x81443212, .vmul ⟨2, true⟩ 2 3 4 .i16), (0x81443213, .vmin ⟨2, true⟩ 2 3 4 .i16),
     (0x81443214, .vmax ⟨2, true⟩ 2 3 4 .i16), (0x81443015, .vabs ⟨2, true⟩ 2 3 .i16), (0x81443016, .vneg ⟨2, true⟩ 2 3 .i16),
     (0x81443217, .vand ⟨2, true⟩ 2 3 4 .i16), (0x81443218, .vor ⟨2, true⟩ 2 3 4 .i16),
     (0x81443219, .vxor ⟨2, true⟩ 2 3 4 .i16), (0x8144321A, .vsll ⟨2, true⟩ 2 3 4 .i16),
     (0x8144321B, .vsrl ⟨2, true⟩ 2 3 4 .i16), (0x8144321C, .vsra ⟨2, true⟩ 2 3 4 .i16),
     (0x8144301D, .vmov ⟨2, true⟩ 2 3 .i16), (0x8144326E, .vfma ⟨2, true⟩ 2 3 4 .f32),
     (0x8144326F, .vfms ⟨2, true⟩ 2 3 4 .f32), (0x85423263, .vcmp ⟨2, true⟩ 1 3 4 .f32 .le),
     (0x89443203, .vsel ⟨2, true⟩ 2 3 4 3)] : List (BitVec 32 × Instr)),
    decodeA (AFmt.unpack p.1) = some p.2 := by decide

theorem test_decode_vector_move : ∀ p ∈ ([
    (0x8D446010, .vbc ⟨2, true⟩ 2 6 .i16), (0x8D4A3391, .vext ⟨2, true⟩ 5 3 7 .i16), (0x8D446492, .vins ⟨2, true⟩ 2 6 9 .i16),
     (0x8D443213, .vperm ⟨2, true⟩ 2 3 4 .i16), (0x8D443F14, .vslide ⟨2, true⟩ 2 3 30 .i16),
     (0x8D443015, .vredAdd ⟨2, true⟩ 2 3 .i16), (0x8D443016, .vredMin ⟨2, true⟩ 2 3 .i16),
     (0x8D443017, .vredMax ⟨2, true⟩ 2 3 .i16), (0x8D443018, .vscanAdd ⟨2, true⟩ 2 3 .i16),
     (0x8D443099, .vwid ⟨2, true⟩ 2 3 1 .i16), (0x8D4430AA, .vnar ⟨2, true⟩ 2 3 1 .i32)] : List (BitVec 32 × Instr)),
    decodeA (AFmt.unpack p.1) = some p.2 := by decide

theorem test_decode_vector_function : ∀ p ∈ ([
    (0x91443060, .vexp2 ⟨2, true⟩ 2 3 .f32), (0x91443061, .vlog2 ⟨2, true⟩ 2 3 .f32), (0x91443062, .vrcp ⟨2, true⟩ 2 3 .f32),
     (0x91443063, .vrsq ⟨2, true⟩ 2 3 .f32), (0x91443064, .vsqrt ⟨2, true⟩ 2 3 .f32), (0x91443065, .vsin ⟨2, true⟩ 2 3 .f32),
     (0x91443066, .vcos ⟨2, true⟩ 2 3 .f32), (0x91443067, .vtanh ⟨2, true⟩ 2 3 .f32), (0x95422180, .mand ⟨2, true⟩ 1 2 3),
     (0x95422181, .mor ⟨2, true⟩ 1 2 3), (0x95422002, .mnot ⟨2, true⟩ 1 2), (0x954A2003, .mpop ⟨2, true⟩ 5 2),
     (0x996EAF2D, .rep ⟨2, true⟩ 11 2748 5 5)] : List (BitVec 32 × Instr)),
    decodeA (AFmt.unpack p.1) = some p.2 := by decide

theorem test_decode_conversion : ∀ p ∈ ([
    (0xA1443173, .t8enc ⟨2, true⟩ 2 3 2 true .f32 3), (0xA14431B7, .t8dec ⟨2, true⟩ 2 3 3 .f32 3),
     (0xA54430EB, .vcvt ⟨2, true⟩ 2 3 1 .f32 .bf16 true)] : List (BitVec 32 × Instr)),
    decodeA (AFmt.unpack p.1) = some p.2 := by decide

theorem test_decode_long : ∀ p ∈ ([
    (0x88000005, 0xFFFFFFFE, .j gd 5 0xFFFFFFFE), (0x960531C0, 0x00000001, .spawn gd 5 6 7 1),
    (0xC40031C2, 0x04000000, .sendL gd 6 7 2 64), (0xCA0042A0, 0x00100000, .mmac gd 0 8 10 true false false 0 1),
    (0xD0003200, 0x00000010, .rupd gd 6 8 16), (0xE0053202, 0x0000000C, .ptask gd 5 6 8 2 12)]
    : List (BitVec 32 × BitVec 32 × Instr)),
    decodeBundle (p.2.1 ++ p.1) = some ⟨p.2.2, .anop .always, true⟩ := by decide

/-- R27: a half guarded "never" is a no-operation whatever its pattern. -/
theorem test_decode_never : decodeC (CFmt.unpack 0x00200002) 0 = some (.cnop .never) ∧
    decodeA (AFmt.unpack 0x044A639F) = some (.anop .never) ∧ decodeA (AFmt.unpack 0x050A6380) = some (.add ⟨2, false⟩ 5 6 7) ∧
    decodeA (AFmt.unpack 0x050A639F) = none ∧ decodeC (CFmt.unpack 0x7E000000) 0 = none := by decide

/-! ## Well-formed instructions -/

theorem test_wf_guard : (Instr.add ⟨0, true⟩ 1 2 3).wf = false ∧ (Instr.cnop ⟨0, true⟩).wf = true ∧
    (Instr.anop ⟨0, true⟩).wf = true := by decide

theorem test_wf_control : (Instr.lpd gd 0 5).wf = false ∧ (Instr.lpd gd 1 5).wf = true ∧ (Instr.crd gd 1 0x015).wf = false ∧
    (Instr.crd gd 1 0x014).wf = true ∧ (Instr.cwr gd 1 0x108).wf = false ∧ (Instr.crset gd 1 2 0x205).wf = false ∧
    (Instr.crclr gd 1 2 0x610).wf = false ∧ (Instr.spawn gd 1 2 28 0).wf = false ∧ (Instr.spawn gd 1 2 27 0).wf = true ∧
    (Instr.wfld gd 1 6).wf = false ∧ (Instr.wfld gd 1 5).wf = true ∧ (Instr.kill gd 1 2 7).wf = false ∧
    (Instr.kill gd 1 2 6).wf = true := by decide

theorem test_wf_memory : (Instr.lds gd 4 4).wf = false ∧ (Instr.lds gd 5 4).wf = false ∧ (Instr.lds gd 6 4).wf = true ∧
    (Instr.lds gd 1 29).wf = false ∧ (Instr.sts gd 1 0).wf = false ∧ (Instr.sts gd 1 28).wf = true ∧ (Instr.shp gd 0 1 2).wf = false ∧
    (Instr.shp gd 29 1 2).wf = false ∧ (Instr.mcast gd 1 0).wf = false ∧ (Instr.mcast gd 1 29).wf = false ∧
    (Instr.sendL gd 1 2 0 0).wf = false ∧ (Instr.sendL gd 1 2 0 264).wf = false ∧ (Instr.sendL gd 1 2 0 12).wf = false ∧
    (Instr.sendL gd 1 2 0 256).wf = true ∧ (Instr.rupd gd 1 28 0).wf = false ∧ (Instr.rupd gd 1 0 0).wf = false ∧
    (Instr.hq gd 1 2 7).wf = false ∧ (Instr.hq gd 1 2 6).wf = true ∧ (Instr.cpyq gd 1 29 true).wf = false ∧
    (Instr.cpyq gd 1 0 true).wf = false ∧ (Instr.cpst gd 1 2 3).wf = false := by decide

theorem test_wf_matrix : (Instr.mmac gd 0 0 2 false false false 0 0).wf = false ∧ (Instr.mmac gd 0 31 2 false false false 0 0).wf = false ∧
    (Instr.mmac gd 0 1 30 false false false 0 5).wf = true ∧ (Instr.mmac gd 0 16 2 false false true 0 0).wf = false ∧
    (Instr.mmac gd 0 15 2 false false true 0 1).wf = false ∧ (Instr.mmac gd 0 15 2 false false true 0 0).wf = true ∧
    (Instr.mmac gd 0 1 2 false false false 6 0).wf = false := by decide

theorem test_wf_tables : (Instr.tcall gd 1 2 7).wf = false ∧ (Instr.tcall gd 1 2 6).wf = true ∧ (Instr.tnext gd 4 4 true).wf = false ∧
    (Instr.tnext gd 3 4 true).wf = false ∧ (Instr.tnext gd 0 4 true).wf = false ∧ (Instr.tnext gd 31 4 true).wf = false ∧
    (Instr.tnext gd 5 4 true).wf = true ∧ (Instr.ptask gd 1 0 2 3 4).wf = false ∧ (Instr.ptask gd 1 2 2 9 4).wf = false ∧
    (Instr.ptask gd 1 2 2 8 31).wf = false ∧ (Instr.ptask gd 1 2 2 8 30).wf = true := by decide

theorem test_wf_types : (Instr.ext gd 1 2 63 1).wf = false ∧ (Instr.ext gd 1 2 63 0).wf = true ∧ (Instr.vand gd 1 2 3 .f32).wf = false ∧
    (Instr.vsll gd 1 2 3 .bf16).wf = false ∧ (Instr.vfma gd 1 2 3 .i32).wf = false ∧ (Instr.vexp2 gd 1 2 .i8).wf = false ∧
    (Instr.vcmp gd 1 2 3 .f32 .ltu).wf = false ∧ (Instr.vcmp gd 1 2 3 .i32 .un).wf = false ∧ (Instr.vcmp gd 1 2 3 .i32 .leu).wf = true ∧
    (Instr.vwid gd 1 2 0 .i64).wf = false ∧ (Instr.vwid gd 1 2 1 .f16).wf = false ∧ (Instr.vwid gd 1 2 2 .i8).wf = false ∧
    (Instr.vnar gd 1 2 0 .i8).wf = false ∧ (Instr.vnar gd 1 2 1 .bf16).wf = false ∧ (Instr.t8enc gd 1 2 0 false .f64 0).wf = false ∧
    (Instr.t8dec gd 1 2 2 .f16 0).wf = false ∧ (Instr.vcvt gd 1 2 0 .f32 .f32 false).wf = false ∧
    (Instr.vcvt gd 1 2 2 .f32 .bf16 false).wf = false ∧ (Instr.vcvt gd 1 2 0 .bf16 .f32 true).wf = false ∧
    (Instr.vcvt gd 1 2 1 .f32 .bf16 true).wf = true := by decide

/-! ## Scalar registers and integers (R79 to R87) -/

/-- The value that a half leaves in a general register of the executing slot. -/
def gives (i : Instr) (s : State) (d : GReg) (v : W64) : Bool := after (exec i s) fun t => t.me.ctx.getG d == v

theorem test_integer :
    let s := one [(1, 0xFFFFFFFFFFFFFFFF), (2, 5), (3, 0x8000000000000000), (4, 0x41)]
    gives (.add gd 5 1 2) s 5 4 ∧ gives (.sub gd 5 2 1) s 5 6 ∧ gives (.sra gd 5 3 4) s 5 0xC000000000000000 ∧
    gives (.srl gd 5 3 4) s 5 0x4000000000000000 ∧ gives (.sll gd 5 2 4) s 5 10 ∧ gives (.mul gd 5 1 2) s 5 0xFFFFFFFFFFFFFFFB ∧
    gives (.mulh gd 5 1 2) s 5 0xFFFFFFFFFFFFFFFF ∧ gives (.mulhu gd 5 1 2) s 5 4 ∧ gives (.min gd 5 1 2) s 5 0xFFFFFFFFFFFFFFFF ∧
    gives (.minu gd 5 1 2) s 5 5 ∧ gives (.max gd 5 1 2) s 5 5 ∧ gives (.maxu gd 5 1 2) s 5 0xFFFFFFFFFFFFFFFF ∧
    gives (.clz gd 5 2) s 5 61 ∧ gives (.ctz gd 5 3) s 5 63 ∧ gives (.clz gd 5 0) s 5 64 ∧ gives (.popc gd 5 4) s 5 2 ∧
    gives (.brev gd 5 2) s 5 0xA000000000000000 ∧ gives (.add gd 0 1 2) s 0 0 ∧ gives (.xor gd 1 1 1) s 1 0 := by decide +kernel

theorem test_division :
    let s := one [(1, 0xFFFFFFFFFFFFFFF9), (2, 2), (3, 0x8000000000000000), (4, 0xFFFFFFFFFFFFFFFF)]
    gives (.div gd 5 1 2) s 5 0xFFFFFFFFFFFFFFFD ∧ gives (.rem gd 5 1 2) s 5 0xFFFFFFFFFFFFFFFF ∧ gives (.div gd 5 1 0) s 5 0 ∧
    gives (.rem gd 5 1 0) s 5 0xFFFFFFFFFFFFFFF9 ∧ gives (.div gd 5 3 4) s 5 0x8000000000000000 ∧ gives (.rem gd 5 3 4) s 5 0 ∧
    gives (.divu gd 5 4 2) s 5 0x7FFFFFFFFFFFFFFF ∧ gives (.remu gd 5 4 2) s 5 1 := by decide +kernel

theorem test_immediates :
    let s := one [(1, 0x1122334455667788), (2, 0x10)]
    gives (.addi gd 5 2 0xFFF) s 5 0x0F ∧ gives (.andi gd 5 1 0x8F0) s 5 0x1122334455667080 ∧ gives (.slli gd 5 2 60) s 5 0 ∧
    gives (.srai gd 5 1 8) s 5 0x0011223344556677 ∧ gives (.ext gd 5 1 8 15) s 5 0x6677 ∧ gives (.li gd 5 0x1FFFF) s 5 0xFFFFFFFFFFFFFFFF ∧
    gives (.lui1 gd 1 0xABCD) s 1 0x11223344ABCD7788 ∧ gives (.lui3 gd 1 0xABCD) s 1 0xABCD334455667788 := by decide +kernel

theorem test_predicates :
    let s := run 0 { regs [(1, 0xFFFFFFFFFFFFFFFF), (2, 1)] with b := 0x14 }
    after (exec (.cmp gd 3 1 2 .lt) s) (fun t => t.me.ctx.b == 0x1C) ∧ after (exec (.cmp gd 2 1 2 .ltu) s) (fun t => t.me.ctx.b == 0x10) ∧
    gives (.bpack gd 5) s 5 0x15 ∧ after (exec (.bunpk gd 1) s) (fun t => packB t.me.ctx == 0xFF) ∧ gives (.sel gd 5 1 2 4) s 5 0xFFFFFFFFFFFFFFFF ∧
    gives (.sel gd 5 1 2 3) s 5 1 ∧ after (exec (.bnot gd 0 0) s) (fun t => t.me.ctx.b == 0x14) := by decide +kernel

/-! ## Floating point (R88 to R97) -/

/-- 1 + 2^-24 is a tie, which goes to the even neighbour; 1/3 and the root of 2 are rounded to nearest. -/
theorem test_float :
    let s := one [(1, 0x3F800000), (2, 0x33800000), (3, 0x40400000), (4, 0x40000000), (6, 0x80000000), (7, 0x7F800000)]
    let raises (i : Instr) (f : W64) : Bool := after (exec i s) fun t => t.me.ctx.cr.fpflags == f
    gives (.fadd gd 5 1 2 .s) s 5 0x3F800000 ∧ raises (.fadd gd 5 1 2 .s) 16 ∧ gives (.fdiv gd 5 1 3 .s) s 5 0x3EAAAAAB ∧
    gives (.fsqrt gd 5 4 .s) s 5 0x3FB504F3 ∧ gives (.fmin gd 5 0 6 .s) s 5 0x80000000 ∧ gives (.fmax gd 5 0 6 .s) s 5 0 ∧
    gives (.fsub gd 5 7 7 .s) s 5 0x7FC00000 ∧ raises (.fsub gd 5 7 7 .s) 1 ∧ gives (.fdiv gd 5 1 6 .s) s 5 0xFF800000 ∧
    raises (.fdiv gd 5 1 6 .s) 2 ∧ gives (.fcvt gd 5 1 .d) s 5 0x3FF0000000000000 ∧ gives (.fcvti gd 5 7 false false .s) s 5 0x7FFFFFFFFFFFFFFF ∧
    gives (.icvtf gd 5 4 false .d) s 5 0x41D0000000000000 ∧ gives (.fclass gd 5 6 .s) s 5 0x40 ∧ gives (.fma gd 1 4 3 .s) s 1 0x40E00000 := by
  decide +kernel

/-! ## Vectors (R166 to R180) -/

/-- A vector register after a half. -/
def fills (i : Instr) (s : State) (d : VReg) (p : BitVec 1024 → Bool) : Bool := after (exec i s) fun t => p (t.me.ctx.getV d)

theorem test_vector :
    let s := run 0 (vregs [(1, 0x1FF)] [(1, 0x00FF_00FF_FFFF_0001), (2, 0x0001_0002_0001_7FFF)])
    fills (.vadd gd 3 1 2 .i16) s 3 (· == 0x0100_0101_0000_8000) ∧ fills (.vadd gd 3 1 2 .i8) s 3 (· == 0x0000_0001_FF00_7F00) ∧
    fills (.vmin gd 3 1 2 .i16) s 3 (· == 0x0001_0002_FFFF_0001) ∧ fills (.vneg gd 3 2 .i16) s 3 (· == 0xFFFF_FFFE_FFFF_8001) ∧
    gives (.vext gd 5 1 1 .i16) s 5 0xFFFFFFFFFFFFFFFF ∧ gives (.vext gd 5 1 1 .f16) s 5 0xFFFF ∧
    fills (.vins gd 2 1 0 .i8) s 2 (· == 0x0001_0002_0001_7FFF) ∧ fills (.vslide gd 3 2 2 .i16) s 3 (fun x => lane x 16 0 == 2 && lane x 16 1 == 1) ∧
    fills (.vredAdd gd 3 2 .i16) s 3 (· == 0x8003) ∧ fills (.vredMax gd 3 1 .i16) s 3 (· == 0xFF) ∧
    fills (.vscanAdd gd 3 2 .i16) s 3 (fun x => lane x 16 1 == 0x8000 && lane x 16 31 == 0x8003) ∧
    trapsWith (exec (.vext gd 5 1 16 .i32) s) ⟨0x01, 0⟩ := by decide +kernel

theorem test_vector_masks :
    let s := run 0 { vregs [] [(1, 0x05_03), (2, 0x04_04)] with m := #v[0, 1, 0xF0, 0] }
    after (exec (.vcmp gd 3 2 1 .i8 .lt) s) (fun t => t.me.ctx.getM 3 == 2) ∧ fills (.vsel gd 3 1 2 1) s 3 (· == 0x04_03) ∧
    gives (.mpop gd 5 2) s 5 4 ∧ after (exec (.mnot gd 3 0) s) (fun t => t.me.ctx.getM 3 == 0xFFFFFFFFFFFFFFFF) ∧
    after (exec (.vcmp gd 3 1 2 .i64 .eq) s) (fun t => t.me.ctx.getM 3 == 0xFFFFFFFFFFFFFF00) := by decide +kernel

/-- 1.0, -2.0, 0.25 and +inf: powers of two, their logarithms and reciprocals are exact. -/
theorem test_vector_functions :
    let s := run 0 (vregs [] [(1, 0x7F800000_3E800000_C0000000_3F800000)])
    fills (.vexp2 gd 3 1 .f32) s 3 (fun x => lane x 32 0 == 0x40000000 && lane x 32 1 == 0x3E800000 && lane x 32 3 == 0x7F800000) ∧
    fills (.vlog2 gd 3 1 .f32) s 3 (fun x => lane x 32 0 == 0 && lane x 32 1 == 0x7FC00000 && lane x 32 2 == 0xC0000000) ∧
    fills (.vrcp gd 3 1 .f32) s 3 (fun x => lane x 32 1 == 0xBF000000 && lane x 32 2 == 0x40800000 && lane x 32 3 == 0) ∧
    fills (.vsqrt gd 3 1 .f32) s 3 (fun x => lane x 32 2 == 0x3F000000) ∧ fills (.vcos gd 3 1 .f32) s 3 (fun x => lane x 32 4 == 0x3F800000) := by
  decide +kernel

theorem test_conversions :
    let s := run 0 (vregs [] [(1, 0x3F80FFFF_3F808000)])
    fills (.vcvt gd 3 1 0 .f32 .bf16 false) s 3 (· == 0x3F81_3F80) ∧ fills (.vwid gd 3 1 0 .i16) s 3 (· == 0x00003F80_FFFFFFFF_00003F80_FFFF8000) ∧
    fills (.vnar gd 3 1 0 .i32) s 3 (· == 0x7FFF_7FFF) := by decide +kernel

/-! ## Control flow, traps and control registers (R65, R105 to R118) -/

/-- Where a half sends the thread. -/
def goesTo (i : Instr) (s : State) (v : W64) : Bool := after (exec i s) fun t => t.me.npc == v

theorem test_branches :
    let s := one [(1, 1), (2, 3), (3, 0x2004), (30, 0x3000)]
    goesTo (.br gd 0x1FFFFF) s 0xFF8 ∧ goesTo (.j gd 1 1) s 0x1001008 ∧ goesTo (.jl gd 2) s 0x1010 ∧ gives (.jl gd 2) s 30 0x1008 ∧
    goesTo (.lpd gd 1 2) s 0x1008 ∧ goesTo (.lpd gd 2 2) s 0x1010 ∧ gives (.lpd gd 2 2) s 2 2 ∧ goesTo (.ret gd) s 0x3000 ∧
    gives (.jlr gd 30) s 30 0x1008 ∧ goesTo (.jlr gd 30) s 0x3000 ∧ trapsWith (exec (.jr gd 3) s) ⟨0x03, 0x2004⟩ := by decide +kernel

/-- The link pair goes below sp, and comes back. -/
theorem test_frames :
    let s := one [(28, 0x111), (29, 0x1000), (30, 0x222)]
    after (exec (.enter gd 1) s) (fun t => t.readW (paTcm 0 0xFF0) == 0x111 && t.readW (paTcm 0 0xFF8) == 0x222 && t.me.ctx.getG 28 == 0xFF0 &&
      t.me.ctx.getG 29 == 0xFE0) ∧
    trapsWith (exec (.enter gd 0) (one [(29, 0x80)])) ⟨0x07, 0x70⟩ ∧ trapsWith (exec (.enter gd 0) (one [(29, 0x88)])) ⟨0x03, 0x88⟩ ∧
    after (exec (.leave gd) ((one [(28, 0xFF0)]).writeW (paTcm 0 0xFF0) 0x333)) (fun t => t.me.ctx.getG 28 == 0x333 && t.me.ctx.getG 29 == 0x1000) := by
  decide +kernel

/-- A context whose handler stands at 0x4000. -/
def handled (l : List (Nat × W64)) : Ctx := { regs l with cr := { CRs.zero with tvec := 0x4000, pstate := 4 } }

theorem test_trap_entry : after (exec (.trap gd 0x155) (run 0 (handled []))) (fun t =>
    let c := t.me.ctx
    t.me.st == .run && t.me.npc == 0x4000 && c.cr.epc == 0x1000 && c.cr.tval == 0x155 && c.cr.cause == 0x412 && c.cr.pstate == 3 &&
      (t.slot (partner 0)).st == .held) := by decide +kernel

theorem test_eret :
    let c : Ctx := { regs [] with cr := { CRs.zero with pstate := 3, cause := 0x312, epc := 0x88 } }
    after (exec (.eret gd) (run 0 c)) (fun t => t.me.npc == 0x88 && t.me.ctx.cr.pstate == 0x11) ∧
    trapsWith (exec (.eret gd) (one [])) ⟨0x02, 0⟩ ∧ trapsWith (exec (.brk gd) (one [])) ⟨0x11, 0⟩ := by decide +kernel

theorem test_control_registers :
    let s := one [(1, 2), (2, 0xFFFFFFFFFFFFFFFF)]
    let p := run 0 { regs [(1, 0x4000)] with cr := { CRs.zero with pstate := 1 } }
    after (exec (.cwr gd 1 0x000) s) (fun t => t.me.ctx.cr.rmode == 2) ∧ gives (.crd gd 5 0x101) s 5 0x40 ∧
    gives (.crset gd 5 1 0x00C) s 5 0 ∧ after (exec (.cwr gd 1 0x200) p) (fun t => t.me.ctx.cr.tvec == 0x4000) ∧
    trapsWith (exec (.crd gd 5 0x200) s) ⟨0x02, 0⟩ ∧ trapsWith (exec (.crd gd 5 0x015) s) ⟨0x01, 0⟩ ∧
    after (exec (.cwr gd 2 0x100) s) (fun t => t == s) ∧ trapsWith (exec (.cwr gd 2 0x000) s) ⟨0x01, 0⟩ := by decide +kernel

/-! ## Threads (R69 to R77) -/

theorem test_work_field :
    let s := run 0 { regs [] with cr := { CRs.zero with wid := 0x1234, wshape := 0x0000000000000408 } }
    gives (.wfld gd 5 0) s 5 0x34 ∧ gives (.wfld gd 5 1) s 5 0x12 ∧ gives (.wfld gd 5 2) s 5 0 := by decide +kernel

theorem test_gang :
    let s := one []
    after (exec (.gang gd 5) s) (fun t => t.me.ctx.gang && (t.slot (partner 0)).st == .ganghi && t.me.ctx.getG 5 == 0) ∧
    gives (.gang gd 5) (s.setSlot (partner 0) (parked .run Ctx.zero)) 5 1 ∧ gives (.gang gd 5) (run (2 ^ 20) Ctx.zero) 5 2 ∧
    after (exec (.split gd) (run 0 (handled []))) (fun t => !t.me.ctx.gang && (t.slot (partner 0)).st.isFree) := by decide +kernel

theorem test_spawn :
    let s := one [(1, 1), (6, 0x100001), (7, 0x2000), (8, 11), (9, 12), (11, 14)]
    after (exec (.spawn gd 5 6 7 0) s) (fun t =>
      let x := t.slot 0x100001
      x.st == .resv && x.ctx.pc == 0x2000 && x.ctx.getG 1 == 11 && x.ctx.getG 2 == 12 && x.ctx.getG 4 == 14 && t.me.ctx.getG 5 == 0x100001) ∧
    gives (.spawn gd 5 0 7 0) s 5 0xFFFFFFFFFFFFFFFF ∧ trapsWith (exec (.spawn gd 5 7 1 0) s) ⟨0x03, 1⟩ := by decide +kernel

theorem test_quit_wait :
    let s := one [(1, 7)]
    after (exec (.quit gd) s) (fun t => t.slots == []) ∧ after (exec (.wait gd 1) s) (fun t => t.me.wait == some (.wait 7)) ∧
    after (exec (.wait gd 0) s) (fun t => t == s) ∧ gives (.cmap gd 5 1) s 5 7 ∧ gives (.kill gd 5 1 0) s 5 0 := by decide +kernel

/-- Of three threads, the one whose `wid` is 7 is killed. -/
theorem test_kill :
    let t (w : W64) : Ctx := { Ctx.zero with cr := { CRs.zero with wid := w } }
    let s := ((one [(1, 7)]).setSlot 1 (parked .run (t 7))).setSlot 2 (parked .run (t 8))
    after (exec (.kill gd 5 1 0) s) (fun u => (u.slot 1).st.isFree && (u.slot 2).st == .run && u.me.ctx.getG 5 == 1) := by decide +kernel

/-! ## Memory (R141 to R165) -/

theorem test_loads :
    let s := (one [(1, 0x100)]).writeW (paTcm 0 0x100) 0x8877665544332281
    gives (.ldb gd 5 1 .plain 0) s 5 0xFFFFFFFFFFFFFF81 ∧ gives (.ldbz gd 5 1 .plain 0) s 5 0x81 ∧ gives (.ldh gd 5 1 .plain 3) s 5 0xFFFFFFFFFFFF8877 ∧
    gives (.ldwz gd 5 1 .acq 1) s 5 0x88776655 ∧ gives (.ldd gd 5 1 .relaxed 0) s 5 0x8877665544332281 ∧ gives (.ldd gd 5 1 .plain 0x1FF) s 5 0 ∧
    fills (.ldv gd 2 1 .plain 0) s 2 (· == 0x8877665544332281) ∧ trapsWith (exec (.ldw gd 5 1 .plain 0) (one [(1, 0x102)])) ⟨0x03, 0x102⟩ ∧
    trapsWith (exec (.ldd gd 5 1 .plain 0) (one [(1, 0x20000)])) ⟨0x04, 0x20000⟩ ∧
    trapsWith (exec (.ldd gd 5 1 .plain 0) (s.setBad (paTcm 0 0x100) true)) ⟨0x09, 0x100⟩ := by decide +kernel

theorem test_stores :
    let s := (one [(1, 0x100), (2, 0xAABBCCDD)]).writeW (paTcm 0 0x100) 0x1111111111111111
    let stores (i : Instr) (v : W64) : Bool := after (exec i s) fun t => t.readW (paTcm 0 0x100) == v
    stores (.stb gd 2 1 .plain 1) 0x111111111111DD11 ∧ stores (.sth gd 2 1 .rel 0) 0x111111111111CCDD ∧
    stores (.stw gd 2 1 .relaxed 1) 0xAABBCCDD11111111 ∧ stores (.std gd 2 1 .plain 0) 0xAABBCCDD ∧ stores (.stv gd 2 1 .plain 0) 0 ∧
    stores (.std gd 2 1 .plain 1) 0x1111111111111111 ∧
    after (exec (.std gd 2 1 .plain 0) (one [(2, 5)])) (fun t => t.mem == [(paTcm 0 0, 5)]) := by decide +kernel

theorem test_sram_atomics :
    let s := ((one [(1, 0x100), (2, 5), (3, 0x33800000)]).writeW (paTcm 0 0x100) 0xFFFFFFFFFFFFFFFE).writeN (paTcm 0 0x108) 4 0x3F800000
    let u := { s with src := some (regs [(1, 0x108), (3, 0x3F800000)]) }
    gives (.tam gd 5 1 2 .maxu) s 5 0xFFFFFFFFFFFFFFFE ∧ after (exec (.tam gd 5 1 2 .add) s) (fun t => t.readW (paTcm 0 0x100) == 3) ∧
    after (exec (.tam gd 5 1 2 .max) s) (fun t => t.readW (paTcm 0 0x100) == 5) ∧ gives (.tfadd gd 5 1 3) u 5 0x3F800000 ∧
    after (exec (.tfadd gd 5 1 3) u) (fun t => t.readN (paTcm 0 0x108) 4 == 0x40000000) := by decide +kernel

/-- A cursor over rows of two FP32 elements, 0x20 bytes apart, at the end of its first row. -/
theorem test_cursor :
    let s := (one [(20, 0x104), (21, 1), (22, 0x0000000300000002), (23, 0x0002000000000020)]).writeN (paTcm 0 0x104) 4 0x80000000
    gives (.lds gd 5 20) s 5 0xFFFFFFFF80000000 ∧ gives (.lds gd 5 20) s 20 0x120 ∧ gives (.lds gd 5 20) s 21 0x0000000100000000 ∧
    after (exec (.sts gd 5 20) s) (fun t => t.readN (paTcm 0 0x104) 4 == 0 && t.me.ctx.getG 20 == 0x120) := by decide +kernel

theorem test_lea :
    gives (.lea gd 5 1 8) (one [(1, 0x100)]) 5 0x1000000000000108 ∧ gives (.lea gd 5 1 0) (one [(1, 0x2000800000000010)]) 5 0x2000000000000010 ∧
    gives (.lea gd 5 1 0) (one [(1, 0x4000010000000000)]) 5 0x4000010000000000 := by decide +kernel

/-- A thread migrates to the core whose TCM it names, unless a register that does not travel holds it back. -/
theorem test_migration :
    let s := one [(1, 0x1000000100000000)]
    after (exec (.migr gd 1) s) (fun t => t.me.wait == some (.migrate 1 0x1000000100000000 true (bundleReads 0))) ∧
    after (exec (.ldd gd 5 1 .plain 0) s) (fun t => t.me.wait == some (.migrate 1 0x1000000100000000 false (bundleReads 0))) ∧
    after (exec (.migr gd 0) s) (fun t => t == s) ∧
    trapsWith (exec (.migr gd 1) (run 0 { regs [(1, 0x1000000100000000)] with cr := { CRs.zero with pstate := 16 } })) ⟨0x0D, 0⟩ = false := by
  decide +kernel

theorem test_remote_read :
    let s := (one [(1, 0x1000000100000000)]).writeW (paTcm 1 0) 0x1234
    fills (.rdr gd 2 1 0) s 2 (· == 0x1234) ∧ trapsWith (exec (.rdr gd 2 1 8) s) ⟨0x01, 0⟩ := by decide +kernel

/-! ## Mailboxes (R195 to R207) -/

theorem test_mailbox :
    let s := run 0 (vregs [(1, 1), (2, 0xFFFF), (3, 2)] [(2, 0x77)])
    let w : W64 := 0x8000000500000000
    let r := s.setBox 0 3 { Mbox.empty with ents := [(w, 0x55)], cnt := 4 }
    after (exec (.send gd 5 1 2 5) s) (fun t => (t.box 1 5).ents == [(w, 0x77)] && (t.box 1 5).cnt == 1 && t.me.ctx.getG 5 == 0) ∧
    gives (.recv gd 5 2 4) r 5 w ∧ fills (.recv gd 5 2 4) r 4 (· == 0x55) ∧ after (exec (.recv gd 5 2 4) s) (fun t => t.me.wait == some .mailbox) ∧
    gives (.waitc gd 5 3 3) r 5 2 ∧ after (exec (.waitc gd 5 3 3) s) (fun t => t.me.wait == some .counter) ∧ gives (.mbc gd 5 3) r 5 0x100000004 ∧
    after (exec (.mbclr gd 5 2) r) (fun t => (t.box 0 3).cnt == 0 && (t.box 0 3).ents.length == 1) := by decide +kernel

/-- `send.l` stores a run in the TCM of another core and counts once. -/
theorem test_send_long :
    let s := (one [(1, 0x1000000100000200), (2, 0x100)]).writeW (paTcm 0 0x100) 0x99
    after (exec (.sendL gd 1 2 7 8) s) (fun t => t.readW (paTcm 1 0x200) == 0x99 && (t.box 1 7).cnt == 1 && (t.box 1 7).ents == []) := by
  decide +kernel

/-- `mcast` to the columns 0 to 2 of row 0 reaches two cores besides its own. -/
theorem test_multicast :
    let s := (one [(1, 0x100), (2, 0x200), (3, 0x20000), (4, 0x30008)]).writeW (paTcm 0 0x100) 0x99
    after (exec (.mcast gd 5 1) s) (fun t => t.readW (paTcm 2 0x200) == 0x99 && t.readW (paTcm 0 0x200) == 0 && t.me.ctx.getG 5 == 2 &&
      (t.box 1 3).cnt == 1) := by decide +kernel

/-! ## Matrix units (R208 to R235) -/

/-- Slot 0 of core 0, owning its unit, in which tile 1 holds 1.0 at row 0, column 0. -/
def owning (l : List (Nat × W64)) (f : CRs → CRs) : State :=
  let s := run 0 { regs l with cr := f { CRs.zero with mkstep := 0x8000000000000000#64 } }
  s.setUnit 0 { MatUnit.idle with claimed := true, epoch := 1, tiles := [(1024, 0x3F800000)] }

theorem test_unit :
    let s := one []
    after (exec (.mclaim gd 5 false) s) (fun t => (t.unit 0).claimed && (t.unit 0).epoch == 1 && t.me.ctx.cr.mkstep == 0x8000000000000000) ∧
    trapsWith (exec (.mzero gd 1) s) ⟨0x10, 0⟩ ∧ after (exec (.mzero gd 1) (owning [] id)) (fun t => (t.unit 0).tiles == []) ∧
    after (exec (.mrel gd) (owning [] id)) (fun t => !(t.unit 0).claimed) ∧ gives (.mstat gd 5 false) (owning [] id) 5 0x100000010 := by decide +kernel

/-- A row of a drain in FP32; 2 · 3 + 1 · 1 in the first semiring, added to 1; integers wrap; a step below `mkstep` is done. -/
theorem test_matrix_elements :
    (((owning [] id).unit 0).drainRow 1 0 (State.reset.matRegs 0 Ctx.zero)).1.take 5 = [0, 0, 0x80, 0x3F, 0] ∧
    (stepElem 0 .rne 0x3F800000 [fmt32.value 0x40000000, fmt32.value 0x3F800000] [fmt32.value 0x40400000, fmt32.value 0x3F800000]).1 = 0x41000000 ∧
    stepInt 0xFFFFFFFF [3, -1] [2, 4] = 1 ∧
    after (exec (.mmac gd 0 1 3 false false false 0 0) (owning [(1, 0x8000000000), (3, 0x8000000000)] fun r => { r with mkstep := 0x8000000000000001#64 })) (fun t =>
      t.me.ctx.cr.mkstep == 0x8000000000000000 && (t.unit 0).tiles == [(1024, 0x3F800000)]) := by decide +kernel

/-! ## Stacked memory (R238 to R263) -/

/-- Slot 0 of core 0, in whose tenant's memory an object of two blocks stands under handle 1, on the first bank group of core
0, with every word full. -/
def stacked (l : List (Nat × W64)) : State := withObj 0x2F (one l)

theorem test_handles :
    let s := { stacked [(1, 0x1001), (2, objEa 0), (3, 0x0F)] with tenants := [(6, 100)] }
    gives (.halloc gd 5 0 3) s 5 3 ∧
    after (exec (.hfree gd 5 2) (s.writeW (objPa 8) 7)) (fun t => t.me.ctx.getG 5 == 0 && !(t.obj 0 1).used && t.mem == []) ∧
    gives (.hq gd 5 2 0) s 5 8192 ∧ gives (.hq gd 5 2 1) s 5 0x2F ∧ gives (.hq gd 5 2 4) s 5 98 ∧ gives (.hq gd 5 2 6) s 5 0 ∧
    trapsWith (exec (.ldd gd 5 2 .plain 0) (one [(2, objEa 0)])) ⟨0x04, objEa 0⟩ := by decide +kernel

theorem test_full_empty :
    let s := (stacked [(1, objEa 8), (2, 9)]).writeW (objPa 8) 7
    let e := s.setFull (objPa 8) false
    after (exec (.ldfe gd 5 1 .plain) s) (fun t => t.me.ctx.getG 5 == 7 && !t.isFull (objPa 8)) ∧
    after (exec (.ldff gd 5 1 .plain) s) (fun t => t.me.ctx.getG 5 == 7 && t.isFull (objPa 8)) ∧
    after (exec (.stef gd 1 2 .plain) s) (fun t => t.me.wait == some (.fullEmpty (objPa 8))) ∧
    after (exec (.stef gd 1 2 .plain) e) (fun t => t.readW (objPa 8) == 9 && t.isFull (objPa 8)) ∧
    after (exec (.stff gd 1 2 .plain) s) (fun t => t.readW (objPa 8) == 9) := by decide +kernel

theorem test_reservation :
    let s := (stacked [(1, objEa 8), (2, 9)]).writeW (objPa 8) 7
    let h := s.setHolder (objPa 8) (some ⟨0, 0, 0⟩)
    after (exec (.lrw gd 5 1 .plain) s) (fun t => t.me.ctx.getG 5 == 7 && t.holder (objPa 8) == some ⟨0, 0, 0⟩) ∧
    after (exec (.sch gd 1 2 .plain) h) (fun t => t.readW (objPa 8) == 9 && t.holder (objPa 8) == none) ∧
    after (exec (.sdrop gd 1 .plain) h) (fun t => t.readW (objPa 8) == 7 && t.holder (objPa 8) == none) ∧
    trapsWith (exec (.sch gd 1 2 .plain) s) ⟨0x06, objEa 8⟩ := by decide +kernel

theorem test_memory_atomics :
    let s := (stacked [(1, objEa 8), (2, 9), (5, 7), (6, 0x3F800000)]).writeW (objPa 8) 7
    after (exec (.amo gd 4 1 2 .plain .swap) s) (fun t => t.me.ctx.getG 4 == 7 && t.readW (objPa 8) == 9) ∧
    after (exec (.acas gd 5 1 2 .acq) s) (fun t => t.me.ctx.getG 5 == 7 && t.readW (objPa 8) == 9) ∧
    after (exec (.acas gd 4 1 2 .acq) s) (fun t => t.me.ctx.getG 4 == 7 && t.readW (objPa 8) == 7) ∧
    after (exec (.afadd gd 4 1 6 .relaxed) s) (fun t => t.readN (objPa 8) 4 == 0x3F800000) := by decide +kernel

/-- `rupd` starts a child in slot 0 of the bank core beside the word, with its address in g5. -/
theorem test_remote_update :
    after (exec (.rupd gd 1 2 0x10) (stacked [(1, objEa 8), (2, objEa 0x40), (3, 33)])) (fun t =>
      let x := t.slot (groupOf 0 0)
      x.st == .resv && x.ctx.pc == objEa 0x40 && x.ctx.getG 5 == objEa 0x18 && x.ctx.getG 1 == 33) := by decide +kernel

/-! ## Queues (R264 to R276) -/

/-- A LIFO with one entry at offset 64 of the object. -/
def queued (l : List (Nat × W64)) : State :=
  (stacked l).setQueue (objPa 64) { Queue.none with live := true, mode := 1, base := 1, entries := [(5, false)], pushes := 1 }

theorem test_queue :
    let s := queued [(1, objEa 65), (2, 0x0101), (3, objEa 128)]
    after (exec (.qpush gd 5 1 2 .qwin false) s) (fun t => ((t.queue (objPa 64)).entries.length == 2) && t.me.ctx.getG 5 == 0) ∧
    after (exec (.qpop gd 5 1 2 .qwin false) s) (fun t => (t.queue (objPa 64)).entries == [] && t.me.ctx.getV 2 == 5) ∧ gives (.qcnt gd 5 1) s 5 1 ∧
    after (exec (.qfree gd 5 1) s) (fun t => t.me.ctx.getG 5 == 1 && !(t.queue (objPa 64)).live) ∧
    trapsWith (exec (.qcnt gd 5 3) s) ⟨0x0F, objEa 128⟩ ∧
    after (exec (.qmake gd 5 3 2) { s with tenants := [(7, 8)] }) (fun t => t.me.ctx.getG 5 == objEa 129 && (t.queue (objPa 128)).live) := by
  decide +kernel

/-! ## Tasks (R281 to R288) -/

/-- A handle with a bit beyond its fields names nothing, and a handle names the record that it was made from. -/
theorem test_task_handle :
    let s := { one [(1, 0x80003)] with tasks := [(3, { Task.free with st := .wait, f := #v[0, 0, 0, 0, 0, 0, 0x20001, 0] })] }
    gives (.tdep gd 5 1) s 5 0x300000000 ∧ gives (.tcan gd 5 1) s 5 0x300000000 ∧ (s.task 3).deps = 2 ∧ (s.task 3).cls = 1 := by
  decide +kernel

/-- A record in which a field is not zero is malformed, and one outside the rectangle traps. -/
theorem test_task_entry :
    let f (v : BitVec 64) : BitVec 1024 := v.zeroExtend 1024 <<< 448
    gives (.tenq gd 5 2) (run 0 (vregs [] [(2, f 0x0000000100000000)])) 5 0x8000000000000002 ∧
    trapsWith (exec (.tenq gd 5 2) (run 0 { vregs [] [(2, f 0x001F0000)] with cr := { CRs.zero with lrect := 0 } })) ⟨0x06, 0x001F0000⟩ := by
  decide +kernel

/-! ## Ordering (R348 to R359) -/

theorem test_fence :
    let o : OutStore := ⟨[(paShared 0 0, [1])], 0x3000000000000000, 0x1000⟩
    let s := (one []).modSlot 0 fun x => { x with out := [o] }
    after (exec (.fence gd) s) (fun t => t.mem == [(paShared 0 0, 1)] && t.me.out == []) ∧
    after (exec (.isync gd) { one [] with icache := [(5 * 2 ^ 20, some 7), (5 * 2 ^ 20 + 1, some 7)] }) (fun t => t.icache == [(5 * 2 ^ 20 + 1, some 7)]) := by
  decide +kernel

/-- A phase of two arrivals: the last one advances it. -/
theorem test_phase :
    let s := (stacked [(1, objEa 16), (2, 2), (3, 1)])
    let p := (s.writeW (objPa 16) 0x0005000000000001).writeW (objPa 24) 2
    after (exec (.pinit gd 5 1 2) s) (fun t => t.readW (objPa 16) == 2 && t.readW (objPa 24) == 2 && t.me.ctx.getG 5 == 0) ∧
    after (exec (.parr gd 5 1 3) p) (fun t => t.readW (objPa 16) == 0x0006000000000002 && t.me.ctx.getG 5 == 0x10005) ∧
    gives (.pwait gd 5 1 3) p 5 0x0005000000000001 := by decide +kernel

/-! ## The Answer Table and copies -/

/-- A call of a subgoal that no entry holds enters the callee; one outside a production adds no answer. -/
theorem test_answer_table :
    let s := one [(6, 0x2000), (1, 5)]
    after (exec (.tcall gd 5 6 1) s) (fun t => t.me.npc == 0x2000 && t.me.ctx.getG 30 == 0x1008 && (t.entries.map fun e => e.2.st) == [.eval] &&
      t.me.ctx.cr.tabst == 1) ∧
    after (exec (.tans gd 5 6) s) (fun t => t.me.ctx.cr.tabst == 0) ∧ after (exec (.tnext gd 8 5 false) s) (fun t => t.me.ctx.cr.tabst == 12) ∧
    gives (.tstat gd 5 0 3) s 5 0xFFFFFFFFFFFFFFFF ∧ trapsWith (exec (.tcall gd 5 1 1) s) ⟨0x03, 5⟩ := by decide +kernel

/-- A copy whose length is no multiple of 8 traps; permits add up; a transfer that is unknown has its id and state 0. -/
theorem test_copy :
    let s := one [(8, 0x4000010000000000), (9, 0x1000000000000000), (10, 12), (12, 3)]
    trapsWith (exec (.cpyq gd 5 8 false) s) ⟨0x04, 0x4000010000000000⟩ ∧
    after (exec (.permit gd 5 12 2) { s with permits := [(2, 4)] }) (fun t => t.permit 0 2 == 7 && t.me.ctx.getG 5 == 7) ∧
    gives (.cpst gd 5 12 0) s 5 3 ∧ trapsWith (exec (.uiret gd) s) ⟨0x01, 0⟩ := by decide +kernel

/-! ## States for the statements on the mesh, the units and the control plane -/

/-- A mask with no mailbox, one whose mailboxes are empty, an entry in the IEEE reading, and targets of runs and of a multicast. -/
theorem witness_Mailboxes :
    let s := one [(1, 0), (2, 1), (3, 0x100), (4, 0x1000000100000200), (8, 0x100), (9, 0x200), (10, 0x20000), (11, 0x30008)]
    let r := s.setBox 0 0 { Mbox.empty with ents := [(0x8000000000000000, 5)], cnt := 4 }
    Issues gd s ∧ s.slow = false ∧ (s.g 1).toNat % 2 ^ 16 = 0 ∧ (s.g 2).toNat % 2 ^ 16 ≠ 0 ∧ (s.box 0 0).ents = [] ∧
    (r.box 0 0).ents = [(0x8000000000000000, 5)] ∧ (0x8000000000000000#64).getLsbD 36 = r.rd.cr.nanrd.getLsbD 0 ∧ (r.box 0 0).seen0 = false ∧
    (r.box 0 0).cnt.toNat = 4 ∧ s.rd.pure = false ∧ GoesOn s (fun _ => true) [] ∧ s.g 2 &&& ~~~0x00F03F7F#64 = 0 ∧ MaySend s 1 ∧ MayLand s 1 ∧
    NoWaiters s 1 ∧ (s.g 3).toNat % 8 = 0 ∧ (s.ownRun (s.g 3) 8).toOption = some [0, 0, 0, 0, 0, 0, 0, 0] ∧ (s.g 4).toNat / 2 ^ 60 = 1 ∧
    s.g 4 &&& 0x0FFFC080FFFE0000#64 = 0 ∧ s.runOk 1 0x200 8 = true ∧ s.gAt 8 2 &&& 0xFFFFFFFFC080C080#64 = 0 ∧ s.gAt 8 3 &&& ~~~0xF01FF#64 = 0 ∧
    (rectOf s.rd.cr.lrect).has 2 0 = true ∧ s.mustQueue (.send gd 5 2 1 0) = false ∧
    s.mustQueue (.sendL gd 4 3 0 8) = false ∧ s.mustQueue (.mcast gd 5 8) = false ∧ 8 ≤ (s.gAt 8 3).toNat % 512 ∧ (s.gAt 8 1).toNat + 8 ≤ 0x20000 := by
  unfold GoesOn MaySend MayLand NoWaiters
  and_intros <;> decide +kernel

/-- Units that are unclaimed, owned and owned by another slot; operations that an owner's idle unit takes; a remote command. -/
theorem witness_MatrixUnits :
    let s := one []
    let u := owning [(1, 0x1000), (2, 128), (3, 0x1000000100000000), (4, 128), (6, 0x100)] id
    let other := { u with cur := 1, src := some Ctx.zero }
    Issues gd s ∧ (s.unit 0).claimed = false ∧ (u.unit 0).claimed = true ∧ (u.unit 0).owner = u.cur ∧ (other.unit 0).owner ≠ other.cur ∧
    s.owns s.cur = false ∧ u.owns u.cur = true ∧ (u.unit 0).op = none ∧ u.slow = false ∧ UnitTakes u (u.ownCmd (.mzero gd 1) 0 u.rd 0) ∧
    UnitTakes u (u.ownCmd (.mload gd 1 1 2) 0 u.rd 0) ∧ UnitTakes u (u.ownCmd (.mdrain gd 1 1 2) 0 u.rd 0) ∧
    UnitTakes u (u.ownCmd (.mdrainr gd 5 3 4) 0 u.rd 0) ∧ (u.localAt 0 0 (u.g 1 + 31 * u.g 2) 128).toOption = some (paTcm 0 0x1F80) ∧ (u.box 1 0).ents.length < 4 ∧
    (u.ownRun (u.g 6) 64).toOption.isSome = true ∧ MaySend u 0 ∧ (u.unit 0).queue.length < 4 ∧ (u.unit 0).fault = false ∧
    (∀ n ∈ List.range 4, u.overtakes 3 0 n [1] = false) := by
  unfold UnitTakes MaySend
  and_intros <;> decide +kernel

/-- An `mmac` that a unit takes with its step done and with it to come, one that is not the owner's, and formats it refuses. -/
theorem witness_MatrixMultiply :
    let i : Instr := .mmac gd 0 1 3 false false false 0 0
    let u := owning [(1, 0x8000000000), (3, 0x8000000000)] id
    let d := owning [(1, 0x8000000000), (3, 0x8000000000)] fun r => { r with mkstep := 0x8000000000000001#64 }
    let bad := owning [] fun r => { r with fmta := 4 }
    Issues gd u ∧ u.owns u.cur = true ∧ (one []).owns 0 = false ∧ UnitTakes u (u.ownCmd i 0 u.rd 0) ∧ u.rd.cr.mkstep.toNat % 4096 < 1 ∧
    UnitTakes d (d.ownCmd i 0 d.rd 0) ∧ 1 ≤ d.rd.cr.mkstep.toNat % 4096 ∧ (bad.ownCmd i 0 bad.rd 0).formsOk = false ∧
    isFin (fmt32.value 0x3F800000) = true ∧ (fmt32.value 0x7FC00000).isNan = true := by unfold UnitTakes; decide +kernel

/-- A K-step in which every block is zero reads its operands. -/
theorem witness_MatrixMultiply_step :
    let u := owning [(1, 0x8000000000), (3, 0x8000000000)] id
    (u.kstep 0 0 (u.ownCmd (.mmac gd 0 1 3 false false false 0 0) 0 u.rd 0) 0 []).toOption.isSome = true := by decide +kernel


/-- Mailboxes with an entry of each reading and with four; a pure thread; senders that may not land. -/
theorem witness_Mailboxes_refusals :
    let s := one [(1, 1)]
    let r := s.setBox 0 0 { Mbox.empty with ents := [(0x1000000000, 5)], seen1 := true }
    let f := s.setBox 1 0 { Mbox.empty with ents := List.replicate 4 (0, 0) }
    let p := run 0 { regs [] with cr := { CRs.zero with pstate := 8 } }
    let t := { run 0 { regs [] with cr := { CRs.zero with tenant := 5 } } with towner := [(0, 5), (1, 9)] }
    (0x1000000000#64).getLsbD 36 ≠ r.rd.cr.nanrd.getLsbD 0 ∧ (r.box 0 0).seen1 = true ∧ (r.box 0 0).cnt.toNat = 0 ∧ 4 ≤ (f.box 1 0).ents.length ∧
    p.rd.pure = true ∧ MaySend t 1 ∧ ¬MayLand t 1 ∧ s.runOk 1 0x1FFF8 16 = false := by
  unfold MaySend MayLand; decide +kernel

/-- Operands of `mload` and `mdrainr` that trap, each at its check; a drain that has sent its rows and one that has a row to send. -/
theorem witness_MatrixUnits_traps :
    let u := owning [(1, 0x1004), (2, 128), (3, 0x1F080), (4, 0x1000000100000000), (5, 0x1000000100000004), (6, 64), (7, 0x80000)] id
    let o (n : Nat) : MatOp := ⟨u.ownCmd (.mdrainr gd 5 4 2) 0 u.rd 0, true, n, false⟩
    let d (n : Nat) : State := u.setUnit 0 { u.unit 0 with op := some (o n) }
    let w := (d 32).setSlot 0 { (d 32).slot 0 with st := .park .matrix (.mdrainr gd 5 4 2) [] 0 }
    u.owns u.cur = true ∧ (u.g 1).toNat % 8 ≠ 0 ∧ (u.localAt 0 0 (u.g 3) 128).toOption.isSome = true ∧ (u.localAt 0 0 (u.g 3 + 31 * 128) 128).toOption = none ∧
    (u.g 5).toNat % 8 ≠ 0 ∧ (u.g 1).toNat % 2 ^ 18 % 8 ≠ 0 ∧ (u.g 3).toNat / 2 ^ 60 ≠ 1 ∧ (u.g 6).toNat % 2 ^ 18 < 128 ∧ u.g 7 &&& 0xFFFFFC00000C0000#64 ≠ 0 ∧
    2 ^ 17 < 0x1F080 + 31 * 128 + 128 ∧ DrainInForm (u.g 4) (u.g 2) 128 ∧ u.coreEnabled 1 = true ∧ { u with coremask := [(0, 0)] }.coreEnabled 1 = false ∧
    ((d 0).unit 0).op = some (o 0) ∧ (o 0).cmd.kind = 3 ∧ (d 0).overtakes 3 0 (d 0).stamp [1] = false ∧ ((d 32).unit 0).op = some (o 32) ∧
    (o 0).own = true ∧ (w.slot 0).wait = some .matrix ∧ (w.slot 0).instr = some (.mdrainr gd 5 4 2) := by
  unfold DrainInForm; decide +kernel

/-- A capability that holds and one that does not, and queues that are full. -/
theorem witness_MatrixUnits_remote :
    let u := owning [(6, 0x100)] id
    let s := u.writeW (paTcm 0 0x100) (u.capability 0)
    let q := s.setUnit 0 { s.unit 0 with fault := true }
    let f (t : State) : W64 := BitVec.ofNat 64 (leNat (((t.ownRun 0x100 64).toOption.getD []).take 8))
    f s = s.capability 0 ∧ f u ≠ u.capability 0 ∧ (q.unit 0).fault = true ∧ s.mustQueue (.mcmd gd 5 0 6) = false ∧ (s.ownRun 0x100 64).toOption.isSome = true := by
  decide +kernel
/-! ## Steps of the device -/

/-- The state after a step of the device. -/
def ev (i : Instr) (s : State) (p : State → Bool) : Bool := after (exec i s) p

/-- A thread whose operation is over rejoins; a loaded context runs; a thread whose `quit` waits is gone. -/
theorem test_slot_events :
    let s (st : SlotSt) : State := State.reset.setSlot 5 (parked st (regs []))
    ev (.operationComplete 5) (s (.park (.reply none) (.cnop gd) [] 0)) (fun t => (t.slot 5).st == .run && (t.slot 5).ctx.pc == 0x1008) ∧
    ev (.contextLoaded 5) (s .resv) (fun t => (t.slot 5).st == .run && (t.slot 5).ctx.pc == 0x1000) ∧
    ev (.quitComplete 5) (s (.park .quit (.quit gd) [] 0)) (fun t => t.slots == []) ∧
    ev (.waitDeadline 5) (s (.park (.wait 3) (.wait gd 1) [] 0)) (fun t => (t.slot 5).wait == some (.wait 3)) ∧
    ev (.waitDeadline 5) { s (.park (.wait 3) (.wait gd 1) [] 0) with cycle := 3 } (fun t => (t.slot 5).st == .run) ∧
    ev (.fetchMissFill 5) (s (.park .fetch (.cnop gd) [] 0)) (fun t => (t.slot 5).st == .run && t.icache != []) := by decide +kernel

/-- A migrant leaves with the registers that `lmask` names and those that its bundle reads. -/
theorem test_migration_packet :
    let c : Ctx := { regs [(3, 33), (4, 44), (5, 55)] with cr := { CRs.zero with lmask := 0x10 } }
    ev (.migrationPacketSend 5) (State.reset.setSlot 5 (parked (.park (.migrate 1 0 false [3]) (.migr gd 3) [] 0) c)) (fun t =>
      t.slots == [] && t.pkts.map (fun p => (p.core, p.ctx.getG 3, p.ctx.getG 4, p.ctx.getG 5, p.landed)) == [(1, 33, 44, 0, false)]) := by
  decide +kernel

/-- A thread that has landed takes the lowest free slot of its core. -/
theorem test_landing :
    let p : Pkt := { id := 4, kind := .task, sender := none, tid := 7, ctx := regs [], cls := 2, core := 1, slot := none, gang := false, landed := true, since := 0, evict := [], pend := none, pure := [] }
    ev (.landingAdmit 1) { State.reset with pkts := [p] } (fun t => (t.slot 1).st == .resv && (t.slot 1).tid == 7 && (t.slot 1).cls == 2 && t.pkts == []) ∧
    ev (.spawnPacketArrival 4) { State.reset with pkts := [{ p with landed := false }], cycle := 9 } (fun t => t.pkts == [{ p with since := 9 }]) := by
  decide +kernel

/-- A parked `stef` is served by its bank port; an outstanding store is accepted; a wake-up lands. -/
theorem test_arbiters :
    let s := (withObj 0x3F State.reset).setSlot 5 { parked (.park .flight (.stef gd 1 2 .plain) [] 0) (regs [(1, objEa 8), (2, 9)]) with
      out := [⟨[(paTcm 0 0, [1])], 0, 0⟩] }
    let w : Wake := ⟨4, 1, 2, 0x55, 0x66, 0, false, 0⟩
    ev (.accessAccepted 5 1) s (fun t => t.mem == [(paTcm 0 0, 1)] && (t.slot 5).out == []) ∧
    ev (.fullEmptyRequest 5) (s.modSlot 5 fun x => { x with out := [] }) (fun t => t.readW (objPa 8) == 9 && (t.slot 5).wait == some (.reply none)) ∧
    ev (.wakeUpLanding 4) { State.reset with wakes := [w] } (fun t => (t.box 1 2).ents == [(0x55, 0x66)] && t.wakes == []) := by decide +kernel

/-- Two adds to one word meet in the third stage. -/
theorem test_welt :
    let q (id slot : Nat) (v : BitVec 512) (held : Bool) : WeltReq :=
      ⟨id, [(slot, 0)], objPa 8, .amo gd 5 1 2 .plain .add, 0, 4, v, 0, 3, 3, held, 20⟩
    ev (.weltSwitchArrival 2) { State.reset with welt := [q 1 10 5 true, q 2 11 6 false] } (fun t =>
      t.welt.map (fun r => (r.slots, r.data, r.stage)) == [([(10, 0), (11, 5)], 11, 4)]) ∧
    ev (.weltSwitchArrival 2) { State.reset with welt := [q 2 11 6 false], cycle := 9 } (fun t => t.welt.map (fun r => (r.held, r.expires)) == [(true, 13)]) ∧
    ev (.pairingWindowExpiry 1) { State.reset with welt := [q 1 10 5 true], cycle := 20 } (fun t => t.welt.map (fun r => (r.held, r.stage)) == [(false, 4)]) := by
  decide +kernel

/-- Two readers of one sum get the old value and the old value with the operand before theirs. -/
theorem test_combined_reply :
    let x (n : Nat) : Slot := parked (.park (.welt n) (.amo gd 5 1 2 .plain .add) [] 0) (regs [])
    let s := { (State.reset.setSlot 10 (x 1)).setSlot 11 (x 2) with replies := [⟨3, [(11, 7)], 100, none⟩] }
    ev (.combinedReplySplit 3) s (fun t => ((t.slot 11).after.getD (t.slot 11).ctx).getG 5 == 107 && t.replies == [] && (t.slot 11).wait == some (.reply none)) := by
  decide +kernel

/-- A transfer starts; permits are asked for; a walk fills the cache of a die with its page. -/
theorem test_engine_events :
    let r : CopyReq := ⟨3, 1, 0, packageRect, false, objEa 0, 0x1000000000000000, 64, 2, false, false, false, 0, 0, [0], false, 0, [], 0, [], none, none, 0,
      none, none, none⟩
    let s := (withObj 0x2F State.reset).setEng 0 { CopyEng.idle with reqs := [r] }
    ev (.copyTransferStart 0) s (fun t => (t.eng 0).reqs.map CopyReq.running == [true]) ∧
    ev (.permitRequest 0 3) (s.setEng 0 { CopyEng.idle with reqs := [{ r with running := true }] }) (fun t => (t.permitQueue 0).map PermitReq.n == [1]) ∧
    ev (.copyTransferStart 0) State.reset (fun t => t == State.reset) ∧
    ev (.matrixOpStart 0) State.reset (fun t => t == State.reset) := by decide +kernel

/-! ## The board, the host and the management plane -/

/-- A layer that sleeps is woken; a layer in FAULT returns with its words poisoned, and stays so for its blocks. -/
theorem test_layers :
    let s := { withObj 0x2F State.reset with layers := [(3, 1), (9, 3)] }
    ev (.layerWake 0 3) s (fun t => t.layers == [(9, 3)]) ∧ ev (.layerReturnActive 1 1) s (fun t => t.layers == [(3, 1)] && t.bad == []) ∧
    ev (.plannedPowerDown 0 5) s (fun t => t.layer 0 5 == 2) ∧
    ev (.plannedPowerDown 0 0) s (fun t => t == s) := by decide +kernel

/-- The fifth failed row of a TCM bank makes a hole of it, and the fifth failed bank of a scratchpad halves it. -/
theorem test_retirement :
    let s := { State.reset with spareRows := [(67, 4)], spadFails := [(33, 4)] }
    ev (.tcmBankRetirement 4 3) s (fun t => !t.tcmOk 4 0x6000 && t.tcmOk 4 0x5FFF && t.tcmOk 4 0x8000) ∧
    ev (.tcmBankRetirement 4 3) State.reset (fun t => t.tcmOk 4 0x6000 && t.spareRows == [(67, 1)]) ∧
    ev (.scratchpadBankRetirement 33) s (fun t => t.spadSize 1 1 == 0x100000 && t.spadSize 0 1 == 0x200000) ∧
    ev (.scratchpadBankRetirement 33) State.reset (fun t => t.spadSize 1 1 == 0x200000 && t.spadFails == [(33, 1)]) := by decide +kernel

/-- A block moves to another group of its stack. -/
theorem test_relocation :
    let s := withObj 0x2F State.reset
    let d := groupOf 1 3
    ev (.blockRelocation 0 1 1 d) s (fun t => (t.blk 0 1 1).dest == some d) ∧
    ev (.relocationCutover 0 1 1) { s with blks := [(blkKey 0 1 1, ⟨none, false, some d⟩)] } (fun t => t.blockHome 0 1 1 == d && (t.blk 0 1 1).dest == none) ∧
    ev (.blockRelocation 0 1 2 d) s (fun t => t == s) := by decide +kernel

/-- The host writes a dword of a record, a whole dword too little, and clears the count of drops. -/
theorem test_host_writes :
    let s := { State.reset with mgmt := { Mgmt.reset with ready := true }, tenants := [(5 * 32, 1)] }
    ev (.launchWindowWrite 5 0x88 [7] true false) s (fun t => smGet 0 (t.fn 5).recs 17 == 7 && smGet 0 (t.fn 5).wbits 1 == 2) ∧
    ev (.launchWindowWrite 5 0x88 [7] false false) s (fun t => (t.fn 5).drop == 1) ∧
    ev (.hostRegisterWrite 5 0x1048 [0] true false) { s with fns := [(5, { HostFn.reset with drop := 9 })] } (fun t => (t.fn 5).drop == 0) ∧
    ev (.launchWindowWrite 5 0x88 [7] true false) { s with tenants := [(5 * 32, 3)] } (fun t => t.fns == []) ∧
    ev (.hostRegisterWrite 5 0x88 [7] true false) State.reset (fun t => t == State.reset) := by decide +kernel

/-- The last dword of a command of a tenant that names no opcode is refused with status 1. -/
theorem test_host_command :
    let y : HostFn := { HostFn.reset with marks := 0x7FFF, cmd := [(0, 9), (1, 77)] }
    let s := { State.reset with mgmt := { Mgmt.reset with ready := true }, tenants := [(5 * 32, 1)], fns := [(5, y)] }
    ev (.hostRegisterWrite 5 0x1178 [0] true false) s (fun t => (t.fn 5).status == 1 && (t.fn 5).seq == 77 && !(t.fn 5).busy && (t.fn 5).marks == 0) := by
  decide +kernel

/-- A launch record on its way through: pushed as two entries, popped, and its header made into one task on the one core of its
rectangle. -/
theorem test_launch :
    let s := { queued [] with tenants := [(0, 1), (1, objEa 64), (7, 8), (8, 100)] }
    let s := s.setQueue (objPa 64) { s.queue (objPa 64) with mode := 0, entries := [], pushes := 0 }
    let f := { s with fns := [(0, { HostFn.reset with taken := 1, pushes := [(0, List.replicate 16 3)] })] }
    let l : Launch := ⟨0, 4, #v[0x2000, 0x00010001, 0x40, 0, 0, 0x00010001, 0, 0, 0, 0, 0, 0, 0, 0, 0, 0], false, false, false, [0], [], [], []⟩
    ev (.launchPushStored 0) f (fun t => (t.queue (objPa 64)).entries.length == 2 && (t.fn 0).pushes == [] && (t.fn 0).pushed == 1 && (t.fn 0).taken == 0) ∧
    ev (.launchHeaderArrival 0 0) { s with launches := [l] } (fun t => t.launches.map Launch.toDies == [[]] &&
      t.tasks.map (fun e => (e.2.st, e.2.bound, e.2.at_ 0, e.2.at_ 1)) == [(.ready, some 1, 0x2000, 1)]) ∧
    ev (.launchPop 0 0) State.reset (fun t => t == State.reset) := by decide +kernel

/-- Throttling; a hot zone throttles its stack to the last level, and one at 125 degrees stops the package. -/
theorem test_management :
    let up (s : State) : State := { s with mgmt := { s.mgmt with ready := true } }
    let s := up State.reset
    ev (.throttleRequest 3 5) s (fun t => smGet 0 t.mgmt.thr 3 == 5) ∧ ev (.throttleRequest 3 5) { s with mgmt := { s.mgmt with stalled := true } } (fun t => t.mgmt.thr == []) ∧
    ev (.orreryTick 2 [115, 20] [9] 4 77 0) s (fun t => smGet 0 t.mgmt.thr 2 == 7 && t.mgmt.events == 1 && smGet 0 t.mgmt.temp 1024 == 115 && !t.stopped) ∧
    ev (.orreryTick 2 [125] [] 4 77 0) (up (one [])) (fun t => t.stopped && t.slots == []) ∧
    ev (.orreryTick 2 [] [] 4 77 1) s (fun t => smGet 0 t.mgmt.thr 2 == 4 && t.layer 2 0 == 1 && t.layer 2 1 == 0) ∧
    ev (.managementRingStall true) s (fun t => t.mgmt.stalled) ∧ ev (.tenantTableWrite 5 0 0xFFFFFFFF) s (fun t => t.tenants == [(160, 0xFF03)]) := by decide +kernel

/-- Memory passes to its new owner as zeros; a tenant that ends leaves nothing behind. -/
theorem test_owners :
    let s := (State.reset.writeW (paTcm 3 8) 5).writeW (paTcm 4 8) 5
    let t5 := { withObj 0x2F State.reset with objs := [(5 * 2 ^ 20 + 1, { Obj.none with used := true, size := 4096 })], tenants := [(160, 1)], towner := [(3, 5)] }
    ev (.memoryOwnerAssignment 0 3 5) s (fun t => t.tcmOwner 3 == 5 && t.mem == [(paTcm 4 8, 5)]) ∧
    ev (.memoryOwnerAssignment 1 33 5) State.reset (fun t => t.sowner == [(33, 5)]) ∧ ev (.memoryOwnerAssignment 0 3 256) s (fun t => t == s) ∧
    ev (.tenantDestruction 5) t5 (fun t => !t.tenantValid 5 && !(t.obj 5 1).used && t.towner == []) ∧
    ev (.peerUnreachable 3 [⟨5, 0x1000, 15, []⟩]) { State.reset with peers := [(3 * 256 + 6, ⟨9, 15, []⟩)] } (fun t => t.peers == [(3 * 256 + 5, ⟨0x1000, 15, []⟩)]) ∧
    ev (.ideKm 5 true) { State.reset with mgmt := { Mgmt.reset with ready := true } } (fun t => (t.fn 5).ide) := by decide +kernel

/-- A command whose host path fails is answered 3. -/
theorem test_sealing :
    let s := { State.reset with fns := [(5, { HostFn.reset with busy := true, cmd := [(0, 1), (1, 7)] })] }
    ev (.seal 5 false) s (fun t => (t.fn 5).status == 3 && (t.fn 5).seq == 7 && !(t.fn 5).busy) ∧ ev (.unseal 5 false) s (fun t => t == s) ∧
    ev (.flashUpdate 5 false) s (fun t => t == s) := by decide +kernel

/-- SHA-512 of "abc", two entries of the substitution table of AES and a column that it mixes: the published examples. -/
theorem test_crypto :
    (Sha512.digest [0x61, 0x62, 0x63]).take 8 = [0xDD, 0xAF, 0x35, 0xA1, 0x93, 0x61, 0x7A, 0xBA] ∧ Gcm.sub 0x53 = 0xED ∧ Gcm.sub 0 = 0x63 ∧
    (Gcm.mixColumns [0xDB, 0x13, 0x53, 0x45]).take 4 = [0x8E, 0x4D, 0xA1, 0xBC] := by decide +kernel

/-- A step fetches the bundle at the pc, runs both of its halves from the registers at issue, and moves on: `addi g5, g6, 3` beside
`jl` to the bundle itself. -/
theorem test_step :
    after (step (State.reset.withFetchWord 32 0x080A6003)) (fun t => (t.slot 0).ctx.pc == 8 && (t.slot 0).ctx.getG 5 == 3) ∧
    after (step (State.reset.withFetchWord 32 0x06000000)) (fun t => (t.slot 0).ctx.pc == 0 && (t.slot 0).ctx.getG 30 == 8) := by decide +kernel

/-! ## States that meet the hypotheses of the statements -/

theorem witness_FalseGuardHasNoEffect : guardOf (.add ⟨3, false⟩ 1 2 3) = some ⟨3, false⟩ ∧ (one []).rd.holds ⟨3, false⟩ = false := by
  decide +kernel

/-- A C-half word for each kind that has no meaning: the major, the L bit, the function (with the limits of its major), a register
beyond its file, a field that must be zero. -/
theorem witness_ReservedEncodings :
    let field (w : BitVec 32) (pos width : Nat) : Nat := w.toNat / 2 ^ pos % 2 ^ width
    let major (w : BitVec 32) : Nat := field w 25 6
    field 0x00200002 21 4 = 1 ∧ (0x0D ≤ major 0x1A000000 ∧ major 0x1A000000 ≤ 0x0F ∧ field 0x1A000000 21 4 ≠ 1) ∧ 0x33 ≤ major 0x66000000 ∧
    (field 0x82000000 31 1 = 1 ∧ major 0x82000000 ∉ [0x04, 0x0B, 0x22, 0x25, 0x28, 0x30]) ∧ (field 0x08000000 31 1 ≠ 1 ∧ major 0x08000000 = 4) ∧
    (major 0x0000000B = 0 ∧ 11 ≤ field 0x0000000B 0 6) ∧ (major 0x4C000007 = 0x26 ∧ 7 ≤ field 0x4C000007 0 6 % 16) ∧
    (major 0x4E00000B = 0x27 ∧ 11 ≤ field 0x4E00000B 0 6 % 16) ∧ (major 0x20000600 = 0x10 ∧ field 0x20000600 9 2 = 3) ∧
    (major 0x54000404 = 0x2A ∧ field 0x54000404 10 1 = 1 ∧ 1 ≤ field 0x54000404 0 6 / 4 ∧ field 0x54000002 0 6 / 2 % 2 = 1) ∧
    (major 0x02000800 = 1 ∧ field 0x02000800 11 10 ≠ 0) ∧ (major 0x0E000800 = 7 ∧ field 0x0E000800 11 5 ≠ 0) ∧
    (major 0x10010000 = 8 ∧ field 0x10010000 16 5 ≠ 0) ∧ (major 0x40040000 = 0x20 ∧ 4 ≤ field 0x40040000 16 5) ∧
    (major 0x96000001 = 0x0B ∧ field 0x96000001 0 6 ≠ 0) ∧ (major 0x00000045 = 0 ∧ field 0x00000045 0 6 = 5 ∧ (0x00000045 : Nat) &&& 0x1F07C0 ≠ 0) ∧
    (major 0x4C010006 = 0x26 ∧ field 0x4C010006 0 6 % 16 = 6 ∧ (0x4C010006 : Nat) &&& 0x1F07C0 ≠ 0) ∧ (major 0x42000010 = 0x21 ∧ (0x42000010 : Nat) &&& 0x430 ≠ 0) ∧
    (major 0x5C000040 = 0x2E ∧ (0x5C000040 : Nat) &&& 0x7C0 ≠ 0) ∧ (major 0xC4010000 = 0x22 ∧ field 0xC4010000 16 5 ≠ 0) ∧ (major 0xCA040000 = 0x25 ∧ 4 ≤ field 0xCA040000 16 5) ∧
    (major 0xD0000001 = 0x28 ∧ field 0xD0000001 0 6 ≠ 0) ∧ (major 0xE0000004 = 0x30 ∧ 4 ≤ field 0xE0000004 0 6) ∧ (major 0x00000041 = 0 ∧ field 0x00000041 0 6 ≠ 5 ∧ field 0x00000041 6 15 ≠ 0) := by decide

/-- The same of A-half words. -/
theorem witness_ReservedEncodings_A :
    let field (w : BitVec 32) (pos width : Nat) : Nat := w.toNat / 2 ^ pos % 2 ^ width
    let major (w : BitVec 32) : Nat := field w 26 6
    field 0x00400000 22 4 = 1 ∧ (major 0x3C000000 = 0x0F ∧ field 0x3C000000 22 4 ≠ 1) ∧ 0x2A ≤ major 0xA8000000 ∧ (major 0x00000001 = 0 ∧ field 0x00000001 0 22 ≠ 0) ∧
    (major 0x04000017 = 1 ∧ 0x17 ≤ field 0x04000017 0 7) ∧ (major 0x4000000E = 0x10 ∧ 14 ≤ field 0x4000000E 0 7 % 64) ∧
    (major 0x84000007 = 0x21 ∧ 7 ≤ field 0x84000007 0 7 % 16) ∧ (major 0x180000C0 = 6 ∧ 3 ≤ field 0x180000C0 6 6) ∧
    (major 0x1C000FC1 = 7 ∧ 64 < field 0x1C000FC1 6 6 + field 0x1C000FC1 0 6 + 1) ∧ (major 0x24010000 = 9 ∧ field 0x24010000 16 1 = 1) ∧
    (major 0x30100000 = 0x0C ∧ 8 ≤ field 0x30100000 17 5) ∧ (major 0x84080000 = 0x21 ∧ 4 ≤ field 0x84080000 17 5) ∧
    (major 0x94004000 = 0x25 ∧ 4 ≤ field 0x94004000 12 5) ∧ (major 0x94000200 = 0x25 ∧ field 0x94000200 0 7 = 0 ∧ (0x94000200 : Nat) &&& 0x39CE00 ≠ 0) ∧
    (major 0x40000084 = 0x10 ∧ field 0x40000084 0 7 % 64 = 4 ∧ (0x40000084 : Nat) &&& 0xF80 ≠ 0) ∧ (major 0x80000800 = 0x20 ∧ field 0x80000800 0 7 % 16 = 0 ∧ (0x80000800 : Nat) &&& 0x210800 ≠ 0) ∧ (major 0x80200000 = 0x20 ∧ 16 ≤ field 0x80200000 17 5) ∧
    (major 0x80000047 = 0x20 ∧ field 0x80000047 0 7 % 16 = 7 ∧ field 0x80000047 0 7 / 16 = 4) ∧ (major 0x8C000039 = 0x23 ∧ field 0x8C000039 0 7 % 16 = 9 ∧ field 0x8C000039 0 7 / 16 = 3) ∧
    major 0x90000000 = 0x24 ∧ (major 0xA0000000 = 0x28 ∧ field 0xA0000000 0 7 / 8 % 8 < 4) ∧
    (major 0xA4000012 = 0x29 ∧ field 0xA4000012 0 7 / 16 = field 0xA4000012 0 7 / 2 % 8) := by decide

/-- Registers of a ganged thread in a completion handler, and of one that is neither. -/
theorem witness_RegisterFiles :
    let c : Ctx := { Ctx.zero with cr := { CRs.zero with pstate := 20 } }
    c.uih = true ∧ c.gang = true ∧ Ctx.zero.uih = false ∧ Ctx.zero.gang = false := by decide

theorem witness_IntegerOperations : Issues gd (one [(1, 3), (2, 5)]) := by decide

/-- A zero divisor, the quotient that does not fit, and another. -/
theorem witness_DivisionResults :
    let s := one [(1, 0x8000000000000000), (2, 0xFFFFFFFFFFFFFFFF), (3, 5)]
    Issues gd s ∧ s.g 0 = 0 ∧ (s.g 1).toInt = -2 ^ 63 ∧ (s.g 2).toInt = -1 ∧ s.g 3 ≠ 0 ∧ ¬((s.g 1).toInt = -2 ^ 63 ∧ (s.g 3).toInt = -1) := by
  decide

theorem witness_ImmediatesAndPredicates : Issues ⟨2, true⟩ (one [(1, 3)]) := by decide

/-- Registers with a quiet NaN, +inf, -0, 1.0, -4.0 and 4.0 in FP32, and 2.0 in FP64. -/
def fps : State :=
  one [(1, 0x7FC00000), (2, 0x7F800000), (3, 0x80000000), (4, 0x3F800000), (5, 0xC0800000), (6, 0x40800000), (7, 0x4000000000000000)]

theorem witness_FpArithmetic : Issues gd fps ∧ (fpVal .s fps 1).isNan = true ∧ (fpVal .s fps 2).isInf = true ∧ isFin (fpVal .s fps 4) = true := by
  decide +kernel

theorem witness_FpDivisionAndRoot : Issues gd fps ∧ (fpVal .s fps 1).isNan = true ∧ (fpVal .s fps 2).isInf = true ∧
    (fpVal .s fps 2).sign = false ∧ (fpVal .s fps 3).isZero = true ∧ isFin (fpVal .s fps 4) = true ∧ (fpVal .s fps 4).isZero = false ∧
    (fpVal .s fps 5).isNan = false ∧ (fpVal .s fps 5).isZero = false ∧ (fpVal .s fps 5).sign = true := by decide +kernel

/-- 4.0 is 2.0 times 2.0. -/
theorem witness_FpDivisionAndRoot_exact : ∃ q : FVal, isFin q = true ∧ q.isZero = false ∧ q.sign = false ∧
    isFin (fpVal .s fps 6) = true ∧ (fpVal .s fps 6).sign = false ∧ ratOf q * ratOf q = ratOf (fpVal .s fps 6) := by
  have e : fpVal .s fps 6 = .fin false 0x800000 (-21) := by decide +kernel
  refine ⟨.fin false 2 0, rfl, rfl, rfl, by rw [e]; rfl, by rw [e]; rfl, ?_⟩
  rw [e]; norm_num [ratOf]

theorem witness_FpOrder : Issues gd fps ∧ (fpVal .s fps 1).isNan = true ∧ (fpVal .s fps 3).isNan = false ∧ (fpVal .s fps 4).isNan = false := by
  decide +kernel

theorem witness_FpSignAndClass : Issues gd fps := by decide

theorem witness_FpConversions : Issues gd fps ∧ (fpVal .s fps 1).isNan = true ∧ (fpVal .s fps 2).isInf = true ∧ isFin (fpVal .s fps 6) = true := by
  decide +kernel

/-- A NaN, an infinity, a zero, the number 1, which the format holds, and a number beyond every format. -/
theorem witness_FpDelivery : (FVal.inf true).isInf = true ∧ (FVal.fin true 0 0).isZero = true ∧ isFin (fmt32.value 0x3F800000) = true ∧
    ratOf (fmt32.value 0x3F800000) = ratOf (.fin false 1 0) ∧ isFin (.fin false 1 200) = true ∧
    reaches fmt32 .rne (ratOf (.fin false 1 200)) (fmt32.bias + 1) = true ∧ reaches fmt32 .rne (ratOf (.fin false 1 0)) (fmt32.bias + 1) = false ∧
    reaches fmt32 .rup (ratOf (.fin false 1 200)) (fmt32.bias + 1) = true ∧ reaches fmt32 .rtz (ratOf (.fin false 1 (-140))) (1 - fmt32.bias) = false := by
  have e : fmt32.value 0x3F800000 = .fin false 0x800000 (-23) := by decide +kernel
  have b : fmt32.bias = 127 := by decide
  have q : fmt32.frac = 23 := rfl
  refine ⟨rfl, rfl, by rw [e]; rfl, by rw [e]; norm_num [ratOf], rfl, ?_, ?_, ?_, ?_⟩ <;> rw [b] <;>
    norm_num [reaches, goesAway, mag, ratOf, q]

/-- Vector registers with lanes of each sign, a NaN, a zero, an infinity and 1.0. -/
def vecs : State := run 0 (vregs [(1, 5)] [(1, 0x7FC00000_7F800000_80000000_3F800000), (2, 3)])

theorem witness_VectorIntegerLanes : Issues gd vecs ∧ ETy.i16.isFp = false := by decide

theorem witness_VectorFloatLanes : Issues gd vecs ∧ ETy.f32.isFp = true ∧ vecs.rd.lanes 32 = 16 := by decide

theorem witness_VectorMasks : Issues gd vecs ∧ (VCond.un ≠ .un ∨ ETy.f32.isFp = true) ∧ (ETy.f32.isFp = false ∨ (VCond.un ≠ .ltu ∧ VCond.un ≠ .leu)) ∧
    (VCond.leu ≠ .un ∨ ETy.i8.isFp = true) ∧ ETy.i8.isFp = false := by decide

/-- The last lane of an FP32 register is 15. -/
theorem witness_VectorMovement : Issues gd vecs ∧ (15#5).toNat < vecs.rd.lanes ETy.f32.width ∧ vecs.rd.lanes ETy.f32.width ≤ (16#5).toNat := by decide

theorem witness_VectorReductions : Issues gd vecs := by decide

theorem witness_VectorSpecialFunctions : Issues gd vecs ∧
    let X (j : Nat) : FVal := (etyFmt .f32 vecs.finite).value (laneOf vecs 1 32 j)
    isFin (X 0) = true ∧ (X 0).isZero = false ∧ (X 1).isZero = true ∧ (X 2).isInf = true ∧ (X 3).isNan = true := by decide +kernel

/-- A part that fits, and tables that a tenant may and may not use. -/
theorem witness_VectorConversions : Issues gd vecs ∧ 1 * vecs.rd.lanes 32 + vecs.rd.lanes 32 ≤ vecs.rd.lanes ETy.bf16.width ∧ (ETy.i8 ≠ .i64) ∧
    (vecs.dt 0 0).usable 0 = true ∧ (vecs.dt 0 0).usable 5 = false ∧ 3 * vecs.rd.lanes 32 + vecs.rd.lanes 32 ≤ vecs.rd.vlen / 8 := by decide +kernel

/-- Elements of each class, in both readings, and types of each kind. -/
theorem witness_VectorConversions_elements :
    let A (finite : Bool) (x : Nat) : FVal := (etyFmt .f16 finite).value x
    (0x7E01 < 2 ^ ETy.f16.width ∧ (A false 0x7E01).isNan = true) ∧ (A false 0xFC00).isInf = true ∧ (A false 0x8000).isZero = true ∧
    (isFin (A true 0xFC00) = true ∧ (A true 0xFC00).isZero = false) ∧ (etyFmt .bf16 true).finite = true ∧ (etyFmt .f32 true).finite = false ∧
    ETy.f16.width < ETy.f32.width ∧ ETy.i16.isFp = false ∧ signedLane 16 0xFFFF ≠ 0 ∧ ¬∃ q, Rnd.rtz = .sr q := by
  and_intros
  all_goals first | decide +kernel | (rintro ⟨q, h⟩; cases h)

/-- A table with the two entries 0 and 1.0, which ascend, and no code for an infinity. -/
theorem witness_DecodeTableEncoding :
    let T : DecTab := { DecTab.zero with ents := [(1, 0x1FC00)] }
    let E (c : Nat) : FVal := (fmtE8M10 false).value ((T.ent c).toNat % 2 ^ 19)
    isFin (E 1) = true ∧ isFin (E 0) = true ∧ (T.ent 1).getLsbD 19 = false ∧ isFin (.fin false 1 (-1)) = true ∧ T.iv = false ∧ T.sm = false := by
  decide +kernel

/-- Entries 0, -1.0 and 1.0 at codes 3, 1 and 5, by the rule's pseudocode and table: a tie between codes 1 and 3 of one parity, one
between 4 and 5, the side of each mode, and an infinity that the table has no code for. -/
theorem test_decode_table_pick :
    let T : DecTab := { DecTab.zero with ents := [(0, 0x80000), (1, 0x5FC00), (2, 0x80000), (4, 0x1F800), (5, 0x1FC00)] ++
      ((List.range 250).map fun c => (c + 6, 0x80000)) }
    let e (rm : Rnd) (v : FVal) : Nat × FlagSet := T.encode false rm v false
    e .rne (.fin true 1 (-1)) = (1, flagNx) ∧ e .rne (.fin false 3 (-2)) = (4, flagNx) ∧ e .rtz (.fin true 3 (-2)) = (3, flagNx) ∧
    e .rdn (.fin false 3 (-2)) = (4, flagNx) ∧ e (.sr 0) (.fin false 3 (-2)) = (5, flagNx) ∧ e (.sr (2 ^ 31)) (.fin false 3 (-2)) = (4, flagNx) ∧
    e .rne (.inf true) = (1, flagOf ||| flagNx) ∧ e .rne (.inf false) = (5, flagOf ||| flagNx) := by decide +kernel

/-- A buffer in capture and one in replay, and bundles that each admits and refuses. -/
theorem witness_RepetitionBuffer :
    let r : RepBuf := { RepBuf.empty with act := true, cap := true, len := 1, count := 3 }
    let w : W64 := 0x044A6380_04800006
    (decodeBundle w).isSome = true ∧ r.act = true ∧ r.susp = false ∧ bitAt w 31 = false ∧ bitsAt w 63 58 ≠ 0x26 ∧ ¬(r.k = r.len.toNat ∧ r.i = r.count.toNat) ∧
    (decodeBundle 0xFFFFFFFE_88000005).isSome = true ∧ bitAt (0xFFFFFFFE_88000005#64) 31 = true ∧
    (w >>> 32) &&& 0xFC3FFFFF#64 ≠ 0 ∧ ((0x00000000_04800006#64 : W64) >>> 32) &&& 0xFC3FFFFF#64 = 0 ∧ (decodeBundle 0x00000000_04800006).isSome = true ∧
    ({ r with k := 1 } : RepBuf).k = r.len.toNat ∧ ({ r with k := 1 } : RepBuf).i < r.count.toNat := by decide +kernel

/-- A count of one, and aligned and misaligned targets. -/
theorem witness_BranchesAndJumps :
    let s := one [(1, 1), (2, 0x2000), (3, 0x2004), (30, 0x3000)]
    Issues gd s ∧ s.g 1 = 1 ∧ (s.g 2).toNat % 8 = 0 ∧ (s.g 3).toNat % 8 ≠ 0 ∧ (s.g 30).toNat % 8 = 0 ∧ ((one [(30, 4)]).g 30).toNat % 8 ≠ 0 := by decide

/-- A stack pointer just above its limit, at the boundary of the check and below it, and a frame pointer with a pair. -/
theorem witness_Frames :
    let s (sp : W64) : State := one [(28, 0x100), (29, sp)]
    let t := s 0x90
    Issues gd t ∧ t.slow = false ∧ (t.g 29).toNat % 16 = 0 ∧ 16 * (0#11).toNat + 16 + 128 + t.rd.cr.stklim.toNat ≤ (t.g 29).toNat ∧
    t.locateHere (t.g 29 - 16) 16 false true = .at_ (paTcm 0 0x80) ∧ t.hitsDesc [(paTcm 0 0x80, 16)] = false ∧
    GoesOn t (t.waitsFor .all (isOwn t.core (paTcm 0 0x80)) [(paTcm 0 0x80, 16)]) [(paTcm 0 0x80, 16)] ∧
    (s 0x80).rd.cr.stklim.toNat + 16 + 128 > ((s 0x80).g 29).toNat ∧ ((s 0x88).g 29).toNat % 16 ≠ 0 ∧ (t.g 28).toNat % 16 = 0 ∧
    t.locateHere (t.g 28) 16 true false = .at_ (paTcm 0 0x100) ∧ t.badWord (t.g 28) [(paTcm 0 0x100, 16)] = none := by
  unfold GoesOn; decide +kernel

/-- Stack pointers whose frame lies on another core, beyond the TCM and on the descriptor of a queue; a bad link pair. -/
theorem witness_Frames_traps :
    let s (sp : W64) : State := one [(28, sp), (29, sp)]
    let f := s 0x1000000100000090
    let b := s 0x20020
    let q := (queued []).upd fun c => { c with g := c.g.setIfInBounds 29 (objEa 80) }
    let r := (s 0x100).setBad (paTcm 0 0x108) true
    Issues gd f ∧ f.slow = false ∧ f.rd.pure = false ∧ caKind f.core = .compute ∧ (f.g 29 - 16) &&& 0x0FFFC080FFFE0000#64 = 0 ∧
    (f.g 29 - 16).toNat / 2 ^ 60 = 1 ∧ (f.g 29 - 16).toNat / 2 ^ 32 % 2 ^ 14 ≠ caTileOf f.core ∧
    b.locateHere (b.g 29 - 16) 16 false true = .trap ⟨0x04, b.g 29 - 16⟩ ∧ b.locateHere (b.g 28) 16 true false = .trap ⟨0x04, b.g 28⟩ ∧
    Issues gd { q with src := some q.me.ctx } ∧ q.locateHere (objEa 64) 16 false true = .at_ (objPa 64) ∧ q.hitsDesc [(objPa 64, 16)] = true ∧
    (r.g 28).toNat % 16 = 0 ∧ r.badWord (r.g 28) [(paTcm 0 0x100, 16)] = some 0x108 := by decide +kernel

/-- A thread whose handler receives traps, ganged, and one at raised privilege. -/
theorem witness_TrapEntryAndReturn :
    let s := run 0 (handled [])
    let p := run 0 { regs [] with cr := { CRs.zero with pstate := 1 } }
    Issues gd s ∧ (0x11#8 : BitVec 8) ≠ 0x13 ∧ s.me.ctx.cr.tvec ≠ 0 ∧ s.me.ctx.inh = false ∧ s.me.ctx.gang = true ∧ s.rd.priv = false ∧
    p.rd.priv = true ∧ (one []).me.ctx.gang = false := by decide +kernel

/-- Faults that no level absorbs, that level 0 absorbs, and that level 1 retries. -/
theorem witness_TrapEntryAndReturn_fault :
    let s := one []
    let u (shape : W64) : State :=
      let l : Launch := ⟨0, 0, Vector.replicate 16 0, false, false, false, [0], [], [], []⟩
      { run 0 { regs [] with cr := { CRs.zero with wshape := shape } } with launches := [l] }
    let self := u 0x0000080000000001
    let again := u 0x0050100000000001
    (s.me.ctx.cr.tvec = 0 ∧ Absorbs s s.me.ctx 7 3) ∧ (∀ e ∈ s.slots, e.2.out = []) ∧
    (Issues gd self ∧ Absorbs self self.me.ctx 0 1) ∧ ((handled []).inh = false ∧ ({ regs [] with cr := { CRs.zero with pstate := 2 } } : Ctx).inh = true) ∧
    levelPolicy again.me.ctx.cr.wshape 1 = 1 ∧ (again.launch 0 0).isSome = true := by
  unfold Claims.Absorbs; decide +kernel

/-- Indices at the ends of their ranges: assigned and not, denied and not, of the status class and not. -/
theorem witness_ControlRegisterAccess :
    let s := one []
    let n : List Nat := [0x014, 0x015, 0x100, 0x107, 0x108, 0x180, 0x200, 0x204, 0x205, 0x600, 0x60F, 0x610]
    Issues gd s ∧ (n.map fun j => Cr.assigned (BitVec.ofNat 11 j)) = [true, false, true, true, false, true, true, true, false, true, true, false] ∧
    s.rd.priv = false ∧ s.rd.cr.tenant = 0 ∧ crValueOk 0x000 3 = true ∧ crValueOk 0x000 4 = false := by decide +kernel

theorem witness_ControlRegisterFields : (State.reset).src = none ∧ State.reset.me.after = none ∧ (0x102 ≤ 0x107 ∧ (0x107 : Nat) ≤ 0x107) := by
  decide

theorem witness_WorkField :
    let s := run 0 { regs [] with cr := { CRs.zero with wid := 0x1234, wshape := 0x408 } }
    Issues gd s ∧ levelWidth s.rd.cr.wshape 1 = 8 ∧ levelWidth s.rd.cr.wshape 2 = 0 := by decide

/-- Slots of compute, bank and station cores, and partners that are FREE, HELD and in RUN; the first and the last position. -/
theorem witness_GangsAndLogicalCores :
    let s := one [(1, 1022)]
    let en (n : Nat) : Bool := (smGet (0xFFFFFFFFFFFFFFFF#64) s.coremask (n / 64)).getLsbD (n % 64)
    Issues gd s ∧ caKind s.core = .compute ∧ caSlot s.cur % 2 = 0 ∧ s.rd.gang = false ∧ (s.slot (partner 0)).st = .free ∧
    caKind (run (2 ^ 18) Ctx.zero).core ≠ .compute ∧ caSlot (run (2 ^ 20) Ctx.zero).cur % 2 ≠ 0 ∧ (run 0 (handled [])).rd.gang = true ∧
    ((s.setSlot (partner 0) (parked .held Ctx.zero)).slot (partner 0)).st = .held ∧
    (∃ q ∈ ([⟨4, .task, none, 7, regs [], 2, 0, none, false, true, 0, [partner 0], none, []⟩] : List Pkt), partner 0 ∈ q.evict) ∧ (s.slot 0).st ≠ .free ∧ (s.slot 0).st ≠ .held ∧ 8192 ≤ ((one [(1, 8192)]).g 1).toNat ∧ en 1022 = true ∧ (s.g 1).toNat < 8192 ∧
    (List.range 1022).countP en = 1022 ∧ (List.range 1023).countP en ≤ 1023 := by decide +kernel

/-- A target that a thread may name, one that is malformed, and one outside the launch rectangle. -/
theorem witness_Spawning :
    let s := one [(6, 0x100001), (7, 0x2000)]
    let out := run 0 { regs [] with cr := { CRs.zero with lrect := 0 } }
    Issues gd s ∧ s.rd.pure = false ∧ (s.g 7).toNat % 8 = 0 ∧ coreAddressOk (s.g 6) = true ∧ caKind (s.g 6).toNat = .compute ∧
    (rectOf s.rd.cr.lrect).hasCore (caCore 0x100001) = true ∧ s.coreEnabled (caCore 0x100001) = true ∧ isCobbler (caCore 0x100001) = false ∧
    GoesOn s (fun _ => true) [] ∧ ((s.flushWhere s.cur fun _ => true).slot 0x100001).st.isFree = true ∧ s.pkts = [] ∧
    (s.slot 0).st.isFree = false ∧ (run 0 { regs [] with cr := { CRs.zero with pstate := 8 } }).rd.pure = true ∧ ((one [(7, 4)]).g 7).toNat % 8 ≠ 0 ∧ coreAddressOk 0x80 = false ∧ (rectOf out.rd.cr.lrect).hasCore 1 = false := by
  unfold GoesOn; decide +kernel

/-- No accesses outstanding; a store that a sleeping layer holds; a `wait` that a spill cut short; and threads that are killed. -/
theorem witness_QuitWaitKill :
    let s := one [(1, 7)]
    let l := { (stacked []).modSlot 0 fun x => { x with out := [⟨[(objPa 0, [1])], objEa 0, 0⟩] } with layers := [(0, 1)] }
    let w := s.modSlot 0 fun x => { x with late := some (0x1000, 0) }
    Issues gd s ∧ s.me.out = [] ∧ (∃ o ∈ l.me.out, l.storeHeld o = true) ∧ s.me.late = none ∧ s.g 1 ≠ 0 ∧ s.g 0 = 0 ∧
    w.me.late = some (w.pc, 0) ∧ 0 ≤ w.cycle ∧ ¬w.cycle < 0 ∧ (s.modSlot s.cur fun x => { x with late := some (0x1000, 2 ^ 64) }).me.late = some (s.pc, 2 ^ 64) ∧
    (s.owns s.cur = false ∨ (s.unit s.core).op = none) ∧ (∀ e ∈ s.slots, e.2.wait ≠ some .quit) ∧ (∃ x ∈ s.threads, killed s.rd 0 0 x.2 = true) ∧ s.slow = false ∧ killed s.rd 0 7 s.rd.key = false ∧ killed s.rd 0 0 s.rd.key = true ∧
    (∀ x ∈ s.threads, killed s.rd 0 7 x.2 = false) := by decide +kernel

theorem witness_MemoryReadAfterWrite :
    (∀ j, j < 8 → paIsStatus (paTcm 0 8 + j) = false) ∧ paTcm 0 8 % 8 = 0 ∧ Safety.memoryOk State.reset = true ∧
    smGet false { State.reset with flaws := [(paTcm 0 8, true)] }.flaws (wordOf (paTcm 0 11)) = true ∧ smGet false State.reset.flaws (wordOf 0) = false := by
  decide +kernel

/-- Addresses that are aligned, misaligned, beyond the TCM and on another core; a word that is bad. -/
theorem witness_LoadResults :
    let s := one [(1, 0x100), (2, 0x101), (3, 0x20000), (4, 0x1000000100000000)]
    let l := [(paTcm 0 0x100, 8)]
    Issues gd s ∧ s.slow = false ∧ s.spans (s.g 1) 8 true false = .ok l ∧ (s.g 2).toNat % 8 ≠ 0 ∧
    s.spans (s.g 3) 8 true false = .error (.trap ⟨0x04, 0x20000⟩) ∧ s.spans (s.g 4) 8 true false = .error (.migrate 1) ∧
    GoesOn s (s.waitsFor .all true l) l ∧ s.badWord (s.g 1) l = none ∧ (s.setBad (paTcm 0 0x100) true).badWord (s.g 1) l = some 0x100 := by
  unfold GoesOn
  and_intros <;> decide +kernel

/-- The same of stores, with a word of a live queue's descriptor, and a relaxed store beyond the own TCM. -/
theorem witness_StoreResults :
    let s := one [(1, 0x100), (2, 0x101), (3, 0x20000), (4, 0x1000000100000000), (6, 0x3000000000000100)]
    let l := [(paTcm 0 0x100, 8)]
    let r := [(paShared 0 0x100, 8)]
    Issues gd s ∧ s.slow = false ∧ s.spans (s.g 1) 8 false true = .ok l ∧ s.hitsDesc l = false ∧ (queued []).hitsDesc [(objPa 64, 8)] = true ∧
    s.spans (s.g 4) 8 false true = .error (.migrate 1) ∧ GoesOn s (s.waitsFor .all true l) l ∧ s.badWord (s.g 1) l = none ∧
    s.spans (s.g 6) 8 false true = .ok r ∧ (r.all fun e => isOwn s.core e.1) = false ∧ s.me.out = [] ∧ GoesOn s (fun _ => false) r ∧
    ∀ e ∈ r, (s.acceptStore ⟨[(e.1, [1, 2, 3, 4, 5, 6, 7, 8])], s.g 6, s.pc⟩).2 = none := by
  unfold GoesOn
  and_intros <;> decide +kernel

theorem witness_SramAtomics :
    let s := one [(1, 0x100), (2, 0x104), (3, 0x4000000000000000), (4, 0x1000000100000000), (6, 0x20000)]
    let p := s.waitsFor .all true [(paTcm 0 0x100, 8)]
    Issues gd s ∧ s.slow = false ∧ (s.g 2).toNat % 8 ≠ 0 ∧ 3 < (s.g 3).toNat / 2 ^ 60 ∧ s.locate (s.g 6) 8 true true = .trap ⟨0x04, 0x20000⟩ ∧
    s.locate (s.g 4) 8 true true = .migrate 1 ∧ s.locate (s.g 1) 8 true true = .at_ (paTcm 0 0x100) ∧ GoesOn s p [] ∧
    (s.flushWhere s.cur p).badWord (s.g 1) [(paTcm 0 0x100, 8)] = none := by unfold GoesOn; decide +kernel

/-- A shape record of FP32 elements, a cursor, and one with a reserved bit. -/
theorem witness_CursorsAndLea :
    let s := (((one [(1, 0x100), (2, 0x200), (20, 0x104), (23, 0x0002000000000020), (27, 0x0008000000000000)]).writeW (paTcm 0 0x100) 2).writeW
      (paTcm 0 0x108) 3).writeW (paTcm 0 0x110) 4
    let l := [(paTcm 0 0x100, 8), (paTcm 0 0x108, 8), (paTcm 0 0x110, 8), (paTcm 0 0x118, 8)]
    Issues gd s ∧ s.slow = false ∧ s.dwordSpans (s.g 1) true false 4 = .ok l ∧ GoesOn s (s.waitsFor .all true l) l ∧ s.badWord (s.g 1) l = none ∧
    s.dwordSpans (one [(1, 0x20000)] |>.g 1) true false 4 = .error (.trap ⟨0x04, 0x20000⟩) ∧ s.dwordSpans 0x1000000100000000 true false 4 = .error (.migrate 1) ∧
    (s.setBad (paTcm 0 0x118) true).badWord (s.g 1) l = some 0x118 ∧ s.readW (paTcm 0 0x110) = 4 ∧ (s.gAt 20 3).toNat / 2 ^ 51 = 0 ∧ (s.gAt 24 3).toNat / 2 ^ 51 ≠ 0 := by
  unfold GoesOn
  and_intros <;> decide +kernel

theorem witness_RemoteReadsTablesAndMigr :
    let s := one [(1, 0x100), (4, 0x1000000100000000)]
    Issues gd s ∧ s.slow = false ∧ ¬(8 < 1 ∧ s.rd.gang = false) ∧ s.rdrUnit (s.g 1) 1 = true ∧ s.impure (s.g 1) 8 false = false ∧ s.replySlot = true ∧
    s.rdrSpans (s.g 1) 1 = .ok [(paTcm 0 0x100, 8)] ∧ (s.imageSpans (s.g 1) true false 129).toOption.isSome = true ∧ s.tableHeld s.core 1 = false ∧
    (s.dt 0 1).usable 0 = true ∧ (s.dt 0 1).usable 5 = false ∧ s.migrTo (s.g 1) = .at_ 0 ∧ s.migrTo (s.g 4) = .migrate 1 := by
  and_intros <;> decide +kernel


/-- The other cases of `rdr`, of the tables and of `migr`. -/
theorem witness_RemoteReadsTablesAndMigr_traps :
    let s := one [(1, 0x100)]
    let p := run 0 { regs [] with cr := { CRs.zero with pstate := 8 } }
    let rd : Slot := parked (.park .flight (.rdr gd 1 1 0) [1] 0) (regs [])
    let busy := (List.range 8).foldl (fun t k => t.setSlot (2 ^ 20 * (k + 1)) rd) s
    let held := s.setSlot 5 (parked (.park .flight (.t8dec gd 1 1 0 .f32 1) [] 0) (regs []))
    let st := run (2 ^ 19) (regs [])
    8 < (8#4).toNat + 1 ∧ s.rd.gang = false ∧ s.rdrUnit 0x1FFF8 2 = false ∧ p.impure 0x3000000000000000 8 false = true ∧ s.mustQueue (.rdr gd 1 1 0) = false ∧
    ({ s with tbankOut := [(1, 1)] }.rdrSpans 0x1000000100000000 1).toOption = none ∧ (s.setBad (paTcm 0 0x100) true).badWord 0x100 [(paTcm 0 0x100, 8)] = some 0x100 ∧
    (s.imageSpans 0x20000 true false 129).toOption = none ∧ (s.imageSpans 0x20000 false true 129).toOption = none ∧ busy.replySlot = false ∧
    s.migrTo 0xF000000000000000 = .trap ⟨0x04, 0xF000000000000000⟩ ∧ s.migrTo 0x2000800000000000 = .at_ 0 ∧ caKind st.core = .station ∧ held.cur = 0 := by
  decide +kernel
/-! ## States for the statements on stacked memory, tasks and copies -/

/-- A full word, an empty one with a waiting `stef` or `ldfe`, and a word that the thread holds with a waiting `lrw`. -/
theorem witness_SynchronisingWords :
    let s := stacked [(1, objEa 8), (2, objEa 4), (3, 0x100)]
    let wait (i : Instr) (w : Wait) : State := s.setSlot 1 (parked (.park w i [] 0) Ctx.zero)
    let f := wait (.stef gd 1 2 .plain) (.fullEmpty (objPa 8))
    let e := (wait (.ldfe gd 5 1 .plain) (.fullEmpty (objPa 8))).setFull (objPa 8) false
    let r := (wait (.lrw gd 5 1 .plain) (.reservation (objPa 8))).setHolder (objPa 8) (some s.rd.key)
    Issues gd s ∧ s.src = some s.me.ctx ∧ s.me.after = none ∧ s.slow = false ∧ (s.g 2).toNat % 8 ≠ 0 ∧ (s.g 3).toNat / 2 ^ 60 ≠ 4 ∧
    (s.resolve 0 (s.g 1) (rightR ||| rightW ||| rightS)).toOption = some (objPa 8) ∧ s.inDesc (objPa 8) = false ∧
    GoesOn s (s.waitsFor .all false [(objPa 8, 8)]) [(objPa 8, 8)] ∧ s.isFull (objPa 8) = true ∧ s.isBad (objPa 8) = false ∧ s.feWaiters (objPa 8) = [] ∧
    f.feWaiters (objPa 8) = [1] ∧ e.isFull (objPa 8) = false ∧ e.feWaiters (objPa 8) = [1] ∧ r.holder (objPa 8) = some r.rd.key ∧
    r.lrwQueue (objPa 8) = [1] ∧ s.holder (objPa 8) = none := by unfold GoesOn; decide +kernel

/-- An address that is a hole, one whose rights are short, and one on a layer in FAULT; sizes and options that `halloc` takes. -/
theorem witness_Handles :
    let s := { stacked [(1, objEa 0), (2, 0x1000), (3, 0x0F), (4, 0x80)] with tenants := [(6, 100)] }
    let few := withObj 0x21 (one [(1, objEa 0)])
    Issues gd s ∧ s.slow = false ∧ (s.obj 0 1).used = true ∧ (s.obj 0 0).used = false ∧ few.rd.ten = 0 ∧ (few.obj 0 1).opts.getLsbD 3 = false ∧
    s.isLost (objPa 0) = false ∧ s.offline (objPa 0) = false ∧ { s with layers := [(0, 3)] }.offline (objPa 0) = true ∧
    { s with blks := [(blkKey 0 1 0, ⟨none, true, none⟩)] }.isLost (objPa 0) = true ∧ (s.g 2).toNat ≠ 0 ∧ (s.g 2).toNat ≤ 2 ^ 40 ∧
    s.g 3 &&& 0xFFFFFFFFFFC08080#64 = 0 ∧ s.g 4 &&& 0xFFFFFFFFFFC08080#64 ≠ 0 ∧ (s.obj 0 2).used = false ∧ s.blocksOf 0 + 1 ≤ (s.tt 0 6).toNat ∧
    (s.resolve 0 (s.g 1) 0).toOption = some (objPa 0) ∧ s.holdsQueue 0 1 = false ∧ (queued []).holdsQueue 0 1 = true ∧ GoesOn s (fun _ => true) [] ∧
    (s.resolveHandle 0 (s.g 1)).toOption = some (objPa 0) := by unfold GoesOn; decide +kernel

theorem witness_MemorySideAtomics :
    let s := stacked [(1, objEa 8), (2, objEa 4), (3, 0x100), (4, 0x8000000000000000), (6, objEa 0x40)]
    Issues gd s ∧ (s.g 2).toNat % 8 ≠ 0 ∧ ¬(s.rd.pure = true ∧ ownTcmForm s.core (s.g 1) = false) ∧ (s.g 3).toNat / 2 ^ 60 = 0 ∧
    (s.resolve 0 (s.g 1) (rightR ||| rightW ||| rightS)).toOption = some (objPa 8) ∧ s.inDesc (objPa 8) = false ∧ (queued []).inDesc (objPa 64) = true ∧
    GoesOn s (s.waitsFor .all false [(objPa 8, 8)]) [(objPa 8, 8)] ∧ s.isBad (objPa 8) = false ∧ (s.g 4).toNat / 2 ^ 60 = 8 ∧
    (s.translate 0 0 (s.g 4) true true).toOption = none ∧ (s.g 6).toNat / 2 ^ 60 = 4 ∧ (s.g 6).toNat % 8 = 0 ∧
    (s.resolve 0 (s.g 1) rightS).toOption = some (objPa 8) ∧ s.pkts = [] ∧ (s.slot (s.bankOf (objPa 8))).st.isFree = true := by
  unfold GoesOn; decide +kernel

/-- A cached translation lets the window through. -/
theorem witness_MemorySideAtomics_window :
    let s := { one [(1, 0x8000000000000008)] with tlb := [⟨0, 0, 0, 0, 0x500F⟩] }
    (s.translate 0 0 (s.g 1) true true).toOption = some (paHost 0x5008) ∧ s.mgmt.atomics = true ∧ s.isBad (paHost 0x5008) = false := by decide +kernel

/-- References that name the queue and not; a queue with entries, empty, and with a waiting pop. -/
theorem witness_Queues :
    let s := { queued [(1, objEa 65), (2, objEa 64), (3, objEa 128), (4, 0x0101), (6, 8)] with tenants := [(7, 8)] }
    let e := s.setQueue (objPa 64) { s.queue (objPa 64) with entries := [] }
    let w := e.setSlot 1 (parked (.park (.queue (objPa 64)) (.qpop gd 5 1 2 .qwin true) [] 0) (regs [(1, objEa 65)]))
    Issues gd s ∧ s.rd.pure = false ∧ (s.g 1).toNat % 4 = 1 ∧ (s.resolve 0 (s.g 1 &&& ~~~0x3F#64) rightS).toOption = some (objPa 64) ∧
    (s.queue (objPa 64)).live = true ∧ (s.queue (objPa 64)).mode = (s.g 1).toNat % 4 ∧ (s.queue (objPa 64)).mode ≠ (s.g 2).toNat % 4 ∧
    GoesOn s (fun _ => true) [(objPa 64, 64)] ∧ s.isLost (objPa 64) = false ∧ s.offline (objPa 64) = false ∧ s.parkedAt (objPa 64) false = [] ∧
    (e.queue (objPa 64)).entries.length = 0 ∧ w.parkedAt (objPa 64) false = [1] ∧ (s.queue (objPa 64)).entries.length = 1 ∧
    s.parkedAt (objPa 64) true = [] ∧ s.poolFree 0 = 7 ∧ (s.queue (objPa 64)).used ≤ 64 * 1 ∧ (s.g 3).toNat % 64 = 0 ∧
    (s.resolve 0 (s.g 3) (rightW ||| rightS)).toOption = some (objPa 128) ∧ (s.g 4).toNat < 2 ^ 16 ∧ (s.queue (objPa 128)).live = false ∧
    s.queueBusy (objPa 64) = false := by unfold GoesOn; decide +kernel

/-- Task records inside and outside the rectangle and malformed; room; a saver's checks, and translations to drop. -/
theorem witness_TasksAndSaves :
    let f (v : BitVec 64) : BitVec 1024 := v.zeroExtend 1024 <<< 448
    let c : Ctx := { vregs [(1, 0x100001), (2, objEa 0), (3, 0x8000000000000000), (4, 1)] [(2, f 0x001F001F), (3, f 0x0000000100000000)] with
      cr := { CRs.zero with pstate := 1 } }
    let s := { (withObj 0x2F (run 0 c)) with tenants := [(8, 4)], objs := [(1, { Obj.none with used := true, size := 0x6000, opts := 0x2F })] }
    let t := s.setSlot 0x100001 (parked .run Ctx.zero)
    Issues gd s ∧ s.src = some s.me.ctx ∧ s.me.after = none ∧ s.slow = false ∧ s.rd.pure = false ∧ laneOf s 2 64 7 = 0x001F001F ∧
    (rectOf s.rd.cr.lrect).has 31 0 = true ∧ laneOf s 3 64 7 / 2 ^ 32 ≠ 0 ∧ GoesOn s (fun _ => true) [] ∧ s.taskRoom 0 0 = true ∧
    (one []).taskRoom 5 0 = false ∧ s.rd.priv = true ∧ (s.g 2).toNat % 64 = 0 ∧ (s.resolveRange 0 (s.g 2) 0x5000 rightW).toOption = some (objPa 0) ∧
    coreAddressOk (s.g 1) = true ∧ s.coreEnabled (caCore 0x100001) = true ∧ (t.slot 0x100001).st = .run ∧ t.owns 0x100001 = false ∧
    t.saver 0x100001 = none ∧ (s.slot 0x100001).st.live = false ∧ isCobbler (caCore (0x100000 + caCobbler 2)) = true ∧
    (∃ e ∈ (queued []).queues, e.2.live = true ∧ e.1 < objPa 0 + 0x5000 ∧ objPa 0 < e.1 + 64) ∧ (queued []).queues ≠ [] ∧ (s.g 3).toNat / 2 ^ 57 = 64 ∧ (s.g 4).toNat ≠ 0 := by
  unfold GoesOn; decide +kernel

/-- A handle names its record, whatever the first generation is. -/
theorem witness_TasksAndSaves_handle :
    let s := { one [] with tasks := [(3, { Task.free with st := .wait, f := #v[0, 0, 0, 0, 0, 0, 0x20000, 0] })] }
    ∃ h, s.taskOf 0 h = some 3 ∧ (s.task 3).st = .wait ∧ 1 < (s.task 3).deps :=
  ⟨_, State.taskOf_handle _ 3 (by decide) (by decide +kernel), by decide +kernel, by decide +kernel⟩

/-- A callee that is new; a way that holds an entry of each state under a reference of the tenant. -/
theorem witness_AnswerTable :
    let s := one [(6, 0x2000), (7, 0x2001)]
    Issues gd s ∧ s.src = some s.me.ctx ∧ s.me.after = none ∧ s.slow = false ∧ (s.g 7).toNat % 8 ≠ 0 ∧ (s.g 6).toNat % 8 = 0 ∧ s.rd.pure = false ∧
    s.lookup (callHome 0 0x2000 []) 0 (.call 0x2000 []) = none ∧ (s.takeWay 0 (callHome 0 0x2000 []).1 (callHome 0 0x2000 []).2).1.isSome = true ∧
    GoesOn s (fun _ => true) [] ∧ s.production = none ∧ s.wayOf 0 0 = none := by unfold GoesOn; decide +kernel

theorem witness_AnswerTable_reference :
    let s (st : AtSt) : State := { one [] with entries := [(9, { AtEntry.free with st := st, answers := [(1, 2), (3, 4)] })] }
    ∀ st ∈ [AtSt.eval, .complete, .failed], (s st).wayOf 0 (BitVec.ofNat 64 ((s st).refOf 9)) = some 9 := by
  intro s st h
  have e : ((s st).entry 9).st ≠ .free := by
    simp only [List.mem_cons, List.mem_nil_iff, or_false] at h
    obtain rfl | rfl | rfl := h <;> decide +kernel
  have t : ((s st).entry 9).tenant.toNat = 0 := by
    simp only [List.mem_cons, List.mem_nil_iff, or_false] at h
    obtain rfl | rfl | rfl := h <;> decide +kernel
  have := State.wayOf_refOf (s st) 9 0 (by decide) (by decide) e
  rw [t] at this
  simpa using this

/-- A pure task whose tiles are blocks of one object, which has no entry; tiles that are refused. -/
theorem witness_PureTasks :
    let s := stacked [(1, objEa 0), (2, 0x1000), (3, objEa 0x1000), (4, 0x1000), (6, objEa 8)]
    let t : Tile := ⟨objEa 0, 0x1000⟩
    let out : Tile := ⟨objEa 0x1000, 0x1000⟩
    Issues gd s ∧ s.src = some s.me.ctx ∧ s.me.after = none ∧ (s.argList 0 0).toOption = some [] ∧ (s.argList (s.g 6) 1).toOption = none ∧
    s.tilesCheck t [] out = none ∧ (s.tilesCheck ⟨objEa 8, 0x1000⟩ [] out).isSome = true ∧
    GoesOn s (fun _ => true) [(objPa 0, 4096)] ∧ s.badLeaf 0 [t] = none := by unfold GoesOn; decide +kernel

/-- A transfer between an object and the own TCM; a source, a destination and a length that trap; permits with and without a
request; transfers that run and that are over; and a completion handler. -/
theorem witness_CopyInstructions :
    let s := stacked [(8, objEa 0), (9, 0x1000000000000000), (10, 64), (12, 4), (16, 0x5000000000000000)]
    let h := run 0 { regs [] with h := #v[0, 0, 0, 0x2000], cr := { CRs.zero with pstate := 16 } }
    let q : CopyPast := ⟨4, 0, 5, 6, 7⟩
    Issues gd s ∧ s.rd.pure = false ∧ (s.g 8).toNat % 8 = 0 ∧ (s.gAt 8 1).toNat % 8 = 0 ∧ (s.gAt 8 2).toNat < 2 ^ 47 ∧ (s.g 16).toNat / 2 ^ 60 = 5 ∧
    (s.pblk 0 false).toOption = some [] ∧ (s.pblk 0 true).toOption = none ∧ s.copyRanges (s.copyRequest 8 []) (s.g 8) (s.gAt 8 1) 0 = none ∧
    GoesOn s (fun _ => true) [] ∧ (s.eng 0).reqs.length < 8 ∧ s.permitQueue 0 = [] ∧ { s with permitQ := [(0, [⟨1, 2, 3, 4⟩])] }.permitQueue 0 = [⟨1, 2, 3, 4⟩] ∧
    (s.eng 0).reqs.find? (fun r => decide (r.id = 4 ∧ r.tenant = 0)) = none ∧
    ((s.setEng 0 { CopyEng.idle with past := [q] }).eng 0).past.reverse.find? (fun r => decide (r.id = 4 ∧ r.tenant = 0)) = some q ∧
    s.rd.uih = false ∧ h.rd.uih = true ∧ h.rd.h[3].toNat % 8 = 0 := by unfold GoesOn; decide +kernel

/-- Phase objects with arrivals outstanding and at their last, with and without a waiting `pwait`. -/
theorem witness_FencesAndPhases :
    let s := stacked [(1, objEa 16), (2, 2), (3, 1), (4, objEa 8)]
    let p := (s.writeW (objPa 16) 0x0005000000000001).writeW (objPa 24) 2
    let w := p.setSlot 1 (parked (.park (.phase (objPa 16)) (.pwait gd 5 1 2) [] 0) (regs [(2, 5)]))
    Issues gd s ∧ GoesOn s (fun _ => true) [] ∧ (s.g 4).toNat % 16 ≠ 0 ∧ (s.resolve 0 (s.g 1) (rightR ||| rightW ||| rightS)).toOption = some (objPa 16) ∧
    s.inDesc (objPa 16) = false ∧ GoesOn s (fun _ => s.inScope s.rd.cr.scope (objPa 16)) [(objPa 16, 16)] ∧ s.badWord (s.g 1) [(objPa 16, 16)] = none ∧
    (s.g 2).toNat % 2 ^ 48 ≠ 0 ∧ (s.g 2).toNat / 2 ^ 48 = 0 ∧ s.phaseWaiters (objPa 16) = [] ∧ w.phaseWaiters (objPa 16) = [1] ∧
    (p.readW (objPa 16)).toNat % 2 ^ 16 = (s.g 3).toNat % 2 ^ 16 ∧ (p.readW (objPa 16)).toNat / 2 ^ 48 = 5 := by unfold GoesOn; decide +kernel


/-- A pool of waiters that is full, a word that is poisoned, and a word that its holder gives up to a waiting `lrw`. -/
theorem witness_SynchronisingWords_refusals :
    let s := stacked [(1, objEa 8)]
    let bad := s.setBad (objPa 8) true
    let w : Wait := .fullEmpty (objPa 8)
    let p := run 0 { regs [] with cr := { CRs.zero with pstate := 8 } }
    bad.isBad (objPa 8) = true ∧ bad.isFull (objPa 8) = true ∧ bad.holder (objPa 8) = none ∧ (queued []).inDesc (objPa 64) = true ∧
    (s.resolve 0 (objEa 0x4000) rightS).toOption = none ∧ p.rd.pure = true ∧ ownTcmForm p.core (objEa 8) = false ∧ w.word = some (objPa 8) ∧
    (s.waiting fun w => w.word.isSome).length = 0 ∧ s.holder (objPa 8) ≠ some s.rd.key := by decide +kernel

/-- A room that fits and one that does not, at one station; an item beyond the last, an address that is no handle, and a handle of no object. -/
theorem witness_Handles_rooms :
    let s := stacked [(1, 0x1000)]
    (State.placements s 0 1 0x60 1).isSome = true ∧ State.placements s 0 32769 0x60 1 = none ∧ 0x60 / 2 ^ 5 % 4 = 3 ∧ s.placesTaken.count (groupOf 0 0) ≤ 2048 ∧ 7 ≤ (7#5).toNat ∧ (s.g 1).toNat / 2 ^ 60 ≠ 4 ∧
    (s.resolveHandle 0 (objEa 0 + 0x10000000000)).toOption = none ∧ (s.resolve 0 (objEa 0 + 0x10000000000) 0).toOption = none ∧
    (s.waiting fun w => match w.word with | some x => decide (objPa 0 ≤ x ∧ x < objPa 0 + 2 ^ 40) | none => false) = [] := by decide +kernel

/-- Targets and entries of `rupd` that trap, and a window address on a host that does no atomics. -/
theorem witness_MemorySideAtomics_traps :
    let s := stacked [(1, objEa 4), (2, 0x1000), (3, objEa 0x4000)]
    let w := { one [(1, 0x8000000000000008)] with tlb := [⟨0, 0, 0, 0, 0x500F⟩], mgmt := { Mgmt.reset with atomics := false } }
    (s.g 1).toNat % 8 ≠ 0 ∧ (s.g 2).toNat / 2 ^ 60 ≠ 4 ∧ (s.resolve 0 (s.g 3) rightS).toOption = none ∧ paHost 0x5008 / 2 ^ 60 = 8 ∧ w.mgmt.atomics = false ∧
    (s.setBad (objPa 8) true).isBad (objPa 8) = true ∧ s.mustQueue (.amo gd 5 1 2 .plain .add) = false := by decide +kernel

/-- Queues in each mode, a pool that is short, options that `qmake` refuses, and a queue with a busy operation. -/
theorem witness_Queues_refusals :
    let s := { queued [(1, objEa 128), (2, 0x0100), (3, 0x0103), (4, 0x0901)] with tenants := [(7, 8)] }
    let q (m : Nat) : State := s.setQueue (objPa 64) { s.queue (objPa 64) with mode := m, entries := [(5, false), (7, true)] }
    let b := s.setSlot 1 (parked (.park (.queue (objPa 64)) (.qpop gd 5 1 2 .qwin true) [] 0) (regs [(1, objEa 65)]))
    ((q 0).queue (objPa 64)).mode = 0 ∧ ((q 2).queue (objPa 64)).mode = 2 ∧ ((q 2).queue (objPa 64)).entries.length = 2 ∧
    ((s.g 2).toNat < 2 ^ 16 ∧ (s.g 2).toNat / 8 % 32 = 0 ∧ (s.g 2).toNat % 4 ≠ 3 ∧ (s.g 2).toNat % 8 ≠ 4 ∧ (s.g 2).toNat / 2 ^ 8 % 2 ^ 8 = 1) ∧
    (s.g 3).toNat % 4 = 3 ∧ s.poolFree 0 < (s.g 4).toNat / 2 ^ 8 % 2 ^ 8 ∧ (b.slot 1).st = .park (.queue (objPa 64)) (.qpop gd 5 1 2 .qwin true) [] 0 := by
  decide +kernel

/-- A saved thread beside its record, all zero, bound to no core; slots that it fits and does not; a record that is bad. -/
theorem witness_TasksAndSaves_load :
    let t := withObj 0x2F (one [])
    let s := { t with spilled := [⟨7, 0, 0, 0, 0, 1, objPa 0, true, false, false, [], 0⟩],
                      launches := [⟨0, 0, Vector.replicate 16 0, false, false, false, [], [], [], []⟩] }
    let w : Nat → W64 := fun _ => 0
    (s.readW (objPa 0) = 0 ∧ recordOk w = true) ∧ (s.savedFor 0 0 0 (objPa 0)).isSome = true ∧ (t.savedFor 0 0 0 (objPa 0)) = none ∧
    s.slotFits w 0x100001 = true ∧ recordHome w = none ∧ s.slotFits w 0 = false ∧ recordHome (fun j => if j = 72 then 3 else 1) = some 1 ∧
    ({ s with bad := [(objPa 8, true)] }).firstBad (objPa 0) 16 = some 8 ∧ s.firstBad (objPa 0) 16 = none := by decide +kernel

/-- Entries for `tcall`: one whose group is the caller's, one on its chain, one of another group with a clear walk; a store that is full. -/
theorem witness_AnswerTable_calls :
    let home := callHome 0 0x2000 []
    let way := (State.takeWay (one []) 0 home.1 home.2).1.getD 0
    let e : AtEntry := { AtEntry.free with st := .eval, key := .call 0x2000 [], producer := some 9, group := way }
    let s (x : AtEntry) : State := { one [(6, 0x2000)] with entries := [(way, x)], groups := [(way, ⟨0, false⟩)] }
    (s e).lookup home 0 (.call 0x2000 []) = some way ∧ (s e).myGroup ≠ some way ∧ (s e).myChain.contains way = false ∧
    (s e).walkGroups (s e).myGroup 9 [[way]] [way] = .clear ∧ (s { e with st := .complete }).lookup home 0 (.call 0x2000 []) = some way ∧
    (s { e with st := .failed }).lookup home 0 (.call 0x2000 []) = some way ∧ (s e).parkedLeaders = [] ∧ ((s e).entries.map Prod.fst).Nodup := by
  decide +kernel

/-- A state whose thread names with r the entry x, which leads the group g. -/
def producing (r : W64) (x : AtEntry) (g : AtGroup) : State :=
  { run 0 { regs [] with cr := { CRs.zero with tabent := r } } with entries := [(9, x)], groups := [(9, g)] }

theorem producing_rd (r : W64) (x : AtEntry) (g : AtGroup) :
    (producing r x g).rd.cr.tabent = r ∧ (producing r x g).rd.ten = 0 ∧ (producing r x g).me.tid = 1 ∧ (producing r x g).entry 9 = x ∧
    (producing r x g).group 9 = g ∧ Issues gd (producing r x g) := ⟨rfl, rfl, rfl, rfl, rfl, rfl, rfl⟩

/-- A production: an entry in each state with a producer, which leads its group. -/
theorem witness_AnswerTable_production (x : AtEntry) (g : AtGroup) (hx : x.st ≠ .free) (ht : x.tenant = 0) (hp : x.producer = some 1) :
    ∃ s : State, s.production = some 9 ∧ s.entry 9 = x ∧ s.group 9 = g ∧ Issues gd s := by
  obtain ⟨r, h⟩ : ∃ r, r = BitVec.ofNat 64 (9 + genOf 9 x.adv * 2 ^ 21) := ⟨_, rfl⟩
  obtain ⟨a, b, c, d, e, f⟩ := producing_rd r x g
  have w := State.wayOf_refOf (producing r x g) 9 0 (by decide) (by decide) (d ▸ hx)
  rw [State.refOf, d, ht, Nat.zero_mul, Nat.add_zero, ← h] at w
  have n : r ≠ 0 := by
    have := genOf_bounds 9 x.adv
    intro z
    have : r.toNat = 0 := by rw [z]; rfl
    rw [h, BitVec.toNat_ofNat] at this; omega
  refine ⟨producing r x g, ?_, d, e, f⟩
  rw [State.production, a, b, c, if_neg n]
  rw [show (0 : W64).toNat = 0 from rfl] at w
  rw [w]; simp only [d, hp, if_true]

/-- The groups of a production: clean and changed; an answer store that is full and one that has room. -/
theorem witness_AnswerTable_group :
    let e : AtEntry := { AtEntry.free with st := .eval, producer := some 1, group := 9 }
    let s (d : Bool) : State := { one [] with entries := [(9, e)], groups := [(9, ⟨0, d⟩)], tenants := [(9, 0x200000002)] }
    (s false).pending 9 ≤ 1 ∧ ((s false).group 9).dirty = false ∧ ((s true).group 9).dirty = true ∧ (s true).answerRoom 0 (9 / 2 ^ 18) = true ∧
    (s true).consumers 9 = [] := by decide +kernel
/-! ## States for the statements on steps of the device -/

/-- Slots that wait for a fetch, a reply, a trap, a `quit`, a deadline and for dead threads, that load, drain and run. -/
theorem witness_SlotEvents :
    let s (st : SlotSt) : State := State.reset.setSlot 5 (parked st (regs []))
    let w (x : Wait) : State := s (.park x (.cnop gd) [] 0)
    let k (l : List Nat) : State := s (.park (.kill 2 l) (.kill gd 5 1 0) [] 0)
    let v := s (.park (.save 9 (objEa 0)) (.svsl gd 5 1 2) [] 0)
    ((w .fetch).slot 5).wait = some .fetch ∧ ((w (.reply none)).slot 5).wait = some (.reply none) ∧
    ((w (.reply (some ⟨9, 0⟩))).slot 5).wait = some (.reply (some ⟨9, 0⟩)) ∧ ((w .quit).slot 5).wait = some .quit ∧ ((w .quit).slot 5).out = [] ∧
    ((w (.wait 3)).slot 5).wait = some (.wait 3) ∧ (w (.wait 3)).cycle < 3 ∧ ((w (.wait 0)).cycle = 0) ∧ ((s .resv).slot 5).st = .resv ∧
    ((s (.drain false (.reply none) (.cnop gd) [] 0)).slot 5).st = .drain false (.reply none) (.cnop gd) [] 0 ∧
    ((k [77]).slot 5).st = .park (.kill 2 [77]) (.kill gd 5 1 0) [] 0 ∧ (∀ y ∈ (k [77]).threads, y.1 ∉ [77]) ∧ (∃ y ∈ (k [9]).threads, y.1 ∈ [9]) ∧
    (v.slot 5).st = .park (.save 9 (objEa 0)) (.svsl gd 5 1 2) [] 0 ∧ (v.slot 9).st.spilling = false ∧
    ((v.setSlot 9 (parked (.saving false (.cnop gd)) Ctx.zero)).slot 9).st.spilling = true ∧ (w .fetch).fetchHeld 5 = false ∧
    ((w .fetch).fetchFrom (regs []) 5 none).toOption = some (paTcm 5 0x1000) ∧ (s .run).readyRecord 5 = none := by
  decide +kernel

/-- A completion record that a slot takes. -/
theorem witness_SlotEvents_record :
    let c : Ctx := { regs [] with cr := { CRs.zero with uivec := 0x3000 } }
    let s := (State.reset.setSlot 5 { Slot.free with st := .run, tid := 9, ctx := c }).setEng 5 { CopyEng.idle with recs := [⟨3, 9, 0x3000, 1, 2, 0, 7⟩] }
    let t := s.setEng 6 { CopyEng.idle with recs := [⟨4, 9, 0x3000, 1, 2, 0, 5⟩] }
    (s.readyRecord 5).map Prod.fst = some 5 ∧ (t.readyRecord 5).map Prod.fst = some 6 := by decide +kernel

/-- Threads that leave, land, are sent back, are admitted, spilled, written and resumed. -/
theorem witness_TravelEvents :
    let x (w : Wait) : Slot := parked (.park w (.migr gd 1) [] 0) (regs [])
    let m := State.reset.setSlot 5 (x (.migrate 1 0x1000000100000000 false [3]))
    let p (k : PktKind) : Pkt := ⟨4, k, some 5, 7, regs [], 2, 1, none, false, false, 0, [], none, []⟩
    let t (k : PktKind) : State := { State.reset with pkts := [p k] }
    let l := { State.reset with pkts := [{ p .task with landed := true }] }
    let full := (coreSlots 1).foldl (fun s k => s.setSlot k (parked .run (regs []))) l
    (m.slot 5).wait = some (.migrate 1 0x1000000100000000 false [3]) ∧ (m.slot 5).out = [] ∧
    (t (.migrant 5 0x1000000100000000 false)).travelling 4 = some (p (.migrant 5 0x1000000100000000 false)) ∧
    (t (.migrant 5 0x1000000100000000 false)).inOrder (p (.migrant 5 0x1000000100000000 false)) = true ∧
    (t .task).migrantTrap (p (.migrant 5 0x1000000100000000 false)) 0x1000000100000000 = none ∧
    ({ t .task with towner := [(1, 9)] }.migrantTrap { p .task with ctx := { regs [] with cr := { CRs.zero with tenant := 5 } } } 0x1000000100000000).isSome = true ∧
    (t .task).landed 1 = [] ∧ (t (.spawn 5 9 true)).slotFor (p (.spawn 5 9 true)) = some 1 ∧ (l.landed 1).length = 1 ∧ l.slotFor { p .task with landed := true } = some 1 ∧
    full.slotFor { p .task with landed := true } = none ∧ l.landingVictim 1 = none := by decide +kernel

/-- A thread that is written to its record: where it goes is its tenant's pool. -/
theorem witness_TravelEvents_spill :
    let x : Slot := parked (.drain true (.reply none) (.cnop gd) [] 0) (regs [])
    let y := State.reset.setSlot 5 (parked (.saving true (.cnop gd)) (regs []))
    let s := State.reset.setSlot 5 x
    (s.slot 5).st = .drain true (.reply none) (.cnop gd) [] 0 ∧ (y.slot 5).st = .saving true (.cnop gd) ∧ (s.slot 5).out = [] ∧ s.owns 5 = false ∧ s.saver 5 = none := by decide +kernel

/-- Operations in flight that their arbiters may take, wake-ups, and requests in a Welt. -/
theorem witness_ArbiterEvents :
    let s (i : Instr) (l : List Byte) : State := (withObj 0x2F State.reset).setSlot 5 (parked (.park .flight i l 0) (regs [(1, objEa 8), (2, 0x1000000100000000), (3, 1)]))
    let f := s (.ldfe gd 5 1 .plain) []
    let d := s (.sendL gd 2 1 3 8) [1, 2, 3, 4, 5, 6, 7, 8]
    let w : Wake := ⟨4, 1, 2, 0x55, 0x66, 0, false, 0⟩
    let v := { State.reset with wakes := [w] }
    let q (id slot : Nat) (held : Bool) : WeltReq := ⟨id, [(slot, 0)], objPa 8, .amo gd 5 1 2 .plain .add, 0, 4, 5, 0, 3, 3, held, 20⟩
    let y := { State.reset with welt := [q 1 10 true, q 2 11 false] }
    (f.slot 5).st = .park .flight (.ldfe gd 5 1 .plain) [] 0 ∧ packetsOf 5 (.ldfe gd 5 1 .plain) (f.slot 5).ctx = none ∧
    f.weltOf 5 = none ∧ ((f.slot 5).ctx.getG 1).toNat / 2 ^ 60 ≠ 8 ∧ (d.slot 5).out = [] ∧ (d.slot 5).ctx.holds gd = true ∧ (d.slot 5).ctx.pure = false ∧
    d.overtakes 3 (caCore 5) 0 [1] = false ∧ d.runOk 1 0 8 = true ∧ NoWaiters d 1 ∧ v.wakes.find? (fun u => u.id == 4) = some w ∧
    v.overtakes 3 0 4 [1] = false ∧ (w.tenant = 0 ∨ (v.tcmOwner 1).toNat = w.tenant) ∧ (v.box 1 2).ents.length < 4 ∧
    y.welt.find? (fun r => r.id == 2 && !r.held && decide (r.stage < 10)) = some (q 2 11 false) ∧
    (y.heldWith (q 2 11 false)).find? (q 2 11 false).pairs = some (q 1 10 true) ∧ MaySend (resumed d 5) (caTileOf 1) := by
  unfold NoWaiters MaySend; decide +kernel

theorem witness_ArbiterEvents_replies :
    let i : Instr := .amo gd 5 1 2 .plain .add
    let q (st : SlotSt) (tr : Option (BitVec 8)) : State :=
      { State.reset.setSlot 11 (parked st (regs [(1, objEa 8)])) with replies := [⟨3, [(11, 7), (12, 8)], 100, tr⟩] }
    let s := q (.park (.combined 3) i [] 0) none
    let d := q (.drain false (.combined 3) i [] 0) (some 0x0A)
    s.replies.find? (fun r => r.id == 3) = some ⟨3, [(11, 7), (12, 8)], 100, none⟩ ∧ (s.slot 11).st = .park (.combined 3) i [] 0 ∧
    (d.slot 11).st = .drain false (.combined 3) i [] 0 ∧
    after (exec (.combinedReplySplit 3) s) (fun t => (t.slot 11).ctx.getG 5 == 107 && t.replies == [⟨3, [(12, 8)], 100, none⟩]) ∧
    after (exec (.combinedReplySplit 3) d) (fun t => (t.slot 11).st == .drain false (.reply (some ⟨0x0A, objEa 8⟩)) i [] 0) := by
  decide +kernel

/-- A transfer from an object to the TCM of core 0, which waits, which runs, and which is over. -/
def request : CopyReq :=
  ⟨3, 1, 0, packageRect, false, objEa 0, 0x1000000000000000, 64, 2, false, false, false, 0, 0, [0], true, 0, [], 0, [], none, none, 0,
    none, none, none⟩

/-- The state in which core 0 holds it, changed by f. -/
def copying (f : CopyReq → CopyReq) : State := (withObj 0x2F State.reset).setEng 0 { CopyEng.idle with reqs := [f request] }

theorem witness_EngineEvents :
    let s := copying id
    let wait := copying fun r => { r with running := false }
    let p := copying fun r => { r with held := [(0, 1)], staged := List.replicate 8 (7, false) }
    let e := copying fun r => { r with done := 64, targets := [], dst := objEa 0x1000 }
    let rt := copying fun r => { r with retry := some 0 }
    (wait.eng 0).reqs.find? (fun r => !r.running) = some { request with running := false } ∧ ((wait.eng 0).reqs.filter fun r => r.running).length < 4 ∧
    (s.copyReq 0 3).isSome = true ∧ (s.copyReq 0 3).map CopyReq.moving = some true ∧ (s.copyReq 0 3).map (fun r => r.chunk.n) = some 64 ∧
    (s.copyReq 0 3).map (fun r => r.chunk.core) = some (some 0) ∧ (s.stageWords 0 request 8 (objEa 0)).toOption.isSome = true ∧
    (p.copyReq 0 3).map (fun r => decide (r.chunk.n ≤ 8 * r.staged.length)) = some true ∧ s.runOk 0 0 64 = true ∧ NoWaiters s 0 ∧
    (s.copyReq 0 3).map CopyReq.need = some 1 ∧ s.permitQueue 0 = [] ∧ s.permit 0 2 = 0 ∧ (rt.copyReq 0 3).map CopyReq.retry = some (some 0) ∧
    (e.copyReq 0 3).map (fun r => (r.done, r.wake, r.wakes, r.intr, r.fault)) = some (64, false, none, false, none) ∧ s.waiting (· == Wait.copyFifo) = [] := by
  unfold NoWaiters
  and_intros <;> decide +kernel

/-- A command that an idle unit takes, and a window address that no node maps. -/
theorem witness_EngineEvents_unit :
    let s := State.reset
    let c : MatCmd := ⟨0, 1, 0, false, 1, 0, 0, 0, 0, none, none, 0, 0, s.matRegs 0 Ctx.zero, 1, 0, 0, 0, false, 0⟩
    let u := s.setUnit 0 { MatUnit.idle with claimed := true, owner := 7, queue := [c] }
    (u.unit 0).op = none ∧ (u.unit 0).ending = false ∧ u.ownWaiting 0 = none ∧ (u.unit 0).queue = [c] ∧ c.alignTrap = none ∧
    u.cmdTrap 0 0 (u.slot 7).ctx c = none ∧ s.cached 0 0 0 = none ∧ s.walk 0 0 4 (s.tt 0 3) = none := by decide +kernel

/-- The last level of a walk. -/
theorem witness_EngineEvents_walk :
    let node (s : State) (k : Nat) : State := s.writeW (objPa (k * 0x1000)) (BitVec.ofNat 64 (2 ^ 40 + (k + 1) * 0x1000 + 1))
    let s := { one [] with objs := [(1, { Obj.none with used := true, size := 0x5000, opts := 0x2F })], tenants := [(3, objEa 0)] }
    let s := (node (node (node (node s 0) 1) 2) 3).writeW (objPa 0x4000) 0x700F
    s.walk 0 0 4 (s.tt 0 3) = some 0x700F := by decide +kernel

/-- Blocks that stand, that are in motion; groups in service; layers in each state; units that no thread holds. -/
theorem witness_BoardEvents :
    let s := withObj 0x2F State.reset
    let d := groupOf 1 3
    let m := { s with blks := [(blkKey 0 1 1, ⟨none, false, some d⟩)] }
    let l := { s with layers := [(3, 1), (9, 3)] }
    s.mgmt.stalled = false ∧ Stands s 0 1 1 ∧ (s.blk 0 1 1).dest = none ∧ coreAddressOk (BitVec.ofNat 64 d) = true ∧ caKind d = .bank ∧ caSlot d = 0 ∧
    s.inService d = true ∧ s.layer (caDie d) (caLayer d) < 2 ∧ caDie d = caDie (s.blockHome 0 1 1) ∧ d ≠ s.blockHome 0 1 1 ∧ s.inMotion 0 < 64 ∧
    (m.blk 0 1 1).dest = some d ∧ l.layer 0 3 = 1 ∧ l.layer 1 1 = 3 ∧ l.layer 0 0 < 2 ∧
    (∀ x ∈ s.liveBlocks, ¬(caDie (s.blockHome x.1 x.2.1 x.2.2) = 0 ∧ caLayer (s.blockHome x.1 x.2.1 x.2.2) = 5)) ∧
    s.coreHolds 4 (· != 0) = false ∧ (∀ c ∈ clusterCores 33, s.coreHolds c (· != 0) = false) := by
  unfold Stands; decide +kernel

/-- A function that is there, writes that complete nothing and a command, a push, a launch and its end. -/
theorem witness_HostAndDispatchEvents :
    let s := { State.reset with mgmt := { Mgmt.reset with ready := true }, tenants := [(160, 1)] }
    let y : HostFn := { HostFn.reset with marks := 0x7FFF, cmd := [(0, 9)] }
    let l : Launch := ⟨0, 4, #v[0x2000, 0x00010001, 0x40, 0, 0, 0x00010001, 0, 0, 0, 0, 0, 0, 0, 0, 0, 0], false, false, false, [0], [], [], []⟩
    let h := { s with launches := [l], tenants := [(8, 100)] }
    let over_ := { s with launches := [{ l with toDies := [] }] }
    (s.stopped = false ∧ 5 < 256 ∧ (s.mgmt.ready = true ∨ 5 = 0 ∧ s.mgmt.recov = true) ∧ ((s.tt 5 0).getLsbD 1 = false ∨ false = true ∧ (s.fn 5).ide = true)) ∧
    (s.fn 5).taken.getLsbD 1 = false ∧ Incomplete (s.fn 5) 32 ∧ (s.fn 5).busy = false ∧ y.marks ||| 0x8000#16 = 0xFFFF ∧ (s.fn 5).pushes = [] ∧
    (queued []).liveQueue 0 (objEa 65) = some (objPa 64) ∧ s.liveQueue 5 (s.tt 5 1) = none ∧ h.launches[0]? = some l ∧ 0 ∈ l.toDies ∧
    h.taskCount 0 0 < (h.tt 0 8).toNat ∧ TableRoom h 0 1 ∧ caDie (caTile 1 0) = 0 ∧ h.coreEnabled (caTile 1 0) = true ∧ isCobbler (caTile 1 0) = false ∧
    over_.threads = [] ∧ over_.tasks = [] ∧ over_.resv = [] ∧ (over_.completionAt 0 0 (objEa 8)).toOption = none := by
  unfold Incomplete TableRoom; decide +kernel

/-- A task that is READY beside a core on which it fits. -/
theorem witness_HostAndDispatchEvents_task :
    let x : Task := { Task.free with st := .ready, f := #v[0x2000, 0, 0, 0, 0, 0, 0, 0x001F001F] }
    let l : Launch := ⟨0, 0, #v[0x2000, 0x001F001F, 0x40, 0, 0, 0, 0, 0, 0, 0, 0, 0, 0, 0, 0, 0], false, false, false, [], [], [], []⟩
    let s := { State.reset with tasks := [(3, x)], launches := [l], tenants := [(0, 1), (8, 100)] }
    (s.launch 0 0).isSome = true ∧ s.taskFits 0 x (caTile 31 0) = true ∧ (s.dispatchSlots (caTile 31 0) false).head?.isSome = true ∧
    s.nextStart 0 = some ⟨x.cls, x.tenant.toNat, 1, x.order⟩ := by decide +kernel

/-- Zones that are cool and hot; memory that its owner has left; a command that runs. -/
theorem witness_ManagementEvents :
    let s := State.reset
    let f := { s with fns := [(5, { HostFn.reset with busy := true, cmd := [(0, 1)] })], mgmt := { s.mgmt with ready := true } }
    s.mgmt.stalled = false ∧ (∀ e ∈ s.mgmt.temp, e.2.toNat < 125) ∧ (∃ j, j < 144 ∧ 125 ≤ ((([125] : List Byte)[j]?).getD 0).toNat) ∧
    s.coreHolds 3 (fun k => k == (s.tcmOwner 3).toNat) = false ∧ ({ s with slots := [(3, parked .run Ctx.zero)] }.coreHolds 3 fun k => k == 0) = true ∧
    (f.mgmt.ready = true ∧ 5 < 256) ∧ (f.fn 5).busy = true ∧ (smGet 0 (f.fn 5).cmd 0).toNat = 1 := by
  refine ⟨by decide, by decide, ⟨0, by decide⟩, ?_⟩; decide +kernel

/-! ## States for the statements on steps -/

/-- A turn whose bundle decodes to halves that both run, from the agenda and as the fixed schedule gives it. -/
theorem witness_StepRunsDecodedBundle :
    let s := State.reset.withFetchWord 32 0x080A6003
    let n := { s with agenda := [] }
    let t := State.beginTurn n 0 .plain
    s.agenda = [.turn 0 .plain] ∧ s.stopped = false ∧ n.dueEvents = [] ∧ n.nextMove = .turn 0 .plain ∧ (t.slot 0).st = .run ∧ (t.slot 0).pend = none ∧
    t.readyRecord 0 = none ∧ (t.fetchFresh 0).toOption = some 0x080A6003_00000000 ∧ (t.slot 0).ctx.rep.act = false ∧
    (decodeBundle 0x080A6003_00000000).isSome = true ∧ caKind 0 = .compute ∧ isReset .move = false := by decide +kernel

theorem witness_BundleRoundTrip :
    let b : Bundle := ⟨.cnop gd, .add gd 1 2 3, false⟩
    let c : Bundle := ⟨.j gd 5 7, .anop .always, true⟩
    b.c.wf = true ∧ b.a.wf = true ∧ clash b.c b.a = false ∧ (encodeBundle b).isSome = true ∧ c.c.wf = true ∧ clash c.c c.a = false ∧
    (encodeBundle c).isSome = true := by decide

theorem witness_CanonicalMemoryKept :
    let s := State.reset.withFetchWord 32 0x080A6003
    Safety.memoryOk s = true ∧ after (step s) (fun _ => true) = true := by decide +kernel

/-! ## The other clauses of the statements on steps of the device -/

/-- Packets in and out of order, a buffer that is full, a spawn that stands behind another, and a migrant that its target refuses. -/
theorem witness_TravelEvents_order :
    let p (id : Nat) (k : PktKind) (landed : Bool) : Pkt := ⟨id, k, some 5, 7, regs [], 2, 1, none, false, landed, 0, [], none, []⟩
    let s (l : List Pkt) : State := { State.reset with pkts := l }
    (s [p 3 .task false, p 4 .task false]).inOrder (p 4 .task false) = false ∧ (s [p 3 .task false, p 4 .task false]).inOrder (p 3 .task false) = true ∧
    4 ≤ ((s [p 1 .task true, p 2 .task true, p 3 .task true, p 4 .task true]).landed 1).length ∧
    (∃ q ∈ (s [p 3 .task true]).landed 1, q.slot = none) ∧ (s [p 4 (.spawn 9 9 false) false]).slotFor (p 4 (.spawn 9 9 false) false) = some 1 := by decide +kernel

/-- A core whose slots all run, with a thread that has waited, and the pool to spill to; a task that waits for its class. -/
theorem witness_TravelEvents_victims :
    let x : Slot := { parked .run (regs []) with cls := 5 }
    let p : Pkt := ⟨4, .task, none, 7, regs [], 2, 1, none, false, true, 0, [], none, []⟩
    let pool (s : State) : State := { s with objs := [(1, { Obj.none with used := true, size := 0x5000, opts := 0x2F })], tenants := [(4, 1)] }
    let all := pool ((coreSlots 1).foldl (fun s k => s.setSlot k x) { State.reset with pkts := [p], cycle := 20000 })
    let y : Task := { Task.free with st := .ready, f := #v[0x2000, 0, 0, 0, 0, 0, 0, 0x00010001] }
    let t := { all with pkts := [], tasks := [(3, y)] }
    all.landingVictim 1 = some 1 ∧ (all.landed 1).head? = some p ∧ ((all.slot 1).st = .run ∧ (all.slot 1).out = [] ∧ all.poolRoom 0 = true ∧ all.owns 1 = false) ∧
    { all with cycle := 9 }.cycle < max p.since (smGet 0 all.freedAt 1) + 4096 ∧ y.since + 16384 ≤ t.cycle ∧ t.classVictim 0 y = some 1 ∧ t.poolRoom 0 = true := by
  decide +kernel

/-- A record of the pool for a spill, and a thread that was spilled in `isync`, comes next and may resume in a free slot of its core. -/
theorem witness_TravelEvents_resume :
    let s := { State.reset with objs := [(1, { Obj.none with used := true, size := 0xA000, opts := 0x2F })], tenants := [(4, 1), (5, 1)],
                                spilled := [⟨7, 0, 0, 0, 2, 5, paStack 0 (2 ^ 62 + 2 ^ 40), false, false, true, [], 3⟩],
                                launches := [⟨0, 0, Vector.replicate 16 0, false, false, false, [], [], [], []⟩] }
    (s.recordFor 0 0 = some (paStack 0 (2 ^ 62 + 2 ^ 40 + 0x5000)) ∧ (s.recordFor 0 1).isSome = true) ∧ s.runHeld (paStack 0 (2 ^ 62 + 2 ^ 40)) 0x5000 = false ∧
    s.landed 5 = [] ∧ s.nextStart 0 = some ⟨2, 0, 0, 3⟩ ∧ s.mayResume ⟨7, 0, 0, 0, 2, 5, paStack 0 (2 ^ 62 + 2 ^ 40), false, false, true, [], 3⟩ (fun _ => 0) 5 = true ∧
    s.runGone (paStack 0 (2 ^ 62 + 2 ^ 40)) 0x5000 = false ∧ ({ s with layers := [(0, 3)] }).runGone (objPa 0) 8 = true := by decide +kernel

/-- Stores that wait; a queue reference in force; atomics of the window; and requests on the two inputs of a switch in one cycle. -/
theorem witness_ArbiterEvents_ties :
    let o : OutStore := ⟨[(objPa 0, [1])], objEa 0, 0⟩
    let s := (withObj 0x2F State.reset).setSlot 5 { parked .run (regs [(1, objEa 65)]) with out := [o, o] }
    let q : State := (queued [(1, objEa 65)]).setSlot 5 (parked (.park .flight (.qcnt gd 5 1) [] 0) (regs [(1, objEa 65)]))
    let r (id src : Nat) (held : Bool) : WeltReq := ⟨id, [(id, 0)], objPa 8, .amo gd 5 1 2 .plain .add, 0, 4, 5, src, 3, 3, held, 20⟩
    ((s.slot 5).out[1]? = some o ∧ (∃ p ∈ (s.slot 5).out.take 1, p.meets o.spans = true)) ∧ s.storeHeld o = false ∧
    { s with layers := [(0, 1)] }.storeHeld o = true ∧ ((resumed q 5).queueRef (objEa 65)).isOk = true ∧ q.isHeld (objPa 64) = false ∧ q.weltOf 5 = none ∧
    (0x8000000000000000#64 : W64).toNat / 2 ^ 60 = 8 ∧
    ((r 1 64 true).expires = { s with cycle := 16 }.cycle + (r 1 64 true).win ∧ (r 2 0 false).src / 2 ^ (9 - 3) % 2 = 0 ∧ (r 1 64 true).src / 2 ^ (9 - 3) % 2 = 1) := by
  decide +kernel

/-- A command under way to a unit that its capability names; a K-step on zeros; a chunk that is to be fetched; permits that are at hand. -/
theorem witness_EngineEvents_more :
    let u := owning [] id
    let data := leBytes 8 (u.capability 0).toNat ++ List.replicate 56 0
    let s := u.setSlot 5 (parked (.park .flight (.mcmd gd 6 1 2) data 9) (regs []))
    let c : MatCmd := { MatCmd.blank 0 (u.matRegs 0 Ctx.zero) 0 with kind := 1, steps := 2 }
    let w := u.setUnit 0 { u.unit 0 with op := some ⟨c, true, 0, false⟩ }
    let k := { copying id with permits := [(2, 4)] }
    ((s.slot 5).st = .park .flight (.mcmd gd 6 1 2) data 9 ∧ (s.slot 5).out = [] ∧ s.overtakes 4 5 9 [0] = false ∧ (s.unit 0).claimed = true) ∧
    (BitVec.ofNat 64 (leNat (data.take 8)) = s.capability 0 ∧ (s.unit 0).queue.length < 4 ∧ (s.unit 0).fault = false) ∧
    (w.kstep 0 0 c 0 ((w.unit 0).tile 0)).toOption.isSome = true ∧ k.permit 0 2 ≠ 0 ∧ k.permitQueue 0 = [] ∧
    k.overtakes 3 (2 ^ 19) k.stamp [0] = false := by decide +kernel

/-- Banks with and without spares, with threads on their core; taps, and the room that a stack has left. -/
theorem witness_BoardEvents_spares :
    let t : Slot := parked .run { regs [] with cr := { CRs.zero with tenant := 5 } }
    let s := { State.reset.setSlot 4 t with spareRows := [(67, 4)], spadFails := [(1, 4)] }
    smGet 0 State.reset.spareRows 67 < 4 ∧ 4 ≤ smGet 0 s.spareRows 67 ∧ s.coreHolds 4 (· != 0) = true ∧ s.tcmOk 4 0x6000 = true ∧
    { s with tbankOut := [(4, 8)] }.tcmOk 4 0x6000 = false ∧ 4 ≤ smGet 0 s.spadFails 1 ∧ smGet 0 State.reset.spadFails 1 < 4 ∧
    (∃ c ∈ clusterCores 1, s.coreHolds c (· != 0) = true) ∧ { s with spad32 := [(1, true)] }.spad32 = [(1, true)] ∧
    ((withObj 0x2F State.reset).objs.map Prod.fst).Nodup ∧ (∀ e ∈ (withObj 0x2F State.reset).objs, e.2.size ≤ 2 ^ 40) := by decide +kernel

/-- Functions that are not there, busy and cut off; a record that is taken; a queue of a tenant with a launch record; units to dispatch again. -/
theorem witness_HostAndDispatchEvents_more :
    let s := { State.reset with mgmt := { Mgmt.reset with ready := true }, tenants := [(160, 3)], fns := [(6, { HostFn.reset with taken := 2, busy := true })] }
    let q := { queued [] with tenants := [(0, 1), (1, objEa 65), (7, 8)] }
    let l : Launch := ⟨0, 4, Vector.replicate 16 0, false, false, false, [], [], [], [(0, 7)]⟩
    let r := { State.reset with launches := [l] }
    let here := r.setSlot 5 (parked .run { regs [] with cr := { CRs.zero with wid := 7, lnum := 4 } })
    ((s.tt 5 0).getLsbD 1 = true ∧ (s.fn 5).ide = false) ∧ (s.fn 6).taken.getLsbD 1 = true ∧ (s.fn 6).busy = true ∧ State.reset.mgmt.ready = false ∧
    q.liveQueue 0 (q.tt 0 1) = some (objPa 64) ∧ (q.queue (objPa 64)).entries.length < 2 ∧ q.isHeld (objPa 64) = false ∧ q.runGone (objPa 64) 64 = false ∧
    q.parkedAt (objPa 64) true = [] ∧ r.launches[0]? = some l ∧ l.redo = (0, 7) :: [] ∧ shapeLow (l.at_ 2) 0 = 0 ∧ r.threads = [] ∧
    (∃ e ∈ here.threads, e.2.wid = 7) := by decide +kernel

/-- An export that a peer's access reaches, one that it does not, and words that fail it. -/
theorem witness_ManagementEvents_peers :
    let s := { stacked [] with tenants := [(21, 1)] }
    let q := { queued [] with tenants := [(21, 1)] }
    s.exportAt 0 8 (.load 8) = some (objPa 8) ∧ s.exportAt 0 0x4000 (.load 8) = none ∧ State.reset.exportAt 0 8 (.load 8) = none ∧
    s.peerFails (objPa 8) (.load 8) = none ∧ (s.setBad (objPa 8) true).peerFails (objPa 8) (.load 8) = some 9 ∧
    q.peerFails (objPa 64) (.store [1]) = some 15 ∧ s.runHeld (objPa 8) 8 = false := by decide +kernel

/-- A hot zone; a tenant of which the stream is cut; the commands that run, and a blob that is long enough. -/
theorem witness_ManagementEvents_commands :
    let s := { State.reset with mgmt := { Mgmt.reset with temp := [(1024, 115)] }, tenants := [(160, 2)],
                                fns := [(5, { HostFn.reset with busy := true, cmd := [(0, 2), (3, 29)] }), (6, { HostFn.reset with busy := true, cmd := [(0, 16)] })] }
    (∃ e ∈ s.mgmt.temp, e.1 / 512 = 2 ∧ 115 ≤ e.2.toNat) ∧ (∀ e ∈ s.mgmt.temp, e.2.toNat < 125) ∧ ((s.tt 5 0).getLsbD 1 = true ∧ (s.fn 5).ide = false) ∧
    ¬((s.tt 6 0).getLsbD 1 = true ∧ (s.fn 6).ide = false) ∧ (smGet 0 (s.fn 5).cmd 0).toNat = 2 ∧ 29 ≤ (smGet 0 (s.fn 5).cmd 3).toNat ∧
    (smGet 0 (s.fn 6).cmd 0).toNat = 16 ∧ (s.tcmOwner 3).toNat = 0 ∧ s.coreHolds 3 (fun k => k == 0) = false := by decide +kernel

/-- Turns whose fetch traps, waits and does not decode; a word that only compute cores have, on a station core; a replay that refuses its
bundle; halves of which one traps, parks and leaves. -/
theorem witness_StepRunsDecodedBundle_traps :
    let s := State.reset.withFetchWord 32 0x080A6003
    let at_ (k : Nat) (pc : W64) : State := (withObj 0x2F State.reset).setSlot k { Slot.free with st := .run, tid := 1, ctx := { regs [] with pc := pc } }
    let h := { at_ 0 (objEa 0) with layers := [(0, 1)] }
    let u := one []
    (at_ 0 (0x20000)).fetchFresh 0 = .error ⟨0x04, 0x20000⟩ ∧ h.fetchHeld 0 = true ∧ s.fetchHeld 0 = false ∧ decodeBundle 0x04081100_18040802 = none ∧
    caKind (2 ^ 19) ≠ .compute ∧ (0x80000000_00000000#64 : W64).toNat / 2 ^ 58 % 2 ^ 6 = 0x20 ∧ (decodeBundle 0x80000000_00000000).isSome = true ∧
    ({ RepBuf.empty with act := true, susp := false } : RepBuf).refuses 0 = false ∧ after (exec (.brk gd) u) (fun t => t.trapped == some ⟨0x11, 0⟩) ∧
    after (exec (.wait gd 1) (one [(1, 5)])) (fun t => !t.me.st.isRun && !t.me.leaving) ∧ after (exec (.ldb gd 5 1 .plain 0) (one [(1, 0x1000000100000000)])) (fun t => t.me.leaving) ∧
    after (step { State.reset with agenda := [.peer 0 0 (.load 8)] }) (fun t => t.agenda == []) ∧ isReset { State.reset with stopped := true }.nextAct.1 = false := by
  decide +kernel

/-! ## Rules on rare paths -/

/-- R242, R243, R301: a walk whose node sleeps makes its load wait; awake, the node is a pointer and the leaf below it is read. -/
theorem test_walk_waits :
    let node (s : State) (k : Nat) : State := s.writeW (objPa (k * 0x1000)) (BitVec.ofNat 64 (2 ^ 40 + (k + 1) * 0x1000 + 1))
    let s := { one [(1, 0x8000000000000008)] with objs := [(1, { Obj.none with used := true, size := 0x5000, opts := 0x2F })], tenants := [(3, objEa 0)] }
    let s := (node (node (node (node s 0) 1) 2) 3).writeW (objPa 0x4000) 0x700F
    let h := { s with layers := [(0, 1)] }
    after (exec (.ldd gd 5 1 .plain 0) h) (fun t => t.me.wait == some .flight) ∧ after (exec (.std gd 5 1 .relaxed 0) h) (fun t => t.me.wait == some .flight) ∧
    after (exec (.ldd gd 5 1 .plain 0) s) (fun t => t.me.wait == none && t.trapped == none) := by decide +kernel

/-- R11, R265, R294, R295: a record that would cover a queue's descriptor, and a slot of a Cobbler for a tenant that is not firmware. -/
theorem test_saves_refused :
    let c (t : W64) : Ctx := { regs [(1, 0x100001), (2, objEa 0), (3, BitVec.ofNat 64 (caCobbler 0))] with cr := { CRs.zero with pstate := 1, tenant := t } }
    let s (t : W64) : State := { run 0 (c t) with
      objs := [(1, { Obj.none with used := true, size := 0x6000, opts := 0x2F }), (5 * 2 ^ 20 + 1, { Obj.none with used := true, size := 0x6000, opts := 0x2F })] }
    let q := (s 0).setQueue (objPa 64) { Queue.none with live := true, base := 1 }
    trapsWith (exec (.svsl gd 5 1 2) q) ⟨0x0F, objEa 0⟩ ∧ !(trapsWith (exec (.ldsl gd 5 1 2) q) ⟨0x0F, objEa 0⟩) ∧
    trapsWith (exec (.ldsl gd 5 3 2) (s 5)) ⟨0x06, BitVec.ofNat 64 (caCobbler 0)⟩ ∧ after (exec (.ldsl gd 5 3 2) (s 0)) (fun t => t.trapped == none) := by
  decide +kernel

/-- R75, R166 (log entry 91), R193, R64: `split` beside a vector half keeps no upper half; a partner that goes to an entry of the landing
buffer is not joined. -/
theorem test_gang_corners :
    let p : Pkt := ⟨4, .task, none, 7, regs [], 2, 0, none, false, true, 0, [partner 0], none, []⟩
    let g := run 0 { vregs [] [(1, 2 ^ 600 + 7)] with cr := { CRs.zero with pstate := 4 } }
    let split : State → State := fun s => match exec (.split gd) s with | .next t => t | _ => s
    after (exec (.gang gd 5) { one [] with pkts := [p] }) (fun t => t.me.ctx.getG 5 == 1 && !t.me.ctx.gang) ∧
    after (exec (.gang gd 5) (one [])) (fun t => t.me.ctx.getG 5 == 0 && t.me.ctx.gang) ∧
    after (exec (.vmov gd 2 1 .i8) (split g)) (fun t => (t.me.ctx.v.toList)[2]?.getD 0 == 7) ∧
    after (exec (.vmov gd 2 1 .i8) g) (fun t => (t.me.ctx.v.toList)[2]?.getD 0 == 2 ^ 600 + 7) := by decide +kernel

/-- R101, R148: the word that fills the cache is corrected and counted. -/
theorem test_fetch_fill_corrects :
    let s := { State.reset.setSlot 5 (parked (.park .fetch (.cnop gd) [] 0) (regs [])) with flaws := [(paTcm 5 0x1000, true)] }
    after (exec (.fetchMissFill 5) s) (fun t => t.flaws == [] && smGet 0 t.ccount 0 == 1 && (t.slot 5).st.isRun) := by decide +kernel

/-- R248: the free quota, below what is in service whatever another tenant holds. -/
theorem test_hq_quota :
    let s := { one [(1, 0)] with tenants := [(6, 100)], objs := [(5 * 2 ^ 20 + 1, { Obj.none with used := true, size := 8192, homes := [0, 0] }),
      (1, { Obj.none with used := true, size := 4096, homes := [0] })] }
    gives (.hq gd 5 1 4) s 5 99 := by decide +kernel

/-- R131, R216: a table that a remote command of this core names is held while the other core performs it. -/
theorem test_table_held :
    let s := one [(1, objEa 0)]
    let c : MatCmd := { MatCmd.blank 0 { s.matRegs 0 Ctx.zero with fmta := 0x13 } 0 with kind := 1, sender := 0 }
    let u := s.setUnit 3 { MatUnit.idle with claimed := true, op := some ⟨c, false, 0, false⟩ }
    u.tableHeld 0 1 = true ∧ u.tableHeld 0 2 = false ∧ u.tableHeld 3 1 = true ∧ u.tableHeld 4 1 = false := by decide +kernel

/-- R62, R298: the count of a unit stands at its fault and rises when its work is dispatched again. -/
theorem test_retry_count :
    let l : Launch := { (⟨0, 4, Vector.replicate 16 0, false, false, false, [], [], [], []⟩ : Launch) with
      retries := [(0, 7, 2), (1, 7, 5)], redo := [(0, 7)] }
    let s := { State.reset with launches := [l] }
    after (exec (.containmentRetry 0) s) (fun t => (t.launches.map fun l => (l.retries, l.redo)) == [([(0, 7, 3), (1, 7, 5)], [])]) := by decide +kernel

/-- R371 to R373: the repair record keeps what is appended; nothing answers on a link that is down. -/
theorem test_board_corners :
    let s := { State.reset with mgmt := { Mgmt.reset with ready := true } }
    after (exec (.tcmBankRetirement 4 3) s) (fun t => t.mgmt.repairs == [(0, 67)]) ∧ (s.hostRead 0 0 false).isSome = true ∧
    ({ s with stopped := true }).hostRead 0 0 false = none := by decide +kernel

/-- R15, R195, R284: in one round the dispatch unit comes before a `tcan` that drains, `tcan` before `tdep`, and a landing before `recv`. -/
theorem test_due_order :
    let s (i : Instr) (drains : Bool) : State :=
      State.reset.setSlot 5 (parked (if drains then .drain false .flight i [] 0 else .park .flight i [] 0) (regs []))
    let at_ (i : Instr) (drains : Bool) (d : Due) : Nat := (s i drains).dueRank d
    let cancel := at_ (.tcan gd 5 1) true (.drainComplete 5)
    at_ (.tcan gd 5 1) true (.taskDispatch 0 3 1) < cancel ∧ at_ (.tcan gd 5 1) false (.operationComplete 5) = cancel ∧
    cancel < at_ (.tdep gd 5 1) true (.drainComplete 5) ∧ cancel < at_ (.tcan gd 5 1) true (.quitComplete 6) ∧
    at_ (.recv gd 5 1 2) false (.messageLanding 6) < at_ (.recv gd 5 1 2) false (.operationComplete 5) ∧
    at_ (.recv gd 5 1 2) false (.matrixKstepComplete 0) < at_ (.recv gd 5 1 2) false (.operationComplete 5) ∧
    at_ (.tdep gd 5 1) false (.operationComplete 5) < at_ (.kill gd 5 1 0) false (.operationComplete 5) ∧
    at_ (.tdep gd 5 1) false (.operationComplete 5) < at_ (.tdep gd 5 1) false (.resume 0 3) := by decide +kernel

/-- A station all of whose 4,096 entries hold threads that wait at one phase object. -/
theorem witness_FencesAndPhases_pool :
    let x (k : Nat) : Nat × Slot := (k, parked (.park (.phase (objPa 16)) (.pwait gd 5 1 2) [] k) (regs [(2, 5)]))
    let s := { stacked [(1, objEa 16)] with slots := (List.range 4096).map x }
    s.waitersFull (objPa 16) = true := by
  intro x s
  have e : ∀ w : Wait, w = .phase (objPa 16) →
      (match w.word with | some a => caTileOf (s.bankOf a) == caTileOf (s.bankOf (objPa 16)) | none => false) = true := by
    rintro w rfl; simp [Wait.word]
  unfold State.waitersFull State.waiting
  simp only [List.length_map, length_sortBy, decide_eq_true_eq, List.length_filterMap_eq_countP]
  simp [s, List.countP_map, x, parked, Wait.word, Function.comp_def]

/-! ## Rules on rare paths, continued -/

/-- R55, R99, R171: a divide beside a load on its way drains with it and commits; a kill drains too, and a load alone is withdrawn. -/
theorem test_divide_drains :
    let i : Instr := .ldfe gd 5 1 .plain
    let x (d : Bool) : Slot := { parked (.park .flight i [] 3) (regs [(1, objEa 0)]) with after := some (regs [(7, 9)]), slowA := d }
    let s (d : Bool) : State := (withObj 0x2F State.reset).setSlot 5 (x d)
    let served (s : State) : Slot := ((s.spillSlot 5).servePort 5 .fullEmpty).slot 5
    ((s true).spillSlot 5).slot 5 = { x true with st := .drain true .flight i [] 3 } ∧ (((s false).spillSlot 5).slot 5).st = .saving true i ∧
    (((s false).spillSlot 5).slot 5).after = none ∧ (((s true).killSlot 5 0).slot 5).st = .drain false (.reply none) i [] 3 ∧
    ((s false).killSlot 5 0).slot 5 = Slot.free ∧
    (served (s true)).st = .drain true (.reply none) i [] 0 ∧ (served (s true)).after.isSome = true := by decide +kernel

/-- R99, R171, R250: a load that waits beside a divide drains on when its thread is spilled: the scan serves it and the bundle commits. A
kill withdraws it. -/
theorem test_divide_waits :
    let i : Instr := .ldfe gd 5 1 .plain
    let x : Slot := { parked (.park (.fullEmpty (objPa 0)) i [] 3) (regs [(1, objEa 0)]) with after := some (regs [(7, 9)]), slowA := true }
    let s : State := { (withObj 0x2F State.reset).setSlot 5 x with feFlip := [(objPa 0, true)] }
    let t := s.spillSlot 5
    let u := State.feScan { t with feFlip := [] } (objPa 0)
    t.slot 5 = { x with st := .drain true (.fullEmpty (objPa 0)) i [] 3 } ∧ t.feWaiters (objPa 0) = [5] ∧ t.drainedOut 5 = false ∧
    u.drainedOut 5 = true ∧ (u.slot 5).after.isSome = true ∧ ((t.killSlot 5 0).slot 5).st = .drain false (.reply none) i [] 3 ∧
    (t.killSlot 5 0).feWaiters (objPa 0) = [] := by decide +kernel

/-- R171: a slow turn marks the special function beside a load on its way; a plain one does not. -/
theorem test_slow_marks :
    let s := { stacked [(1, objEa 0)] with slow := true }
    let ex := fun i s => exec i s
    after (s.runHalves 0 (.ldd gd 5 1 .plain 0) (.vexp2 gd 2 1 .f32) ex) (fun t => t.me.slowA && t.me.wait == some .flight && t.me.dividing) ∧
    after (s.runHalves 0 (.ldd gd 5 1 .plain 0) (.add gd 7 1 1) ex) (fun t => !t.me.slowA && t.me.wait == some .flight) := by decide +kernel

/-- R224: an owner whose operation the unit has not taken is spilled at once, and its bundle runs again; one in operation drains. -/
theorem test_owner_waits :
    let i : Instr := .mzero gd 1
    let c : MatCmd := MatCmd.blank 0 ((one []).matRegs 0 Ctx.zero) 0
    let s (own : Bool) : State :=
      let t := owning [] id
      let k := (t.unit 0).owner
      (t.setSlot k (parked (.park .matrix i [] 3) (regs []))).setUnit 0 { t.unit 0 with op := some ⟨c, own, 0, false⟩ }
    let k := ((owning [] id).unit 0).owner
    (((s false).spillSlot k).slot k).st = .drain true (.reply none) i [] 3 ∧ (((s true).spillSlot k).slot k).st = .drain true .matrix i [] 3 ∧
    ((s false).spillSlot k).drainedOut k = false ∧ (((s false).spillSlot k).opOver 0).drainedOut k = true := by decide +kernel

/-- R104: `svsl` that gives up a thread in `isync` leaves the core no old line. -/
theorem test_kept_isync :
    let s := { State.reset.setSlot 5 (parked (.saving true (.isync gd)) (regs [])) with icache := [(5 * 2 ^ 20, some 7), (5 * 2 ^ 20 + 1, some 7)] }
    (s.keepThread 5 ((s.slot 5).settleDrain)).icache = s.icache.filter (fun e => e.1 % 2 ^ 20 != caCore 5) := by decide +kernel

/-- R7 (log entry 99): a record with reserved bits gives registers without them, and a pc that is a multiple of 8. -/
theorem test_record_reserved :
    let c := recordCtx fun _ => allOnes
    c.pc = 0xFFFFFFFFFFFFFFF8 ∧ c.cr.epc = 0xFFFFFFFFFFFFFFF8 ∧ c.cr.rmode = 3 ∧ c.cr.pstate = 0x1F ∧ c.cr.tval = allOnes := by decide +kernel

/-- R193: a `recv` that the mailbox port has not taken is a slot parked in `recv`; a load on its way is not. -/
theorem test_idle_wait :
    (parked (.park .flight (.recv gd 5 1 2) [] 0) (regs [])).idleWait = true ∧ (parked (.park .flight (.waitc gd 5 1 2) [] 0) (regs [])).idleWait = true ∧
    (parked (.park .flight (.ldd gd 5 1 .plain 0) [] 0) (regs [])).idleWait = false ∧ (parked (.park (.wait 9) (.wait gd 1) [] 0) (regs [])).idleWait = true := by decide

/-- R265, R372: a peer's store over a whole descriptor; recovery shows the status and the response area of function 0 alone; the Orrery
does not run before boot is over. -/
theorem test_board_more :
    let s := { State.reset with mgmt := { Mgmt.reset with recov := true } }
    let q := { State.reset with queues := [(256, { Queue.none with live := true })] }
    q.peerFails 192 (.store (List.replicate 256 0)) = some 0x0F ∧ q.peerFails 0 (.store (List.replicate 256 0)) = none ∧
    (s.hostRead 0 0 false).isSome = true ∧ (s.hostRead 0 0x180 false).isSome = true ∧ s.hostRead 0 0x1000 false = none ∧ s.hostRead 0 0x100 false = none ∧
    ev (.orreryTick 2 [125] [] 4 77 0) s (fun t => t == s) ∧ ev (.throttleRequest 3 5) s (fun t => t == s) := by decide +kernel

/-- A READY task for whose class a slot is to be spilled in which a divide runs beside a load on its way. -/
theorem witness_TravelEvents_divide :
    let x : Slot := { parked (.park .flight (.ldd gd 5 1 .plain 0) [] 3) (regs []) with cls := 5, slowA := true }
    let pool (s : State) : State := { s with objs := [(1, { Obj.none with used := true, size := 0x5000, opts := 0x2F })], tenants := [(4, 1)] }
    let y : Task := { Task.free with st := .ready, f := #v[0x2000, 0, 0, 0, 0, 0, 0, 0x00010001] }
    let s := { pool ((coreSlots 1).foldl (fun s k => s.setSlot k x) State.reset) with cycle := 20000, tasks := [(3, y)] }
    y.since + 16384 ≤ s.cycle ∧ s.classVictim 0 y = some 1 ∧ s.poolRoom 0 = true ∧ s.owns 1 = false ∧ (s.slot 1).slowA = true ∧
    after (exec (.spillForClass 1) s) (fun t => (t.slot 1).st == .drain true .flight (.ldd gd 5 1 .plain 0) [] 3) := by decide +kernel

/-- R55: a thread whose bundle migrates leaves in the turn itself; one with a divide beside the `migr` does not. -/
theorem test_migr_leaves :
    let x (d : Bool) : Slot := { parked (.park (.migrate 1 0 false []) (.migr gd 1) [] 0) (regs []) with slowA := d }
    let s (d : Bool) : State := State.reset.setSlot 5 (x d)
    ((s false).depart 5).slot 5 = Slot.free ∧ ((s false).depart 5).pkts.length = 1 ∧ (s true).depart 5 = s true := by decide +kernel

/-- R73, R340: a delivered completion and a trap end the `wait` that a resumed thread has still to go on with. -/
theorem test_late_cleared :
    let s := (run 0 (handled [])).modSlot 0 fun x => { x with late := some (0x1000, 9) }
    let d := (s.setEng 0 { CopyEng.idle with recs := [⟨7, 1, 0x40, 0, 0, 0, 0⟩] }).deliverRecord 0
    (s.slot 0).late = some (0x1000, 9) ∧ (d.slot 0).late = none ∧ (d.slot 0).ctx.pc = 0x40 ∧ ((s.takeTrap 0 ⟨0x03, 8⟩).slot 0).late = none := by
  decide +kernel

/-- R286: a header of a launch that has failed is dropped though the quota has no room for it; one that has not failed waits. -/
theorem test_header_failed :
    let l (f : Bool) : Launch := ⟨0, 4, #v[0x2000, 0x00010001, 0x40, 0, 0, 0x00010001, 0, 0, 0, 0, 0, 0, 0, 0, 0, 0], false, f, false, [0], [], [], []⟩
    let s (f : Bool) : State := { State.reset with launches := [l f] }
    (((s true).headerArrives 0 0).launches.map fun m => m.toDies) = [[]] ∧ (s true).tt 0 8 = 0 ∧
    (s true).headerArrives 0 0 = { s true with launches := [{ l true with toDies := [] }] } ∧ (s false).headerArrives 0 0 = s false := by
  decide +kernel

/-- R348: `hfree` discards the outstanding stores to the object, each with its event; a store elsewhere stays. -/
theorem test_free_sheds :
    let o : OutStore := ⟨[(objPa 8, List.replicate 8 1)], objEa 8, 0x1000⟩
    let n : OutStore := ⟨[(paTcm 0 8, List.replicate 8 1)], 8, 0x1000⟩
    let s := (withObj 0x2F State.reset).setSlot 5 { parked .run (regs []) with out := [o, n] }
    let t := s.releaseObject 0 1
    (t.slot 5).out = [n] ∧ s.storeGone o = false ∧ t.byte (objPa 8) = 0 ∧ (t.dropped, t.events) ≠ (s.dropped, s.events) := by decide +kernel

/-- R224: a remote drain in flight of an owner that is spilled leaves the tiles for the record; that of one that is killed ends the claim
when it traps. -/
theorem test_drain_keeps :
    let i : Instr := .mdrainr gd 5 1 2
    let s := (owning [] id).setSlot 0 (parked (.park .flight i [] 3) (regs []))
    let p := s.spillSlot 0
    let q := s.killSlot 0 0
    (p.slot 0).st = .drain true .flight i [] 3 ∧ ((p.opOver 0).unit 0).tiles = (s.unit 0).tiles ∧ ((p.opOver 0).unit 0).claimed = true ∧
    (q.slot 0).st = .drain false .flight i [] 3 ∧ ((q.opOver 0).unit 0).claimed = true ∧
    (((q.reply 0 (some ⟨0x06, 0⟩)).settleClaim 0).unit 0).claimed = false := by decide +kernel

/-- R319: a spilled thread that drains a `tcall` beside a divide and is then killed produces nothing: the call is withdrawn. -/
theorem test_kill_withdraws_call :
    let i : Instr := .tcall gd 5 1 2
    let s := State.reset.setSlot 5 { parked (.drain true .flight i [] 3) (regs []) with slowA := true }
    ((s.killSlot 5 0).slot 5).st = .drain false (.reply none) i [] 3 := by decide +kernel

/-! ## States that meet the hypotheses of the statements, continued -/

/-- R141 to R153: an offset at the end of own TCM, and one in a retired bank or of another owner; a core to which the thread moves, one
that is not enabled, and a thread that may not leave; holes of a scratchpad and of the shared banks; a page that no table maps. -/
theorem witness_LoadResults_places :
    let s := one []
    let t := { run 0 { regs [] with cr := { CRs.zero with tenant := 5 } } with towner := [(0, 5)], tbankOut := [(0, 0x8000)] }
    let r := run 0 { regs [] with cr := { CRs.zero with pstate := 16 } }
    let rep := run 0 { regs [] with rep := { Ctx.zero.rep with act := true } }
    let d := { s with coremask := [(0, 1)] }
    s.locate 0x1FFF8 8 true false = .at_ (paTcm 0 0x1FFF8) ∧ s.locate 0x20000 8 true false = .trap ⟨0x04, 0x20000⟩ ∧
    t.locate 0x1E000 8 true false = .trap ⟨0x04, 0x1E000⟩ ∧ { t with towner := [(0, 9)] }.locate 0 8 true false = .trap ⟨0x06, 0⟩ ∧
    s.locate 0x1000000100000008 8 true false = .migrate 1 ∧ rep.locate 0x1000000100000008 8 true false = .trap ⟨0x0D, 0x1000000100000008⟩ ∧
    r.locate 0x1000000100000008 8 true false = .trap ⟨0x0D, 0x1000000100000008⟩ ∧
    d.locate 0x1000000100000008 8 true false = .trap ⟨0x04, 0x1000000100000008⟩ ∧
    s.locate 0x20008000001FFFF8 8 true false = .at_ (paSpad 0 0 0x1FFFF8) ∧
    { s with spad32 := [(0, true)] }.locate 0x20008000001FFFF8 8 true false = .trap ⟨0x04, 0x20008000001FFFF8⟩ ∧
    s.locate 0x3000000803000000 8 true false = .trap ⟨0x04, 0x3000000803000000⟩ ∧ s.locate 0x8000000000000000 8 true false = .trap ⟨0x05, 0x8000000000000000⟩ ∧
    s.locate 0x5000000000000000 8 true false = .trap ⟨0x04, 0x5000000000000000⟩ := by decide +kernel

/-- R200, R201, R206, R207: targets that are not enabled or not allowed, sources that are not own TCM or misaligned, and argument words
at the ends of what each allows. -/
theorem witness_Mailboxes_arguments :
    let s := one [(1, 1), (2, 0x2000800000000000), (3, 4), (4, 0x1000000100000000), (5, 0x100000010001FFF8), (9, 0x1FFF8), (10, 0x80000000),
      (11, 0x108), (12, 0x1F00), (13, 0x00010001), (14, 0x10)]
    let t := run 0 { regs [] with cr := { CRs.zero with lrect := 0 } }
    let d := { s with coremask := [(0, 1)] }
    let b := s.setBad (paTcm 0 8) true
    let full (v : W64) : Bool := decide ((rectOf v).xlo ≤ (rectOf v).xhi ∧ (rectOf v).ylo ≤ (rectOf v).yhi)
    (s.g 1 &&& ~~~0x00F03F7F#64 = 0 ∧ d.coreEnabled (caTileOf 1) = false ∧ s.coreEnabled 1 = true ∧ ¬MaySend t 1) ∧
    ((s.g 3).toNat % 8 ≠ 0 ∧ (s.ownRun (s.g 2) 8).toOption = none ∧ (s.ownRun 8 8).toOption.isSome = true ∧ (b.ownRun 0 16).toOption = none) ∧
    ((s.g 4).toNat / 2 ^ 60 = 1 ∧ s.g 4 &&& 0x0FFFC080FFFE0000#64 = 0 ∧ 0x20000 < (s.g 5).toNat % 2 ^ 17 + 16) ∧
    ((s.g 9).toNat + 8 ≤ 0x20000 ∧ 0x20000 < (s.g 9).toNat + 16 ∧ s.g 10 &&& 0xFFFFFFFFC080C080#64 ≠ 0 ∧ 256 < (s.g 11).toNat % 512 ∧
      s.g 12 &&& ~~~0xF01FF#64 ≠ 0 ∧ s.g 14 &&& ~~~0xF01FF#64 = 0) ∧
    full 0x00000001 = false ∧ full (s.g 13) = true ∧ (rectOf t.rd.cr.lrect).has 1 0 = false ∧ full 0 = true ∧
    (s.castTargets (rectOf 0) 0 8).isEmpty = true := by
  unfold MaySend; decide +kernel

/-- R335, R336, R338, R344: a source in own TCM, a parameter block that is misaligned, and one that is not in own TCM; ranges that end at the
last byte and beyond; targets of which none is the tenant's. -/
theorem witness_CopyInstructions_ranges :
    let s := stacked [(8, 8), (9, 0x1000000100000000), (10, 64)]
    let t := run 0 { regs [] with cr := { CRs.zero with tenant := 5 } }
    fromAnyCore s (s.g 8) = 0x1000000000000008 ∧ (s.pblk 0x20 false).toOption = none ∧ (s.pblk 0x40 false).toOption.isSome = true ∧
    (s.pblk (objEa 0) false).toOption = none ∧ s.copyRange 0x100000010001FFF8 0 8 true = none ∧
    s.copyRange 0x100000010001FFF8 7 16 true = some ⟨0x04, 7⟩ ∧ { s with coremask := [(0, 1)] }.copyRange 0x1000000100000000 7 16 true = some ⟨0x04, 7⟩ ∧
    t.copyRange 0x1000000100000000 7 16 true = some ⟨0x06, 7⟩ ∧ s.copyRange (objEa 0x1FF8) 7 8 false = none ∧
    s.copyRange (objEa 0x1FF8) 7 16 false = some ⟨0x04, objEa 0x2000⟩ ∧ s.copyRange 0x3000000002FFFFF8 7 8 true = none ∧
    s.copyRange 0x3000000003FFF000 7 8 true = some ⟨0x06, 7⟩ ∧ s.copyRange 0x8000000000000000 7 8 true = none ∧
    t.dealTargets 0x00010001 = [] ∧ s.dealTargets 0x00010001 = [1] ∧ { t with towner := [(1, 5)] }.dealTargets 0x00010000 = [1] := by decide +kernel

/-- R338, R340, R343: a transfer that is over and has wake-ups to send, one whose wake-up is not answered, one whose record finds no room, and
one whose end lets a waiting `cpyq` in. -/
theorem witness_EngineEvents_ends :
    let w := copying fun r => { r with done := 64, wake := true }
    let a := { copying fun r => { r with done := 64, wake := true, wakes := some [4] } with wakes := [⟨4, 0, 0, 0, 0, 0, false, 0⟩] }
    let i := copying fun r => { r with done := 64, intr := true, handler := 0x40, tid := 1 }
    let f := i.setEng 0 { i.eng 0 with recs := List.replicate 16 ⟨0, 1, 8, 0, 0, 0, 0⟩ }
    let q := (copying fun r => { r with done := 64 }).setSlot (2 ^ 20) (parked (.park .copyFifo (.cpyq gd 7 8 true) [] 0) (regs [(8, 0), (9, 0x40), (10, 8)]))
    ((w.copyReq 0 3).map fun r => (r.fault, r.running, r.targets != [], r.wakes)) = some (none, true, true, none) ∧
    ((a.copyReq 0 3).map fun r => (r.wakes.getD []).any fun w => a.wakes.any fun x => x.id == w) = some true ∧
    16 ≤ (f.eng 0).recs.length ∧ (i.eng 0).recs.length < 16 ∧ (i.copyReq 0 3).map (fun r => (r.intr, r.handler, r.tid)) = some (true, 0x40, 1) ∧
    ((q.waiting (· == Wait.copyFifo)).find? fun k => caCore k == 0) = some (2 ^ 20) := by decide +kernel

/-- R218, R223: pairs that are misaligned, too narrow and beyond the scratchpad; a scale vector in no form; a scratchpad and a table of another
tenant; a step whose first word is bad, and one whose tenant has lost the scratchpad. -/
theorem witness_MatrixMultiply_faults :
    let i : Instr := .mmac gd 0 1 3 false false false 0 0
    let u := owning [(1, 0x8000000000), (3, 0x8000000000)] id
    let c := u.ownCmd i 0 u.rd 0
    let b := u.setBad (paSpad 0 0 0) true
    let t := { u with sowner := [(0, 9)] }
    let faults (r : Except Trap (List Nat × FlagSet)) : Option Trap := match r with | .error e => some e | .ok _ => none
    c.formsOk = true ∧ (pairOf 4 0).base % 8 ≠ 0 ∧ (pairOf 0x7800000000 0).rpitch < 4 * 32 ∧
    u.spadSize 0 0 < (pairOf 0x80001FFFF8 0).base + 31 * 128 + 4 * 32 ∧ (u.scaleTrap 0 0 0x4000000000000000 1).isSome = true ∧
    u.scaleTrap 0 0 0x1FFE0 1 = none ∧ (u.scaleTrap 0 0 0x1FFE8 1).isSome = true ∧ ¬padOpen t 0 5 ∧ padOpen t 0 9 ∧
    ({ DecTab.zero with owner := 5 }).usable 9 = false ∧
    faults (b.kstep 0 0 c 0 []) = some ⟨0x09, 0x2000800000000000⟩ ∧ faults (t.kstep 0 5 c 0 []) = some ⟨0x06, 0x2000800000000000⟩ ∧
    UnitTakes b (b.ownCmd i 0 b.rd 0) := by unfold padOpen UnitTakes; decide +kernel

/-- R250: an empty word with a `ldff`, a `ldfe` and a `stef` waiting: a store serves all three. -/
theorem witness_SynchronisingWords_scan :
    let p := objPa 8
    let w (i : Instr) : Slot := parked (.park (.fullEmpty p) i [] 0) (regs [(2, 7)])
    let s := ((((stacked [(1, objEa 8), (2, 3)]).setSlot 1 (w (.ldff gd 5 1 .plain))).setSlot 2 (w (.ldfe gd 5 1 .plain))).setSlot 3
      (w (.stef gd 1 2 .plain))).setFull p false
    s.feWaiters p = [1, 2, 3] ∧ s.isFull p = false ∧ ∃ t, Scans p (s.feWaiters p) (s.setFull p true) t := by
  refine ⟨by decide +kernel, by decide +kernel, ?_⟩
  have h : ∀ u : State, (u.feWaiters (objPa 8)) = [1, 2, 3] → ∀ v, (∃ t, Scans (objPa 8) [1, 2, 3] v t) → ∃ t, Scans (objPa 8) (u.feWaiters (objPa 8)) v t := by
    intro u e v x; rw [e]; exact x
  exact h _ (by decide +kernel) _ ⟨_, rfl⟩

/-- R252: a poisoned word with two `lrw` queued: neither is granted. -/
theorem witness_SynchronisingWords_grants :
    let p := objPa 8
    let w : Slot := parked (.park (.reservation p) (.lrw gd 5 1 .plain) [] 0) (regs [])
    let s := ((stacked [(1, objEa 8)]).setSlot 1 w).setSlot 2 w
    s.lrwQueue p = [1, 2] ∧ Grants p [1, 2] (s.setBad p true)
      (((s.setBad p true).reply 1 (some ⟨0x09, BitVec.ofNat 64 p⟩)).reply 2 (some ⟨0x09, BitVec.ofNat 64 p⟩)) ∧
    ∃ t, Grants p [1, 2] s t := ⟨by decide +kernel, rfl, _, rfl⟩

/-- R184, R138, R137: a suspended buffer, an image that is misaligned, and a stochastic rounding of a value in range and of one beyond. -/
theorem witness_suspended_and_drawn :
    let q : RepBuf := { Ctx.zero.rep with susp := true }
    let A := (etyFmt .f16 true).value 0x57F0
    q.susp = true ∧ halves .compute q 0x9800000000000000 = none ∧ ((one [(1, 4)]).g 1).toNat % 8 ≠ 0 ∧ isFin A = true ∧ mag (ratOf A) = 127 ∧
    mag (ratOf ((etyFmt .f16 true).value 0x5810)) = 130 ∧ (convertElem .f16 .i8 true (.sr 0) 0x5810).1 = 127 := by decide +kernel

/-- R278, R280, R282: a header of a rectangle of two cores, its records and the room for them; one of mode 1; one with a reserved bit. -/
theorem witness_HostAndDispatchEvents_headers :
    let l (mode : W64) : Launch :=
      ⟨0, 4, #v[0x2000, 0x00010000, 0x40, 0, mode, 0x00010000, 0, 0, 0, 0, 0, 0, 0, 0, 0, 0], false, false, false, [0], [], [], []⟩
    let s := { State.reset with launches := [l 0], tenants := [(8, 2)] }
    let t := { s with launches := [l 0x10] }
    ((s.headerTasks (l 0) 0).length = 2 ∧ s.taskCount 0 0 + 2 ≤ (s.tt 0 8).toNat ∧ (t.headerTasks (l 0x10) 0).length = 1) ∧
    TableRoom s 0 2 ∧ State.headerArrives { s with tenants := [(8, 1)] } 0 0 = { s with tenants := [(8, 1)] } := by
  unfold TableRoom; decide +kernel

/-- R268: a full queue with a push parked: the pop that makes room stores it. -/
theorem witness_Queues_parked :
    let full : Queue := { Queue.none with live := true, mode := 1, base := 1, entries := List.replicate 63 (5, false), pushes := 63 }
    let s := ((stacked [(1, objEa 65)]).setQueue (objPa 64) full).setSlot 1
      (parked (.park (.queue (objPa 64)) (.qpush gd 6 1 2 .qwin true) [] 3) (vregs [(1, objEa 65)] [(2, 5)]))
    s.parkedAt (objPa 64) true = [1] ∧ full.used = 64 ∧ { full with entries := List.replicate 64 (5, false) }.used = 65 ∧
    after (exec (.qpop gd 5 1 2 .qwin false) s) (fun t => (t.queue (objPa 64)).entries.length == 63 && (t.queue (objPa 64)).pushes == 64 &&
      (t.slot 1).wait == some (.reply none)) := by decide +kernel

/-- R325: a pure entry that is COMPLETE or under evaluation, a write to a block of its tiles and one beside them. -/
theorem witness_PureTasks_writes :
    let t : Tile := ⟨objEa 0, 0x1000⟩
    let p : PureRec := { code := t, args := [], out := ⟨objEa 0x1000, 0x1000⟩, sp := 0 }
    let x : AtEntry := { AtEntry.free with st := .complete, pure := some p }
    let s := { stacked [] with entries := [(9, x)] }
    let e := { s with entries := [(9, { x with st := .eval })] }
    Meets t 0 (objPa 8) 8 ∧ ((s.storeBytes (objPa 8) [1]).entry 9).st = .free ∧ ((s.storeBytes (objPa 0x1008) [1]).entry 9).st = .free ∧
    (s.storeBytes (paTcm 0 8) [1]).entry 9 = x ∧ ((e.storeBytes (objPa 8) [1]).entry 9).stale = true ∧
    ((e.storeBytes (objPa 0x1008) [1]).entry 9).stale = false := by
  refine ⟨⟨objPa 8, 0, ?_, ?_, ?_, ?_⟩, ?_⟩ <;> decide +kernel

/-- R317: a set with a way FREE, one whose ways are COMPLETE, and one whose ways are all under evaluation. -/
theorem witness_AnswerTable_ways :
    let set (st : AtSt) : State := { one [] with tenants := [(9, 0x200000004)], entries := (List.range 8).map fun j =>
      (j * 2 ^ 15 + 7, { AtEntry.free with st := st, lastUse := 9 - j }) }
    (((one []).takeWay 0 0 7).1.map fun w => w % 2 ^ 15) = some 7 ∧ ((set .complete).takeWay 0 0 7).1 = some (7 * 2 ^ 15 + 7) ∧
    (set .eval).takeWay 0 0 7 = (none, set .eval) := by decide +kernel
end Sys2Proof.Tests
end

section
/-!
SUPPORT for the management plane: what sparse maps read as after a filter and after a run of writes.
-/

namespace Sys2Proof.Machine

section SparseMaps
variable {α : Type} (d : α)

theorem smGet_filter (m : SMap α) (p : Nat → Bool) (n : Nat) :
    smGet d (m.filter fun e => p e.1) n = if p n = true then smGet d m n else d := by
  induction m with
  | nil => simp [smGet]
  | cons e t ih =>
    obtain ⟨k, v⟩ := e
    by_cases hp : p k = true
    · by_cases hk : k = n
      · subst hk; simp [hp, smGet]
      · simp only [List.filter_cons, hp, if_true, smGet, hk, if_false, ih]
    · have hk : p n = true → k ≠ n := fun h e => hp (e ▸ h)
      simp only [List.filter_cons, hp, Bool.false_eq_true, if_false, ih, smGet]
      by_cases hn : p n = true
      · simp [hn, hk hn]
      · simp [hn]

/-- What a key does not read as d is listed there. -/
theorem mem_of_smGet {m : SMap α} {n : Nat} (h : smGet d m n ≠ d) : (n, smGet d m n) ∈ m := by
  induction m with
  | nil => exact absurd rfl h
  | cons e t ih =>
    obtain ⟨k, v⟩ := e
    by_cases hk : k = n
    · subst hk; simp [smGet]
    · simp only [smGet, hk, if_false] at h ⊢
      exact List.mem_cons_of_mem _ (ih h)

variable [DecidableEq α]

theorem mem_of_mem_smSet {m : SMap α} {n : Nat} {v : α} {e : Nat × α} (h : e ∈ smSet d m n v) : e = (n, v) ∨ e ∈ m := by
  have low {e : Nat × α} (h : e ∈ smErase m n) : e ∈ m := (List.mem_filter.mp h).1
  unfold smSet at h
  split at h
  · exact .inr (low h)
  · exact ((mem_smInsert _ _ _ _).mp h).imp_right low

section Runs
variable {β : Type} (key : β → Nat) (f : β → α)

/-- A run of writes leaves the keys that it does not name. -/
theorem smGet_foldl_set_ne (l : List β) (m : SMap α) (n : Nat) (h : ∀ b ∈ l, key b ≠ n) :
    smGet d (l.foldl (fun m b => smSet d m (key b) (f b)) m) n = smGet d m n :=
  List.foldlRecOn l _ (motive := fun t => smGet d t n = smGet d m n) rfl
    fun t ht b hb => (smGet_set_ne d t (key b) n (f b) (h b hb).symm).trans ht

/-- A run of writes leaves at a key what it writes there, if that is one value. -/
theorem smGet_foldl_set_mem (l : List β) (m : SMap α) (b : β) (hb : b ∈ l) (h : ∀ c ∈ l, key c = key b → f c = f b) :
    smGet d (l.foldl (fun m b => smSet d m (key b) (f b)) m) (key b) = f b := by
  induction l using List.reverseRecOn with
  | nil => exact absurd hb List.not_mem_nil
  | append_singleton l c ih =>
    rw [List.foldl_append, List.foldl_cons, List.foldl_nil, smGet_set]
    split
    case isTrue e => exact h c (by simp) e.symm
    case isFalse e =>
      have hl : b ∈ l := by
        rcases List.mem_append.mp hb with hb | hb
        · exact hb
        · exact absurd (congrArg key (List.mem_singleton.mp hb)) e
      exact ih hl fun c hc => h c (List.mem_append_left _ hc)

/-- What a run of writes lists was written by it or listed before. -/
theorem mem_of_mem_foldl_set {l : List β} {m : SMap α} {e : Nat × α}
    (h : e ∈ l.foldl (fun m b => smSet d m (key b) (f b)) m) : (∃ b ∈ l, e = (key b, f b)) ∨ e ∈ m := by
  induction l using List.reverseRecOn with
  | nil => exact .inr h
  | append_singleton l c ih =>
    rw [List.foldl_append, List.foldl_cons, List.foldl_nil] at h
    rcases mem_of_mem_smSet d h with h | h
    · exact .inl ⟨c, by simp, h⟩
    · exact (ih h).imp_left fun ⟨b, hb, e⟩ => ⟨b, List.mem_append_left _ hb, e⟩

end Runs

end SparseMaps
end Sys2Proof.Machine
end

section
/-!
The rules of the management plane that say when nothing happens, and those of throttling and cooling (R14, R373, R374).
-/

namespace Sys2Proof.Machine

/-! ## Temperatures -/

/-- R373: a package of which no zone was read at 125 degrees goes on. -/
theorem State.overTemp_cool (s : State) (h : ∀ e ∈ s.mgmt.temp, e.2.toNat < 125) : s.overTemp = s := by
  refine if_neg fun hot => ?_
  obtain ⟨e, he, hot⟩ := List.any_eq_true.mp hot
  exact absurd (h e he) (Nat.not_lt.mpr (of_decide_eq_true hot))

theorem State.overTemp_hot (s : State) (e : Nat × Byte) (he : e ∈ s.mgmt.temp) (h : 125 ≤ e.2.toNat) :
    s.overTemp = { s.cleared with stopped := true } :=
  if_pos (List.any_eq_true.mpr ⟨e, he, decide_eq_true h⟩)

theorem Mgmt.hot_iff (m : Mgmt) (stack : Nat) : m.hot stack = true ↔ ∃ e ∈ m.temp, e.1 / 512 = stack ∧ 115 ≤ e.2.toNat := by
  simp [Mgmt.hot]

theorem smGet_zoneValues (m : SMap Byte) (stack : Nat) (l : List Byte) (j : Nat) (hj : j < 144) :
    smGet 0 (zoneValues m stack l) (512 * stack + j) = (l[j]?).getD 0 := by
  refine smGet_foldl_set_mem 0 (fun j => 512 * stack + j) (fun j => (l[j]?).getD 0) _ m j (List.mem_range.mpr hj) ?_
  intro c _ e
  rw [Nat.add_left_cancel e]

/-- New readings below a bound keep every zone below it. -/
theorem zoneValues_below (m : SMap Byte) (stack : Nat) (l : List Byte) (b : Nat) (hm : ∀ e ∈ m, e.2.toNat < b)
    (hl : ∀ j, j < 144 → ((l[j]?).getD 0).toNat < b) : ∀ e ∈ zoneValues m stack l, e.2.toNat < b := by
  intro e he
  rcases mem_of_mem_foldl_set 0 (fun j => 512 * stack + j) (fun j => (l[j]?).getD 0) he with ⟨j, hj, rfl⟩ | he
  · exact hl j (List.mem_range.mp hj)
  · exact hm e he

/-! ## Layers that the Orrery lets sleep -/

theorem State.layer_setLayer (s : State) (stack l k : Nat) (v : BitVec 2) :
    (s.setLayer stack l v).layer stack k = if k = l then v.toNat else s.layer stack k := by
  simp only [State.layer, State.setLayer, smGet_set, Nat.add_left_cancel_iff]
  split <;> rfl

/-- The step of `State.idleLayers` for one layer. -/
def State.idleLayer (stack : Nat) (idle : BitVec 8) (t : State) (l : Nat) : State :=
  if bitAt idle l && t.layer stack l == 0 then t.setLayer stack l 1 else t

theorem State.idleLayers_eq_foldl (s : State) (stack : Nat) (idle : BitVec 8) :
    s.idleLayers stack idle = (List.range 8).foldl (State.idleLayer stack idle) s := rfl

theorem State.idleLayer_layers (s : State) (stack : Nat) (idle : BitVec 8) (l : Nat) :
    ∃ m, State.idleLayer stack idle s l = { s with layers := m } := by
  unfold State.idleLayer
  split
  · exact ⟨_, rfl⟩
  · exact ⟨_, rfl⟩

theorem State.idleLayers_layers (s : State) (stack : Nat) (idle : BitVec 8) :
    ∃ m, s.idleLayers stack idle = { s with layers := m } := by
  rw [State.idleLayers_eq_foldl]
  refine List.foldlRecOn _ _ (motive := fun t : State => ∃ m, t = { s with layers := m }) ⟨s.layers, rfl⟩ fun t ht l _ => ?_
  obtain ⟨m, rfl⟩ := ht
  exact State.idleLayer_layers { s with layers := m } stack idle l

theorem State.layer_idleLayer (s : State) (stack : Nat) (idle : BitVec 8) (l k : Nat) :
    (State.idleLayer stack idle s l).layer stack k =
      if k = l ∧ idle.getLsbD k = true ∧ s.layer stack k = 0 then 1 else s.layer stack k := by
  by_cases hk : k = l
  · subst hk
    unfold State.idleLayer
    by_cases h : idle.getLsbD k = true ∧ s.layer stack k = 0
    · simp [bitAt, h, State.layer_setLayer]
    · rw [if_neg (by simpa [bitAt] using h), if_neg (by simpa using h)]
  · unfold State.idleLayer
    split <;> simp [hk, State.layer_setLayer]

theorem State.layer_idleLayers (s : State) (stack : Nat) (idle : BitVec 8) (k : Nat) (hk : k < 8) :
    (s.idleLayers stack idle).layer stack k =
      if idle.getLsbD k = true ∧ s.layer stack k = 0 then 1 else s.layer stack k := by
  have run (l : List Nat) : (l.foldl (State.idleLayer stack idle) s).layer stack k =
      if k ∈ l ∧ idle.getLsbD k = true ∧ s.layer stack k = 0 then 1 else s.layer stack k := by
    induction l using List.reverseRecOn with
    | nil => simp
    | append_singleton l a ih =>
      rw [List.foldl_append, List.foldl_cons, List.foldl_nil, State.layer_idleLayer, ih]
      by_cases h : idle.getLsbD k = true ∧ s.layer stack k = 0
      · by_cases hm : k ∈ l
        · simp [h, hm]
        · simp [h, hm]
      · simp [h]
  rw [State.idleLayers_eq_foldl, run]
  simp [hk]

/-! ## Throttling and cooling -/

/-- R14, R373: a throttle request is performed once the Orrery runs, unless the ring is stalled; a hot zone keeps level 7. -/
theorem exec_throttleRequest (s : State) (die : Nat) (level : BitVec 3) (hs : s.mgmt.stalled = false) (hd : die < 8)
    (hr : s.mgmt.ready = true) (cool : ∀ e ∈ s.mgmt.temp, e.2.toNat < 125) :
    exec (.throttleRequest die level) s = .next { s with mgmt := { s.mgmt with
      thr := smSet 0 s.mgmt.thr die (if s.mgmt.hot die = true then 7 else level) } } := by
  refine congrArg Host.Outcome.next ((if_neg ?_).trans (State.overTemp_cool _ cool))
  simp [hs, hr, hd]

theorem exec_throttleRequest_idle (s : State) (die : Nat) (level : BitVec 3)
    (h : s.mgmt.stalled = true ∨ 8 ≤ die ∨ s.mgmt.ready = false) : exec (.throttleRequest die level) s = .next s :=
  congrArg Host.Outcome.next (if_pos h)

/-- The readings of a tick of the Orrery, entered. -/
def Mgmt.tick (m : Mgmt) (stack : Nat) (temps valves : List Byte) (level : BitVec 3) (pwr : BitVec 32) : Mgmt :=
  let hot := ((temps.take 144).filter fun b => decide (115 ≤ b.toNat)).length
  { m with
    temp := zoneValues m.temp stack temps
    valve := zoneValues m.valve stack valves
    thr := if m.stalled then m.thr else smSet 0 m.thr stack (if hot = 0 then level else 7)
    pwr := smSet 0 m.pwr stack pwr
    events := m.events + hot }

theorem exec_orreryTick (s : State) (stack : Nat) (temps valves : List Byte) (level : BitVec 3) (pwr : BitVec 32) (idle : BitVec 8)
    (hd : stack < 8) (hr : s.mgmt.ready = true) :
    ∃ m, exec (.orreryTick stack temps valves level pwr idle) s =
        .next (State.overTemp { s with mgmt := s.mgmt.tick stack temps valves level pwr, layers := m }) ∧
      ∀ l, l < 8 → State.layer { s with layers := m } stack l =
        if idle.getLsbD l = true ∧ s.layer stack l = 0 then 1 else s.layer stack l := by
  obtain ⟨m, e⟩ := State.idleLayers_layers { s with mgmt := s.mgmt.tick stack temps valves level pwr } stack idle
  refine ⟨m, congrArg Host.Outcome.next ((if_neg ?_).trans (congrArg State.overTemp e)), fun l hl => ?_⟩
  · simp [hr, hd]
  · have h := State.layer_idleLayers { s with mgmt := s.mgmt.tick stack temps valves level pwr } stack idle l hl
    rw [e] at h
    exact h

theorem exec_orreryTick_idle (s : State) (stack : Nat) (temps valves : List Byte) (level : BitVec 3) (pwr : BitVec 32)
    (idle : BitVec 8) (h : 8 ≤ stack ∨ s.mgmt.ready = false) : exec (.orreryTick stack temps valves level pwr idle) s = .next s :=
  congrArg Host.Outcome.next (if_pos h)

/-- R373: a tick that reads 125 degrees in a zone stops the package. -/
theorem exec_orreryTick_stops (s : State) (stack : Nat) (temps valves : List Byte) (level : BitVec 3) (pwr : BitVec 32)
    (idle : BitVec 8) (hd : stack < 8) (hr : s.mgmt.ready = true) (j : Nat) (hj : j < 144) (hot : 125 ≤ ((temps[j]?).getD 0).toNat) :
    ∃ t, exec (.orreryTick stack temps valves level pwr idle) s = .next t ∧ t.stopped = true ∧ t.slots = [] := by
  obtain ⟨m, e, -⟩ := exec_orreryTick s stack temps valves level pwr idle hd hr
  have read := smGet_zoneValues s.mgmt.temp stack temps j hj
  have listed := mem_of_smGet (0 : Byte) (m := zoneValues s.mgmt.temp stack temps) (n := 512 * stack + j)
    (by rw [read]; intro z; rw [z] at hot; exact absurd hot (by decide))
  rw [read] at listed
  rw [State.overTemp_hot _ _ listed hot] at e
  exact ⟨_, e, rfl, rfl⟩

/-- R373, R374: a tick of which no zone reads 125 degrees. -/
theorem exec_orreryTick_cool (s : State) (stack : Nat) (temps valves : List Byte) (level : BitVec 3) (pwr : BitVec 32)
    (idle : BitVec 8) (hd : stack < 8) (hr : s.mgmt.ready = true) (cool : ∀ e ∈ s.mgmt.temp, e.2.toNat < 125)
    (below : ∀ j, j < 144 → ((temps[j]?).getD 0).toNat < 125) :
    ∃ m, exec (.orreryTick stack temps valves level pwr idle) s =
        .next { s with mgmt := s.mgmt.tick stack temps valves level pwr, layers := m } ∧
      ∀ l, l < 8 → State.layer { s with layers := m } stack l =
        if idle.getLsbD l = true ∧ s.layer stack l = 0 then 1 else s.layer stack l := by
  obtain ⟨m, e, hl⟩ := exec_orreryTick s stack temps valves level pwr idle hd hr
  rw [State.overTemp_cool _ (zoneValues_below s.mgmt.temp stack temps 125 cool below)] at e
  exact ⟨m, e, hl⟩

end Sys2Proof.Machine
end

section
/-!
What a store and a wipe leave unchanged, and what every byte reads as after them (R12, R148, R149).
-/

namespace Sys2Proof.Machine

/-! ## Stores change memory, its marks and what watches it -/

/-- Nothing differs but bytes, the marks and the repairs of their words, and the entries of the Answer Table that watch them. -/
def Stored (s t : State) : Prop :=
  t = { s with
    mem := t.mem, bad := t.bad, flaws := t.flaws, rowSeen := t.rowSeen, rowBad := t.rowBad, spareRows := t.spareRows
    entries := t.entries, pins := t.pins, ccount := t.ccount, ucount := t.ucount
    mgmt := { s.mgmt with repairs := t.mgmt.repairs } }

namespace Stored
variable {s t u : State}

theorem refl (s : State) : Stored s s := rfl

theorem trans (h : Stored s t) (k : Stored t u) : Stored s u := by
  unfold Stored at h k ⊢
  rw [h] at k
  exact k

theorem foldl {α : Type} {f : State → α → State} (hf : ∀ t a, Stored t (f t a)) (l : List α) (s : State) : Stored s (l.foldl f s) :=
  List.foldlRecOn l f (motive := Stored s) (refl s) fun t h a _ => h.trans (hf t a)

theorem fns (h : Stored s t) : t.fns = s.fns := by unfold Stored at h; rw [h]
theorem objs (h : Stored s t) : t.objs = s.objs := by unfold Stored at h; rw [h]
theorem queues (h : Stored s t) : t.queues = s.queues := by unfold Stored at h; rw [h]
theorem tenants (h : Stored s t) : t.tenants = s.tenants := by unfold Stored at h; rw [h]
theorem towner (h : Stored s t) : t.towner = s.towner := by unfold Stored at h; rw [h]
theorem sowner (h : Stored s t) : t.sowner = s.sowner := by unfold Stored at h; rw [h]
theorem gowner (h : Stored s t) : t.gowner = s.gowner := by unfold Stored at h; rw [h]
theorem permitQ (h : Stored s t) : t.permitQ = s.permitQ := by unfold Stored at h; rw [h]
theorem nonces (h : Stored s t) : t.mgmt.nonces = s.mgmt.nonces := by unfold Stored at h; rw [h]

end Stored

theorem Stored.setByte (s : State) (a : Nat) (v : Byte) : Stored s (s.setByte a v) := rfl

theorem Stored.setBad (s : State) (a : Nat) (b : Bool) : Stored s (s.setBad a b) := rfl

theorem Stored.writeBytes (s : State) (a : Nat) (l : List Byte) : Stored s (s.writeBytes a l) := by
  rw [State.writeBytes_eq]
  rfl

theorem Stored.clearBad (s : State) (a n : Nat) : Stored s (s.clearBad a n) := by
  unfold State.clearBad
  split
  · exact Stored.foldl (fun t _ => Stored.setBad t _ false) _ s
  · exact Stored.refl s

theorem Stored.rowFails (s : State) (pa : Nat) : Stored s (s.rowFails pa) := by
  unfold State.rowFails
  split <;> rfl

theorem Stored.noteRow (s : State) (pa : Nat) : Stored s (s.noteRow pa) := by
  unfold State.noteRow
  split
  · rfl
  · dsimp only
    split
    · exact Stored.trans (t := { s with rowSeen := _ }) rfl (Stored.rowFails _ pa)
    · rfl

theorem Stored.countBad (s : State) (pa : Nat) : Stored s (s.countBad pa) := by
  unfold State.countBad
  split
  · exact Stored.trans (t := { s with ucount := _ }) rfl (Stored.rowFails _ pa)
  · rfl

theorem Stored.correctWord (s : State) (a : Nat) : Stored s (s.correctWord a) := by
  unfold State.correctWord
  split
  · exact Stored.trans (t := { s with flaws := _, ccount := _ }) rfl (Stored.noteRow _ a)
  · rfl

theorem Stored.correct (s : State) (a n : Nat) : Stored s (s.correct a n) := by
  unfold State.correct
  split
  · rfl
  · exact Stored.foldl Stored.correctWord _ s

theorem Stored.recode (s : State) (a n : Nat) : Stored s (s.recode a n) := by
  unfold State.recode
  split
  · rfl
  · split
    · refine Stored.foldl (fun t w => ?_) _ s
      rfl
    · exact Stored.correct s a n

theorem Stored.remapWord (s : State) (a : Nat) : Stored s (s.remapWord a) := by
  unfold State.remapWord
  split
  · split <;> rfl
  · rfl

theorem Stored.remapRun (s : State) (a n : Nat) : Stored s (s.remapRun a n) := by
  unfold State.remapRun
  split
  · rfl
  · exact Stored.foldl Stored.remapWord _ s

theorem Stored.freshen (s : State) (a n : Nat) : Stored s (s.freshen a n) :=
  (Stored.recode s a n).trans (Stored.remapRun _ a n)

theorem Stored.watch (s : State) (pa n : Nat) : Stored s (s.watch pa n) := by
  unfold State.watch
  split
  · rfl
  · refine Stored.foldl (fun t e => ?_) _ s
    split
    · rfl
    · dsimp only
      split_ifs <;> rfl

theorem Stored.storeBytes (s : State) (pa : Nat) (l : List Byte) : Stored s (s.storeBytes pa l) :=
  (Stored.watch s pa l.length).trans <| (Stored.freshen _ pa l.length).trans <|
    (Stored.writeBytes _ pa l).trans (Stored.clearBad _ pa l.length)

theorem Stored.wipe (s : State) (pa n : Nat) : Stored s (s.wipe pa n) :=
  (Stored.remapRun s pa n).trans rfl

/-! ## Bytes -/

theorem State.byte_of_mem {s t : State} (h : t.mem = s.mem) (a : Nat) : t.byte a = s.byte a := congrArg (smGet 0 · a) h

theorem State.byte_storeBytes (s : State) (pa : Nat) (l : List Byte) (a : Nat) :
    (s.storeBytes pa l).byte a = if pa ≤ a ∧ a < pa + l.length then (l[a - pa]?).getD 0 else s.byte a := by
  unfold State.storeBytes
  rw [State.byte_of_mem (Laws.State.clearBad_mem _ _ _), State.byte_writeBytes,
    State.byte_of_mem ((Laws.State.freshen_mem _ _ _).trans (Laws.State.watch_mem s pa l.length))]

theorem State.byte_wipe (s : State) (pa n a : Nat) :
    (s.wipe pa n).byte a = if pa ≤ a ∧ a < pa + n then 0 else s.byte a := by
  show smGet 0 ((s.remapRun pa n).mem.filter fun e => decide (e.1 < pa) || decide (pa + n ≤ e.1)) a = _
  rw [smGet_filter 0 _ (fun k => decide (k < pa) || decide (pa + n ≤ k)), Laws.State.remapRun_mem]
  by_cases h : pa ≤ a ∧ a < pa + n
  · rw [if_pos h, if_neg]
    simp only [Bool.or_eq_true, decide_eq_true_eq]
    omega
  · rw [if_neg h, if_pos]
    · rfl
    · simp only [Bool.or_eq_true, decide_eq_true_eq]
      omega

/-- Outside the status blocks a read gives the byte as it is stored. -/
theorem State.readBytes_eq (s : State) (a n : Nat) (h : ∀ j, j < n → paIsStatus (a + j) = false) :
    s.readBytes a n = (List.range n).map fun j => s.byte (a + j) := by
  induction n generalizing a with
  | zero => rfl
  | succ n ih =>
    have first : s.readByte a = s.byte a := if_neg (by simpa using h 0 (Nat.succ_pos n))
    rw [State.readBytes, first, ih (a + 1) fun j hj => by
      rw [Nat.add_right_comm]; exact h (j + 1) (Nat.succ_lt_succ hj), List.range_succ_eq_map, List.map_cons, List.map_map]
    refine congrArg _ (List.map_congr_left fun j _ => ?_)
    rw [Nat.add_right_comm]
    rfl

/-- R12: host memory holds no status block. -/
theorem paIsStatus_host (a j : Nat) : paIsStatus (2 ^ 63 + a + j) = false := by
  have h : (2 ^ 63 + a + j) / 2 ^ 60 ≠ 3 := by omega
  rw [paIsStatus, beq_eq_false_iff_ne.mpr h, Bool.false_and]

theorem State.readBytes_host (s : State) (a n : Nat) :
    s.readBytes (paHost a) n = (List.range n).map fun j => s.byte (2 ^ 63 + a + j) :=
  s.readBytes_eq _ n fun j _ => paIsStatus_host a j

theorem leBytes_eq_map (n v : Nat) : leBytes n v = (List.range n).map fun j => BitVec.ofNat 8 (v / 256 ^ j) := by
  induction n generalizing v with
  | zero => rfl
  | succ n ih =>
    rw [leBytes, ih, List.range_succ_eq_map, List.map_cons, List.map_map]
    simp only [pow_zero, Nat.div_one, List.cons.injEq, true_and]
    refine List.map_congr_left fun j _ => ?_
    simp only [Function.comp, Nat.succ_eq_add_one, Nat.pow_succ', Nat.div_div_eq_div_mul]

/-- The low bytes of a number are those of its word. -/
theorem leBytes_eq_bytesOf (v : Nat) : leBytes 8 v = Claims.bytesOf 8 (BitVec.ofNat 64 v) := by
  rw [leBytes_eq_map]
  refine List.map_congr_left fun j hj => BitVec.eq_of_toNat_eq ?_
  have hj : j < 8 := List.mem_range.mp hj
  have e : (2 : Nat) ^ 64 = 256 ^ j * 256 ^ (8 - j) := by rw [← pow_add, Nat.add_sub_cancel' hj.le]; rfl
  have d : (2 : Nat) ^ 8 ∣ 256 ^ (8 - j) := dvd_pow_self 256 (by omega)
  simp only [BitVec.toNat_ofNat]
  rw [e, Nat.mod_mul_right_div_self, Nat.mod_mod_of_dvd _ d]

theorem leBytes_toNat (v : W64) : leBytes 8 v.toNat = Claims.bytesOf 8 v := by
  rw [leBytes_eq_bytesOf, BitVec.ofNat_toNat, BitVec.setWidth_eq]

@[simp] theorem length_leBytes (n v : Nat) : (leBytes n v).length = n := by simp [leBytes_eq_map]

end Sys2Proof.Machine
end

section
/-!
Lengths of what AES-256-GCM and HKDF give (R371, R375): a ciphertext is as long as its text, a tag has 16 bytes.
-/

namespace Sys2Proof.Gcm

theorem length_digest (l : List Byte) : (Sha512.digest l).length = 64 := by
  simp only [Sha512.digest, Sha512.digestFrom, List.flatMap_cons, List.flatMap_nil, List.length_append, Sha512.beBytes,
    List.length_map, List.length_range, List.length_nil]

theorem length_hkdf (secret salt info : List Byte) : (hkdf secret salt info).length = 32 := by
  simp only [hkdf, hmac, List.length_take, length_digest]
  rfl

theorem length_xorBytes (a b : List Byte) : (xorBytes a b).length = min a.length b.length := List.length_zipWith

theorem length_wordAt (w : List Byte) (n : Nat) (h : 4 * n + 4 ≤ w.length) : (wordAt w n).length = 4 := by
  simp only [wordAt, List.length_take, List.length_drop]
  omega

theorem length_nextKey (w : List Byte) (n : Nat) (hw : w.length = 4 * n) (hn : 8 ≤ n) : (nextKey w n).length = 4 * (n + 1) := by
  have old := length_wordAt w (n - 8) (by omega)
  have last := length_wordAt w (n - 1) (by omega)
  have rot : ((wordAt w (n - 1)).rotateLeft 1).length = 4 := by simp [List.rotateLeft, last]
  unfold nextKey
  dsimp only
  split_ifs <;> simp only [List.length_append, length_xorBytes, List.length_map, old, last, rot, hw] <;> rfl

/-- A key of 32 bytes has 15 round keys of 16 bytes. -/
theorem length_schedule (key : List Byte) (hk : key.length = 32) : (schedule key).length = 240 := by
  have run (m : Nat) : ((List.range m).foldl (fun w n => nextKey w (n + 8)) key).length = 4 * (m + 8) := by
    induction m with
    | zero => exact hk
    | succ m ih =>
      rw [List.range_succ, List.foldl_append, List.foldl_cons, List.foldl_nil]
      exact length_nextKey _ (m + 8) ih (Nat.le_add_left 8 m)
  exact run 52

theorem length_encrypt (key block : List Byte) (hk : key.length = 32) : (encrypt (schedule key) block).length = 16 := by
  simp only [encrypt, length_xorBytes, shiftRows, List.length_map, List.length_range, List.length_take, List.length_drop,
    length_schedule key hk]
  rfl

theorem length_crypt (key nonce text : List Byte) (hk : key.length = 32) : (crypt key nonce text).length = text.length := by
  have run (m : Nat) : ((List.range m).flatMap fun n =>
      xorBytes ((text.drop (16 * n)).take 16) (encrypt (schedule key) (counter nonce (n + 2)))).length = min (16 * m) text.length := by
    induction m with
    | zero => exact (Nat.zero_min _).symm
    | succ m ih =>
      rw [List.range_succ, List.flatMap_append, List.length_append, ih, List.flatMap_singleton, length_xorBytes,
        length_encrypt key _ hk, List.length_take, List.length_drop]
      omega
  rw [crypt, run]
  omega

theorem length_tag (key nonce extra cipher : List Byte) (hk : key.length = 32) : (tag key nonce extra cipher).length = 16 := by
  simp only [tag, length_xorBytes, length_encrypt key _ hk, Sha512.beBytes, List.length_map, List.length_range]
  rfl

end Sys2Proof.Gcm
end

section
/-!
Measurements, IDE and the commands of the host (R364, R371, R372, R375).
-/

namespace Sys2Proof.Machine

/-! ## When a command runs -/

/-- R375: the command of a function runs and has this opcode. -/
def State.runs (s : State) (fn op : Nat) : Prop := (s.fn fn).busy = true ∧ (s.fn fn).cmdAt 0 = op

/-- R364: a tenant under IDE whose stream is gone. -/
def State.cut (s : State) (fn : Nat) : Prop := (s.tt fn 0).getLsbD 1 = true ∧ (s.fn fn).ide = false

section Perform
variable (s : State) (fn op : Nat) (ok : Bool) (f : State → State)

theorem State.perform_idle (h : ¬s.runs fn op) : s.perform fn op ok f = s := by
  refine if_pos ?_
  simpa [State.runs, or_iff_not_imp_left] using h

/-- A command that runs is refused where the stream is gone, and else goes as its host path answers. -/
theorem State.perform_runs (h : s.runs fn op) :
    s.perform fn op ok f =
      if bitAt (s.tt fn 0) 1 && !(s.fn fn).ide then s.answerCmd fn (if op = 0x10 then 3 else 6) 0
      else if !ok then s.answerCmd fn 3 0 else f s := by
  refine if_neg ?_
  simp [h.1, h.2]

theorem State.perform_cut (h : s.runs fn op) (c : s.cut fn) :
    s.perform fn op ok f = s.answerCmd fn (if op = 0x10 then 3 else 6) 0 := by
  rw [State.perform_runs s fn op ok f h, if_pos]
  simp [bitAt, c.1, c.2]

theorem State.perform_unanswered (h : s.runs fn op) (c : ¬s.cut fn) : s.perform fn op false f = s.answerCmd fn 3 0 := by
  rw [State.perform_runs s fn op false f h, if_neg (by simpa [bitAt, State.cut] using c)]
  rfl

theorem State.perform_answered (h : s.runs fn op) (c : ¬s.cut fn) : s.perform fn op true f = f s := by
  rw [State.perform_runs s fn op true f h, if_neg (by simpa [bitAt, State.cut] using c)]
  rfl

end Perform

theorem State.fn_modFn (s : State) (n : Nat) (f : HostFn → HostFn) : (s.modFn n f).fn n = f (s.fn n) := smGet_set_same _ _ _ _

/-! ## Bytes that a command stores -/

/-- What stands where a part of the bytes stored went. -/
theorem State.map_byte_storeBytes (s : State) (pa : Nat) (l : List Byte) (k n : Nat) (part : List Byte)
    (hp : (l.drop k).take n = part) (hn : part.length = n) :
    (List.range n).map (fun j => (s.storeBytes pa l).byte (pa + k + j)) = part := by
  refine List.ext_getElem (by simp [hn]) fun j h1 h2 => ?_
  have len : j < n ∧ k + j < l.length := by
    rw [← hp, List.length_take, List.length_drop] at h2
    omega
  have at_ : part[j] = l[k + j]'len.2 := by
    simp only [← hp, List.getElem_take, List.getElem_drop]
  rw [List.getElem_map, List.getElem_range, State.byte_storeBytes, if_pos (by omega), at_,
    show pa + k + j - pa = k + j by omega, List.getElem?_eq_getElem len.2, Option.getD_some]

theorem State.byte_storeBytes_ne (s : State) (pa : Nat) (l : List Byte) (a : Nat) (h : a < pa ∨ pa + l.length ≤ a) :
    (s.storeBytes pa l).byte a = s.byte a := by
  rw [State.byte_storeBytes, if_neg (by omega)]

/-! ## Keys and blobs -/

theorem State.dwordBytes_salt (s : State) (tenant : Nat) :
    dwordBytes (s.salt tenant) = (List.range 4).flatMap fun j => Claims.bytesOf 8 (s.tt tenant (17 + j)) := by
  simp only [dwordBytes, State.salt, List.flatMap_map, leBytes_toNat]

theorem sealExtra_eq (tenant : Nat) : sealExtra tenant = Claims.bytesOf 8 (BitVec.ofNat 64 tenant) := leBytes_eq_bytesOf tenant

theorem State.length_sealKey (s : State) (tenant : Nat) : (s.sealKey tenant).length = 32 := Gcm.length_hkdf _ _ _

/-- What `seal` stores: its nonce, the ciphertext and the tag. -/
def State.sealed (s : State) (fn : Nat) : List Byte × List Byte × List Byte :=
  let x := s.fn fn
  let nonce := leBytes 12 (sealNonce fn (smGet 0 s.mgmt.nonces fn))
  let c := Gcm.crypt (s.sealKey fn) nonce (s.readBytes (paHost (x.cmdAt 2)) (x.cmdAt 3))
  (nonce, c, Gcm.tag (s.sealKey fn) nonce (sealExtra fn) c)

theorem State.sealed_lengths (s : State) (fn : Nat) :
    (s.sealed fn).1.length = 12 ∧ (s.sealed fn).2.1.length = (s.fn fn).cmdAt 3 ∧ (s.sealed fn).2.2.length = 16 := by
  have key := s.length_sealKey fn
  simp [State.sealed, length_leBytes, Gcm.length_crypt _ _ _ key, Gcm.length_tag _ _ _ _ key, State.readBytes_host]

/-- The nonce of a tenant's seals counts on. -/
def State.countNonce (s : State) (fn : Nat) : State :=
  s.modMgmt fun m => { m with nonces := smSet 0 m.nonces fn (smGet 0 s.mgmt.nonces fn + 1) }

theorem exec_seal_eq (s : State) (fn : Nat) (h : s.runs fn 1) (c : ¬s.cut fn) :
    exec (.seal fn true) s = .next (((s.countNonce fn).storeBytes (paHost ((s.fn fn).cmdAt 4))
      ((s.sealed fn).1 ++ (s.sealed fn).2.1 ++ (s.sealed fn).2.2)).answerCmd fn 0 ((s.fn fn).cmdAt 3 + 28)) := by
  show execSeal fn true s = _
  rw [execSeal, State.perform_answered s fn 1 _ h c]
  simp only [State.sealed, State.countNonce, event]

/-- What a function holds once its command is answered. -/
theorem State.fn_answerCmd (s : State) (fn status olen : Nat) :
    (s.answerCmd fn status olen).fn fn =
      { s.fn fn with busy := false, status := w64 status, olen := w64 olen, seq := smGet 0 (s.fn fn).cmd 1 } :=
  State.fn_modFn _ _ _

/-- SEAL, R371, R375: the blob stands at its place, the nonce counts on, and nothing else of memory changes. -/
theorem exec_seal (s : State) (fn n dst : Nat) (h : s.runs fn 1) (c : ¬s.cut fn) (hn : n = (s.fn fn).cmdAt 3)
    (hd : dst = paHost ((s.fn fn).cmdAt 4)) :
    ∃ t : State, exec (.seal fn true) s = .next t ∧
      t.fn fn = { s.fn fn with busy := false, status := w64 0, olen := w64 (n + 28), seq := smGet 0 (s.fn fn).cmd 1 } ∧
      smGet 0 t.mgmt.nonces fn = smGet 0 s.mgmt.nonces fn + 1 ∧
      (List.range 12).map (fun j => t.byte (dst + j)) = (s.sealed fn).1 ∧
      (List.range n).map (fun j => t.byte (dst + 12 + j)) = (s.sealed fn).2.1 ∧
      (List.range 16).map (fun j => t.byte (dst + 12 + n + j)) = (s.sealed fn).2.2 ∧
      ∀ a, a < dst ∨ dst + n + 28 ≤ a → t.byte a = s.byte a := by
  have run := exec_seal_eq s fn h c
  obtain ⟨ln, lc, lt⟩ := s.sealed_lengths fn
  rw [← hn, ← hd] at run
  rw [← hn] at lc
  generalize s.sealed fn = blob at run ln lc lt ⊢
  obtain ⟨nonce, cipher, tag⟩ := blob
  dsimp only at run ln lc lt ⊢
  have stored := Stored.storeBytes (s.countNonce fn) dst (nonce ++ cipher ++ tag)
  have part := State.map_byte_storeBytes (s.countNonce fn) dst (nonce ++ cipher ++ tag)
  have len : (nonce ++ cipher ++ tag).length = n + 28 := by simp only [List.length_append, ln, lc, lt]; omega
  refine ⟨_, run, ?_, ?_, ?_, ?_, ?_, ?_⟩
  · have same : ((s.countNonce fn).storeBytes dst (nonce ++ cipher ++ tag)).fn fn = s.fn fn :=
      congrArg (smGet HostFn.reset · fn) stored.fns
    rw [State.fn_answerCmd, same]
  · show smGet 0 ((s.countNonce fn).storeBytes dst (nonce ++ cipher ++ tag)).mgmt.nonces fn = _
    rw [stored.nonces]
    exact smGet_set_same 0 s.mgmt.nonces fn (smGet 0 s.mgmt.nonces fn + 1)
  · exact part 0 12 nonce (by simp [← ln]) ln
  · exact part 12 n cipher (by simp [← ln, ← lc]) lc
  · have := part (12 + n) 16 tag (by simp [← ln, ← lc, ← lt]) lt
    simp only [← Nat.add_assoc] at this
    exact this
  · intro a ha
    exact State.byte_storeBytes_ne (s.countNonce fn) dst _ a (by omega)

/-- The blob that an `unseal` names. -/
def State.blobOf (s : State) (fn : Nat) : List Byte := s.readBytes (paHost ((s.fn fn).cmdAt 2)) ((s.fn fn).cmdAt 3)

/-- The ciphertext of that blob. -/
def State.cipherOf (s : State) (fn : Nat) : List Byte := ((s.blobOf fn).drop 12).take ((s.fn fn).cmdAt 3 - 28)

/-- R375: the tag of the blob is that of its ciphertext. -/
def State.blobGood (s : State) (fn : Nat) : Prop :=
  Gcm.tag (s.sealKey fn) ((s.blobOf fn).take 12) (sealExtra fn) (s.cipherOf fn) = (s.blobOf fn).drop ((s.fn fn).cmdAt 3 - 16)

theorem State.length_blobOf (s : State) (fn : Nat) : (s.blobOf fn).length = (s.fn fn).cmdAt 3 := by
  simp [State.blobOf, State.readBytes_host]

theorem exec_unseal_bad (s : State) (fn : Nat) (h : s.runs fn 2) (c : ¬s.cut fn) (bad : ¬s.blobGood fn) :
    exec (.unseal fn true) s = .next (s.answerCmd fn 4 0) := by
  show execUnseal fn true s = _
  rw [execUnseal, State.perform_answered s fn 2 _ h c]
  exact congrArg Host.Outcome.next (if_pos bad)

/-- UNSEAL, R371, R375: the text stands at its place, and nothing else of memory changes. -/
theorem exec_unseal (s : State) (fn n dst : Nat) (h : s.runs fn 2) (c : ¬s.cut fn) (good : s.blobGood fn)
    (hn : n = (s.fn fn).cmdAt 3) (hd : dst = paHost ((s.fn fn).cmdAt 4)) :
    let text := Gcm.crypt (s.sealKey fn) ((s.blobOf fn).take 12) (s.cipherOf fn)
    ∃ t : State, exec (.unseal fn true) s = .next t ∧
      t.fn fn = { s.fn fn with busy := false, status := w64 0, olen := w64 (n - 28), seq := smGet 0 (s.fn fn).cmd 1 } ∧
      (List.range (n - 28)).map (fun j => t.byte (dst + j)) = text ∧ ∀ a, a < dst ∨ dst + (n - 28) ≤ a → t.byte a = s.byte a := by
  intro text
  have run : exec (.unseal fn true) s = .next ((s.storeBytes dst text).answerCmd fn 0 (n - 28)) := by
    show execUnseal fn true s = _
    rw [execUnseal, State.perform_answered s fn 2 _ h c, hn, hd]
    exact congrArg Host.Outcome.next (if_neg (not_not.mpr good))
  have len : text.length = n - 28 := by
    rw [Gcm.length_crypt _ _ _ (s.length_sealKey fn), State.cipherOf, List.length_take, List.length_drop, State.length_blobOf, ← hn]
    omega
  refine ⟨_, run, ?_, ?_, ?_⟩
  · have same : (s.storeBytes dst text).fn fn = s.fn fn := congrArg (smGet HostFn.reset · fn) (Stored.storeBytes s dst text).fns
    rw [State.fn_answerCmd, same]
  · exact State.map_byte_storeBytes s dst text 0 (n - 28) text (by rw [← len, List.drop_zero, List.take_length]) len
  · exact fun a ha => State.byte_storeBytes_ne s dst text a (by rw [len]; exact ha)

/-- FLASH_UPDATE, R372, R375: an image whose signature verifies is in flash, and no other. -/
theorem exec_flashUpdate (s : State) (fn : Nat) (h : s.runs fn 0x10) (c : ¬s.cut fn) :
    exec (.flashUpdate fn true) s = .next (if Config.imageSigned (s.blobOf fn) = true then
      State.answerCmd { s with mgmt := { s.mgmt with flash := s.blobOf fn } } fn 0 0 else s.answerCmd fn 5 0) := by
  show execFlashUpdate fn true s = _
  rw [execFlashUpdate, State.perform_answered s fn 0x10 _ h c]
  rfl

theorem exec_spdmGetMeasurements (s : State) (fn : Nat) (nonce : List W64) (hr : s.mgmt.ready = true) (hf : fn < 256) :
    exec (.spdmGetMeasurements fn nonce) s = .next (s.modFn fn fun x =>
      let m := wordsOf (Sha512.digest s.mgmt.image ++ Sha512.digest s.mgmt.record ++ Sha512.digest (s.entryBytes fn))
      { x with spdm := m ++ Config.signature (m ++ nonce) }) := by
  refine congrArg Host.Outcome.next (if_neg ?_)
  simpa [hr] using hf

theorem exec_ideKm (s : State) (fn : Nat) (b : Bool) (hr : s.mgmt.ready = true) (hf : fn < 256) :
    exec (.ideKm fn b) s = .next (s.modFn fn fun x => { x with ide := b }) := by
  refine congrArg Host.Outcome.next (if_neg ?_)
  simpa [hr] using hf

theorem exec_spdmGetMeasurements_idle (s : State) (fn : Nat) (nonce : List W64) (h : ¬(s.mgmt.ready = true ∧ fn < 256)) :
    exec (.spdmGetMeasurements fn nonce) s = .next s := by
  refine congrArg Host.Outcome.next (if_pos ?_)
  simpa [or_iff_not_imp_left] using h

theorem exec_ideKm_idle (s : State) (fn : Nat) (b : Bool) (h : ¬(s.mgmt.ready = true ∧ fn < 256)) :
    exec (.ideKm fn b) s = .next s := by
  refine congrArg Host.Outcome.next (if_pos ?_)
  simpa [or_iff_not_imp_left] using h

end Sys2Proof.Machine
end

section
/-!
The owners of memory, the tenant table and peers (R143, R337, R368 to R370).
-/

namespace Sys2Proof.Machine

/-! ## Wiping -/

/-- R149: rows are remapped in TCM only. -/
theorem State.remapRun_outside (s : State) (a n : Nat) (h : ∀ w, a - a % 8 ≤ w → w < a + n → w / 2 ^ 60 ≠ 1) : s.remapRun a n = s := by
  unfold State.remapRun
  split
  · rfl
  · refine List.foldlRecOn _ _ (motive := fun t => t = s) rfl fun t ht w hw => ?_
    obtain ⟨j, hj, rfl⟩ := List.mem_map.mp hw
    have hj := List.mem_range.mp hj
    have none_ : tcmBank (wordOf a + 8 * j) = none := if_neg (h _ (by unfold wordOf; omega) (by unfold wordOf; omega))
    subst ht
    simp only [State.remapWord, none_]

theorem State.wipe_eq (s : State) (pa n : Nat) (h : s.remapRun pa n = s) :
    ∃ mem bad flaws, s.wipe pa n = { s with mem := mem, bad := bad, flaws := flaws } := by
  unfold State.wipe
  rw [h]
  exact ⟨_, _, _, rfl⟩

/-! ## What passes to a tenant -/

theorem State.passCluster_eq (s : State) (tenant q : Nat) (hq : q < 512) :
    ∃ mem bad flaws, s.passCluster tenant q =
      { s with mem := mem, bad := bad, flaws := flaws, sowner := smSet 0 s.sowner q (BitVec.ofNat 8 tenant) } := by
  obtain ⟨mem, bad, flaws, e⟩ := s.wipe_eq (paSpad (q % 32) (q / 32) 0) 0x200000
    (s.remapRun_outside _ _ fun w lo hi => by unfold paSpad at lo hi; omega)
  refine ⟨mem, bad, flaws, ?_⟩
  rw [State.passCluster, e]

theorem State.passGranule_eq (s : State) (tenant g : Nat) (hg : g < 6144) :
    ∃ mem bad flaws, s.passGranule tenant g =
      { s with mem := mem, bad := bad, flaws := flaws, gowner := smSet 0 s.gowner g (BitVec.ofNat 8 tenant) } := by
  obtain ⟨mem, bad, flaws, e⟩ := s.wipe_eq (paShared (g / 768) (g % 768 * 0x10000)) 0x10000
    (s.remapRun_outside _ _ fun w lo hi => by unfold paShared at lo hi; omega)
  refine ⟨mem, bad, flaws, ?_⟩
  rw [State.passGranule, e]

theorem State.byte_passCluster (s : State) (tenant q a : Nat) :
    (s.passCluster tenant q).byte a =
      if paSpad (q % 32) (q / 32) 0 ≤ a ∧ a < paSpad (q % 32) (q / 32) 0 + 0x200000 then 0 else s.byte a := s.byte_wipe _ _ a

theorem State.byte_passGranule (s : State) (tenant g a : Nat) :
    (s.passGranule tenant g).byte a =
      if paShared (g / 768) (g % 768 * 0x10000) ≤ a ∧ a < paShared (g / 768) (g % 768 * 0x10000) + 0x10000 then 0
      else s.byte a := s.byte_wipe _ _ a

/-- The step of `State.clearPort` for one mailbox. -/
def State.clearBox (core : Nat) (t : State) (n : Nat) : State := (t.setBox core n Mbox.empty).setPermit core n 0

theorem State.clearPort_eq_foldl (s : State) (core : Nat) : s.clearPort core = (List.range 16).foldl (State.clearBox core) s := rfl

theorem State.clearPort_eq (s : State) (core : Nat) : ∃ boxes permits, s.clearPort core = { s with mbox := boxes, permits := permits } := by
  rw [State.clearPort_eq_foldl]
  refine List.foldlRecOn _ _ (motive := fun t : State => ∃ b p, t = { s with mbox := b, permits := p }) ⟨s.mbox, s.permits, rfl⟩ ?_
  rintro t ⟨b, p, rfl⟩ n -
  exact ⟨_, _, rfl⟩

theorem State.box_setBox (s : State) (core n m : Nat) (b : Mbox) :
    (s.setBox core n b).box core m = if m = n then b else s.box core m := by
  simp only [State.box, State.setBox, smGet_set, Nat.add_left_cancel_iff]

theorem State.permit_setPermit (s : State) (core n m : Nat) (v : BitVec 16) :
    (s.setPermit core n v).permit core m = if m = n then v else s.permit core m := by
  simp only [State.permit, State.setPermit, smGet_set, Nat.add_left_cancel_iff]

theorem State.box_clearPort (s : State) (core n : Nat) (hn : n < 16) :
    (s.clearPort core).box core n = Mbox.empty ∧ (s.clearPort core).permit core n = 0 := by
  have step (t : State) (a : Nat) : ((State.clearBox core t a).box core n = if n = a then Mbox.empty else t.box core n) ∧
      (State.clearBox core t a).permit core n = if n = a then 0 else t.permit core n :=
    ⟨t.box_setBox core a n Mbox.empty, (t.setBox core a Mbox.empty).permit_setPermit core a n 0⟩
  have run (l : List Nat) (h : n ∈ l) :
      (l.foldl (State.clearBox core) s).box core n = Mbox.empty ∧ (l.foldl (State.clearBox core) s).permit core n = 0 := by
    induction l using List.reverseRecOn with
    | nil => exact absurd h List.not_mem_nil
    | append_singleton l a ih =>
      rw [List.foldl_append, List.foldl_cons, List.foldl_nil, (step _ a).1, (step _ a).2]
      by_cases ha : n = a
      · simp [ha]
      · simpa [ha] using ih (by simpa [ha] using h)
  exact run _ (List.mem_range.mpr hn)

theorem State.newKey_eq (s : State) (core : Nat) : ∃ keys free, s.newKey core = { s with mcapk := keys, free := free } := ⟨_, _, rfl⟩

theorem caTileOf_idem (k : Nat) : caTileOf (caTileOf k) = caTileOf k := by
  simp only [caTileOf, caTile, caX, caY]
  omega

theorem State.passCore_held (s : State) (tenant core : Nat) (h : s.coreHolds core (· == (s.tcmOwner core).toNat) = true) :
    s.passCore tenant core = s := if_pos h

/-- R143, R195, R337, R370: a core that passes to a tenant has its TCM wiped, its mailboxes and permits cleared and a new key. -/
theorem State.passCore_eq (s : State) (tenant core : Nat) (h : s.coreHolds core (· == (s.tcmOwner core).toNat) = false) :
    ∃ t boxes permits keys free, Stored s t ∧
      (∀ a, t.byte a = if paTcm core 0 ≤ a ∧ a < paTcm core 0 + 0x20000 then 0 else s.byte a) ∧
      s.passCore tenant core = { t with
        mbox := boxes, permits := permits, mcapk := keys, free := free
        towner := smSet 0 s.towner core (BitVec.ofNat 8 tenant) } ∧
      ∀ n, n < 16 → (s.passCore tenant core).box core n = Mbox.empty ∧ (s.passCore tenant core).permit core n = 0 := by
  have stored := Stored.wipe s (paTcm core 0) 0x20000
  have bytes := s.byte_wipe (paTcm core 0) 0x20000
  have e : s.passCore tenant core =
      (let t := ((s.wipe (paTcm core 0) 0x20000).clearPort core).newKey core
       { t with towner := smSet 0 t.towner core (BitVec.ofNat 8 tenant) }) := if_neg (by simp [h])
  generalize s.wipe (paTcm core 0) 0x20000 = t at stored bytes e
  have cleared := fun n hn => t.box_clearPort core n hn
  obtain ⟨b, p, eb⟩ := t.clearPort_eq core
  obtain ⟨k, f, ek⟩ := State.newKey_eq { t with mbox := b, permits := p } core
  rw [eb] at cleared e
  rw [ek] at e
  refine ⟨t, b, p, k, f, stored, bytes, ?_, fun n hn => ?_⟩
  · rw [e, ← stored.towner]
  · rw [e]
    exact cleared n hn

theorem exec_memoryOwnerAssignment (s : State) (unit tenant : Nat) (ht : tenant < 256) :
    exec (.memoryOwnerAssignment 0 unit tenant) s = .next (s.passCore tenant (caTileOf unit)) ∧
    (unit < 512 → exec (.memoryOwnerAssignment 1 unit tenant) s = .next (s.passCluster tenant unit)) ∧
    (unit < 6144 → exec (.memoryOwnerAssignment 2 unit tenant) s = .next (s.passGranule tenant unit)) := by
  have small : ¬256 ≤ tenant := Nat.not_le.mpr ht
  refine ⟨congrArg Host.Outcome.next (if_neg small), fun h => ?_, fun h => ?_⟩
  · exact congrArg Host.Outcome.next ((if_neg small).trans (if_pos h))
  · exact congrArg Host.Outcome.next ((if_neg small).trans (if_pos h))

/-! ## Peers -/

theorem exec_peerUnreachable (s : State) (peer : Nat) (exports : List Export) :
    exec (.peerUnreachable peer exports) s = .next { s with
      peers := exports.foldl (fun m e => smSet Peer.none m (peer * 256 + e.tenant % 256) ⟨min e.size (2 ^ 40), e.rights, e.gone⟩)
        (s.peers.filter fun e => e.1 / 256 != peer) } := rfl

/-- R368: what a peer exports for a tenant once its exports are entered: nothing that it has not named. -/
theorem smGet_exports_ne (m : SMap Peer) (peer p tenant : Nat) (exports : List Export) (ht : tenant < 256)
    (h : p = peer → ∀ e ∈ exports, e.tenant % 256 ≠ tenant) :
    smGet Peer.none (exports.foldl (fun m e =>
        smSet Peer.none m (peer * 256 + e.tenant % 256) ⟨min e.size (2 ^ 40), e.rights, e.gone⟩)
      (m.filter fun e => e.1 / 256 != peer)) (p * 256 + tenant) =
      if p = peer then Peer.none else smGet Peer.none m (p * 256 + tenant) := by
  rw [smGet_foldl_set_ne Peer.none (fun e : Export => peer * 256 + e.tenant % 256)
    (fun e : Export => ⟨min e.size (2 ^ 40), e.rights, e.gone⟩)]
  · rw [smGet_filter Peer.none m fun k => k / 256 != peer, show (p * 256 + tenant) / 256 = p by omega]
    by_cases hp : p = peer
    · simp [hp]
    · simp [hp]
  · intro e he same
    have : e.tenant % 256 < 256 := Nat.mod_lt _ (by decide)
    exact h (by omega) e he (by omega)

/-- R158, R254: what the model makes of an atomic is what the claims say. -/
theorem atomApply_eq (op : AtomOp) (x y : W64) : atomApply op x y = Claims.atomResult op x y := by
  cases op
  case add => exact BitVec.eq_of_toNat_eq (by simp [atomApply, Claims.atomResult])
  case min =>
    simp only [atomApply, Claims.atomResult, BitVec.slt_iff_toInt_lt]
    rcases lt_trichotomy x.toInt y.toInt with h | h | h
    · simp [h, h.le]
    · simp [BitVec.eq_of_toInt_eq h]
    · simp [h.not_gt, h.not_ge]
  case max =>
    simp only [atomApply, Claims.atomResult, BitVec.slt_iff_toInt_lt]
    rcases lt_trichotomy x.toInt y.toInt with h | h | h
    · simp [h, h.le]
    · simp [BitVec.eq_of_toInt_eq h]
    · simp [h.not_gt, h.not_ge]
  case minu =>
    simp only [atomApply, Claims.atomResult, BitVec.ult_iff_lt, BitVec.lt_def]
    rcases lt_trichotomy x.toNat y.toNat with h | h | h
    · simp [h, h.le]
    · simp [BitVec.eq_of_toNat_eq h]
    · simp [h.not_gt, h.not_ge]
  case maxu =>
    simp only [atomApply, Claims.atomResult, BitVec.ult_iff_lt, BitVec.lt_def]
    rcases lt_trichotomy x.toNat y.toNat with h | h | h
    · simp [h, h.le]
    · simp [BitVec.eq_of_toNat_eq h]
    · simp [h.not_gt, h.not_ge]
  all_goals rfl

section ServePeer
variable (s : State) (tenant off : Nat) (op : PeerOp)

theorem State.servePeer_unresolved (h : s.exportAt tenant off op = none) :
    s.servePeer tenant off op = s ∧ s.peerReply tenant off op = .error 0x05 := by
  simp [State.servePeer, State.peerReply, h]

theorem State.servePeer_fails (pa : Nat) (h : s.exportAt tenant off op = some pa) (cause : BitVec 8)
    (hf : s.peerFails pa op = some cause) : s.servePeer tenant off op = s ∧ s.peerReply tenant off op = .error cause := by
  simp [State.servePeer, State.peerReply, h, hf]

/-- R265, R368: a peer's store that meets the descriptor of a live queue fails. -/
theorem State.peerFails_desc (pa d : Nat) (l : List Byte) (live : (s.queue d).live = true) (lo : d < pa + l.length) (hi : pa < d + 64) :
    s.peerFails pa (.store l) = some 0x0F := by
  have listed := mem_of_smGet Queue.none (m := s.queues) (n := d) (by
    intro none_
    rw [State.queue, none_] at live
    exact absurd live (by decide))
  refine if_pos (List.any_eq_true.mpr ⟨_, listed, ?_⟩)
  simp only [Bool.and_eq_true, decide_eq_true_eq]
  exact ⟨⟨live, lo⟩, hi⟩

end ServePeer

/-! An access of a peer that nothing fails or holds (R368). -/

section Served
variable (s : State) (tenant off pa : Nat)

theorem State.servePeer_load (n : Nat) (h : s.exportAt tenant off (.load n) = some pa) (hf : s.peerFails pa (.load n) = none) :
    s.servePeer tenant off (.load n) = s ∧ s.peerReply tenant off (.load n) = .ok (s.readBytes pa n) := by
  simp [State.servePeer, State.peerReply, h, hf, PeerOp.size]

theorem State.servePeer_store (l : List Byte) (h : s.exportAt tenant off (.store l) = some pa)
    (hf : s.peerFails pa (.store l) = none) (hh : s.runHeld pa l.length = false) :
    s.servePeer tenant off (.store l) = s.storeBytes pa l := by
  simp [State.servePeer, h, hf, hh, PeerOp.size]

theorem State.servePeer_amo (f : AtomOp) (v : W64) (h : s.exportAt tenant off (.amo f v) = some pa)
    (hf : s.peerFails pa (.amo f v) = none) (hh : s.runHeld pa 8 = false) :
    s.peerReply tenant off (.amo f v) = .ok (s.readBytes pa 8) ∧
    s.servePeer tenant off (.amo f v) =
      s.storeBytes pa (Claims.bytesOf 8 (Claims.atomResult f (BitVec.ofNat 64 (s.readN pa 8)) v)) := by
  refine ⟨by simp only [State.peerReply, h, hf, PeerOp.size], ?_⟩
  simp only [← atomApply_eq, ← leBytes_toNat, State.servePeer, h, hf, PeerOp.size, hh, PeerOp.make, w64, Option.isSome_none,
    Bool.or_false, Bool.false_eq_true, if_false]

theorem leBytes_acas (a b : W64) (old : Nat) :
    leBytes 8 ((PeerOp.acas a b).make old) = Claims.bytesOf 8 (if BitVec.ofNat 64 old = a then b else BitVec.ofNat 64 old) := by
  by_cases e : BitVec.ofNat 64 old = a
  · simp only [PeerOp.make, w64, e, if_true, leBytes_toNat]
  · simp only [PeerOp.make, w64, e, if_false, leBytes_eq_bytesOf]

theorem State.servePeer_acas (a b : W64) (h : s.exportAt tenant off (.acas a b) = some pa)
    (hf : s.peerFails pa (.acas a b) = none) (hh : s.runHeld pa 8 = false) :
    s.peerReply tenant off (.acas a b) = .ok (s.readBytes pa 8) ∧
    s.servePeer tenant off (.acas a b) = s.storeBytes pa
      (Claims.bytesOf 8 (if BitVec.ofNat 64 (s.readN pa 8) = a then b else BitVec.ofNat 64 (s.readN pa 8))) := by
  refine ⟨by simp only [State.peerReply, h, hf, PeerOp.size], ?_⟩
  simp only [← leBytes_acas, State.servePeer, h, hf, PeerOp.size, hh, Option.isSome_none, Bool.or_false, Bool.false_eq_true, if_false]

end Served

end Sys2Proof.Machine
end

section
/-!
The tenant table, the handle tables and the owners of live queues through the end of threads: no kill, no store and no event
changes them (R55, R63, R253, R296, R319, R348).
-/

namespace Sys2Proof.Machine

/-! ## Stores at queues and arbiters -/

theorem Stored.writeW (s : State) (a : Nat) (v : W64) : Stored s (s.writeW a v) := Stored.writeBytes s a _

theorem Stored.syncDesc (s : State) (pa : Nat) : Stored s (s.syncDesc pa) :=
  (Stored.writeW _ _ _).trans <| (Stored.writeW _ _ _).trans <| (Stored.writeW _ _ _).trans <| (Stored.writeW _ _ _).trans <|
    (Stored.writeW _ _ _).trans <| (Stored.writeW _ _ _).trans <| (Stored.writeW _ _ _).trans (Stored.writeW _ _ _)

theorem Stored.acceptStore (s : State) (o : OutStore) : Stored s (s.acceptStore o).1 := by
  unfold State.acceptStore
  split
  · dsimp only
    split
    · exact Stored.countBad s _
    · exact Stored.refl s
  · refine Stored.foldl (fun t e => ?_) _ s
    exact Stored.storeBytes t e.1 e.2

/-! ## What is kept -/

/-- The tenant table and the handle tables are as before, and no queue lives that did not, or for another tenant. -/
structure KeepsTables (s t : State) : Prop where
  tenants : t.tenants = s.tenants
  objs : t.objs = s.objs
  queues : ∀ pa, (t.queue pa).live = true → (s.queue pa).live = true ∧ (t.queue pa).tenant = (s.queue pa).tenant

namespace KeepsTables
variable {s t u : State}

theorem of_eq (ht : t.tenants = s.tenants) (ho : t.objs = s.objs) (hq : t.queues = s.queues) : KeepsTables s t :=
  ⟨ht, ho, fun pa live => by unfold State.queue at live ⊢; rw [hq] at live ⊢; exact ⟨live, rfl⟩⟩

theorem refl (s : State) : KeepsTables s s := of_eq rfl rfl rfl

theorem trans (h : KeepsTables s t) (k : KeepsTables t u) : KeepsTables s u where
  tenants := k.tenants.trans h.tenants
  objs := k.objs.trans h.objs
  queues pa live :=
    have ⟨live, same⟩ := k.queues pa live
    ⟨(h.queues pa live).1, same.trans (h.queues pa live).2⟩

theorem of_stored (h : Stored s t) : KeepsTables s t := of_eq h.tenants h.objs h.queues

theorem foldl {α : Type} {f : State → α → State} (hf : ∀ t a, KeepsTables t (f t a)) (l : List α) (s : State) :
    KeepsTables s (l.foldl f s) :=
  List.foldlRecOn l f (motive := KeepsTables s) (refl s) fun t h a _ => h.trans (hf t a)

theorem ite {c : Prop} [Decidable c] (h : KeepsTables s t) (k : KeepsTables s u) : KeepsTables s (if c then t else u) := by
  split
  · exact h
  · exact k

end KeepsTables

/-! ## Slots and queues -/

section Queues
variable (s : State)

theorem KeepsTables.reply (k : Nat) (t : Option Trap) : KeepsTables s (s.reply k t) := .of_eq rfl rfl rfl

theorem KeepsTables.setSlot (k : Nat) (x : Slot) : KeepsTables s (s.setSlot k x) := .of_eq rfl rfl rfl

theorem KeepsTables.noteFree (k : Nat) : KeepsTables s (s.noteFree k) := .of_eq rfl rfl rfl

theorem KeepsTables.setEntry (way : Nat) (e : AtEntry) : KeepsTables s (s.setEntry way e) := .of_eq rfl rfl rfl

theorem KeepsTables.setGroup (g : Nat) (x : AtGroup) : KeepsTables s (s.setGroup g x) := .of_eq rfl rfl rfl

theorem KeepsTables.setUnit (core : Nat) (u : MatUnit) : KeepsTables s (s.setUnit core u) := .of_eq rfl rfl rfl

theorem KeepsTables.deliver (k : Nat) (f : Ctx → Ctx) : KeepsTables s (s.deliver k f) := .of_eq rfl rfl rfl

theorem KeepsTables.setQueue (pa : Nat) (q : Queue)
    (h : q.live = true → (s.queue pa).live = true ∧ q.tenant = (s.queue pa).tenant) : KeepsTables s (s.setQueue pa q) := by
  refine KeepsTables.trans (t := { s with queues := smSet Queue.none s.queues pa q }) ⟨rfl, rfl, fun p live => ?_⟩
    (.of_stored (Stored.syncDesc _ pa))
  have e : State.queue { s with queues := smSet Queue.none s.queues pa q } p = if p = pa then q else s.queue p :=
    smGet_set _ _ _ _ _
  rw [e] at live ⊢
  by_cases hp : p = pa
  · rw [if_pos hp] at live ⊢
    exact hp ▸ h live
  · rw [if_neg hp] at live ⊢
    exact ⟨live, rfl⟩

theorem KeepsTables.answerSlot (k : Nat) (status : W64) (e : Option (BitVec 512)) : KeepsTables s (s.answerSlot k status e) := by
  unfold State.answerSlot
  split
  · exact .of_eq rfl rfl rfl
  · exact .refl s

theorem KeepsTables.storeEntry {t : State} (pa : Nat) (e : BitVec 512) (h : s.storeEntry pa e = some t) : KeepsTables s t := by
  unfold State.storeEntry at h
  dsimp only at h
  split at h
  · cases h
    exact .setQueue s pa _ fun live => ⟨live, rfl⟩
  · split at h
    · cases h
    · cases h
      exact .setQueue s pa _ fun live => ⟨live, rfl⟩

theorem KeepsTables.homePush {t : State} (pa : Nat) (e : BitVec 512) (h : s.homePush pa e = some t) : KeepsTables s t := by
  unfold State.homePush at h
  split at h
  next k _ _ =>
    cases h
    have answered := KeepsTables.answerSlot s k (queueStatus 0 0) (some e)
    have same : (s.answerSlot k (queueStatus 0 0) (some e)).queue pa = s.queue pa := by
      unfold State.answerSlot
      split <;> rfl
    exact answered.trans (.setQueue _ pa _ fun live => by rw [same]; exact ⟨live, rfl⟩)
  · exact .storeEntry s pa e h

theorem KeepsTables.postEvent (tenant : Nat) (f : List W64) : KeepsTables s (s.postEvent tenant f) := by
  unfold State.postEvent
  dsimp only
  split
  · exact .of_eq rfl rfl rfl
  · split_ifs
    · exact .of_eq rfl rfl rfl
    · exact .of_eq rfl rfl rfl
    · split
      · exact .of_eq rfl rfl rfl
      next t h => exact (KeepsTables.homePush s _ _ h).trans (.of_eq rfl rfl rfl)

theorem KeepsTables.flushWhere (k : Nat) (p : OutStore → Bool) : KeepsTables s (s.flushWhere k p) := by
  unfold State.flushWhere
  refine KeepsTables.trans (KeepsTables.foldl (fun t o => ?_) _ s) (.of_eq rfl rfl rfl)
  have accepted := KeepsTables.of_stored (Stored.acceptStore t o)
  split
  next u h => rwa [h] at accepted
  next u cause h => exact KeepsTables.trans (by rwa [h] at accepted) (.postEvent u _ _)

theorem KeepsTables.shedStores : KeepsTables s s.shedStores := by
  refine KeepsTables.foldl (fun t e => ?_) _ s
  split
  · exact .flushWhere t _ _
  · exact .refl t

end Queues

/-! ## The Answer Table -/

section AnswerTable
variable (s : State)

theorem KeepsTables.tidy (way : Nat) : KeepsTables s (s.tidy way) := by
  unfold State.tidy
  dsimp only
  split
  · exact .of_eq rfl rfl rfl
  · exact .refl s

theorem KeepsTables.leaveEntry (way : Nat) : KeepsTables s (s.leaveEntry way) :=
  KeepsTables.trans (t := s.setEntry way { s.entry way with producer := none }) (.of_eq rfl rfl rfl) (.tidy _ way)

theorem KeepsTables.leaveCtx (k : Nat) (parent st : W64) (fix : Bool) : KeepsTables s (s.leaveCtx k parent st fix) :=
  .of_eq rfl rfl rfl

theorem KeepsTables.deliverCall (k : Nat) (d : GReg) (way m : Nat) (code : TabCode) :
    KeepsTables s (s.deliverCall k d way m code) := by
  unfold State.deliverCall
  dsimp only
  split_ifs <;> exact .of_eq rfl rfl rfl

theorem KeepsTables.wakeConsumer (k way : Nat) : KeepsTables s (s.wakeConsumer k way) := by
  unfold State.wakeConsumer
  dsimp only
  split
  · split
    · split
      · exact .of_eq rfl rfl rfl
      · exact (KeepsTables.deliverCall s _ _ _ _ _).trans (.reply _ _ _)
    · split <;> exact .of_eq rfl rfl rfl
    · exact .refl s
  · exact .refl s

theorem KeepsTables.wakeAll (ways : List Nat) : KeepsTables s (s.wakeAll ways) :=
  KeepsTables.foldl (fun t w => KeepsTables.foldl (fun u k => .wakeConsumer u k w) _ t) ways s

theorem KeepsTables.pureDone (way : Nat) : KeepsTables s (s.pureDone way) := by
  unfold State.pureDone
  dsimp only
  split
  · split
    · exact .of_eq rfl rfl rfl
    · exact .refl s
  · exact .refl s

theorem KeepsTables.decideTend (k way : Nat) : KeepsTables s (s.decideTend k way) := by
  unfold State.decideTend
  dsimp only
  split
  · refine ((KeepsTables.setGroup s way _).trans (.foldl ?_ _ _)).trans (.deliver _ _ _)
    exact fun t w => .setEntry t w _
  · refine ((((KeepsTables.foldl ?_ _ s).trans (.setGroup _ _ _)).trans (.leaveCtx _ _ _ _ _)).trans (.wakeAll _ _)).trans
      (.pureDone _ way)
    exact fun t w => .setEntry t w _

theorem KeepsTables.memberTend (k way : Nat) : KeepsTables s (s.memberTend k way) :=
  (KeepsTables.leaveEntry s way).trans (.leaveCtx _ _ _ _ _)

theorem KeepsTables.settle : KeepsTables s s.settle := by
  unfold State.settle
  refine (KeepsTables.foldl ?_ _ s).trans (.foldl ?_ _ _)
  · exact fun t p => .ite ((KeepsTables.memberTend t _ _).trans (.reply _ _ _)) (.refl t)
  · exact fun t p => .ite ((KeepsTables.decideTend t _ _).trans (.reply _ _ _)) (.refl t)

theorem KeepsTables.failGroup (g : Nat) (cause : BitVec 8) : KeepsTables s (s.failGroup g cause) := by
  unfold State.failGroup
  dsimp only
  refine ((((KeepsTables.foldl ?_ _ s).trans (.setGroup _ _ _)).trans (.wakeAll _ _)).trans (.foldl ?_ _ _)).trans
    (.foldl KeepsTables.tidy _ _)
  · exact fun t w => .ite (.setEntry t w _) (.refl t)
  · exact fun t p => .ite (((KeepsTables.leaveEntry t _).trans (.leaveCtx _ _ _ _ _)).trans (.reply _ _ _)) (.refl t)

theorem KeepsTables.endProducer (tid : Nat) (cause : BitVec 8) : KeepsTables s (s.endProducer tid cause) := by
  unfold State.endProducer
  refine KeepsTables.trans (KeepsTables.foldl (fun t w => ?_) _ s) (.settle _)
  have failed : KeepsTables t (if (t.entry w).st == .eval then t.failGroup (t.entry w).group cause else t) :=
    .ite (.failGroup t _ cause) (.refl t)
  exact .ite (failed.trans (.leaveEntry _ w)) failed

end AnswerTable

/-! ## Matrix units and reservations -/

section Units
variable (s : State)

theorem KeepsTables.notify (core : Nat) (c : MatCmd) (status : Nat) (cause : BitVec 8) (step : Nat) :
    KeepsTables s (s.notify core c status cause step) := by
  unfold State.notify
  split
  · exact .of_eq rfl rfl rfl
  · exact .refl s

theorem KeepsTables.endClaim (core : Nat) (save : Bool) : KeepsTables s (s.endClaim core save) := by
  unfold State.endClaim
  dsimp only
  refine KeepsTables.trans ?_ (.setUnit _ _ _)
  have told := KeepsTables.foldl (fun t c => KeepsTables.notify t core c 1 0 0) (s.unit core).queue s
  split
  · refine KeepsTables.trans ?_ (.reply _ _ _)
    exact .ite (told.trans (.of_eq rfl rfl rfl)) told
  · refine KeepsTables.trans ?_ (.reply _ _ _)
    exact .ite (told.trans (.of_eq rfl rfl rfl)) told
  · exact .ite (told.trans (.of_eq rfl rfl rfl)) told

theorem KeepsTables.releaseUnit (k : Nat) : KeepsTables s (s.releaseUnit k) := by
  unfold State.releaseUnit
  dsimp only
  split_ifs
  · exact .endClaim s _ _
  · exact .of_eq rfl rfl rfl
  · exact .refl s

theorem KeepsTables.settleClaim (core : Nat) : KeepsTables s (s.settleClaim core) := by
  unfold State.settleClaim
  dsimp only
  split
  · exact .endClaim s _ _
  · exact .refl s

theorem KeepsTables.grantNext (pa : Nat) : KeepsTables s (s.grantNext pa) := by
  unfold State.grantNext
  refine KeepsTables.trans (t := s.setHolder pa none) (.of_eq rfl rfl rfl) (KeepsTables.foldl (fun t k => ?_) _ _)
  split_ifs
  · exact .refl t
  · exact .reply t _ _
  · split
    · exact .of_eq rfl rfl rfl
    · exact .refl t

theorem KeepsTables.dropKey (key : ResvKey) : KeepsTables s (s.dropKey key) := by
  unfold State.dropKey
  split
  · exact .refl s
  · refine KeepsTables.foldl ?_ _ s
    exact fun t e => .grantNext t e.1

end Units

/-! ## The end of a thread -/

section Kills
variable (s : State)

theorem KeepsTables.endTask (tid : Nat) : KeepsTables s (s.endTask tid) := by
  refine KeepsTables.foldl ?_ _ s
  exact fun t e => .of_eq rfl rfl rfl

theorem KeepsTables.dropRecords (tid : Nat) : KeepsTables s (s.dropRecords tid) := by
  refine KeepsTables.foldl ?_ _ s
  exact fun t core => .of_eq rfl rfl rfl

theorem KeepsTables.killedThread (tid : Nat) (key : ResvKey) : KeepsTables s (s.killedThread tid key) :=
  ((KeepsTables.endTask s tid).trans (.dropKey _ key)).trans (.dropRecords _ tid)

theorem KeepsTables.vacate (k : Nat) : KeepsTables s (s.vacate k) := by
  unfold State.vacate
  have freed : KeepsTables s ((s.setSlot k Slot.free).noteFree k) := (KeepsTables.setSlot s k _).trans (.noteFree _ k)
  dsimp only
  split
  · exact .ite (freed.trans (.setSlot _ _ _)) freed
  · exact .ite (freed.trans (.setSlot _ _ _)) freed
  · exact freed

theorem KeepsTables.withdrawn (k : Nat) (st : SlotSt) : KeepsTables s (s.withdrawn k st) := by
  have each (w : Wait) (i : Instr) : KeepsTables s
      (match w, i with
       | .queue pa, _ => s.syncDesc pa
       | .entry e, _ => s.tidy e
       | .welt _, .amo _ _ _ _ _ _ => s.weltAbandon k
       | _, _ => s) := by
    split
    · exact .of_stored (Stored.syncDesc s _)
    · exact .tidy s _
    · exact .of_eq rfl rfl rfl
    · exact .refl s
  unfold State.withdrawn
  split
  · exact each _ _
  · exact each _ _
  · exact .refl s

theorem KeepsTables.killDone (k : Nat) : KeepsTables s (s.killDone k) := by
  unfold State.killDone
  dsimp only
  split
  · have settled : KeepsTables s (if s.owns k then s.settleClaim (caCore k) else s) := .ite (.settleClaim s _) (.refl s)
    exact .ite ((settled.trans (.vacate _ k)).trans (.killedThread _ _ _)) settled
  · exact .refl s

theorem KeepsTables.killSlot (k : Nat) (cause : BitVec 8) : KeepsTables s (s.killSlot k cause) := by
  unfold State.killSlot
  dsimp only
  split
  · exact .refl s
  · have ended : KeepsTables s (((s.flushAll k).endProducer (s.slot k).tid cause).releaseUnit k) :=
      ((KeepsTables.flushWhere s k _).trans (.endProducer _ _ cause)).trans (.releaseUnit _ k)
    generalize ((s.flushAll k).endProducer (s.slot k).tid cause).releaseUnit k = t at ended ⊢
    have drains := ended.trans (u := t.modSlot k fun y => { y with st := y.st.draining (t.unfinished k) false, pend := none })
      (.of_eq rfl rfl rfl)
    split_ifs
    · exact drains
    · exact drains.trans (.withdrawn _ k _)
    · exact (drains.trans (.withdrawn _ k _)).trans (.killDone _ k)

theorem KeepsTables.answerSpawn (p : Pkt) (v : W64) : KeepsTables s (s.answerSpawn p v) := by
  unfold State.answerSpawn
  dsimp only
  split
  · split
    · exact .refl s
    · split <;> exact .of_eq rfl rfl rfl
  · split
    · exact .refl s
    · split <;> exact .of_eq rfl rfl rfl
  · exact .refl s

theorem KeepsTables.killPkt (p : Pkt) : KeepsTables s (s.killPkt p) := by
  have dropped : KeepsTables s (s.dropPkt p.id) := .of_eq rfl rfl rfl
  exact ((dropped.trans (.answerSpawn _ p allOnes)).trans (.endProducer _ p.tid 0)).trans (.killedThread _ _ _)

theorem KeepsTables.killSpilled (cause : BitVec 8) (x : Spilled) : KeepsTables s (s.killSpilled cause x) := by
  have gone : KeepsTables s { s with spilled := s.spilled.filter fun y => y.tid != x.tid } := .of_eq rfl rfl rfl
  exact (gone.trans (.endProducer _ x.tid cause)).trans (.killedThread _ _ _)

theorem KeepsTables.killWhere (p : ResvKey → Bool) : KeepsTables s (s.killWhere p) := by
  unfold State.killWhere
  refine ((KeepsTables.foldl ?_ _ s).trans (.foldl KeepsTables.killPkt _ _)).trans (.foldl ?_ _ _)
  · exact fun t e => .ite (.killSlot t e.1 0) (.refl t)
  · exact fun t x => .killSpilled t 0 x

end Kills

end Sys2Proof.Machine
end

section
/-!
The end of a tenant (R370): its threads die, its queues, handles and Answer Table entries are freed, and what it owned passes to
tenant 0.
-/

namespace Sys2Proof.Machine

/-! ## Sweeping a table -/

/-- A step for each listed entry that p names, which clears that key, leaves no key that p names. -/
theorem State.swept {α : Type} [DecidableEq α] (d : α) (g : State → SMap α) (f : State → Nat × α → State) (p : Nat × α → Bool)
    (key : Nat × α → Nat) (hd : ∀ n, p (n, d) = false) (hf : ∀ t e, g (f t e) = smSet d (g t) (key e) d)
    (hk : ∀ e, p e = true → key e = e.1) (s : State) (n : Nat) :
    p (n, smGet d (g (((g s).filter p).foldl f s)) n) = false := by
  have run (l : List (Nat × α)) : g (l.foldl f s) = l.foldl (fun m e => smSet d m (key e) d) (g s) := by
    induction l using List.reverseRecOn with
    | nil => rfl
    | append_singleton l e ih => simp only [List.foldl_append, List.foldl_cons, List.foldl_nil, hf, ih]
  rw [run]
  by_cases hn : ∃ e ∈ (g s).filter p, key e = n
  · obtain ⟨e, he, rfl⟩ := hn
    rw [smGet_foldl_set_mem d key (fun _ => d) _ _ e he fun _ _ _ => rfl]
    exact hd _
  · rw [smGet_foldl_set_ne d key (fun _ => d) _ _ n fun e he h => hn ⟨e, he, h⟩]
    refine Bool.eq_false_iff.mpr fun named => hn ⟨_, List.mem_filter.mpr ⟨mem_of_smGet d (m := g s) (n := n) ?_, named⟩, hk _ named⟩
    intro e
    rw [e, hd n] at named
    exact absurd named (by decide)

/-! ## Queues and objects are freed -/

theorem KeepsTables.wakeQueue (s : State) (pa : Nat) (cause : BitVec 8) : KeepsTables s (s.wakeQueue pa cause) := by
  refine KeepsTables.foldl ?_ _ s
  exact fun t k => .reply t k _

theorem KeepsTables.wakeWords (s : State) (p : Nat → Bool) (cause : BitVec 8) : KeepsTables s (s.wakeWords p cause) := by
  refine KeepsTables.foldl ?_ _ s
  intro t k
  split
  · split
    · exact .reply t k _
    · exact .refl t
  · exact .refl t

theorem State.wakeQueue_queues (s : State) (pa : Nat) (cause : BitVec 8) : (s.wakeQueue pa cause).queues = s.queues :=
  List.foldlRecOn _ _ (motive := fun t : State => t.queues = s.queues) rfl fun _ h _ _ => h

/-- R276: freeing a queue clears its record, and no other queue and no other table changes. -/
theorem State.closeQueue_keeps (s : State) (pa : Nat) :
    KeepsTables { s with queues := smSet Queue.none s.queues pa Queue.none } (s.closeQueue pa) := by
  have woken := KeepsTables.wakeQueue s pa 0x0F
  have same := s.wakeQueue_queues pa 0x0F
  unfold State.closeQueue
  generalize s.wakeQueue pa 0x0F = t at woken same ⊢
  generalize List.replicate 64 (0 : Byte) = zeros
  refine KeepsTables.trans ?_ (.of_stored (Stored.writeBytes _ _ _))
  exact .of_eq woken.tenants woken.objs (by rw [same])

theorem State.closeQueue_queues (s : State) (pa : Nat) : (s.closeQueue pa).queues = smSet Queue.none s.queues pa Queue.none := by
  show State.queues (State.writeBytes
    { s.wakeQueue pa 0x0F with queues := smSet Queue.none (s.wakeQueue pa 0x0F).queues pa Queue.none } pa (List.replicate 64 0)) = _
  rw [(Stored.writeBytes _ pa _).queues, s.wakeQueue_queues pa 0x0F]

theorem KeepsTables.setObjs {s t : State} (h : KeepsTables s t) (m : SMap Obj) :
    ∃ u : State, u.tenants = s.tenants ∧ u.queues = s.queues ∧ u.objs = m ∧ KeepsTables u { t with objs := m } :=
  ⟨{ s with objs := m }, rfl, rfl, rfl, h.tenants, rfl, h.queues⟩

/-- R247, R348: freeing an object clears its handle, and no other handle and no other table changes. -/
theorem State.releaseObject_keeps (s : State) (tenant handle : Nat) :
    ∃ u : State, u.tenants = s.tenants ∧ u.queues = s.queues ∧
      u.objs = smSet Obj.none s.objs (tenant * 2 ^ 20 + handle) Obj.none ∧ KeepsTables u (s.releaseObject tenant handle) := by
  have woken := KeepsTables.wakeWords s
    (fun a => decide (paStack tenant (handle * 2 ^ 40 + 4 * 2 ^ 60) ≤ a) &&
      decide (a < paStack tenant (handle * 2 ^ 40 + 4 * 2 ^ 60) + 2 ^ 40)) 0x04
  have kept := woken.trans (.of_stored (Stored.watch _ (paStack tenant (handle * 2 ^ 40 + 4 * 2 ^ 60)) (s.obj tenant handle).size))
  obtain ⟨u, ht, hq, ho, k⟩ := kept.setObjs (smSet Obj.none s.objs (tenant * 2 ^ 20 + handle) Obj.none)
  refine ⟨u, ht, hq, ho, KeepsTables.trans ?_ (.shedStores _)⟩
  unfold State.freeObject
  dsimp only
  generalize State.watch _ _ _ = t at kept k ⊢
  rw [kept.objs]
  exact k.trans (.of_eq rfl rfl rfl)

theorem State.releaseObject_objs (s : State) (tenant handle : Nat) :
    (s.releaseObject tenant handle).objs = smSet Obj.none s.objs (tenant * 2 ^ 20 + handle) Obj.none := by
  obtain ⟨u, -, -, ho, k⟩ := s.releaseObject_keeps tenant handle
  exact k.objs.trans ho

/-! ## The steps of the end of a tenant -/

/-- No live queue belongs to this tenant. -/
def NoQueues (tenant : Nat) (t : State) : Prop := ∀ pa, (t.queue pa).live = true → (t.queue pa).tenant ≠ w64 tenant

theorem KeepsTables.noQueues {s t : State} {tenant : Nat} (k : KeepsTables s t) (h : NoQueues tenant s) : NoQueues tenant t :=
  fun pa live => by
    have ⟨live, same⟩ := k.queues pa live
    rw [same]
    exact h pa live

theorem NoQueues.of_eq {s t : State} {tenant : Nat} (e : t.queues = s.queues) (h : NoQueues tenant s) : NoQueues tenant t := by
  unfold NoQueues State.queue at h ⊢
  rwa [e]

theorem bitAt_setBit_same (x : W64) (n : Nat) (h : n < 64) : bitAt (setBit x n false) n = false := by
  simp [bitAt, setBit, h]

/-- R370: the tasks of a tenant in WAIT and READY are discarded. -/
def State.discardTasks (s : State) (tenant : Nat) : State :=
  (s.tasks.filter fun e => (e.2.st == .wait || e.2.st == .ready) && e.2.tenant == w64 tenant).foldl
    (fun t e => t.freeTask (e.1 / 2 ^ 16) (e.1 % 2 ^ 16)) s

/-- R370: the queues of a tenant are freed. -/
def State.closeQueues (s : State) (tenant : Nat) : State :=
  (s.queues.filter fun e => e.2.live && e.2.tenant == w64 tenant).foldl (fun t e => t.closeQueue e.1) s

/-- R370: the handle of an entry of a handle table is freed. -/
def State.releaseEntry (tenant : Nat) (t : State) (e : Nat × Obj) : State := t.releaseObject tenant (e.1 % 2 ^ 20)

/-- R370: the handles of a tenant are freed. -/
def State.releaseObjects (s : State) (tenant : Nat) : State :=
  (s.objs.filter fun e => e.1 / 2 ^ 20 == tenant && e.2.used).foldl (State.releaseEntry tenant) s

/-- R370: the Answer Table entries of a tenant are freed. -/
def State.freeWays (s : State) (tenant : Nat) : State :=
  (s.entries.filter fun e => e.2.st != .free && e.2.tenant == w64 tenant).foldl (fun t e => t.freeWay e.1) s

theorem State.killTenant_eq (s : State) (tenant : Nat) :
    s.killTenant tenant =
      (let t := State.discardTasks (State.killWhere
        (State.modFn { s with tenants := smMod 0 s.tenants (tenant * 32) fun c => setBit c 0 false } tenant fun x =>
          { x with pushed := x.pushed + BitVec.ofNat 32 x.pushes.length, pushes := [], taken := 0 })
        fun key => key.tenant == w64 tenant) tenant
       { t with launches := t.launches.map fun l =>
          if l.tenant = w64 tenant then { l with failed := true, toDies := [], redo := [] } else l }) := rfl

theorem State.freeTenant_eq (s : State) (tenant : Nat) :
    s.freeTenant tenant =
      (let t := ((s.closeQueues tenant).releaseObjects tenant).freeWays tenant
       { t with
        pins := t.pins.filter fun p => p.tenant != w64 tenant
        events := t.events.filter fun e => e.1 != tenant }) := rfl

theorem KeepsTables.discardTasks (s : State) (tenant : Nat) : KeepsTables s (s.discardTasks tenant) := by
  refine KeepsTables.foldl ?_ _ s
  exact fun t e => .of_eq rfl rfl rfl

theorem KeepsTables.freeWays (s : State) (tenant : Nat) : KeepsTables s (s.freeWays tenant) := by
  refine KeepsTables.foldl ?_ _ s
  exact fun t e => .of_eq rfl rfl rfl

/-- R370 steps 1 and 2: the tenant is not valid. -/
theorem State.killTenant_invalid (s : State) (tenant : Nat) : (s.killTenant tenant).tenantValid tenant = false := by
  rw [State.killTenant_eq]
  generalize h : State.modFn { s with tenants := smMod 0 s.tenants (tenant * 32) fun c => setBit c 0 false } tenant _ = t
  have kept := (KeepsTables.killWhere t fun key => key.tenant == w64 tenant).trans (.discardTasks _ tenant)
  show bitAt (smGet 0 (State.tenants (State.discardTasks _ tenant)) (tenant * 32 + 0)) 0 = false
  rw [kept.tenants, ← h]
  exact (congrArg (bitAt · 0) (smGet_set_same _ _ _ _)).trans (bitAt_setBit_same _ 0 (by decide))

/-- The tenant table is as before, and no live queue belongs to the tenant. -/
structure Unqueued (s : State) (tenant : Nat) (t : State) : Prop where
  tenants : t.tenants = s.tenants
  none_ : NoQueues tenant t

theorem State.closeQueues_frees (s : State) (tenant : Nat) : Unqueued s tenant (s.closeQueues tenant) := by
  constructor
  · exact List.foldlRecOn _ _ (motive := fun t : State => t.tenants = s.tenants) rfl
      fun t h e _ => (t.closeQueue_keeps e.1).tenants.trans h
  · intro pa live same
    have gone := State.swept Queue.none State.queues (fun t e => t.closeQueue e.1) (fun e => e.2.live && e.2.tenant == w64 tenant)
      Prod.fst (fun _ => rfl) (fun t e => t.closeQueue_queues e.1) (fun _ _ => rfl) s pa
    change (((s.closeQueues tenant).queue pa).live && ((s.closeQueues tenant).queue pa).tenant == w64 tenant) = false at gone
    simp [live, same] at gone

theorem Unqueued.releaseEntry {s t : State} {tenant : Nat} (h : Unqueued s tenant t) (e : Nat × Obj) :
    Unqueued s tenant (State.releaseEntry tenant t e) := by
  obtain ⟨u, ht, hq, -, k⟩ := t.releaseObject_keeps tenant (e.1 % 2 ^ 20)
  exact ⟨k.tenants.trans (ht.trans h.tenants), k.noQueues (.of_eq hq h.none_)⟩

theorem State.releaseEntry_objs (tenant : Nat) (t : State) (e : Nat × Obj) :
    (State.releaseEntry tenant t e).objs = smSet Obj.none t.objs (tenant * 2 ^ 20 + e.1 % 2 ^ 20) Obj.none := by
  rw [State.releaseEntry, State.releaseObject_objs]

theorem Unqueued.releaseObjects {s t : State} {tenant : Nat} (h : Unqueued s tenant t) : Unqueued s tenant (t.releaseObjects tenant) :=
  List.foldlRecOn _ _ (motive := Unqueued s tenant) h fun _ h e _ => h.releaseEntry e

theorem State.releaseObjects_unused (s : State) (tenant h : Nat) (hh : h < 2 ^ 20) :
    ((s.releaseObjects tenant).obj tenant h).used = false := by
  have gone := State.swept Obj.none State.objs (State.releaseEntry tenant) (fun e => e.1 / 2 ^ 20 == tenant && e.2.used)
    (fun e => tenant * 2 ^ 20 + e.1 % 2 ^ 20) (fun _ => by simp [Obj.none]) (State.releaseEntry_objs tenant)
    (fun e he => by
      simp only [Bool.and_eq_true, beq_iff_eq] at he
      omega) s (tenant * 2 ^ 20 + h)
  dsimp only at gone
  rwa [show (tenant * 2 ^ 20 + h) / 2 ^ 20 = tenant by omega, beq_self_eq_true, Bool.true_and] at gone

/-- R370 step 3: the tables of the tenant are empty, and the tenant table is as before. -/
theorem State.freeTenant_frees (s : State) (tenant : Nat) :
    (s.freeTenant tenant).tenants = s.tenants ∧ NoQueues tenant (s.freeTenant tenant) ∧
    (∀ h, h < 2 ^ 20 → ((s.freeTenant tenant).obj tenant h).used = false) ∧ ∀ p ∈ (s.freeTenant tenant).pins, p.tenant ≠ w64 tenant := by
  obtain ⟨same, none_⟩ := (s.closeQueues_frees tenant).releaseObjects
  have unused := (s.closeQueues tenant).releaseObjects_unused tenant
  have ways := KeepsTables.freeWays ((s.closeQueues tenant).releaseObjects tenant) tenant
  rw [State.freeTenant_eq]
  refine ⟨ways.tenants.trans same, ways.noQueues none_, fun h hh => ?_, fun p hp => ?_⟩
  · have same := congrArg (smGet Obj.none · (tenant * 2 ^ 20 + h)) ways.objs
    exact (congrArg Obj.used same).trans (unused h hh)
  · simpa using (List.mem_filter.mp hp).2

/-! ## What it owned -/

theorem State.remapRun_pins (s : State) (a n : Nat) : (s.remapRun a n).pins = s.pins := by
  unfold State.remapRun
  split
  · rfl
  · refine List.foldlRecOn _ _ (motive := fun t : State => t.pins = s.pins) rfl fun t h w _ => ?_
    rw [← h]
    unfold State.remapWord
    split
    · split <;> rfl
    · rfl

/-- The pass of memory to another owner leaves every table, and the records of iterators. -/
structure KeepsAll (s t : State) : Prop extends KeepsTables s t where
  pins : t.pins = s.pins

namespace KeepsAll
variable {s t u : State}

theorem refl (s : State) : KeepsAll s s := ⟨.refl s, rfl⟩

theorem trans (h : KeepsAll s t) (k : KeepsAll t u) : KeepsAll s u :=
  ⟨h.toKeepsTables.trans k.toKeepsTables, k.pins.trans h.pins⟩

theorem foldl {α : Type} {f : State → α → State} (hf : ∀ t a, KeepsAll t (f t a)) (l : List α) (s : State) :
    KeepsAll s (l.foldl f s) :=
  List.foldlRecOn l f (motive := KeepsAll s) (refl s) fun t h a _ => h.trans (hf t a)

end KeepsAll

theorem KeepsAll.wipe (s : State) (pa n : Nat) : KeepsAll s (s.wipe pa n) := ⟨.of_stored (Stored.wipe s pa n), s.remapRun_pins pa n⟩

theorem KeepsAll.clearPort (s : State) (core : Nat) : KeepsAll s (s.clearPort core) := by
  obtain ⟨b, p, e⟩ := s.clearPort_eq core
  rw [e]
  exact ⟨.of_eq rfl rfl rfl, rfl⟩

theorem KeepsAll.passCore (s : State) (tenant core : Nat) : KeepsAll s (s.passCore tenant core) := by
  unfold State.passCore
  split
  · exact refl s
  · have kept := (KeepsAll.wipe s (paTcm core 0) 0x20000).trans (.clearPort _ core)
    exact kept.trans ⟨.of_eq rfl rfl rfl, rfl⟩

theorem KeepsAll.passCluster (s : State) (tenant q : Nat) : KeepsAll s (s.passCluster tenant q) :=
  (KeepsAll.wipe s _ _).trans ⟨.of_eq rfl rfl rfl, rfl⟩

theorem KeepsAll.passGranule (s : State) (tenant g : Nat) : KeepsAll s (s.passGranule tenant g) :=
  (KeepsAll.wipe s _ _).trans ⟨.of_eq rfl rfl rfl, rfl⟩

theorem State.passCluster_sowner (s : State) (tenant q : Nat) :
    (s.passCluster tenant q).sowner = smSet 0 s.sowner q (BitVec.ofNat 8 tenant) :=
  congrArg (smSet 0 · q (BitVec.ofNat 8 tenant)) (Stored.wipe s _ _).sowner

theorem State.passGranule_gowner (s : State) (tenant g : Nat) :
    (s.passGranule tenant g).gowner = smSet 0 s.gowner g (BitVec.ofNat 8 tenant) :=
  congrArg (smSet 0 · g (BitVec.ofNat 8 tenant)) (Stored.wipe s _ _).gowner

theorem State.passGranule_sowner (s : State) (tenant g : Nat) : (s.passGranule tenant g).sowner = s.sowner :=
  (Stored.wipe s _ _).sowner

/-- R370 steps 4 and 5: the clusters of a tenant pass to tenant 0. -/
def State.passClusters (s : State) (tenant : Nat) : State :=
  (s.sowner.filter fun e => e.2.toNat == tenant).foldl (fun t e => t.passCluster 0 e.1) s

/-- R370 steps 4 and 5: the granules of a tenant pass to tenant 0. -/
def State.passGranules (s : State) (tenant : Nat) : State :=
  (s.gowner.filter fun e => e.2.toNat == tenant).foldl (fun t e => t.passGranule 0 e.1) s

/-- R370 steps 4 and 5: the cores of a tenant pass to tenant 0. -/
def State.passCores (s : State) (tenant : Nat) : State :=
  (s.towner.filter fun e => e.2.toNat == tenant).foldl (fun t e => t.passCore 0 e.1) s

theorem State.releaseOwned_eq (s : State) (tenant : Nat) :
    s.releaseOwned tenant = ((s.passCores tenant).passClusters tenant).passGranules tenant := by
  simp only [State.releaseOwned, List.foldl_map, State.passCores, State.passClusters, State.passGranules]

theorem State.releaseOwned_keeps (s : State) (tenant : Nat) : KeepsAll s (s.releaseOwned tenant) := by
  rw [State.releaseOwned_eq]
  refine ((KeepsAll.foldl ?_ _ s).trans (.foldl ?_ _ _)).trans (.foldl ?_ _ _)
  · exact fun t e => .passCore t 0 e.1
  · exact fun t e => .passCluster t 0 e.1
  · exact fun t e => .passGranule t 0 e.1

/-- R143, R370: no cluster and no granule is left to the tenant. -/
theorem State.releaseOwned_frees (s : State) (tenant : Nat) (ht : 0 < tenant) (n : Nat) :
    (smGet 0 (s.releaseOwned tenant).sowner n).toNat ≠ tenant ∧ (smGet 0 (s.releaseOwned tenant).gowner n).toNat ≠ tenant := by
  have other (n : Nat) : ((n, (0 : Byte)).2.toNat == tenant) = false := beq_false_of_ne (Nat.ne_of_lt ht)
  rw [State.releaseOwned_eq]
  generalize s.passCores tenant = t
  constructor
  · have clusters := State.swept 0 State.sowner (fun t e => t.passCluster 0 e.1) (fun e => e.2.toNat == tenant) Prod.fst other
      (fun t e => t.passCluster_sowner 0 e.1) (fun _ _ => rfl) t n
    have same : ((t.passClusters tenant).passGranules tenant).sowner = (t.passClusters tenant).sowner :=
      List.foldlRecOn _ _ (motive := fun u : State => u.sowner = (t.passClusters tenant).sowner) rfl
        fun u h e _ => (u.passGranule_sowner 0 e.1).trans h
    rw [same]
    exact ne_of_beq_false clusters
  · exact ne_of_beq_false (State.swept 0 State.gowner (fun t e => t.passGranule 0 e.1) (fun e => e.2.toNat == tenant) Prod.fst other
      (fun t e => t.passGranule_gowner 0 e.1) (fun _ _ => rfl) (t.passClusters tenant) n)

/-- TENANT_DESTRUCTION, R370. -/
theorem exec_tenantDestruction (s : State) (tenant : Nat) (h0 : 0 < tenant) (h : tenant < 256) :
    ∃ t, exec (.tenantDestruction tenant) s = .next t ∧ t.tenantValid tenant = false ∧
      (∀ h, h < 2 ^ 20 → (t.obj tenant h).used = false) ∧ NoQueues tenant t ∧ (∀ p ∈ t.pins, p.tenant ≠ w64 tenant) ∧
      ∀ n, (smGet 0 t.sowner n).toNat ≠ tenant ∧ (smGet 0 t.gowner n).toNat ≠ tenant := by
  obtain ⟨same, none_, unused, unpinned⟩ := (s.killTenant tenant).freeTenant_frees tenant
  have kept := ((s.killTenant tenant).freeTenant tenant).releaseOwned_keeps tenant
  refine ⟨_, congrArg Host.Outcome.next (if_neg (by omega)), ?_, fun h hh => ?_, kept.noQueues none_, ?_,
    State.releaseOwned_frees _ tenant h0⟩
  · have all := kept.tenants.trans same
    exact (congrArg (fun m => bitAt (smGet 0 m (tenant * 32 + 0)) 0) all).trans (s.killTenant_invalid tenant)
  · exact (congrArg (fun m => (smGet Obj.none m (tenant * 2 ^ 20 + h)).used) kept.objs).trans (unused h hh)
  · rw [kept.pins]
    exact unpinned

theorem exec_tenantDestruction_firmware (s : State) : exec (.tenantDestruction 0) s = .next s := rfl

end Sys2Proof.Machine
end

section
/-!
Reset and boot (R19, R69, R149, R372): what a reset of the package clears and keeps, the images that the Cobblers run, and what
self-test and the repair record take out of service.
-/

namespace Sys2Proof.Machine

/-! ## What boot changes -/

/-- Nothing differs but slots, bytes, keys, what is out of service, and the model's own counters. -/
def BootChanges (s t : State) : Prop :=
  t = { s with
    slots := t.slots, mem := t.mem, mcapk := t.mcapk, coremask := t.coremask, retired := t.retired, spareRows := t.spareRows
    tbankOut := t.tbankOut, spadFails := t.spadFails, spad32 := t.spad32, free := t.free, nextTid := t.nextTid }

namespace BootChanges
variable {s t u : State}

theorem refl (s : State) : BootChanges s s := rfl

theorem trans (h : BootChanges s t) (k : BootChanges t u) : BootChanges s u := by
  unfold BootChanges at h k ⊢
  rw [h] at k
  exact k

theorem foldl {α : Type} {f : State → α → State} (hf : ∀ t a, BootChanges t (f t a)) (l : List α) (s : State) :
    BootChanges s (l.foldl f s) :=
  List.foldlRecOn l f (motive := BootChanges s) (refl s) fun t h a _ => h.trans (hf t a)

theorem mgmt (h : BootChanges s t) : t.mgmt = s.mgmt := by unfold BootChanges at h; rw [h]
theorem tenants (h : BootChanges s t) : t.tenants = s.tenants := by unfold BootChanges at h; rw [h]

end BootChanges

/-- R372: the tables of the device are empty, and what peers offer is as before. -/
def Erased (s t : State) : Prop :=
  t.queues = [] ∧ t.objs = [] ∧ t.entries = [] ∧ t.tasks = [] ∧ t.launches = [] ∧ t.spilled = [] ∧ t.pkts = [] ∧ t.mbox = [] ∧
    t.mat = [] ∧ t.copy = [] ∧ t.cycle = 0 ∧ t.stopped = false ∧ t.peers = s.peers

theorem BootChanges.erased {s t : State} (h : BootChanges s.cleared t) : Erased s t := by
  unfold BootChanges at h
  rw [h]
  exact ⟨rfl, rfl, rfl, rfl, rfl, rfl, rfl, rfl, rfl, rfl, rfl, rfl, rfl⟩

theorem State.byte_cleared (s : State) (a : Nat) : s.cleared.byte a = if paOutside a = true then s.byte a else 0 :=
  smGet_filter 0 s.mem paOutside a

/-! ## Images in the TCMs of the Cobblers -/

/-- R10: the Cobbler of a die stands in a tile of its own. -/
theorem caX_cobbler (die : Nat) : caX (caCobbler die) = 32 * (die % 4) + 31 := by
  simp only [caX, caCobbler, caOfIndex, caTile]
  omega

theorem caY_cobbler (die : Nat) (h : die < 8) : caY (caCobbler die) = 32 * (die / 4) + 31 := by
  simp only [caY, caCobbler, caOfIndex, caTile]
  omega

theorem caCobbler_inj {d e : Nat} (h : caCobbler d = caCobbler e) : d = e := by
  simp only [caCobbler, caOfIndex, caTile] at h
  omega

/-- A byte of the TCM of a die's Cobbler. -/
def InCobbler (die a : Nat) : Prop := paTcm (caCobbler die) 0 ≤ a ∧ a < paTcm (caCobbler die) 0x20000

theorem InCobbler.outside {die a : Nat} (hd : die < 8) (h : InCobbler die a) : paOutside a = false := by
  simp only [InCobbler, paTcm, caX_cobbler, caY_cobbler die hd] at h
  simp only [paOutside, Bool.or_eq_false_iff, Bool.and_eq_false_iff, decide_eq_false_iff_not]
  omega

theorem InCobbler.unique {d e a : Nat} (hd : d < 8) (he : e < 8) (h : InCobbler d a) (k : InCobbler e a) : d = e := by
  simp only [InCobbler, paTcm, caX_cobbler, caY_cobbler d hd, caY_cobbler e he] at h k
  omega

theorem inCobbler_paTcm (die off : Nat) (h : off < 0x20000) : InCobbler die (paTcm (caCobbler die) off) := by
  simp only [InCobbler, paTcm]
  omega

/-- Where `State.loadImage` puts an image of so many bytes. -/
def State.imagePlace (s : State) : Nat := Config.freeNat s.free % ((0x20000 - max 8 s.mgmt.flash.length) / 8 + 1) * 8

theorem State.imagePlace_fits (s : State) (h : s.mgmt.flash.length ≤ 0x20000) :
    s.imagePlace % 8 = 0 ∧ s.imagePlace < 0x20000 ∧ s.imagePlace + s.mgmt.flash.length ≤ 0x20000 := by
  unfold State.imagePlace
  have := Nat.mod_lt (Config.freeNat s.free) (Nat.succ_pos ((0x20000 - max 8 s.mgmt.flash.length) / 8))
  simp only [Nat.succ_eq_add_one] at this
  omega

/-- R372 step 2: the thread that a Cobbler is released with. -/
def bootThread (tid off : Nat) : Slot :=
  { Slot.free with
    st := .run, tid := tid
    ctx := ({ (Ctx.zero.setPs 0 true) with pc := w64 off }).onCr fun r => { r with lnum := lnumAfter 0 (2 ^ 32 - 1) } }

theorem bootThread_priv (tid off : Nat) : (bootThread tid off).ctx.priv = true := by
  show bitAt (setBit 0 0 true) 0 = true
  decide

/-- The bytes of the image are written. -/
def State.imageStored (s : State) (die : Nat) : State :=
  State.writeBytes { s with free := s.free + 1 } (paTcm (caCobbler die) s.imagePlace) s.mgmt.flash

theorem State.loadImage_eq (s : State) (die : Nat) : ∃ tid m,
    m = (s.imageStored die).mem ∧
    s.loadImage die = { s with
      slots := smSet Slot.free s.slots (caCobbler die) (bootThread tid s.imagePlace)
      mem := m, free := s.free + 1, nextTid := tid + 1 } := by
  obtain ⟨m, hm, stored⟩ : ∃ m, m = (s.imageStored die).mem ∧ s.imageStored die = { s with mem := m, free := s.free + 1 } :=
    ⟨_, rfl, State.writeBytes_eq _ _ _⟩
  refine ⟨s.nextTid, m, hm, ?_⟩
  show (State.newTid (s.imageStored die)).2.setSlot (caCobbler die)
    (bootThread (State.newTid (s.imageStored die)).1 s.imagePlace) = _
  rw [stored]
  rfl

theorem BootChanges.loadImage (s : State) (die : Nat) : BootChanges s (s.loadImage die) := by
  obtain ⟨_, _, -, e⟩ := s.loadImage_eq die
  rw [e]
  rfl

theorem State.slot_loadImage (s : State) (die : Nat) : ∃ tid, ∀ k,
    (s.loadImage die).slot k = if k = caCobbler die then bootThread tid s.imagePlace else s.slot k := by
  obtain ⟨tid, _, -, e⟩ := s.loadImage_eq die
  refine ⟨tid, fun k => ?_⟩
  rw [e]
  show smGet Slot.free (smSet Slot.free s.slots (caCobbler die) (bootThread tid s.imagePlace)) k = _
  rw [smGet_set]
  rfl

theorem State.byte_loadImage (s : State) (die a : Nat) :
    let lo := paTcm (caCobbler die) s.imagePlace
    (s.loadImage die).byte a =
      if lo ≤ a ∧ a < lo + s.mgmt.flash.length then (s.mgmt.flash[a - lo]?).getD 0 else s.byte a := by
  obtain ⟨_, _, hm, e⟩ := s.loadImage_eq die
  rw [e]
  exact (congrArg (smGet 0 · a) hm).trans (State.byte_writeBytes _ _ _ a)

/-- R372 step 2: a thread of tenant 0 runs an image that stands whole in its Cobbler's TCM. -/
structure RunsImage (image : List Byte) (t : State) (die : Nat) : Prop where
  runs : (t.slot (caCobbler die)).st = .run
  priv : (t.slot (caCobbler die)).ctx.priv = true
  tenant : (t.slot (caCobbler die)).ctx.cr.tenant = 0
  aligned : (t.slot (caCobbler die)).ctx.pc.toNat % 8 = 0
  low : (t.slot (caCobbler die)).ctx.pc.toNat < 0x20000
  fits : (t.slot (caCobbler die)).ctx.pc.toNat + image.length ≤ 0x20000
  bytes : ∀ j b, image[j]? = some b → t.byte (paTcm (caCobbler die) ((t.slot (caCobbler die)).ctx.pc.toNat + j)) = b

/-- It runs on while the slot and the TCM of its Cobbler stay as they are. -/
theorem RunsImage.of_same {image : List Byte} {s t : State} {die : Nat} (h : RunsImage image s die)
    (hs : t.slot (caCobbler die) = s.slot (caCobbler die)) (hb : ∀ a, InCobbler die a → t.byte a = s.byte a) :
    RunsImage image t die := by
  refine ⟨?_, ?_, ?_, ?_, ?_, ?_, fun j b hj => ?_⟩ <;> rw [hs]
  · exact h.runs
  · exact h.priv
  · exact h.tenant
  · exact h.aligned
  · exact h.low
  · exact h.fits
  · rw [hb _ (inCobbler_paTcm _ _ ?_)]
    · exact h.bytes j b hj
    · have := h.fits
      have := (List.getElem?_eq_some_iff.mp hj).1
      omega

theorem State.loadImage_runs (s : State) (die : Nat) (h : s.mgmt.flash.length ≤ 0x20000) :
    RunsImage s.mgmt.flash (s.loadImage die) die := by
  obtain ⟨aligned, low, fits⟩ := s.imagePlace_fits h
  obtain ⟨tid, hs⟩ := s.slot_loadImage die
  have at_ : (bootThread tid s.imagePlace).ctx.pc.toNat = s.imagePlace := Nat.mod_eq_of_lt (by omega)
  refine ⟨?_, ?_, ?_, ?_, ?_, ?_, fun j b hj => ?_⟩ <;> rw [hs, if_pos rfl]
  · rfl
  · exact bootThread_priv tid s.imagePlace
  · rfl
  · rwa [at_]
  · rwa [at_]
  · rwa [at_]
  · have := (List.getElem?_eq_some_iff.mp hj).1
    rw [at_, State.byte_loadImage, if_pos (by simp only [paTcm]; omega),
      show paTcm (caCobbler die) (s.imagePlace + j) - paTcm (caCobbler die) s.imagePlace = j by simp only [paTcm]; omega, hj]
    rfl

/-- R372 step 2: the image in the first n dies. -/
def State.bootImages (s : State) (n : Nat) : State := (List.range n).foldl State.loadImage s

/-- What it has done: the Cobblers of the first n dies run the image, and nothing differs outside the Cobblers. -/
structure Booted (s t : State) (n : Nat) : Prop where
  changes : BootChanges s t
  coremask : t.coremask = s.coremask
  retired : t.retired = s.retired
  runs : ∀ die, die < n → RunsImage s.mgmt.flash t die
  slots : ∀ k, (∀ die, die < 8 → k ≠ caCobbler die) → t.slot k = s.slot k
  bytes : ∀ a, (∀ die, die < 8 → ¬InCobbler die a) → t.byte a = s.byte a

theorem State.bootImages_booted (s : State) (h : s.mgmt.flash.length ≤ 0x20000) (n : Nat) (hn : n ≤ 8) :
    Booted s (s.bootImages n) n := by
  induction n with
  | zero => exact ⟨.refl s, rfl, rfl, fun _ h => absurd h (Nat.not_lt_zero _), fun _ _ => rfl, fun _ _ => rfl⟩
  | succ n ih =>
    have ih := ih (Nat.le_of_succ_le hn)
    have step : s.bootImages (n + 1) = (s.bootImages n).loadImage n := by
      rw [State.bootImages, List.range_succ, List.foldl_append]
      rfl
    rw [step]
    generalize s.bootImages n = t at ih
    have flash : t.mgmt.flash = s.mgmt.flash := congrArg Mgmt.flash ih.changes.mgmt
    have place := (t.imagePlace_fits (flash ▸ h)).2.2
    obtain ⟨_, hs⟩ := t.slot_loadImage n
    obtain ⟨_, _, -, e⟩ := t.loadImage_eq n
    have outside (a : Nat) (ha : ¬InCobbler n a) : (t.loadImage n).byte a = t.byte a := by
      rw [State.byte_loadImage, if_neg]
      simp only [InCobbler, paTcm] at ha ⊢
      omega
    refine ⟨ih.changes.trans (.loadImage t n), ?_, ?_, fun die hd => ?_, fun k hk => ?_, fun a ha => ?_⟩
    · rw [e]; exact ih.coremask
    · rw [e]; exact ih.retired
    · by_cases hdn : die = n
      · rw [hdn, ← flash]
        exact t.loadImage_runs n (flash ▸ h)
      · refine (ih.runs die (by omega)).of_same ?_ fun a ha => outside a fun k => hdn (ha.unique (by omega) (by omega) k)
        rw [hs, if_neg fun k => hdn (caCobbler_inj k)]
    · rw [hs, if_neg (hk n (by omega))]
      exact ih.slots k hk
    · exact (outside a (ha n (by omega))).trans (ih.bytes a ha)

end Sys2Proof.Machine
end

section
/-!
Self-test and the end of boot (R69, R149, R215, R372): what the repair record takes out of service, and PACKAGE_RESET whole.
-/

namespace Sys2Proof.Machine

/-! ## Self-test and repairs -/

/-- Nothing differs but the spare rows and banks, and the banks out of service. -/
def RowsFail (s t : State) : Prop :=
  t = { s with spareRows := t.spareRows, tbankOut := t.tbankOut, spadFails := t.spadFails, spad32 := t.spad32 }

namespace RowsFail
variable {s t u : State}

theorem trans (h : RowsFail s t) (k : RowsFail t u) : RowsFail s u := by
  unfold RowsFail at h k ⊢
  rw [h] at k
  exact k

theorem foldl {α : Type} {f : State → α → State} (hf : ∀ t a, RowsFail t (f t a)) (l : List α) (s : State) : RowsFail s (l.foldl f s) :=
  List.foldlRecOn l f (motive := RowsFail s) rfl fun t h a _ => h.trans (hf t a)

theorem failRow (s : State) (b : Nat) : RowsFail s (s.failRow b) := by
  unfold State.failRow
  split <;> rfl

theorem failSpad (s : State) (q : Nat) : RowsFail s (s.failSpad q) := by
  unfold State.failSpad
  split <;> rfl

end RowsFail

/-- The `coremask` registers as self-test leaves them. -/
def testedMask (m : SMap W64) (masks : List W64) : SMap W64 :=
  (List.range 128).foldl (fun m j => smSet allOnes m j (masks[j]?.getD allOnes)) m

theorem smGet_testedMask (m : SMap W64) (masks : List W64) (j : Nat) (hj : j < 128) :
    smGet allOnes (testedMask m masks) j = masks[j]?.getD allOnes :=
  smGet_foldl_set_mem allOnes (fun j => j) (fun j => masks[j]?.getD allOnes) _ m j (List.mem_range.mpr hj) fun _ _ e => by rw [e]

/-- R69: disabling cores sets no bit of `coremask`. -/
theorem getLsbD_clearCore {m : SMap W64} {core j n : Nat} (h : (smGet allOnes (clearCore m core) j).getLsbD n = true) :
    (smGet allOnes m j).getLsbD n = true := by
  rw [clearCore, smMod, smGet_set] at h
  split at h
  case isTrue e =>
    rw [setBit, if_neg Bool.false_ne_true, BitVec.getLsbD_and, Bool.and_eq_true] at h
    exact e ▸ h.1
  case isFalse => exact h

theorem getLsbD_clearCores {cores : List Nat} {m : SMap W64} {j n : Nat}
    (h : (smGet allOnes (cores.foldl clearCore m) j).getLsbD n = true) : (smGet allOnes m j).getLsbD n = true :=
  List.foldlRecOn cores clearCore
    (motive := fun k : SMap W64 => (smGet allOnes k j).getLsbD n = true → (smGet allOnes m j).getLsbD n = true) id
    (fun _ ih _ _ h => ih (getLsbD_clearCore h)) h

theorem getLsbD_clearCore_same (m : SMap W64) (core : Nat) :
    (smGet allOnes (clearCore m core) (caDie core * 16 + caIndex core / 64)).getLsbD (caIndex core % 64) = false := by
  rw [clearCore, smMod, smGet_set_same, ← bitAt]
  exact bitAt_setBit_same _ _ (Nat.mod_lt _ (by decide))

theorem getLsbD_clearCores_mem {cores : List Nat} {core : Nat} (h : core ∈ cores) (m : SMap W64) :
    (smGet allOnes (cores.foldl clearCore m) (caDie core * 16 + caIndex core / 64)).getLsbD (caIndex core % 64) = false := by
  obtain ⟨l, r, rfl⟩ := List.append_of_mem h
  rw [List.foldl_append, List.foldl_cons]
  refine Bool.eq_false_iff.mpr fun still => ?_
  have := getLsbD_clearCores still
  rw [getLsbD_clearCore_same] at this
  exact Bool.false_ne_true this

theorem smGet_smFill_mem {keys : List Nat} {k : Nat} (h : k ∈ keys) (m : SMap Bool) : smGet false (smFill false m keys true) k = true :=
  smGet_foldl_set_mem false (fun k => k) (fun _ => true) keys m k h fun _ _ _ => rfl

/-- The bank groups that a list of core addresses names. -/
def bankGroups (groups : List Nat) : List Nat :=
  groups.filter fun g => coreAddressOk (w64 g) && caKind g == .bank && caSlot g == 0

theorem State.repaired_eq (s : State) (masks : List W64) (cores rows spads groups : List Nat) : ∃ t, RowsFail s t ∧
    s.repaired masks cores rows spads groups = { t with
      coremask := cores.foldl clearCore (testedMask s.coremask masks), retired := smFill false s.retired (bankGroups groups) true } := by
  have fails : RowsFail s ((spads.filter (· < 512)).foldl State.failSpad (rows.foldl State.failRow s)) :=
    (RowsFail.foldl .failRow rows s).trans (.foldl .failSpad _ _)
  refine ⟨_, fails, ?_⟩
  unfold State.repaired
  generalize (spads.filter (· < 512)).foldl State.failSpad (rows.foldl State.failRow s) = t at fails ⊢
  have retired : t.retired = s.retired := by unfold RowsFail at fails; rw [fails]
  rw [← retired]
  rfl

/-! ## The repair record -/

theorem repairOf_cores_unsigned {m : Mgmt} (h : Config.repairSigned m.repair = false) : (repairOf m).1 = [] := by
  rw [repairOf, if_neg (by rw [h]; exact Bool.false_ne_true)]

theorem repairOf_cores_signed {m : Mgmt} (h : Config.repairSigned m.repair = true) : (repairOf m).1 = (Config.repairSays m.repair).1 := by
  rw [repairOf, if_pos h]

/-- R372 step 4: bank groups that the record names, and those of field repairs. -/
theorem mem_repairOf_groups {m : Mgmt} (h : Config.repairSigned m.repair = true) (g : Nat) :
    g ∈ (repairOf m).2.2.2 ↔ g ∈ (Config.repairSays m.repair).2.2.2 ∨ (3, g) ∈ m.repairs := by
  rw [repairOf, if_pos h]
  show g ∈ (Config.repairSays m.repair).2.2.2 ++ m.repaired 3 ↔ _
  simp [Mgmt.repaired]

/-! ## Keys -/

theorem State.newKeys_eq (l : List Nat) (s : State) : ∃ keys free, l.foldl State.newKey s = { s with mcapk := keys, free := free } := by
  induction l generalizing s with
  | nil => exact ⟨s.mcapk, s.free, rfl⟩
  | cons c l ih =>
    obtain ⟨keys, free, e⟩ := ih (s.newKey c)
    exact ⟨keys, free, e⟩

/-! ## PACKAGE_RESET -/

/-- R372 step 5: tenant 0 is valid and the device is ready. -/
def State.finishBoot (t : State) : State :=
  { t with
    tenants := smSet 0 t.tenants 0 1
    mgmt := { t.mgmt with
      stage := 5, ready := true, rrbad := !Config.repairSigned t.mgmt.repair, image := t.mgmt.flash } }

section
variable (masks : List W64) (rows spads groups : List Nat) (s : State)

theorem exec_packageReset_unsigned (h : Config.imageSigned s.mgmt.flash = false) :
    exec (.packageReset masks rows spads groups) s = .next (s.cleared.modMgmt fun m => { m with stage := 1, recov := true }) := by
  show event (if (!Config.imageSigned s.mgmt.flash) = true then _ else _) = _
  rw [if_pos (by rw [h]; rfl)]
  rfl

theorem exec_packageReset_long (h : Config.imageSigned s.mgmt.flash = true) (long : 0x20000 < s.mgmt.flash.length) :
    exec (.packageReset masks rows spads groups) s = .next (s.cleared.modMgmt fun m => { m with stage := 2, recov := true }) := by
  show event (if (!Config.imageSigned s.mgmt.flash) = true then _ else if 0x20000 < s.mgmt.flash.length then _ else _) = _
  rw [if_neg (by rw [h]; exact Bool.false_ne_true), if_pos long]
  rfl

/-- R372 steps 3 and 4: what self-test found, and what the repair record adds to it. -/
def State.withRepairs (b : State) (r : List Nat × List Nat × List Nat × List Nat) : State :=
  b.repaired masks r.1 (rows ++ r.2.1) (spads ++ r.2.2.1) (groups ++ r.2.2.2)

theorem exec_packageReset (h : Config.imageSigned s.mgmt.flash = true) (fits : s.mgmt.flash.length ≤ 0x20000) :
    exec (.packageReset masks rows spads groups) s = .next (State.finishBoot <| allCores.foldl State.newKey <|
      (s.cleared.bootImages 8).withRepairs masks rows spads groups (repairOf (s.cleared.bootImages 8).mgmt)) := by
  show event (if (!Config.imageSigned s.mgmt.flash) = true then _ else if 0x20000 < s.mgmt.flash.length then _ else _) = _
  rw [if_neg (by rw [h]; exact Bool.false_ne_true), if_neg (Nat.not_lt.mpr fits)]
  generalize allCores = l
  rfl

/-- What a boot leaves, before it is ready. -/
structure BootDone (u : State) : Prop where
  changes : BootChanges s.cleared u
  coremask : u.coremask = (repairOf s.mgmt).1.foldl clearCore (testedMask s.cleared.coremask masks)
  retired : u.retired = smFill false s.cleared.retired (bankGroups (groups ++ (repairOf s.mgmt).2.2.2)) true
  runs : ∀ die, die < 8 → RunsImage s.mgmt.flash u die
  slots : ∀ k, (∀ die, die < 8 → k ≠ caCobbler die) → u.slot k = Slot.free
  bytes : ∀ a, (∀ die, die < 8 → ¬InCobbler die a) → u.byte a = s.cleared.byte a

theorem Booted.done {b : State} (booted : Booted s.cleared b 8) (l : List Nat) :
    BootDone masks groups s (l.foldl State.newKey (b.withRepairs masks rows spads groups (repairOf s.mgmt))) := by
  obtain ⟨t, fails, repaired⟩ := b.repaired_eq masks (repairOf s.mgmt).1
    (rows ++ (repairOf s.mgmt).2.1) (spads ++ (repairOf s.mgmt).2.2.1) (groups ++ (repairOf s.mgmt).2.2.2)
  obtain ⟨keys, free, e⟩ := State.newKeys_eq l (b.withRepairs masks rows spads groups (repairOf s.mgmt))
  rw [e, State.withRepairs, repaired, booted.coremask, booted.retired]
  unfold RowsFail at fails
  rw [fails]
  exact ⟨booted.changes.trans rfl, rfl, rfl, fun die hd => (booted.runs die hd).of_same rfl fun _ _ => rfl, booted.slots,
    booted.bytes⟩

theorem exec_packageReset_done (h : Config.imageSigned s.mgmt.flash = true) (fits : s.mgmt.flash.length ≤ 0x20000) :
    ∃ u : State, exec (.packageReset masks rows spads groups) s = .next u.finishBoot ∧ BootDone masks groups s u := by
  have booted := s.cleared.bootImages_booted fits 8 (Nat.le_refl 8)
  have record : repairOf (s.cleared.bootImages 8).mgmt = repairOf s.mgmt := by rw [booted.changes.mgmt]; rfl
  refine ⟨_, exec_packageReset masks rows spads groups s h fits, ?_⟩
  rw [record]
  exact booted.done masks rows spads groups s allCores

end

end Sys2Proof.Machine
end

section
/-!
The statement of the management plane, clause by clause: what boot leaves at each stage, and who owns memory (R143, R372).
-/

namespace Sys2Proof.Machine

open Claims

/-! ## The stages of boot -/

/-- A reset reached a stage: the device is erased, boot flash is as before, and bytes outside the Cobblers are as
`State.cleared` has them. -/
structure Reached (s t : State) (stage : BitVec 3) : Prop where
  erased : Erased s t
  ready : t.mgmt.ready = decide (stage = 5)
  recov : t.mgmt.recov = decide (stage ≠ 5)
  stage : t.mgmt.stage = stage.toNat
  flash : t.mgmt.flash = s.mgmt.flash
  chain : t.mgmt.chain = s.mgmt.chain
  repair : t.mgmt.repair = s.mgmt.repair
  repairs : t.mgmt.repairs = s.mgmt.repairs
  bytes : ∀ a, (∀ die, die < 8 → ¬InCobbler die a) → t.byte a = s.cleared.byte a

theorem Reached.outside {s t : State} {stage : BitVec 3} (h : Reached s t stage) (a : Nat) (ha : paOutside a = true) :
    t.byte a = s.byte a := by
  rw [h.bytes a fun die hd hin => Bool.false_ne_true ((hin.outside hd).symm.trans ha), State.byte_cleared, if_pos ha]

theorem Reached.inside {s t : State} {stage : BitVec 3} (h : Reached s t stage) (a : Nat) (ha : paOutside a = false)
    (out : ∀ die, die < 8 → ¬InCobbler die a) : t.byte a = 0 := by
  rw [h.bytes a out, State.byte_cleared, if_neg (by rw [ha]; exact Bool.false_ne_true)]

/-- R372: boot ended in step 1 or 2. -/
theorem reached_recovery (s : State) (stage : BitVec 3) (h : stage ≠ 5) :
    Reached s (s.cleared.modMgmt fun m => { m with stage := stage.toNat, recov := true }) stage where
  erased := ⟨rfl, rfl, rfl, rfl, rfl, rfl, rfl, rfl, rfl, rfl, rfl, rfl, rfl⟩
  ready := (decide_eq_false h).symm
  recov := (decide_eq_true h).symm
  stage := rfl
  flash := rfl
  chain := rfl
  repair := rfl
  repairs := rfl
  bytes _ _ := rfl

section
variable {masks : List W64} {groups : List Nat} {s u : State}

theorem BootDone.reached (h : BootDone masks groups s u) : Reached s u.finishBoot 5 := by
  have mgmt := h.changes.mgmt
  refine ⟨h.changes.erased, rfl, ?_, rfl, ?_, ?_, ?_, ?_, h.bytes⟩
  · exact (congrArg Mgmt.recov mgmt :)
  · exact (congrArg Mgmt.flash mgmt :)
  · exact (congrArg Mgmt.chain mgmt :)
  · exact (congrArg Mgmt.repair mgmt :)
  · exact (congrArg Mgmt.repairs mgmt :)

/-- R369, R372: boot leaves tenant 0 valid and no other. -/
theorem BootDone.tenants (h : BootDone masks groups s u) (n : Nat) : smGet 0 u.finishBoot.tenants n = if n = 0 then 1 else 0 := by
  show smGet 0 (smSet 0 u.tenants 0 1) n = _
  rw [smGet_set, h.changes.tenants]
  rfl

theorem BootDone.coremask_le (h : BootDone masks groups s u) (j : Nat) (hj : j < 128) (n : Nat)
    (bit : (smGet allOnes u.coremask j).getLsbD n = true) : ((masks[j]?).getD allOnes).getLsbD n = true := by
  rw [h.coremask] at bit
  have := getLsbD_clearCores bit
  rwa [smGet_testedMask _ masks j hj] at this

theorem BootDone.coremask_eq (h : BootDone masks groups s u) (bad : Config.repairSigned s.mgmt.repair = false) (j : Nat)
    (hj : j < 128) : smGet allOnes u.coremask j = (masks[j]?).getD allOnes := by
  rw [h.coremask, repairOf_cores_unsigned bad]
  exact smGet_testedMask _ masks j hj

theorem BootDone.disabled (h : BootDone masks groups s u) (good : Config.repairSigned s.mgmt.repair = true) (core : Nat)
    (hc : core ∈ (Config.repairSays s.mgmt.repair).1) : u.coreEnabled core = false := by
  rw [← repairOf_cores_signed good] at hc
  unfold State.coreEnabled
  rw [h.coremask]
  exact getLsbD_clearCores_mem hc _

theorem BootDone.outOfService (h : BootDone masks groups s u) (good : Config.repairSigned s.mgmt.repair = true) (g : Nat)
    (formed : coreAddressOk (BitVec.ofNat 64 g) = true) (bank : caKind g = .bank) (slot : caSlot g = 0)
    (hg : g ∈ (Config.repairSays s.mgmt.repair).2.2.2 ∨ (3, g) ∈ s.mgmt.repairs) : u.inService g = false := by
  have listed : g ∈ bankGroups (groups ++ (repairOf s.mgmt).2.2.2) := by
    refine List.mem_filter.mpr ⟨List.mem_append_right _ ((mem_repairOf_groups good g).mpr hg), ?_⟩
    simp [w64, formed, bank, slot]
  unfold State.inService
  rw [h.retired, smGet_smFill_mem listed]
  rfl

end

/-! ## Owners -/

/-- R143, R337, R370: what a core that passes to a tenant holds, and what every other core keeps. -/
theorem State.passCore_owns (s : State) (tenant c : Nat) (ht : tenant < 256) (hc : caTileOf c = c)
    (free : s.coreHolds c (· == (s.tcmOwner c).toNat) = false) :
    let t := s.passCore tenant c
    ((t.tcmOwner c).toNat = tenant ∧ (∀ k, caTileOf k ≠ c → t.tcmOwner k = s.tcmOwner k) ∧
      (∀ k, t.permitQueue k = s.permitQueue k) ∧ ∀ n, n < 16 → t.box c n = Mbox.empty ∧ t.permit c n = 0) ∧
    ∀ a, t.byte a = if paTcm c 0 ≤ a ∧ a < paTcm c 0 + 0x20000 then 0 else s.byte a := by
  intro t
  obtain ⟨u, boxes, permits, keys, counter, stored, bytes, e, cleared⟩ := s.passCore_eq tenant c free
  have owner (k : Nat) : t.tcmOwner k = if caTileOf k = c then BitVec.ofNat 8 tenant else s.tcmOwner k := by
    unfold State.tcmOwner
    rw [show t = _ from e]
    exact smGet_set _ _ _ _ _
  refine ⟨⟨?_, fun k hk => ?_, fun k => ?_, cleared⟩, ?_⟩
  · rw [owner, if_pos hc]
    exact Nat.mod_eq_of_lt ht
  · rw [owner, if_neg hk]
  · rw [show t = _ from e]
    exact congrArg (smGet [] · (caTileOf k)) stored.permitQ
  · rw [show t = _ from e]
    exact bytes

/-! ## Commands in the bytes of host memory -/

theorem State.sealKey_eq (s : State) (fn : Nat) :
    s.sealKey fn = Gcm.hkdf Config.identitySecret ((List.range 4).flatMap fun j => bytesOf 8 (s.tt fn (17 + j)))
      (Sha512.digest s.mgmt.image) := by
  rw [State.sealKey, State.dwordBytes_salt]

theorem State.sealed_cipher (s : State) (fn : Nat) :
    (s.sealed fn).2.1 = Gcm.crypt (s.sealKey fn) (s.sealed fn).1
      ((List.range ((s.fn fn).cmdAt 3)).map fun j => s.byte (2 ^ 63 + (s.fn fn).cmdAt 2 + j)) := by
  simp only [State.sealed, State.readBytes_host]

theorem State.sealed_tag (s : State) (fn : Nat) :
    (s.sealed fn).2.2 = Gcm.tag (s.sealKey fn) (s.sealed fn).1 (bytesOf 8 (BitVec.ofNat 64 fn)) (s.sealed fn).2.1 := by
  simp only [State.sealed, sealExtra_eq]

theorem State.blobOf_eq (s : State) (fn : Nat) :
    s.blobOf fn = (List.range ((s.fn fn).cmdAt 3)).map fun j => s.byte (2 ^ 63 + (s.fn fn).cmdAt 2 + j) := State.readBytes_host _ _ _

theorem State.blobGood_iff (s : State) (fn : Nat) :
    s.blobGood fn ↔ Gcm.tag (s.sealKey fn) ((s.blobOf fn).take 12) (bytesOf 8 (BitVec.ofNat 64 fn)) (s.cipherOf fn) =
      (s.blobOf fn).drop ((s.fn fn).cmdAt 3 - 16) := by
  rw [State.blobGood, sealExtra_eq]

end Sys2Proof.Machine
end

section
/-!
The obligation of the management plane.
-/

namespace Sys2Proof.Machine

open Claims

/-- Settles O55: each clause is the rule of its event, read off the lemmas above. -/
theorem managementEvents : Obligations.ManagementEvents := by
  unfold Obligations.ManagementEvents
  intro s cool
  refine ⟨?throttle, ?tick, fun _ => rfl, ?reset, ?owners, ?table, ?destruction, ?unreachable, ?peers, ?host⟩
  case throttle =>
    intro die level hot sets
    refine ⟨fun hs hd hr hc => ?_, exec_throttleRequest_idle s die level⟩
    have run := exec_throttleRequest s die level hs hd hr hc
    refine ⟨fun h => ?_, fun h => ?_⟩
    · rwa [if_pos ((Mgmt.hot_iff _ _).mpr h)] at run
    · rwa [if_neg (mt (Mgmt.hot_iff _ _).mp h)] at run
  case tick =>
    intro stack temps valves level pwr idle i zone hot
    refine ⟨exec_orreryTick_idle s stack temps valves level pwr idle, fun hd hr => ?_, fun hd hr hc below => ?_⟩
    · rintro ⟨j, hj, h⟩
      exact exec_orreryTick_stops s stack temps valves level pwr idle hd hr j hj h
    · obtain ⟨m, run, layers⟩ := exec_orreryTick_cool s stack temps valves level pwr idle hd hr hc below
      refine ⟨_, run, rfl, fun j hj => ⟨?_, ?_⟩, smGet_set_same 0 s.mgmt.pwr stack pwr, rfl, ?_, layers⟩
      · exact smGet_zoneValues s.mgmt.temp stack temps j hj
      · exact smGet_zoneValues s.mgmt.valve stack valves j hj
      · show smGet 0 (if s.mgmt.stalled = true then s.mgmt.thr else smSet 0 s.mgmt.thr stack (if hot = 0 then level else 7)) stack = _
        split
        · rfl
        · exact smGet_set_same _ _ _ _
  case reset =>
    intro masks rows spads groups i Boots signed
    have boots (t : State) (stage : BitVec 3) (run : exec i s = .next t) (h : Reached s t stage) : Boots t stage := by
      obtain ⟨q, o, e, k, l, sp, p, mb, mt, c, cy, st, pe⟩ := h.erased
      exact ⟨run, q, o, e, k, l, sp, p, mb, mt, c, cy, st, h.ready, h.recov, h.stage, h.flash, h.chain, h.repair, h.repairs, pe,
        h.outside, h.inside⟩
    refine ⟨fun good fits => ?_, fun good long => ?_, fun bad => ?_⟩
    · obtain ⟨u, run, done⟩ := exec_packageReset_done masks rows spads groups s good fits
      refine ⟨u.finishBoot, boots _ 5 run done.reached, ?_, fun n hn => ?_, ?_, ?_,
        fun j hj n _ => done.coremask_le j hj n, done.coremask_eq,
        fun signed => ⟨done.disabled signed, done.outOfService signed⟩, done.slots, fun die hd => ?_⟩
      · exact congrArg (bitAt · 0) (done.tenants 0)
      · exact (done.tenants n).trans (if_neg hn)
      · exact (congrArg Mgmt.flash done.changes.mgmt :)
      · exact (congrArg (fun m => !Config.repairSigned m.repair) done.changes.mgmt :)
      · obtain ⟨runs, priv, tenant, aligned, low, fits, bytes⟩ := done.runs die hd
        exact ⟨runs, priv, tenant, aligned, low, fits, bytes⟩
    · exact ⟨_, boots _ 2 (exec_packageReset_long masks rows spads groups s good long) (reached_recovery s 2 (by decide)), rfl⟩
    · exact ⟨_, boots _ 1 (exec_packageReset_unsigned masks rows spads groups s bad) (reached_recovery s 1 (by decide)), rfl⟩
  case owners =>
    intro unit tenant c Owns old
    refine ⟨fun ht kind => congrArg Host.Outcome.next (if_pos ht), fun ht held => ?_, fun ht free => ?_, fun ht hu => ?_,
      fun ht hu => ?_⟩
    · exact (exec_memoryOwnerAssignment s unit tenant ht).1.trans (congrArg _ (s.passCore_held tenant c held))
    · exact ⟨_, (exec_memoryOwnerAssignment s unit tenant ht).1, s.passCore_owns tenant c ht (caTileOf_idem unit) free⟩
    · obtain ⟨mem, bad, flaws, e⟩ := s.passCluster_eq tenant unit hu
      refine ⟨_, (exec_memoryOwnerAssignment s unit tenant ht).2.1 hu, ?_, s.byte_passCluster tenant unit⟩
      rw [e]
    · obtain ⟨mem, bad, flaws, e⟩ := s.passGranule_eq tenant unit hu
      refine ⟨_, (exec_memoryOwnerAssignment s unit tenant ht).2.2 hu, ?_, s.byte_passGranule tenant unit⟩
      rw [e]
  case table =>
    exact fun tenant idx v => ⟨fun ht hi => congrArg Host.Outcome.next (if_neg (by omega)),
      fun h => congrArg Host.Outcome.next (if_pos h)⟩
  case destruction =>
    exact ⟨exec_tenantDestruction_firmware s, exec_tenantDestruction s⟩
  case unreachable =>
    intro peer exports
    refine ⟨_, exec_peerUnreachable s peer exports, rfl, fun tenant ht => ⟨fun absent => ?_, fun e l hl he => ?_, fun p hp => ?_⟩⟩
    · exact (smGet_exports_ne s.peers peer peer tenant exports ht fun _ => absent).trans (if_pos rfl)
    · subst hl he
      simp only [List.foldl_append, List.foldl_cons, List.foldl_nil, Nat.mod_eq_of_lt ht]
      exact smGet_set_same _ _ _ _
    · exact (smGet_exports_ne s.peers peer p tenant exports ht fun e => absurd e hp).trans (if_neg hp)
  case peers =>
    intro tenant off op t r
    refine ⟨s.servePeer_unresolved tenant off op, fun pa resolved =>
      ⟨s.servePeer_fails tenant off op pa resolved, ?_, fun free unheld => ⟨?_, ?_, ?_, ?_⟩⟩⟩
    · rintro l d rfl live lo hi
      exact s.peerFails_desc pa d l live lo hi
    · rintro n rfl
      exact s.servePeer_load tenant off pa n resolved free
    · rintro l rfl
      exact s.servePeer_store tenant off pa l resolved free unheld
    · rintro f v rfl
      exact s.servePeer_amo tenant off pa f v resolved free unheld
    · rintro a b rfl
      exact s.servePeer_acas tenant off pa a b resolved free unheld
  case host =>
    intro fn x there
    refine ⟨fun nonce => ⟨fun h => exec_spdmGetMeasurements s fn nonce h.1 h.2, exec_spdmGetMeasurements_idle s fn nonce⟩,
      fun b => ⟨fun h => exec_ideKm s fn b h.1 h.2, exec_ideKm_idle s fn b⟩, ?_⟩
    intro arg answer runs src n dst salt key extra byte cut
    have key_eq : key = s.sealKey fn := (s.sealKey_eq fn).symm
    refine ⟨fun ok => ⟨fun h => ?_, fun h => ?_, fun h => ?_⟩, fun ok gone => ⟨fun h => ?_, fun h => ?_, fun h => ?_⟩,
      fun up => ⟨fun h => ?_, fun h => ?_, fun h => ?_⟩, fun up h => ?sealed, fun up h long => ?opened, fun up h => ?flashed⟩
    case sealed =>
      obtain ⟨t, run, answered, count, nonce_eq, cipher_eq, tag_eq, outside⟩ := exec_seal s fn n dst h up rfl rfl
      refine ⟨t, run, answered, count, ?_, outside⟩
      rw [key_eq, nonce_eq, cipher_eq, tag_eq, s.sealed_tag fn, s.sealed_cipher fn]
      exact ⟨rfl, rfl⟩
    case opened =>
      intro blob cipher good
      have blob_eq : blob = s.blobOf fn := (s.blobOf_eq fn).symm
      have good_iff : good ↔ s.blobGood fn := by
        rw [s.blobGood_iff fn, ← key_eq, State.cipherOf, ← blob_eq]
        exact Iff.rfl
      refine ⟨fun bad => exec_unseal_bad s fn h up (mt good_iff.mpr bad), fun ok => ?_⟩
      obtain ⟨t, run, answered, text, outside⟩ := exec_unseal s fn n dst h up (good_iff.mp ok) rfl rfl
      refine ⟨t, run, answered, ?_, fun a ha => outside a (by omega)⟩
      rw [text, State.cipherOf, ← key_eq, ← blob_eq]
      rfl
    case flashed =>
      intro image
      have run := exec_flashUpdate s fn h up
      rwa [s.blobOf_eq fn] at run
    · exact congrArg Host.Outcome.next (s.perform_idle fn 1 ok _ h)
    · exact congrArg Host.Outcome.next (s.perform_idle fn 2 ok _ h)
    · exact congrArg Host.Outcome.next (s.perform_idle fn 16 ok _ h)
    · exact congrArg Host.Outcome.next (s.perform_cut fn 1 ok _ h gone)
    · exact congrArg Host.Outcome.next (s.perform_cut fn 2 ok _ h gone)
    · exact congrArg Host.Outcome.next (s.perform_cut fn 16 ok _ h gone)
    · exact congrArg Host.Outcome.next (s.perform_unanswered fn 1 _ h up)
    · exact congrArg Host.Outcome.next (s.perform_unanswered fn 2 _ h up)
    · exact congrArg Host.Outcome.next (s.perform_unanswered fn 16 _ h up)

end Sys2Proof.Machine
end

section
/-!
The obligation of the guards.
-/

namespace Sys2Proof.Machine

open Claims

/-- R26: a half leaves the state as it is, unless its slot issues and its guard holds. -/
theorem exec_eq_ite_holds (i : Instr) (gd : Guard) (s : State) (guard : guardOf i = some gd) :
    ∃ t, exec i s = .next (if s.me.st.isRun && s.rd.holds gd then t else s) := by
  cases i <;> cases guard <;> exact ⟨_, rfl⟩

/-- Settles O1: the new state of a half is chosen by its guard, and the halves that do nothing choose between equals. -/
theorem falseGuardHasNoEffect : Obligations.FalseGuardHasNoEffect := by
  unfold Obligations.FalseGuardHasNoEffect
  refine ⟨fun i gd s guard fails => ?_, fun gd s => ⟨?_, ?_⟩⟩
  · obtain ⟨t, run⟩ := exec_eq_ite_holds i gd s guard
    rw [run, fails, Bool.and_false, if_neg Bool.false_ne_true]
  · exact congrArg Host.Outcome.next (ite_self s)
  · exact congrArg Host.Outcome.next (ite_self s)

end Sys2Proof.Machine
end

section
/-!
The obligation of the reserved encodings.
-/

namespace Sys2Proof

/-- R201: the tag of `send.l` has four bits, so a function field of 4 is tag 4. The example of the entry with that tag: `send.l g6, g7, 4, 64`. -/
theorem decodeC_sendL_tag_four : decodeC (CFmt.unpack 0xC40031C4) 0x04000000 = some (.sendL .always 6 7 4 64) := by
  decide +kernel

/-- Refutes O2: its clause on major 0x22 refuses every function field from 4, but bits 3:0 of that field are the tag of `send.l`
(R201), and tag 4 decodes. Its clause on major 0x30 fails likewise, at the counts of 4 and more of `ptask`. -/
theorem not_reservedEncodings : ¬ Obligations.ReservedEncodings := by
  unfold Obligations.ReservedEncodings
  rintro ⟨cWords, -⟩
  obtain ⟨-, -, -, -, -, -, -, sendL, -⟩ := (cWords 0xC40031C4 0x04000000).2 (by decide)
  have refused : decodeC (CFmt.unpack 0xC40031C4) 0x04000000 = none := sendL (by decide) (.inr (.inl (by decide)))
  rw [decodeC_sendL_tag_four] at refused
  cases refused

end Sys2Proof
end

section
/-!
The obligation of the control registers.
-/

namespace Sys2Proof.Machine

open Claims

/-! ## Indices and classes -/

theorem Cr.assigned_eq_decide (i : BitVec 11) :
    Cr.assigned i = decide (i.toNat ≤ 0x014 ∨ (0x100 ≤ i.toNat ∧ i.toNat ≤ 0x107) ∨ i.toNat = 0x180 ∨
      (0x200 ≤ i.toNat ∧ i.toNat ≤ 0x204) ∨ i.toNat = 0x400 ∨ i.toNat = 0x401 ∨ (0x600 ≤ i.toNat ∧ i.toNat ≤ 0x60F)) := by
  simp only [Cr.assigned, Bool.decide_or, Bool.decide_and, Bool.or_assoc]
  rfl

theorem classDenied_eq_decide (n : Nat) (priv : Bool) (tenant : W64) :
    classDenied n priv tenant = decide ((0x200 ≤ n ∧ priv = false) ∨ (0x600 ≤ n ∧ tenant ≠ 0)) := by
  unfold classDenied
  split_ifs with user privileged
  · simp [user, show ¬0x600 ≤ n by omega]
  · simp [privileged, Nat.le_of_not_lt user]
  · simp [Nat.le_of_not_lt privileged, Nat.le_of_not_lt user, bne, beq_eq_decide]

theorem userIgnored_iff (n : Nat) (priv : Bool) : userIgnored n priv = true ↔ 0x100 ≤ n ∧ n ≤ 0x17F ∧ priv = false := by
  simp [userIgnored, and_assoc]

/-! ## What an access does (R78) -/

section Access
variable {gd : Guard} {s : State} (issues : Issues gd s) (i : BitVec 11) (d : Option GReg)
include issues

theorem crAccess_unassigned (new : Option (W64 → W64)) (h : Cr.assigned i = false) :
    crAccess gd i s d new = .next (s.takeTrap s.cur ⟨0x01, s.raw⟩) :=
  (half_runs gd s _ issues.1 issues.2).trans (by simp [h, State.trap, State.bundle])

theorem crAccess_denied (new : Option (W64 → W64)) (h : Cr.assigned i = true)
    (denied : classDenied i.toNat s.rd.priv s.rd.cr.tenant = true) :
    crAccess gd i s d new = .next (s.takeTrap s.cur ⟨0x02, s.raw⟩) :=
  (half_runs gd s _ issues.1 issues.2).trans (by simp [h, denied, State.trap, State.bundle])

variable (h : Cr.assigned i = true) (granted : classDenied i.toNat s.rd.priv s.rd.cr.tenant = false)
include h granted

theorem crAccess_read (r : GReg) : crAccess gd i s (some r) none = .next (s.setG r (s.readCr i.toNat)) :=
  (half_runs gd s _ issues.1 issues.2).trans (by simp [h, granted])

theorem crAccess_ignored (f : W64 → W64) (ignored : userIgnored i.toNat s.rd.priv = true) :
    crAccess gd i s d (some f) = .next (d.elim s fun r => s.setG r (s.readCr i.toNat)) :=
  (half_runs gd s _ issues.1 issues.2).trans (by cases d <;> simp [h, granted, ignored])

theorem crAccess_write (f : W64 → W64) (checked : userIgnored i.toNat s.rd.priv = false) :
    crAccess gd i s d (some f) =
      if crValueOk i.toNat (f (s.readCr i.toNat)) then
        .next ((d.elim s fun r => s.setG r (s.readCr i.toNat)).writeCr i.toNat (f (s.readCr i.toNat)))
      else .next (s.takeTrap s.cur ⟨0x01, s.raw⟩) := by
  refine (half_runs gd s _ issues.1 issues.2).trans ?_
  cases ok : crValueOk i.toNat (f (s.readCr i.toNat)) <;> cases d <;> simp [h, granted, checked, ok, State.trap, State.bundle]

end Access

/-! ## The four instructions -/

theorem exec_crd (gd : Guard) (d : GReg) (i : BitVec 11) (s : State) : exec (.crd gd d i) s = crAccess gd i s (some d) none := rfl

theorem exec_cwr (gd : Guard) (a : GReg) (i : BitVec 11) (s : State) :
    exec (.cwr gd a i) s = crAccess gd i s none (some fun _ => s.g a) := rfl

theorem exec_crset (gd : Guard) (d a : GReg) (i : BitVec 11) (s : State) :
    exec (.crset gd d a i) s = crAccess gd i s (some d) (some fun old => old ||| s.g a) := rfl

theorem exec_crclr (gd : Guard) (d a : GReg) (i : BitVec 11) (s : State) :
    exec (.crclr gd d a i) s = crAccess gd i s (some d) (some fun old => old &&& ~~~s.g a) := rfl

/-- Settles O25: the four instructions are one access, whose cases are its index, its class, whether it writes, and whether the write
is ignored. -/
theorem controlRegisterAccess : Obligations.ControlRegisterAccess := by
  unfold Obligations.ControlRegisterAccess
  intro gd d a i s issues n assigned denied all old
  have known : Cr.assigned i = assigned := Cr.assigned_eq_decide i
  have class_ : classDenied n s.rd.priv s.rd.cr.tenant = denied := classDenied_eq_decide n _ _
  have access : ∀ x ∈ all, ∃ r new, exec x s = crAccess gd i s r new := by
    simp only [all, List.forall_mem_cons, List.not_mem_nil, false_implies, implies_true, and_true]
    exact ⟨⟨_, _, exec_crd gd d i s⟩, ⟨_, _, exec_cwr gd a i s⟩, ⟨_, _, exec_crset gd d a i s⟩, ⟨_, _, exec_crclr gd d a i s⟩⟩
  refine ⟨fun no x hx => ?_, fun yes no x hx => ?_, fun yes granted => ?_⟩
  · obtain ⟨r, new, e⟩ := access x hx
    exact e.trans (crAccess_unassigned issues i r new (known.trans no))
  · obtain ⟨r, new, e⟩ := access x hx
    exact e.trans (crAccess_denied issues i r new (known.trans yes) (class_.trans no))
  · rw [exec_crd, exec_cwr, exec_crset, exec_crclr]
    rw [← known] at yes
    rw [← class_] at granted
    refine ⟨crAccess_read issues i yes granted d, fun user => ?_, fun user => ?_⟩
    · have ignored := (userIgnored_iff n s.rd.priv).mpr user
      exact ⟨crAccess_ignored issues i none yes granted _ ignored, crAccess_ignored issues i (some d) yes granted _ ignored,
        crAccess_ignored issues i (some d) yes granted _ ignored⟩
    · have checked := Bool.eq_false_iff.mpr (mt (userIgnored_iff n s.rd.priv).mp user)
      exact ⟨crAccess_write issues i none yes granted _ checked, crAccess_write issues i (some d) yes granted _ checked,
        crAccess_write issues i (some d) yes granted _ checked⟩

end Sys2Proof.Machine
end

section
/-!
What the register files read after a write (R79 to R81, R86, R166, R167).
-/

namespace Sys2Proof.Machine

open Claims

/-! ## Files of registers -/

theorem getD_toList_replicate {α : Type} (n i : Nat) (x : α) : ((Vector.replicate n x).toList)[i]?.getD x = x := by
  by_cases inside : i < n <;> simp [inside]

theorem getD_toList_setIfInBounds {α : Type} {n : Nat} (file : Vector α n) (i j : Nat) (x d : α) :
    ((file.setIfInBounds i x).toList)[j]?.getD d = if i = j ∧ i < n then x else (file.toList)[j]?.getD d := by
  simp only [Vector.toList_setIfInBounds, List.getElem?_set, Vector.length_toList]
  by_cases same : i = j
  · subst same
    by_cases inside : i < n <;> simp [inside]
  · simp [same]

/-! ## General registers (R79, R81) -/

section General
variable (c : Ctx) (n k : GReg) (v : W64)

/-- R81: the field names one of g1 to g4, and h1 to h4 stand in for them. -/
def Ctx.shadows (n : GReg) : Bool := c.uih && decide (n.toNat ≤ 4)

variable {n} in
theorem Ctx.setG_of_shadows (hn : n ≠ 0) (h : c.shadows n = true) : c.setG n v = { c with h := c.h.setIfInBounds (n.toNat - 1) v } := by
  simp only [Ctx.setG, Ctx.setGIn, hn, if_false]
  exact if_pos h

variable {n} in
theorem Ctx.setG_of_not_shadows (hn : n ≠ 0) (h : c.shadows n = false) : c.setG n v = { c with g := c.g.setIfInBounds n.toNat v } := by
  simp only [Ctx.setG, Ctx.setGIn, hn, if_false]
  exact if_neg (Bool.eq_false_iff.mp h)

theorem Ctx.getG_eq : c.getG k = if k = 0 then 0 else if c.shadows k then (c.h.toList)[k.toNat - 1]?.getD 0 else (c.g.toList)[k.toNat]?.getD 0 :=
  rfl

/-- A write of a general register changes the files g and h only. -/
theorem Ctx.setG_frame : c.setG n v = { c with g := (c.setG n v).g, h := (c.setG n v).h } := by
  by_cases hn : n = 0
  · subst hn
    rw [Ctx.setG_zero]
  · cases h : c.shadows n
    · rw [c.setG_of_not_shadows v hn h]
    · rw [c.setG_of_shadows v hn h]

@[simp] theorem Ctx.shadows_setG : (c.setG n v).shadows k = c.shadows k := by
  rw [Ctx.setG_frame]
  rfl

theorem GReg.toNat_pos {r : GReg} (h : r ≠ 0) : 0 < r.toNat := Nat.pos_of_ne_zero fun e => h (BitVec.eq_of_toNat_eq e)

theorem Ctx.shadows_iff : c.shadows n = true ↔ c.uih = true ∧ n.toNat ≤ 4 := by simp [Ctx.shadows]

/-- A register that is written has its place among those of its file, and no other register has that place. -/
theorem Ctx.getG_setG (hn : n ≠ 0) : (c.setG n v).getG k = if k = n then v else c.getG k := by
  by_cases hk : k = 0
  · rw [hk, Ctx.getG_zero, Ctx.getG_zero, if_neg hn.symm]
  have positive := GReg.toNat_pos hn
  have positive' := GReg.toNat_pos hk
  have small := n.isLt
  have differ : k = n ↔ k.toNat = n.toNat := BitVec.toNat_inj.symm
  rw [Ctx.getG_eq, Ctx.getG_eq, Ctx.shadows_setG, if_neg hk, if_neg hk]
  cases hs : c.shadows n <;> cases hs' : c.shadows k
  · rw [c.setG_of_not_shadows v hn hs]
    simp only [differ, getD_toList_setIfInBounds, Bool.false_eq_true, if_false]
    exact if_congr (by omega) rfl rfl
  · have : k ≠ n := by
      rintro rfl
      simp [hs] at hs'
    rw [c.setG_of_not_shadows v hn hs, if_neg this]
    rfl
  · have : k ≠ n := by
      rintro rfl
      simp [hs] at hs'
    rw [c.setG_of_shadows v hn hs, if_neg this]
    rfl
  · have low := ((c.shadows_iff n).mp hs).2
    rw [c.setG_of_shadows v hn hs]
    simp only [differ, getD_toList_setIfInBounds, if_true]
    exact if_congr (by omega) rfl rfl

end General

/-! ## Predicates (R80, R86) -/

section Predicates
variable (c : Ctx) (n k : PReg) (v : Bool)

theorem Ctx.getB_zero : c.getB 0 = true := rfl

theorem Ctx.setB_zero : c.setB 0 v = c := rfl

theorem Ctx.getB_setB (hn : n ≠ 0) : (c.setB n v).getB k = if k = n then v else c.getB k := by
  by_cases hk : k = 0
  · rw [hk, if_neg hn.symm, Ctx.getB_zero, Ctx.getB_zero]
  have small := k.isLt
  have differ : k = n ↔ n.toNat = k.toNat := by rw [eq_comm, BitVec.toNat_inj]
  simp only [Ctx.getB, Ctx.setB, hn, hk, if_false, bitAt, differ]
  cases v <;> by_cases same : n.toNat = k.toNat <;> simp [same] <;> omega

/-- R86: what `bunpk` has set after its first m predicates. -/
theorem Ctx.getB_setB_range (x : W64) (m : Nat) (hm : m ≤ 8) :
    ((List.range m).foldl (fun c j => c.setB (BitVec.ofNat 3 j) (bitAt x j)) c).getB n =
      if n = 0 then true else if n.toNat < m then bitAt x n.toNat else c.getB n := by
  induction m with
  | zero =>
    rcases eq_or_ne n 0 with rfl | hn
    · rfl
    · rw [if_neg hn, if_neg (Nat.not_lt_zero _)]
      rfl
  | succ m ih =>
    have differ : n = BitVec.ofNat 3 m ↔ n.toNat = m := by
      rw [← BitVec.toNat_inj, BitVec.toNat_ofNat, Nat.mod_eq_of_lt (by omega)]
    rw [List.range_succ, List.foldl_append, List.foldl_cons, List.foldl_nil]
    by_cases first : BitVec.ofNat 3 m = 0
    · rw [first, Ctx.setB_zero, ih (by omega)]
      rw [first] at differ
      by_cases hn : n = 0
      · rw [if_pos hn, if_pos hn]
      · rw [if_neg hn, if_neg hn]
        exact if_congr (by have := mt differ.mpr hn; omega) rfl rfl
    · rw [Ctx.getB_setB _ _ _ _ first, ih (by omega)]
      by_cases same : n = BitVec.ofNat 3 m
      · rw [if_pos same, if_neg (same ▸ first), if_pos (by have := differ.mp same; omega), differ.mp same]
      · rw [if_neg same]
        have other := mt differ.mpr same
        exact if_congr Iff.rfl rfl (if_congr (by omega) rfl rfl)

theorem Ctx.getB_unpackB (x : W64) : (unpackB c x).getB n = if n = 0 then true else bitAt x n.toNat := by
  rw [unpackB, Ctx.getB_setB_range c n x 8 le_rfl, if_pos n.isLt]

/-- A sum of distinct powers of two: below the next power, with one bit for each term. -/
theorem sum_range_two_pow (p : Nat → Bool) (m : Nat) :
    let sum := (List.range m).foldl (fun n j => n + if p j then 2 ^ j else 0) 0
    sum < 2 ^ m ∧ ∀ j, sum.testBit j = (decide (j < m) && p j) := by
  induction m with
  | zero => simp
  | succ m ih =>
    obtain ⟨below, bits⟩ := ih
    simp only [List.range_succ, List.foldl_append, List.foldl_cons, List.foldl_nil]
    generalize (List.range m).foldl (fun n j => n + if p j then 2 ^ j else 0) 0 = sum at below bits
    cases hp : p m
    · refine ⟨by simp only [Bool.false_eq_true, if_false]; omega, fun j => ?_⟩
      simp only [Bool.false_eq_true, if_false, Nat.add_zero, bits]
      by_cases last : j = m
      · simp [last, hp]
      · simp [show j < m + 1 ↔ j < m by omega]
    · refine ⟨by simp only [if_true]; omega, fun j => ?_⟩
      have joined : 2 ^ m + sum = 2 ^ m ||| sum := by simpa using Nat.two_pow_add_eq_or_of_lt below 1
      rw [if_pos rfl, Nat.add_comm, joined, Nat.testBit_or, Nat.testBit_two_pow, bits]
      by_cases last : j = m
      · simp [last, hp]
      · simp [show j < m + 1 ↔ j < m by omega, Ne.symm last]

theorem bitAt_packB (j : Nat) : bitAt (packB c) j = (decide (j < 8) && c.getB (BitVec.ofNat 3 j)) := by
  obtain ⟨below, bits⟩ := sum_range_two_pow (fun j => c.getB (BitVec.ofNat 3 j)) 8
  rw [bitAt, packB, w64, BitVec.getLsbD_ofNat, bits]
  by_cases small : j < 8
  · simp [small, show j < 64 by omega]
  · simp [small]

end Predicates

/-! ## Vector and mask registers (R166, R167) -/

section Vectors
variable (c : Ctx) (n k : VReg) (x : BitVec 1024)

/-- R166: the bits of a vector register that an unganged thread uses. -/
theorem toNat_lowHalf : ((1#1024 <<< 512) - 1).toNat = 2 ^ 512 - 1 := by decide +kernel

theorem getLsbD_lowHalf (j : Nat) : ((1#1024 <<< 512) - 1).getLsbD j = decide (j < 512) := by
  rw [BitVec.getLsbD, toNat_lowHalf, Nat.testBit_two_pow_sub_one]

theorem Ctx.setV_frame : c.setV n x = { c with v := (c.setV n x).v } := rfl

/-- What the register file holds after a write, the halves of a held partner included. -/
theorem Ctx.getD_v_setV : ((c.setV n x).v.toList)[k.toNat]?.getD 0 = if k ≠ n then (c.v.toList)[k.toNat]?.getD 0 else
    if c.gang then x else ((c.v.toList)[n.toNat]?.getD 0 &&& ~~~((1#1024 <<< 512) - 1)) ||| (x &&& ((1#1024 <<< 512) - 1)) := by
  have place : n.toNat = k.toNat ∧ n.toNat < 16 ↔ ¬k ≠ n := by
    have := n.isLt
    rw [not_not, eq_comm (a := k), ← BitVec.toNat_inj]
    omega
  refine (getD_toList_setIfInBounds c.v n.toNat k.toNat _ 0).trans ?_
  by_cases same : k ≠ n
  · rw [if_pos same, if_neg fun e => place.mp e same]
  · rw [if_neg same, if_pos (place.mpr same)]

theorem Ctx.gang_setV : (c.setV n x).gang = c.gang := rfl

theorem Ctx.getV_eq : c.getV k = if c.gang then (c.v.toList)[k.toNat]?.getD 0 else (c.v.toList)[k.toNat]?.getD 0 &&& ((1#1024 <<< 512) - 1) := rfl

theorem Ctx.getV_setV_ganged (h : c.gang = true) : (c.setV n x).getV n = x := by
  rw [Ctx.getV_eq, Ctx.gang_setV, if_pos h, Ctx.getD_v_setV, if_neg (not_not.mpr rfl), if_pos h]

theorem Ctx.getLsbD_getV_setV (h : c.gang = false) (j : Nat) :
    ((c.setV n x).getV n).getLsbD j = (decide (j < 512) && x.getLsbD j) := by
  have single := Bool.eq_false_iff.mp h
  rw [Ctx.getV_eq, Ctx.gang_setV, if_neg single, Ctx.getD_v_setV, if_neg (not_not.mpr rfl), if_neg single]
  simp only [BitVec.getLsbD_and, BitVec.getLsbD_or, BitVec.getLsbD_not, getLsbD_lowHalf]
  by_cases low : j < 512 <;> simp [low]

theorem Ctx.getLsbD_v_setV_upper (h : c.gang = false) (j : Nat) (upper : 512 ≤ j) :
    (((c.setV n x).v.toList)[n.toNat]?.getD 0).getLsbD j = ((c.v.toList)[n.toNat]?.getD 0).getLsbD j := by
  rw [Ctx.getD_v_setV, if_neg (not_not.mpr rfl), if_neg (Bool.eq_false_iff.mp h)]
  simp only [BitVec.getLsbD_and, BitVec.getLsbD_or, BitVec.getLsbD_not, getLsbD_lowHalf, Nat.not_lt.mpr upper]
  by_cases inside : j < 1024
  · simp [inside]
  · simp [inside, BitVec.getLsbD_of_ge _ _ (Nat.not_lt.mp inside)]

theorem Ctx.getV_setV_ne (h : k ≠ n) : (c.setV n x).getV k = c.getV k := by
  rw [Ctx.getV_eq, Ctx.getV_eq, Ctx.gang_setV, Ctx.getD_v_setV, if_pos h]

theorem Ctx.getM_setM (n k : MReg) (y : W64) : (c.setM n y).getM k = if k = n then y else c.getM k := by
  have := n.isLt
  refine (getD_toList_setIfInBounds c.m n.toNat k.toNat y 0).trans (if_congr ?_ rfl rfl)
  rw [eq_comm (a := k), ← BitVec.toNat_inj]
  omega

end Vectors

/-! ## The obligation -/

/-- Settles O3: each file is read and written by place, and each clause is a rule of its file. -/
theorem registerFiles : Obligations.RegisterFiles := by
  unfold Obligations.RegisterFiles
  refine ⟨fun c n k v => ?_, fun c c' n k v => ?_, fun c n k m x y => ?_⟩
  · have frame := c.setG_frame n v
    refine ⟨c.getG_zero, c.setG_zero v, fun hn => ?_, fun hk => ?_, fun uih low high => ?_, fun plain => ?_,
      by rw [frame], by rw [frame], by rw [frame], by rw [frame], by rw [frame], by rw [frame],
      fun s => ⟨fun _ => rfl, fun j hj => s.slot_modSlot_ne _ j _ hj, rfl⟩⟩
    · rw [c.getG_setG n n v hn, if_pos rfl]
    · by_cases hn : n = 0
      · rw [hn, Ctx.setG_zero]
      · rw [c.getG_setG n k v hn, if_neg hk]
    · have hn : n ≠ 0 := by
        rintro rfl
        simp at low
      have shadows := (c.shadows_iff n).mpr ⟨uih, high⟩
      rw [c.getG_eq, if_neg hn, if_pos shadows, c.setG_of_shadows v hn shadows]
      exact ⟨rfl, rfl⟩
    · by_cases hn : n = 0
      · rw [hn, Ctx.setG_zero]
      · have open_ : c.shadows n = false := Bool.eq_false_iff.mpr fun h => by simp [((c.shadows_iff n).mp h).1] at plain
        rw [c.setG_of_not_shadows v hn open_]
  · refine ⟨c.getB_zero, c.setB_zero v, fun hn => ?_, fun hk => ?_, ?_, ?_⟩
    · rw [c.getB_setB n n v hn, if_pos rfl]
    · by_cases hn : n = 0
      · rw [hn, Ctx.setB_zero]
      · rw [c.getB_setB n k v hn, if_neg hk]
    · have inside : n.toNat < 8 := n.isLt
      rw [Ctx.getB_unpackB, bitAt_packB, BitVec.ofNat_toNat, BitVec.setWidth_eq]
      by_cases hn : n = 0
      · rw [if_pos hn, hn, Ctx.getB_zero]
      · rw [if_neg hn, decide_eq_true inside, Bool.true_and]
    · refine BitVec.eq_of_getLsbD_eq fun j hj => ?_
      have bit : (packB c).getLsbD j = (decide (j < 8) && c.getB (BitVec.ofNat 3 j)) := bitAt_packB c j
      have byte : (0xFF#64).getLsbD j = decide (j < 8) := by
        rw [show 0xFF#64 = BitVec.ofNat 64 (2 ^ 8 - 1) from rfl, BitVec.getLsbD_ofNat, Nat.testBit_two_pow_sub_one, decide_eq_true hj,
          Bool.true_and]
      rw [BitVec.getLsbD_and, BitVec.getLsbD_not, bit, byte]
      by_cases inside : j < 8 <;> simp [inside]
  · refine ⟨c.getV_setV_ganged n x, c.getLsbD_getV_setV n x, c.getLsbD_v_setV_upper n x, c.getV_setV_ne n k x, rfl, rfl,
      fun w _ => Nat.div_mul_le_self _ _, ?_, fun l hl => ?_, rfl⟩
    · rw [c.getM_setM, if_pos rfl]
    · rw [c.getM_setM, if_neg hl]

end Sys2Proof.Machine
end

section
/-!
The obligations of reset and of the levels of `wid`.
-/

namespace Sys2Proof.Machine

open Claims

/-! ## Reset -/

theorem Ctx.getV_zero (n : VReg) : Ctx.zero.getV n = 0 := by
  rw [Ctx.getV_eq]
  exact congrArg (· &&& ((1#1024 <<< 512) - 1)) (getD_toList_replicate 16 n.toNat 0) |>.trans BitVec.zero_and

theorem Ctx.getG_zero_ctx (n : GReg) : Ctx.zero.getG n = 0 := by
  by_cases hn : n = 0
  · rw [hn, Ctx.getG_zero]
  · have : Ctx.zero.shadows n = false := rfl
    rw [Ctx.getG_eq, if_neg hn, this]
    exact getD_toList_replicate 32 n.toNat 0

/-- R69: no core is disabled at reset. -/
theorem coreEnabled_reset (core : Nat) : State.reset.coreEnabled core = true := by
  have bit : caIndex core % 64 < 64 := Nat.mod_lt _ (by decide)
  exact (BitVec.getLsbD_allOnes (v := 64)).trans (decide_eq_true bit)

/-- Settles O56: at reset every map is empty, so that each read gives what an unlisted key reads as. -/
theorem resetState : Obligations.ResetState := by
  unfold Obligations.ResetState
  refine ⟨fun _ => rfl, rfl, rfl, rfl, fun _ => rfl, fun _ => rfl, rfl, Ctx.getG_zero_ctx, by decide,
    fun n => getD_toList_replicate 4 n.toNat 0, Ctx.getV_zero, rfl, rfl, rfl, rfl, rfl, rfl, rfl, fun _ => rfl,
    fun _ _ => ⟨rfl, rfl⟩, fun _ => rfl, fun _ => rfl, fun _ => ⟨rfl, rfl⟩, coreEnabled_reset, fun _ => rfl, rfl, rfl, rfl⟩

/-! ## The levels of `wid` (R58, R76) -/

theorem shapeWidth_eq (shape : W64) (k : Nat) : shapeWidth shape k = levelWidth shape k := by
  rw [shapeWidth, bitsAt, show 7 * k + 6 + 1 - 7 * k = 7 by omega]
  rfl

theorem shapeLow_eq (shape : W64) (k : Nat) : shapeLow shape k = levelLow shape k := by
  induction k with
  | zero => rfl
  | succ k ih => simp [shapeLow, levelLow, List.range_succ, ← shapeWidth_eq, ih]

/-- R76: the value that `wfld` cuts out of `wid` for a level that lies at low and is width bits wide. -/
theorem getLsbD_field (wid : W64) (low width j : Nat) :
    (w64 ((wid >>> low).toNat % 2 ^ width)).getLsbD j = (decide (j < width) && wid.getLsbD (low + j)) := by
  rw [w64, BitVec.getLsbD_ofNat, Nat.testBit_mod_two_pow, ← BitVec.getLsbD, BitVec.getLsbD_ushiftRight]
  by_cases word : j < 64
  · rw [decide_eq_true word, Bool.true_and]
  · rw [BitVec.getLsbD_of_ge wid (low + j) (by omega), Bool.and_false, Bool.and_false]

theorem exec_wfld {gd : Guard} {s : State} (issues : Issues gd s) (d : GReg) (k : BitVec 5) :
    exec (.wfld gd d k) s = .next (s.setG d
      (w64 ((s.rd.cr.wid >>> levelLow s.rd.cr.wshape k.toNat).toNat % 2 ^ levelWidth s.rd.cr.wshape k.toNat))) := by
  rw [show exec (.wfld gd d k) s = execWfld gd d k s from rfl, execWfld, half_runs gd s _ issues.1 issues.2,
    ← shapeLow_eq, ← shapeWidth_eq]
  rfl

/-- Settles O27: the level is cut out of `wid` by a shift and a remainder. -/
theorem workField : Obligations.WorkField := by
  unfold Obligations.WorkField
  intro gd d k s issues sh
  refine ⟨_, exec_wfld issues d k, getLsbD_field _ _ _, fun none_ => ?_⟩
  rw [none_, Nat.pow_zero, Nat.mod_one]
  rfl

end Sys2Proof.Machine
end

section
/-!
The obligation of logical cores and gangs.
-/

namespace Sys2Proof.Machine

open Claims

/-! ## Logical cores (R69, R77) -/

theorem caX_caTile (x y : Nat) (hx : x < 128) : caX (caTile x y) = x := by
  simp only [caX, caTile]
  omega

theorem caY_caTile (x y : Nat) (hx : x < 128) (hy : y < 64) : caY (caTile x y) = y := by
  simp only [caY, caTile]
  omega

theorem caDie_caOfIndex (die i : Nat) (hd : die < 8) (hi : i < 1024) : caDie (caOfIndex die i) = die := by
  rw [caDie, caOfIndex, caX_caTile _ _ (by omega), caY_caTile _ _ (by omega) (by omega)]
  omega

theorem caIndex_caOfIndex (die i : Nat) (hi : i < 1024) (hd : die < 8) : caIndex (caOfIndex die i) = i := by
  rw [caIndex, caOfIndex, caX_caTile _ _ (by omega), caY_caTile _ _ (by omega) (by omega)]
  omega

theorem coreEnabled_caOfIndex (s : State) (die i : Nat) (hd : die < 8) (hi : i < 1024) :
    s.coreEnabled (caOfIndex die i) = (smGet allOnes s.coremask (16 * die + i / 64)).getLsbD (i % 64) := by
  rw [State.coreEnabled, caDie_caOfIndex die i hd hi, caIndex_caOfIndex die i hi hd, Nat.mul_comm]
  rfl

/-- The element that p picks is found behind as many others as p picks before it. -/
theorem getElem?_filter_range (p : Nat → Bool) (m n : Nat) (hn : n < m) (hp : p n = true) :
    ((List.range m).filter p)[(List.range n).countP p]? = some n := by
  obtain ⟨r, rfl⟩ : ∃ r, m = n + (r + 1) := ⟨m - n - 1, by omega⟩
  rw [List.range_add, List.filter_append, List.countP_eq_length_filter, List.getElem?_append_right le_rfl, Nat.sub_self,
    List.range_succ_eq_map, List.map_cons, Nat.add_zero, List.filter_cons_of_pos hp]
  rfl

theorem getElem?_filter_none {α : Type} (p : α → Bool) (l : List α) (i : Nat) (h : l.countP p ≤ i) : (l.filter p)[i]? = none := by
  rw [List.getElem?_eq_none_iff, ← List.countP_eq_length_filter]
  exact h

/-- R77: the logical cores of a die are the enabled ones by their die-local index, the Cobbler left out. -/
theorem logicalCores_eq (s : State) (die : Nat) (hd : die < 8) :
    s.logicalCores die = ((List.range 1023).filter fun n =>
      (smGet allOnes s.coremask (16 * die + n / 64)).getLsbD (n % 64)).map (caOfIndex die) := by
  rw [State.logicalCores, List.filter_map]
  refine congrArg (List.map (caOfIndex die)) (List.filter_congr fun n hn => ?_)
  exact coreEnabled_caOfIndex s die n hd (by have := List.mem_range.mp hn; omega)

section Cmap
variable {gd : Guard} {s : State} (issues : Issues gd s) (d a : GReg)
include issues

theorem exec_cmap : exec (.cmap gd d a) s = .next (s.setG d
    (match if bitsAt (s.g a) 63 13 ≠ 0 then none else (s.logicalCores (bitsAt (s.g a) 12 10))[bitsAt (s.g a) 9 0]? with
     | some c => w64 c
     | none => allOnes)) := by
  rw [show exec (.cmap gd d a) s = execCmap gd d a s from rfl, execCmap]
  exact half_runs gd s _ issues.1 issues.2

end Cmap

/-! ## Gangs (R56, R57, R75) -/

/-- The lowest n bits of a word, as a mask cuts them out and as a remainder. -/
theorem and_mask_eq_umod {w : Nat} (x mask modulus : BitVec w) (n : Nat) (ones : mask.toNat = 2 ^ n - 1) (power : modulus.toNat = 2 ^ n) :
    x &&& mask = x % modulus := by
  refine BitVec.eq_of_toNat_eq ?_
  rw [BitVec.toNat_and, ones, BitVec.toNat_umod, power, Nat.and_two_pow_sub_one_eq_mod]

theorem toNat_two_pow_512 : (BitVec.ofNat 1024 (2 ^ 512)).toNat = 2 ^ 512 := by decide +kernel

theorem dropUpper_eq : Ctx.dropUpper = fun c => { c with v := c.v.map fun x => x % BitVec.ofNat 1024 (2 ^ 512) } := by
  funext c
  simp only [Ctx.dropUpper, and_mask_eq_umod _ _ _ 512 toNat_lowHalf toNat_two_pow_512]

theorem setPs_gang : Ctx.setPs 2 true = fun c => { c with cr := { c.cr with pstate := c.cr.pstate ||| 4 } } := rfl

theorem setPs_not_gang : Ctx.setPs 2 false = fun c => { c with cr := { c.cr with pstate := c.cr.pstate &&& ~~~4#64 } } := rfl

theorem caCore_partner (k : Nat) : caCore (partner k) = caCore k := by
  unfold partner caCore caSlot
  split_ifs <;> omega

theorem partner_ne (k : Nat) : partner k ≠ k := by
  unfold partner caSlot
  split_ifs <;> omega

section Gangs
variable {gd : Guard} {s : State} (issues : Issues gd s) (d : GReg)

/-- R75: the pair of the executing slot and its partner, joined. -/
def State.joined (s : State) : State := (s.setSlot (partner s.cur) { Slot.free with st := .ganghi }).upd (Ctx.setPs 2 true)

/-- R75: the executing slot alone, its partner freed. -/
def State.alone (s : State) : State :=
  (((s.setSlot (partner s.cur) Slot.free).noteFree (partner s.cur)).upd (Ctx.setPs 2 false)).upd Ctx.dropUpper

theorem State.alone_eq : s.alone =
    ({ s.setSlot (partner s.cur) Slot.free with freedAt := smSet 0 s.freedAt s.core s.cycle }.upd (Ctx.setPs 2 false)).upd
      Ctx.dropUpper := by
  simp only [State.alone, State.noteFree, caCore_partner, State.core, State.setSlot_freedAt, State.setSlot_cycle]

theorem State.takable_iff (k : Nat) : s.takable k = true ↔ (s.slot k).st = .free ∧ ¬∃ q ∈ s.pkts, k ∈ q.evict := by
  have free : (s.slot k).st.isFree = true ↔ (s.slot k).st = .free := by cases (s.slot k).st <;> simp [SlotSt.isFree]
  simp [State.takable, free]

include issues

theorem exec_gang : exec (.gang gd d) s = .next
    (if caKind s.core ≠ .compute then s.setG d 3
     else if caSlot s.cur % 2 = 1 then s.setG d 2
     else if s.rd.gang then s.setG d 0
     else if s.takable (partner s.cur) then (s.joined.upd Ctx.dropUpper).setG d 0
     else if (s.slot (partner s.cur)).st = .held then s.joined.setG d 0
     else s.setG d 1) := by
  rw [show exec (.gang gd d) s = execGang gd d s from rfl, execGang, half_runs gd s _ issues.1 issues.2]
  rfl

theorem exec_split : exec (.split gd) s = .next
    (if s.rd.gang then s.alone
     else if caKind s.core = .compute ∧ caSlot s.cur % 2 = 0 ∧ (s.slot (partner s.cur)).st = .held then s.alone
     else s) := by
  rw [show exec (.split gd) s = execSplit gd s from rfl, execSplit, half_runs gd s _ issues.1 issues.2]
  refine congrArg Host.Outcome.next (if_congr Iff.rfl rfl ?_)
  by_cases even : caKind s.core = .compute ∧ caSlot s.cur % 2 = 0
  · rw [if_pos even]
    by_cases held : (s.slot (partner s.cur)).st = .held
    · rw [if_pos ⟨even.1, even.2, held⟩, held]
      rfl
    · rw [if_neg fun h => held h.2.2]
      split
      next is => exact absurd is held
      next => rfl
  · rw [if_neg even, if_neg fun h => even ⟨h.1, h.2.1⟩]

end Gangs

/-! ## The obligation -/

/-- Settles O28: the list of logical cores is searched by counting, and the table of `gang` and `split` is read off their cases. -/
theorem gangsAndLogicalCores : Obligations.GangsAndLogicalCores := by
  unfold Obligations.GangsAndLogicalCores
  refine ⟨fun gd d a s issues => ?_, fun gd d s issues => ?_⟩
  · intro v die i core enabled
    have hd : die < 8 := Nat.mod_lt _ (by decide)
    have field : bitsAt (s.g a) 12 10 = die := rfl
    have place : bitsAt (s.g a) 9 0 = i := by simp [bitsAt, i, v]
    have above : bitsAt (s.g a) 63 13 ≠ 0 ↔ 8192 ≤ v.toNat := by
      have := v.isLt
      simp only [bitsAt, v] at this ⊢
      omega
    have list : s.logicalCores die = ((List.range 1023).filter enabled).map (caOfIndex die) := logicalCores_eq s die hd
    have address (n : Nat) : caOfIndex die n = core n := congrArg (32 * (die % 4) + n % 32 + ·) (Nat.mul_comm _ _)
    rw [exec_cmap issues, field, place, list, List.getElem?_map]
    refine ⟨fun n small inside on count => ?_, fun none_ => ?_⟩
    · rw [if_neg (by omega), ← count, getElem?_filter_range enabled 1023 n inside on, Option.map_some, address]
      rfl
    · by_cases big : 8192 ≤ v.toNat
      · rw [if_pos (above.mpr big)]
        rfl
      · rw [if_neg (by omega), getElem?_filter_none enabled _ _ (none_.resolve_left big)]
        rfl
  · intro p even on off low joined alone
    have pair : s.joined = joined := rfl
    have odd : ¬even ↔ caSlot s.cur % 2 = 1 := Nat.mod_two_not_eq_zero
    have lower : Ctx.dropUpper = low := dropUpper_eq
    have single : s.alone = alone := by rw [State.alone_eq, lower]; rfl
    have takable : s.takable p = true ↔ (s.slot p).st = .free ∧ ¬∃ q ∈ s.pkts, p ∈ q.evict := State.takable_iff p
    have not_held (h : (s.slot p).st ≠ .held) : ¬(caKind s.core = .compute ∧ caSlot s.cur % 2 = 0 ∧ (s.slot p).st = .held) :=
      fun e => h e.2.2
    rw [exec_gang issues, exec_split issues, pair, single, lower]
    refine ⟨fun kind => ?_, fun kind slot => ?_, fun kind slot ganged => ?_, fun kind slot plain => ?_⟩
    · exact ⟨by rw [if_pos kind], fun plain => by rw [plain, if_neg (by simp), if_neg fun e => kind e.1]⟩
    · exact ⟨by rw [if_neg (not_not.mpr kind), if_pos (odd.mp slot)],
        fun plain => by rw [plain, if_neg (by simp), if_neg fun e => slot e.2.1]⟩
    · exact ⟨by rw [if_neg (not_not.mpr kind), if_neg (mt odd.mpr (not_not.mpr slot)), if_pos ganged], by rw [if_pos ganged]⟩
    · rw [if_neg (not_not.mpr kind), if_neg (mt odd.mpr (not_not.mpr slot)), plain, if_neg Bool.false_ne_true, if_neg Bool.false_ne_true]
      refine ⟨fun free => ?_, fun held => ?_, fun not_free unheld => ?_⟩
      · have unheld : (s.slot p).st ≠ .held := fun e => SlotSt.noConfusion (free.symm.trans e)
        refine ⟨fun mine => ?_, fun taken => ?_, by rw [if_neg (not_held unheld)]⟩
        · rw [if_pos (takable.mpr ⟨free, mine⟩)]
        · rw [if_neg fun e => (takable.mp e).2 taken, if_neg unheld]
      · have not_free : (s.slot p).st ≠ .free := fun e => SlotSt.noConfusion (held.symm.trans e)
        rw [if_neg fun e => not_free (takable.mp e).1, if_pos held, if_pos ⟨kind, slot, held⟩]
        exact ⟨rfl, rfl⟩
      · rw [if_neg fun e => not_free (takable.mp e).1, if_neg unheld, if_neg (not_held unheld)]
        exact ⟨rfl, rfl⟩

end Sys2Proof.Machine
end

section
/-!
The obligations of traps and of `quit`, `wait` and `kill`: each fails in a state that its statement admits and that the machine does not
reach.
-/

namespace Sys2Proof.Machine

open Claims

/-! ## A ganged thread without a partner that lends its halves -/

/-- Slot 0 of core 0 runs a thread whose `pstate` says that it is ganged, but slot 1 runs a thread of another tenant. -/
def gangedBesideThread : State :=
  { State.reset with
    slots := [(0, { Slot.free with st := .run, ctx := { Ctx.zero with cr := { CRs.zero with pstate := 4 } } }),
      (2 ^ 20, { Slot.free with st := .run, ctx := { Ctx.zero with cr := { CRs.zero with tenant := 1 } } })] }

/-- R57: the split of the gang makes the slot of the other tenant HELD, and the end of the thread frees it. -/
theorem takeTrap_gangedBesideThread : ((gangedBesideThread.takeTrap 0 ⟨0x11, 0⟩).slot (2 ^ 20)).st.live = false := by decide +kernel

/-- The launch of tenant 1, of which the fault is to touch no thread, has its thread in slot 1. -/
theorem spared_gangedBesideThread :
    let c := gangedBesideThread.me.ctx
    let x := gangedBesideThread.slot (2 ^ 20)
    x.st.live = true ∧ (x.ctx.key.tenant != c.cr.tenant || x.ctx.key.lnum != c.cr.lnum) = true ∧
    ∀ e ∈ gangedBesideThread.slots, e.1 = 2 ^ 20 → e.2 = x := by decide +kernel

/-- R62: no level of the shape absorbs the fault. -/
theorem absorbs_gangedBesideThread : Absorbs gangedBesideThread gangedBesideThread.me.ctx 7 3 := by
  unfold Claims.Absorbs
  decide +kernel

/-- Refutes O24: its clause on faults spares every thread of another launch, and supposes nothing of the partner of a ganged slot. Where
that partner runs a thread of another tenant, instead of standing in GANGHI (R56), the split of the gang takes its slot. -/
theorem not_trapEntryAndReturn : ¬ Obligations.TrapEntryAndReturn := by
  unfold Obligations.TrapEntryAndReturn
  intro h
  obtain ⟨-, -, -, faults, -⟩ := h .always gangedBesideThread (by decide +kernel)
  obtain ⟨-, ⟨-, -, -, spares⟩, -⟩ := faults ⟨0x11, 0⟩ 7 3 (.inr (.inl rfl)) absorbs_gangedBesideThread
  obtain ⟨live, other, once⟩ := spared_gangedBesideThread
  obtain ⟨survives, -⟩ := spares (2 ^ 20) live other once
  exact Bool.false_ne_true (takeTrap_gangedBesideThread.symm.trans survives)

/-! ## A slot that the map of slots lists twice -/

/-- Slot 1 of core 0 runs a thread that holds the reservation of a poisoned word. The list of slots has two entries for slot 0: it is parked
in `quit` by the first, which a read finds, and in `lrw` on that word by the second. -/
def slotListedTwice : State :=
  let thread (wid : W64) (st : SlotSt) : Slot := { Slot.free with st := st, ctx := { Ctx.zero with cr := { CRs.zero with wid := wid } } }
  { State.reset with
    slots := [(0, thread 1 (.park .quit (.quit .always) [] 0)), (0, thread 1 (.park (.reservation 0) (.lrw .always 0 0 .plain) [] 0)),
      (2 ^ 20, thread 0 .run)]
    bad := [(0, true)]
    resv := [(0, some ⟨0, 0, 0⟩)]
    cur := 2 ^ 20 }

/-- R253: the end of the holder passes the word on to the second entry, and the trap of the poisoned word reaches the first. -/
theorem killWhere_slotListedTwice :
    ((slotListedTwice.killWhere (killMatches slotListedTwice.rd 1 0)).slot 0).st =
      .park (.reply (some ⟨0x09, paEa 0⟩)) (.quit .always) [] 0 := by decide +kernel

/-- R74: what `kill` does where it matches the thread that issues it. -/
theorem exec_kill_self {gd : Guard} {s : State} (issues : Issues gd s) (plain : s.slow = false) (d a : GReg) (k : BitVec 5)
    (self : killMatches s.rd k.toNat (s.g a) s.rd.key = true) :
    exec (.kill gd d a k) s = .next (s.killWhere (killMatches s.rd k.toNat (s.g a))) := by
  rw [show exec (.kill gd d a k) s = execKill gd d a k s from rfl, execKill, halfPark_runs gd _ s _ _ issues.1 issues.2 plain]
  exact congrArg Host.Outcome.next (if_pos self)

/-- Refutes O30: its clause on `kill` says of every slot that what it reads as is gone, and supposes only of the threads that stay that
their slots are listed once. A slot that is listed twice waits by its second entry for what the killed threads leave, and the reply moves
its first entry, a thread of the killed unit, from `quit` back among those that go on. -/
theorem not_quitWaitKill : ¬ Obligations.QuitWaitKill := by
  unfold Obligations.QuitWaitKill
  intro h
  have issues : Issues .always slotListedTwice := by decide +kernel
  obtain ⟨-, -, -, -, kills⟩ := h .always slotListedTwice issues
  obtain ⟨-, t, n, ⟨dead, -⟩, -, run, -⟩ := kills 0 0 1 rfl
  have self : exec (.kill .always 0 0 1) slotListedTwice = .next t := run (by decide +kernel)
  rw [exec_kill_self issues rfl 0 0 1 (by decide +kernel), Host.Outcome.next.injEq] at self
  have st : (t.slot 0).st = .park (.reply (some ⟨0x09, paEa 0⟩)) (.quit .always) [] 0 := self ▸ killWhere_slotListedTwice
  have gone : Gone (t.slot 0).st := dead 0 (by rw [← self]; decide +kernel)
  rw [st] at gone
  simp [Gone, SlotSt.live] at gone

end Sys2Proof.Machine
end

section
/-!
What the stores that an instruction waits for leave of the slot that issues it (R348, R349).
-/

namespace Sys2Proof.Machine

open Claims

/-- The same slot executes a bundle of the same registers at issue, and every slot that issues in its turns still does. -/
structure StillRuns (s t : State) : Prop where
  cur : t.cur = s.cur
  src : t.src = s.src
  slow : t.slow = s.slow
  run : ∀ k, (s.slot k).st = .run → (t.slot k).st = .run

namespace StillRuns
variable {s t u : State}

theorem of_eq (hc : t.cur = s.cur) (hr : t.src = s.src) (hw : t.slow = s.slow) (hs : t.slots = s.slots) : StillRuns s t :=
  ⟨hc, hr, hw, fun k run => by unfold State.slot at run ⊢; rwa [hs]⟩

theorem refl (s : State) : StillRuns s s := of_eq rfl rfl rfl rfl

theorem trans (h : StillRuns s t) (k : StillRuns t u) : StillRuns s u :=
  ⟨k.cur.trans h.cur, k.src.trans h.src, k.slow.trans h.slow, fun j run => k.run j (h.run j run)⟩

theorem of_stored (h : Stored s t) : StillRuns s t := by
  unfold Stored at h
  exact of_eq (by rw [h]) (by rw [h]) (by rw [h]) (by rw [h])

theorem foldl {α : Type} {f : State → α → State} (hf : ∀ t a, StillRuns t (f t a)) (l : List α) (s : State) : StillRuns s (l.foldl f s) :=
  List.foldlRecOn l f (motive := StillRuns s) (refl s) fun t h a _ => h.trans (hf t a)

/-- A change of one slot that leaves it issuing where it did. -/
theorem modSlot (s : State) (k : Nat) (f : Slot → Slot) (hf : ∀ x : Slot, x.st = .run → (f x).st = .run) : StillRuns s (s.modSlot k f) :=
  ⟨rfl, rfl, rfl, fun j run => by
    by_cases hj : j = k
    · subst hj
      rw [State.slot_modSlot_same]
      exact hf _ run
    · rwa [State.slot_modSlot_ne _ _ _ _ hj]⟩

theorem reply (s : State) (k : Nat) (tr : Option Trap) : StillRuns s (s.reply k tr) :=
  modSlot s k _ fun x run => by simp only [run]

theorem deliver (s : State) (k : Nat) (f : Ctx → Ctx) : StillRuns s (s.deliver k f) :=
  modSlot s k _ fun x run => by rw [Slot.write_st, run]

theorem setQueue (s : State) (pa : Nat) (q : Queue) : StillRuns s (s.setQueue pa q) :=
  trans (t := { s with queues := smSet Queue.none s.queues pa q }) (of_eq rfl rfl rfl rfl) (of_stored (Stored.syncDesc _ pa))

theorem answerSlot (s : State) (k : Nat) (status : W64) (e : Option (BitVec 512)) : StillRuns s (s.answerSlot k status e) := by
  unfold State.answerSlot
  split
  · exact (deliver s k _).trans (reply _ k none)
  · exact refl s

theorem storeEntry (pa : Nat) (e : BitVec 512) (h : s.storeEntry pa e = some t) : StillRuns s t := by
  unfold State.storeEntry at h
  dsimp only at h
  split_ifs at h <;> cases h <;> exact setQueue s pa _

theorem homePush (pa : Nat) (e : BitVec 512) (h : s.homePush pa e = some t) : StillRuns s t := by
  unfold State.homePush at h
  split at h
  · cases h
    exact (answerSlot s _ _ _).trans (setQueue _ pa _)
  · exact storeEntry pa e h

theorem postEvent (s : State) (tenant : Nat) (f : List W64) : StillRuns s (s.postEvent tenant f) := by
  unfold State.postEvent
  dsimp only
  split
  · exact of_eq rfl rfl rfl rfl
  · split_ifs
    · exact of_eq rfl rfl rfl rfl
    · exact of_eq rfl rfl rfl rfl
    · split
      · exact of_eq rfl rfl rfl rfl
      next t pushed => exact (homePush _ _ pushed).trans (of_eq rfl rfl rfl rfl)

theorem flushWhere (s : State) (k : Nat) (p : OutStore → Bool) : StillRuns s (s.flushWhere k p) := by
  unfold State.flushWhere
  refine (foldl (fun t o => ?_) _ s).trans (modSlot _ k _ fun x run => run)
  have accepted := of_stored (Stored.acceptStore t o)
  split
  next u h => rwa [h] at accepted
  next u cause h => exact trans (by rwa [h] at accepted) (postEvent u _ _)

end StillRuns

end Sys2Proof.Machine
end

section
/-!
The obligation of `spawn`.
-/

namespace Sys2Proof.Machine

open Claims

/-! ## The context of a child (R71) -/

/-- The argument registers: the first words of a list, from g1 on. -/
theorem getD_args (args : List W64) (file : Vector W64 32) (m j : Nat) (hm : m < 32) :
    (((List.range m).foldl (fun g n => g.setIfInBounds (n + 1) (args[n]?.getD 0)) file).toList)[j]?.getD 0 =
      if 1 ≤ j ∧ j ≤ m then args[j - 1]?.getD 0 else (file.toList)[j]?.getD 0 := by
  induction m with
  | zero => rw [if_neg (by omega)]; rfl
  | succ m ih =>
    rw [List.range_succ, List.foldl_append, List.foldl_cons, List.foldl_nil, getD_toList_setIfInBounds, ih (by omega)]
    by_cases last : j = m + 1
    · subst last
      rw [if_pos ⟨rfl, hm⟩, if_pos (by omega)]
      rfl
    · rw [if_neg fun e => last e.1.symm]
      exact if_congr (by omega) rfl rfl

theorem setBit_gang_priv (x : W64) (ganged : Bool) :
    setBit (x &&& 1) 2 ganged = (if bitAt x 0 then 1 else 0) ||| if ganged then 4 else 0 := by
  have low : x &&& 1#64 = if bitAt x 0 then 1#64 else 0#64 := by
    refine BitVec.eq_of_getLsbD_eq fun j _ => ?_
    rw [BitVec.getLsbD_and, BitVec.getLsbD_one]
    cases j with
    | zero => cases h : bitAt x 0 <;> simp_all [bitAt]
    | succ j => split <;> simp
  rw [show (1 : W64) = 1#64 from rfl, low]
  cases bitAt x 0 <;> cases ganged <;> rfl

theorem isChild_childCtx (c : Ctx) (entry : W64) (f : Nat → W64) (ganged : Bool) :
    IsChild c ((childCtx c entry ((List.range 4).map fun n => f (n + 1))).setPs 2 ganged) entry f 4 ganged := by
  refine ⟨rfl, fun n => ?_, rfl, rfl, rfl, rfl, rfl, ?_⟩
  · refine (getD_args _ Ctx.zero.g 4 n.toNat (by decide)).trans ?_
    by_cases arg : 1 ≤ n.toNat ∧ n.toNat ≤ 4
    · have place : n.toNat - 1 < 4 := by omega
      rw [if_pos arg, if_pos arg, List.getElem?_map, List.getElem?_range place, Option.map_some, Option.getD_some, Nat.sub_add_cancel arg.1]
    · rw [if_neg arg, if_neg arg]
      exact getD_toList_replicate 32 n.toNat 0
  · simp only [childCtx, Ctx.setPs, Ctx.onCr, setBit_gang_priv]
    rfl

theorem SlotSt.isRun_iff (st : SlotSt) : st.isRun = true ↔ st = .run := by cases st <;> simp [SlotSt.isRun]

theorem State.setSlot_setSlot (s : State) (k : Nat) (x y : Slot) : (s.setSlot k x).setSlot k y = s.setSlot k y := by
  simp only [State.setSlot, smSet_set]

/-! ## The reply to the parent (R71) -/

theorem live_write (f : Ctx → Ctx) (x : Slot) : (Slot.write f x).after.getD (Slot.write f x).ctx = f (x.after.getD x.ctx) := by
  unfold Slot.write
  cases x.after <;> rfl

/-- The executing slot waits for the packet p of its own `spawn`. -/
structure AwaitsSpawn (w : State) (p : Pkt) (d : GReg) : Prop where
  kind : ∃ blk, p.kind = .spawn w.cur w.me.tid blk
  parked : ∃ gd a b opts st, w.me.st = .park (.spawn p.id) (.spawn gd d a b opts) [] st

section Reply
variable {w : State} {p : Pkt} {d : GReg} (waits : AwaitsSpawn w p d)
include waits

/-- R53, R71: within its own step the parent receives the reply, and goes on. -/
theorem finish_answerSpawn (v : W64) :
    (w.answerSpawn p v).finish = w.setSlot w.cur { Slot.write (fun c => c.setG d v) w.me with st := .run } := by
  obtain ⟨blk, kind⟩ := waits.kind
  obtain ⟨gd, a, b, opts, st, parked⟩ := waits.parked
  have answered : w.answerSpawn p v = (w.deliver w.cur fun c => c.setG d v).reply w.cur none := by
    have instr : (w.slot w.cur).instr = some (.spawn gd d a b opts) := by rw [Slot.instr, show (w.slot w.cur).st = _ from parked]
    have spawning : (w.slot w.cur).st.spawning = some p.id := by rw [show (w.slot w.cur).st = _ from parked]; rfl
    simp [State.answerSpawn, kind, State.me, instr, spawning]
  have replied : (w.deliver w.cur fun c => c.setG d v).reply w.cur none =
      w.setSlot w.cur { Slot.write (fun c => c.setG d v) w.me with st := .park (.reply none) (.spawn gd d a b opts) [] st } := by
    have before : (Slot.write (fun c => c.setG d v) (w.slot w.cur)).st = _ := (Slot.write_st _ _).trans parked
    simp only [State.reply, State.deliver, State.modSlot, State.slot_setSlot_same, State.setSlot_setSlot, before]
    rfl
  rw [answered, replied]
  simp only [State.finish, State.me, State.setSlot_cur, State.slot_setSlot_same, State.modSlot, State.setSlot_setSlot]

end Reply

/-! ## Arrival at a core that no other packet is to enter (R189, R191) -/

section Arrival
variable {w : State} {p : Pkt} (empty : w.landed p.core = [])
include empty

theorem admitAll_empty : w.admitAll p.core = w := by
  have one : w.admitOne p.core = w := by
    rw [State.admitOne, empty]
    rfl
  exact List.foldlRecOn (List.range 4) _ (motive := fun t => t = w) rfl fun t h _ _ => by rw [h]; exact one

section InOrder
variable (inOrder : w.inOrder p = true) (blk : Bool)
include inOrder

theorem arrive_seat {k : Nat} (h : w.slotFor p = some k) : w.arrive p blk = w.seat p k := by
  simp [State.arrive, admitAll_empty empty, empty, inOrder, h]

theorem arrive_full (h : w.slotFor p = none) :
    w.arrive p blk = if blk then w.land p else (w.dropPkt p.id).answerSpawn p allOnes := by
  simp [State.arrive, admitAll_empty empty, empty, inOrder, h]

end InOrder

/-- R71, R191: the slot that an arrival may take on its own account. -/
def State.fits (w : State) (p : Pkt) (k : Nat) : Bool := (w.slot k).st.isFree && (!p.gang || (w.slot (partner k)).st.isFree)

/-- R71, R191: the slots that an arrival may take, that which it takes first. -/
def State.seatsFor (w : State) (p : Pkt) : List Nat :=
  match p.slot with
  | some k => [k].filter (w.fits p)
  | none => (coreSlots p.core).filter fun k => w.fits p k && (!p.gang || caSlot k % 2 == 0)

omit empty in
theorem seatsFor_of_some {k : Nat} (h : p.slot = some k) : w.seatsFor p = [k].filter (w.fits p) := by rw [State.seatsFor, h]

omit empty in
theorem seatsFor_of_none (h : p.slot = none) :
    w.seatsFor p = (coreSlots p.core).filter fun k => w.fits p k && (!p.gang || caSlot k % 2 == 0) := by rw [State.seatsFor, h]

theorem slotFor_empty : w.slotFor p = (w.seatsFor p).head? := by
  have claims : w.claimed p = [] := by simp [State.claimed, empty]
  unfold State.slotFor State.seatsFor
  cases p.slot with
  | some k =>
    cases fit : w.fits p k <;> simp_all [State.fits]
  | none =>
    rw [List.head?_filter]
    refine congrArg (List.find? · (coreSlots p.core)) (funext fun k => ?_)
    simp only [claims, State.fits, List.contains_nil, Bool.not_false, Bool.and_true]
    cases (w.slot k).st.isFree <;> cases p.gang <;> simp [Bool.and_comm]

end Arrival

/-- The slots that an arrival may take are FREE, and so are their partners where it is ganged. -/
theorem fits_of_mem_seatsFor {w : State} {p : Pkt} {k : Nat} (h : k ∈ w.seatsFor p) : w.fits p k = true := by
  unfold State.seatsFor at h
  split at h
  · exact (List.mem_filter.mp h).2
  · exact (Bool.and_eq_true _ _ ▸ (List.mem_filter.mp h).2 : _ ∧ _).1

/-! ## An arrival in its slot (R55, R71) -/

/-- The state in which an arrival has its slot, before its parent hears of it. -/
def State.seated (w : State) (p : Pkt) (k : Nat) : State :=
  let x : Slot :=
    { Slot.free with st := .resv, tid := p.tid, ctx := p.ctx.setPs 2 p.gang, cls := p.cls, pend := p.pend, pure := p.pure }
  let t := (w.dropPkt p.id).setSlot k x
  if p.gang then t.setSlot (partner k) { Slot.free with st := .ganghi } else t

theorem seat_eq (w : State) (p : Pkt) (k : Nat) : w.seat p k = (w.seated p k).answerSpawn p (w64 k) := rfl

section Seated
variable (w : State) (p : Pkt) (k : Nat)

theorem cur_seated : (w.seated p k).cur = w.cur := by
  unfold State.seated
  cases p.gang <;> rfl

theorem pkts_seated : (w.seated p k).pkts = (w.dropPkt p.id).pkts := by
  unfold State.seated
  cases p.gang <;> rfl

theorem slot_seated : ((w.seated p k).slot k).st = .resv ∧ ((w.seated p k).slot k).ctx = p.ctx.setPs 2 p.gang := by
  unfold State.seated
  cases p.gang
  · exact ⟨by simp, by simp⟩
  · simp [State.slot_setSlot_ne _ _ _ _ (partner_ne k).symm]

theorem partner_seated (h : p.gang = true) : ((w.seated p k).slot (partner k)).st = .ganghi := by
  simp [State.seated, h]

theorem slot_seated_ne (j : Nat) (hj : j ≠ k) (hp : p.gang = true → j ≠ partner k) : (w.seated p k).slot j = w.slot j := by
  unfold State.seated
  cases h : p.gang
  · exact State.slot_setSlot_ne (w.dropPkt p.id) k j _ hj
  · simp only [if_true]
    rw [State.slot_setSlot_ne _ _ _ _ (hp h), State.slot_setSlot_ne _ _ _ _ hj]
    rfl

end Seated

/-! ## The packet of a `spawn` on its way (R71, R189) -/

/-- R71: the child that a `spawn` sends, under a new number. -/
def State.childOf (u : State) (tgt entry : W64) (b : GReg) (opts : BitVec 3) : Pkt :=
  { id := u.stamp, kind := .spawn u.cur u.me.tid (bitAt opts 1), sender := some u.core, tid := u.nextTid
    ctx := childCtx u.rd entry ((List.range 4).map fun n => u.gAt b (n + 1))
    cls := u.me.cls, core := caCore tgt.toNat, slot := if bitAt opts 0 then none else some tgt.toNat, gang := bitAt opts 2
    landed := false, since := u.cycle, evict := [], pend := none, pure := [] }

/-- R53, R71: the slot is parked until the packet is answered. -/
def State.sending (u : State) (p : Pkt) (i : Instr) : State :=
  State.parkAt { u with stamp := u.stamp + 1, nextTid := u.nextTid + 1, pkts := u.pkts ++ [p] } u.cur (.spawn p.id) i []

section Sending
variable (u : State) (p : Pkt) (i : Instr)

theorem me_sending : (u.sending p i).me = { u.me with st := .park (.spawn p.id) i [] (u.stamp + 1) } :=
  State.slot_modSlot_same _ _ _

theorem slot_sending_ne (k : Nat) (h : k ≠ u.cur) : (u.sending p i).slot k = u.slot k := State.slot_modSlot_ne _ _ _ _ h

theorem live_sending : live (u.sending p i) = live u := by rw [live, me_sending, live]

/-- Parking leaves the slot as little FREE as it was. -/
theorem isFree_sending (run : u.me.st = .run) (k : Nat) : ((u.sending p i).slot k).st.isFree = (u.slot k).st.isFree := by
  by_cases own : k = u.cur
  · have before : (u.slot u.cur).st = .run := run
    have after_ : ((u.sending p i).slot u.cur).st = _ := congrArg Slot.st (me_sending u p i)
    rw [own, after_, before]
    rfl
  · rw [slot_sending_ne u p i k own]

/-- Every packet that is left once p is gone was there before it was sent. -/
theorem mem_pkts_sending {q : Pkt} (h : q ∈ ((u.sending p i).dropPkt p.id).pkts) : q ∈ u.pkts := by
  obtain ⟨mem, other⟩ := List.mem_filter.mp h
  rcases List.mem_append.mp mem with old | new
  · exact old
  · rw [List.mem_singleton.mp new] at other
    simp at other

section Clear
variable (clear : ∀ q ∈ u.pkts, q.core = p.core → q.landed = false ∧ q.sender ≠ some u.core)
include clear

theorem landed_sending (fresh : p.landed = false) : (u.sending p i).landed p.core = [] := by
  refine List.filter_eq_nil_iff.mpr fun q hq => ?_
  rcases List.mem_append.mp hq with old | new
  · by_cases here : q.core = p.core
    · simp [(clear q old here).1]
    · simp [here]
  · simp [List.mem_singleton.mp new, fresh]

theorem inOrder_sending (sender : p.sender = some u.core) : (u.sending p i).inOrder p = true := by
  refine (Bool.or_eq_true _ _).mpr (.inr (List.all_eq_true.mpr fun q hq => ?_))
  rcases List.mem_append.mp hq with old | new
  · by_cases here : q.core = p.core
    · simp [sender, (clear q old here).2]
    · simp [here]
  · simp [List.mem_singleton.mp new]

end Clear

end Sending

/-! ## The outcomes of a `spawn` (R71) -/

/-- The parent goes on with a value in gD. -/
theorem replied {w : State} {p : Pkt} {d : GReg} (waits : AwaitsSpawn w p d) (v : W64) :
    let t := (w.answerSpawn p v).finish
    t.me.st = .run ∧ live t = (live w).setG d v ∧ t.pkts = w.pkts ∧ ∀ k, k ≠ w.cur → t.slot k = w.slot k := by
  rw [finish_answerSpawn waits v]
  have me : (w.setSlot w.cur { Slot.write (fun c => c.setG d v) w.me with st := .run }).me =
    { Slot.write (fun c => c.setG d v) w.me with st := .run } := State.slot_setSlot_same _ _ _
  refine ⟨by rw [me], ?_, rfl, fun k hk => State.slot_setSlot_ne _ _ _ _ hk⟩
  rw [live, me]
  exact live_write _ w.me

/-- R191: a child that may wait enters a landing buffer that is empty. -/
theorem land_spawn {w : State} {p : Pkt} {parent ptid : Nat} {blk : Bool} (empty : w.landed p.core = []) (kind : p.kind = .spawn parent ptid blk) :
    (w.land p).me = w.me ∧ { p with landed := true, since := w.cycle } ∈ (w.land p).pkts := by
  have landed : w.land p = { w with pkts := (w.dropPkt p.id).pkts ++ [{ p with landed := true, since := w.cycle }] } := by
    simp [State.land, empty, kind, State.dropPkt]
  rw [landed]
  exact ⟨rfl, List.mem_append_right _ (List.mem_singleton.mpr rfl)⟩

/-- A parent that still waits stays parked. -/
theorem finish_of_spawning {w : State} {n : Nat} {i : Instr} {snap : List Byte} {st : Nat} (h : w.me.st = .park (.spawn n) i snap st) :
    w.finish = w := by
  simp [State.finish, h]

section Outcomes
variable {u : State} {p : Pkt} {gd : Guard} {d a b : GReg} {opts : BitVec 3} {blk : Bool}
  (run : u.me.st = .run) (clear : ∀ q ∈ u.pkts, q.core = p.core → q.landed = false ∧ q.sender ≠ some u.core)
  (fresh : p.landed = false) (sender : p.sender = some u.core) (kind : p.kind = .spawn u.cur u.me.tid blk)

include kind in
theorem awaitsSpawn_of_me {w : State} (hc : w.cur = u.cur) (hm : w.me = (u.sending p (.spawn gd d a b opts)).me) : AwaitsSpawn w p d := by
  rw [me_sending] at hm
  exact ⟨⟨blk, by rw [kind, hc, hm]⟩, gd, a, b, opts, u.stamp + 1, by rw [hm]⟩

include run in
theorem ne_cur_of_fits {i : Instr} {k : Nat} (h : (u.sending p i).fits p k = true) : k ≠ u.cur ∧ (p.gang = true → partner k ≠ u.cur) := by
  have taken : (u.slot u.cur).st.isFree = false := by rw [show (u.slot u.cur).st = .run from run]; rfl
  simp only [State.fits, isFree_sending u p i run] at h
  refine ⟨?_, fun ganged => ?_⟩
  · rintro rfl
    simp [taken] at h
  · intro own
    simp [ganged, own, taken] at h

include clear fresh sender kind

include run in
/-- R71: the child has its slot, and the parent its number. -/
theorem arrive_sending_seat {k : Nat} (head : ((u.sending p (.spawn gd d a b opts)).seatsFor p).head? = some k) :
    let t := ((u.sending p (.spawn gd d a b opts)).arrive p blk).finish
    (t.slot k).st = .resv ∧ (t.slot k).ctx = p.ctx.setPs 2 p.gang ∧ (p.gang = true → (t.slot (partner k)).st = .ganghi) ∧
    t.me.st = .run ∧ live t = (live u).setG d (w64 k) ∧ ∀ q ∈ t.pkts, q ∈ u.pkts := by
  have empty := landed_sending u p (.spawn gd d a b opts) clear fresh
  have fits := fits_of_mem_seatsFor (List.mem_of_mem_head? head)
  obtain ⟨other, other'⟩ := ne_cur_of_fits run fits
  rw [arrive_seat empty (inOrder_sending u p _ clear sender) blk ((slotFor_empty empty).trans head), seat_eq]
  have same := slot_seated_ne (u.sending p (.spawn gd d a b opts)) p k u.cur other.symm fun ganged => (other' ganged).symm
  have cur := cur_seated (u.sending p (.spawn gd d a b opts)) p k
  have me : ((u.sending p (.spawn gd d a b opts)).seated p k).me = (u.sending p (.spawn gd d a b opts)).me := by
    rw [State.me, cur]
    exact same
  obtain ⟨runs, lives, pkts, rest⟩ := replied (awaitsSpawn_of_me (d := d) kind cur me) (w64 k)
  obtain ⟨st, ctx⟩ := slot_seated (u.sending p (.spawn gd d a b opts)) p k
  rw [cur] at rest
  refine ⟨by rw [rest k other, st], by rw [rest k other, ctx], fun ganged => ?_, runs, ?_, fun q hq => ?_⟩
  · rw [rest _ (other' ganged), partner_seated _ _ _ ganged]
  · rw [lives, live, me]
    exact congrArg (·.setG d (w64 k)) (live_sending u p _)
  · rw [pkts, pkts_seated] at hq
    exact mem_pkts_sending u p _ hq

/-- R71: no slot takes the child, and the parent is answered BUSY. -/
theorem arrive_sending_busy (full : (u.sending p (.spawn gd d a b opts)).seatsFor p = []) (plain : blk = false) :
    let t := ((u.sending p (.spawn gd d a b opts)).arrive p blk).finish
    t.me.st = .run ∧ live t = (live u).setG d allOnes ∧ ∀ q ∈ t.pkts, q ∈ u.pkts := by
  have empty := landed_sending u p (.spawn gd d a b opts) clear fresh
  have none_ : (u.sending p (.spawn gd d a b opts)).slotFor p = none := by rw [slotFor_empty empty, full]; rfl
  rw [arrive_full empty (inOrder_sending u p _ clear sender) blk none_, plain, if_neg Bool.false_ne_true]
  obtain ⟨runs, lives, pkts, -⟩ := replied (w := (u.sending p (.spawn gd d a b opts)).dropPkt p.id) (d := d) (awaitsSpawn_of_me kind rfl rfl) allOnes
  refine ⟨runs, lives.trans (congrArg (·.setG d allOnes) (live_sending u p _)), fun q hq => ?_⟩
  rw [pkts] at hq
  exact mem_pkts_sending u p _ hq

/-- R71, R191: no slot takes the child, which waits in the landing buffer, its parent parked. -/
theorem arrive_sending_land (full : (u.sending p (.spawn gd d a b opts)).seatsFor p = []) (waits : blk = true) :
    let t := ((u.sending p (.spawn gd d a b opts)).arrive p blk).finish
    ∃ q ∈ t.pkts, ∃ st, q.landed = true ∧ q.core = p.core ∧ t.me.st = .park (.spawn q.id) (.spawn gd d a b opts) [] st := by
  have empty := landed_sending u p (.spawn gd d a b opts) clear fresh
  have none_ : (u.sending p (.spawn gd d a b opts)).slotFor p = none := by rw [slotFor_empty empty, full]; rfl
  rw [arrive_full empty (inOrder_sending u p _ clear sender) blk none_, waits, if_pos rfl]
  obtain ⟨me, mem⟩ := land_spawn empty kind
  have st := congrArg Slot.st (me.trans (me_sending u p (.spawn gd d a b opts)))
  rw [finish_of_spawning st]
  exact ⟨_, mem, u.stamp + 1, rfl, rfl, st⟩

end Outcomes

section Spawn
variable {gd : Guard} {s : State} (d a b : GReg) (opts : BitVec 3)

/-- R71, R326: the checks of `spawn` in their order, and what follows them. -/
theorem exec_spawn (issues : Issues gd s) : exec (.spawn gd d a b opts) s = .next
    (if s.rd.pure then s.trap 0x0B (s.g a)
     else if (s.g b).toNat % 8 ≠ 0 then s.trap 0x03 (s.g b)
     else if !coreAddressOk (s.g a) || caKind (s.g a).toNat == .station then s.trap 0x04 (s.g a)
     else if bitAt opts 2 && (caKind (s.g a).toNat == .bank || (!bitAt opts 0 && bitAt (s.g a) 20)) then s.trap 0x04 (s.g a)
     else if !(rectOf s.rd.cr.lrect).hasCore (caCore (s.g a).toNat) then s.trap 0x06 (s.g a)
     else if !(caKind (s.g a).toNat == .bank) && (!s.coreEnabled (caCore (s.g a).toNat) ||
        (isCobbler (caCore (s.g a).toNat) && s.rd.cr.tenant != 0)) then s.trap 0x06 (s.g a)
     else s.afterStores (.spawn gd d a b opts) (fun _ => true) [] fun u =>
       let p := u.childOf (s.g a) (s.g b) b opts
       let w := u.sending p (.spawn gd d a b opts)
       if u.slow then w else (w.arrive p (bitAt opts 1)).finish) := by
  rw [show exec (.spawn gd d a b opts) s = execSpawn gd d a b opts s from rfl, execSpawn]
  exact half_runs gd s _ issues.1 issues.2

end Spawn

/-! ## The obligation -/

theorem getLsbD_slot (tgt : W64) : tgt.getLsbD 20 = decide (caSlot tgt.toNat % 2 = 1) := by
  rw [BitVec.getLsbD, Nat.testBit_eq_decide_div_mod_eq, caSlot, Nat.mod_mod_of_dvd _ (by decide)]

/-- Settles O29: the checks are passed in their order, and what arrives at an empty landing buffer takes the first slot that fits it. -/
theorem spawning : Obligations.Spawning := by
  unfold Obligations.Spawning
  intro gd d a b opts s issues i tgt entry core bank any blk ganged malformed outside traps
  have shape : malformed ↔ (!coreAddressOk tgt || caKind tgt.toNat == .station) = true ∨
      (bitAt opts 2 && (caKind tgt.toNat == .bank || (!bitAt opts 0 && bitAt tgt 20))) = true := by
    simp only [malformed, ganged, any, bank, bitAt, getLsbD_slot, Bool.or_eq_true, Bool.and_eq_true, Bool.not_eq_true', beq_iff_eq,
      decide_eq_true_eq, or_assoc]
  have place : outside ↔ (!(rectOf s.rd.cr.lrect).hasCore core) = true ∨
      (!(caKind tgt.toNat == .bank) && (!s.coreEnabled core || (isCobbler core && s.rd.cr.tenant != 0))) = true := by
    simp only [outside, bank, Bool.or_eq_true, Bool.and_eq_true, Bool.not_eq_true', decide_eq_false_iff_not, bne_iff_ne, beq_eq_false_iff_ne]
  have checks := exec_spawn d a b opts issues
  refine ⟨fun pure => ?_, fun pure odd => ?_, fun pure aligned bad => ?_, fun pure aligned good out => ?_,
    fun pure aligned good inside goes => ?_⟩
  · exact checks.trans (congrArg _ (if_pos pure))
  all_goals rw [if_neg (Bool.eq_false_iff.mp pure)] at checks
  · exact checks.trans (congrArg _ (if_pos odd))
  all_goals rw [if_neg (not_not.mpr aligned)] at checks
  · by_cases first : (!coreAddressOk tgt || caKind tgt.toNat == .station) = true
    · exact checks.trans (congrArg _ (if_pos first))
    · rw [if_neg first, if_pos ((shape.mp bad).resolve_left first)] at checks
      exact checks
  all_goals
    obtain ⟨form, form'⟩ := not_or.mp (mt shape.mpr good)
    rw [if_neg form, if_neg form'] at checks
  · by_cases first : (!(rectOf s.rd.cr.lrect).hasCore core) = true
    · exact checks.trans (congrArg _ (if_pos first))
    · rw [if_neg first, if_pos ((place.mp out).resolve_left first)] at checks
      exact checks
  · obtain ⟨within_, within_'⟩ := not_or.mp (mt place.mpr inside)
    rw [if_neg within_, if_neg within_'] at checks
    obtain ⟨issued, fast, accepted, -⟩ := goes
    rw [State.afterStores_goes s i _ [] _ accepted fun _ h => (List.not_mem_nil h).elim] at checks
    intro u free seats clear
    have runs : StillRuns s u := .flushWhere s s.cur _
    have rd : u.rd = s.rd := by
      obtain ⟨c, hc⟩ := Option.isSome_iff_exists.mp issued
      simp [State.rd, runs.src, hc]
    have core_ : u.core = s.core := congrArg caCore runs.cur
    have run : u.me.st = .run := by
      rw [State.me, runs.cur]
      exact runs.run _ ((SlotSt.isRun_iff _).mp issues.1)
    have step : exec i s = .next (((u.sending (u.childOf tgt entry b opts) i).arrive (u.childOf tgt entry b opts) blk).finish) := by
      rw [checks]
      exact congrArg _ (if_neg (Bool.eq_false_iff.mp (runs.slow.trans fast)))
    have clear' : ∀ q ∈ u.pkts, q.core = (u.childOf tgt entry b opts).core → q.landed = false ∧ q.sender ≠ some u.core := by
      rw [core_]
      exact clear
    have same : (u.sending (u.childOf tgt entry b opts) i).seatsFor (u.childOf tgt entry b opts) = seats := by
      have fits : (u.sending (u.childOf tgt entry b opts) i).fits (u.childOf tgt entry b opts) = free :=
        funext fun k => by rw [State.fits, isFree_sending _ _ _ run, isFree_sending _ _ _ run]; rfl
      cases h : any
      · have named : (u.childOf tgt entry b opts).slot = some tgt.toNat := if_neg (Bool.eq_false_iff.mp h)
        rw [seatsFor_of_some named, fits]
        exact (if_neg (Bool.eq_false_iff.mp h)).symm
      · have open_ : (u.childOf tgt entry b opts).slot = none := if_pos h
        rw [seatsFor_of_none open_, fits]
        exact (if_pos h).symm
    have child : IsChild s.rd ((u.childOf tgt entry b opts).ctx.setPs 2 ganged) entry (fun n => s.gAt b n) 4 ganged := by
      have args (n : Nat) : u.gAt b n = s.gAt b n := congrArg (Ctx.getGAt · b n) rd
      rw [State.childOf, rd]
      simp only [args]
      exact isChild_childCtx s.rd entry (fun n => s.gAt b n) ganged
    refine ⟨_, step, fun k head => ?_, fun full => ?_, fun full => ?_⟩
    · obtain ⟨st, ctx, pair, rest⟩ := arrive_sending_seat run clear' rfl rfl rfl ((congrArg List.head? same).trans head)
      exact ⟨st, (congrArg (IsChild s.rd · entry (fun n => s.gAt b n) 4 ganged) ctx).mpr child, pair, rest⟩
    · exact arrive_sending_busy clear' rfl rfl rfl (same.trans full)
    · exact arrive_sending_land clear' rfl rfl rfl (same.trans full)

end Sys2Proof.Machine
end

section
/-!
The magnitudes of a format of the IEEE reading (R122, R123): what the magnitude bits of a pattern stand for, in their order.
-/

namespace Sys2Proof.Machine

open Claims

/-- What the theorems on rounding suppose of a format, and what FP32 and FP64 meet. -/
structure Fmt.Ieee (f : Fmt) : Prop where
  reading : f.finite = false
  exp_pos : 1 ≤ f.exp
  frac_pos : 1 ≤ f.frac
  frac_lt_bias : f.frac < f.bias

theorem Fmt.ieee_ftyFmt (f : FTy) : (ftyFmt f).Ieee := by
  cases f <;> constructor <;> decide

/-- The exponent of the smallest positive magnitude. -/
def Fmt.low (f : Fmt) : Int := 1 - (f.bias : Int) - f.frac

/-- The first magnitude bits that stand for no finite number. -/
def Fmt.past (f : Fmt) : Nat := f.top * 2 ^ f.frac

/-- What magnitude bits stand for, were no exponent code special. -/
def Fmt.magnitude (f : Fmt) (x : Nat) : ℚ :=
  if x / 2 ^ f.frac = 0 then (x % 2 ^ f.frac : ℕ) * 2 ^ f.low
  else (x % 2 ^ f.frac + 2 ^ f.frac : ℕ) * 2 ^ (f.low + (x / 2 ^ f.frac - 1 : ℕ))

/-- The exponent code of magnitude bits, were the bits of their significand one more, and that significand. -/
theorem Fmt.exists_units (f : Fmt) (x : Nat) :
    ∃ i k, x = i * 2 ^ f.frac + k ∧ k < 2 ^ (f.frac + 1) ∧ (i = 0 ∨ 2 ^ f.frac ≤ k) := by
  have split := Nat.div_add_mod' x (2 ^ f.frac)
  have small := Nat.mod_lt x (Nat.two_pow_pos f.frac)
  rcases Nat.eq_zero_or_eq_succ_pred (x / 2 ^ f.frac) with code | code
  · exact ⟨0, x % 2 ^ f.frac, by rw [← code, split], by omega, .inl rfl⟩
  · refine ⟨(x / 2 ^ f.frac).pred, x % 2 ^ f.frac + 2 ^ f.frac, ?_, by omega, .inr (by omega)⟩
    rw [code, Nat.succ_mul] at split
    omega

theorem Fmt.magnitude_units (f : Fmt) (i k : Nat) (top : k ≤ 2 ^ (f.frac + 1)) (bottom : i = 0 ∨ 2 ^ f.frac ≤ k) :
    f.magnitude (i * 2 ^ f.frac + k) = k * 2 ^ (f.low + i) := by
  have pos := Nat.two_pow_pos f.frac
  rw [pow_succ] at top
  rcases Nat.lt_or_ge k (2 ^ f.frac) with sub | normal
  · obtain rfl : i = 0 := by omega
    simp [Fmt.magnitude, Nat.div_eq_of_lt sub, Nat.mod_eq_of_lt sub]
  · obtain ⟨t, rfl⟩ := Nat.exists_eq_add_of_le normal
    have code : i * 2 ^ f.frac + (2 ^ f.frac + t) = t + (i + 1) * 2 ^ f.frac := by ring
    rw [Fmt.magnitude, code, Nat.add_mul_div_right _ _ pos, Nat.add_mul_mod_self_right, ← Nat.add_assoc,
      if_neg (Nat.add_one_ne_zero (t / 2 ^ f.frac + i))]
    rcases Nat.lt_or_ge t (2 ^ f.frac) with inside | edge
    · rw [Nat.div_eq_of_lt inside, Nat.mod_eq_of_lt inside, Nat.add_comm t]
      congr 3
      omega
    · obtain rfl : t = 2 ^ f.frac := by omega
      rw [Nat.div_self pos, Nat.mod_self, Nat.add_sub_cancel, Nat.add_comm 1 i, Nat.zero_add]
      push_cast
      rw [← add_assoc, zpow_add_one₀ two_ne_zero]
      ring

theorem Fmt.magnitude_lt_succ (f : Fmt) (x : Nat) : f.magnitude x < f.magnitude (x + 1) := by
  obtain ⟨i, k, rfl, top, bottom⟩ := f.exists_units x
  rw [Nat.add_assoc, f.magnitude_units i k top.le bottom, f.magnitude_units i (k + 1) top (bottom.imp_right (by omega))]
  exact mul_lt_mul_of_pos_right (by exact_mod_cast Nat.lt_succ_self k) (by positivity)

theorem Fmt.magnitude_strictMono (f : Fmt) : StrictMono f.magnitude := strictMono_nat_of_lt_succ f.magnitude_lt_succ

@[simp] theorem Fmt.magnitude_zero (f : Fmt) : f.magnitude 0 = 0 := by simp [Fmt.magnitude]

theorem Fmt.magnitude_nonneg (f : Fmt) (x : Nat) : 0 ≤ f.magnitude x :=
  f.magnitude_zero ▸ f.magnitude_strictMono.monotone (Nat.zero_le x)

theorem Fmt.top_eq {f : Fmt} (h : f.Ieee) : f.top = 2 * f.bias + 1 := by
  have pos := Nat.two_pow_pos (f.exp - 1)
  have double : 2 ^ f.exp = 2 * 2 ^ (f.exp - 1) := by rw [← pow_succ', Nat.sub_add_cancel h.exp_pos]
  rw [Fmt.top, Fmt.bias, double]
  omega

/-- The infinity stands where the next number would: at 2^(bias + 1). -/
theorem Fmt.magnitude_past {f : Fmt} (h : f.Ieee) : f.magnitude f.past = 2 ^ ((f.bias : Int) + 1) := by
  have units : f.past = (2 * f.bias) * 2 ^ f.frac + 2 ^ f.frac := by rw [Fmt.past, Fmt.top_eq h, Nat.succ_mul]
  rw [units, f.magnitude_units _ _ (Nat.pow_le_pow_right two_pos (Nat.le_succ _)) (.inr le_rfl), Nat.cast_pow, Nat.cast_ofNat,
    ← zpow_natCast, ← zpow_add₀ two_ne_zero, Fmt.low]
  congr 1
  push_cast
  ring

/-! ## Patterns -/

/-- A sign over magnitude bits. -/
def Fmt.pattern (f : Fmt) (neg : Bool) (c : Nat) : Nat := c + if neg then f.signBit else 0

/-- The sign of a pattern. -/
def Fmt.isNeg (f : Fmt) (x : Nat) : Bool := decide (x / f.signBit % 2 = 1)

/-- A magnitude with a sign. -/
def signed {K : Type} [Ring K] (neg : Bool) (x : K) : K := if neg then -x else x

theorem signed_eq_mul (neg : Bool) (x : ℚ) : signed neg x = (if neg then -1 else 1) * x := by cases neg <;> simp [signed]

theorem Fmt.signBit_pos (f : Fmt) : 0 < f.signBit := Nat.two_pow_pos _

theorem Fmt.two_pow_width (f : Fmt) : 2 ^ f.width = 2 * f.signBit := by
  rw [Fmt.width, Fmt.signBit, Nat.add_assoc, Nat.add_comm, pow_succ, Nat.mul_comm]

theorem Fmt.past_add_frac (f : Fmt) : f.past + 2 ^ f.frac = f.signBit := by
  rw [Fmt.past, Fmt.top, ← Nat.succ_mul, Nat.succ_eq_add_one, Nat.sub_add_cancel (Nat.two_pow_pos _), ← pow_add, Fmt.signBit]

theorem Fmt.past_lt_signBit (f : Fmt) : f.past < f.signBit := by
  have := f.past_add_frac
  have := Nat.two_pow_pos f.frac
  omega

section Patterns
variable (f : Fmt) (neg : Bool) {c : Nat} (h : c < f.signBit)
include h

theorem Fmt.isNeg_pattern : f.isNeg (f.pattern neg c) = neg := by
  cases neg
  · simp [Fmt.isNeg, Fmt.pattern, Nat.div_eq_of_lt h]
  · simp [Fmt.isNeg, Fmt.pattern, Nat.add_div_right _ f.signBit_pos, Nat.div_eq_of_lt h]

theorem Fmt.pattern_mod : f.pattern neg c % f.signBit = c := by
  cases neg <;> simp [Fmt.pattern, Nat.mod_eq_of_lt h]

theorem Fmt.pattern_lt : f.pattern neg c < 2 ^ f.width := by
  rw [f.two_pow_width, Fmt.pattern]
  cases neg
  · simp only [Bool.false_eq_true, if_false]; omega
  · simp only [if_true]; omega

end Patterns

theorem Fmt.pattern_isNeg_mod (f : Fmt) {x : Nat} (h : x < 2 ^ f.width) : f.pattern (f.isNeg x) (x % f.signBit) = x := by
  have split := Nat.div_add_mod' x f.signBit
  have : x / f.signBit < 2 := Nat.div_lt_of_lt_mul (by rwa [Nat.mul_comm, ← f.two_pow_width])
  simp only [Fmt.pattern, Fmt.isNeg, decide_eq_true_eq]
  rcases Nat.le_one_iff_eq_zero_or_eq_one.mp (Nat.lt_succ_iff.mp this) with sign | sign <;> rw [sign] at split ⊢ <;> simp <;> omega

theorem Fmt.pattern_mod_two (f : Fmt) (frac_pos : 1 ≤ f.frac) (neg : Bool) (c : Nat) : f.pattern neg c % 2 = c % 2 := by
  have even : f.signBit % 2 = 0 := by
    rw [Fmt.signBit, ← Nat.sub_add_cancel (show 1 ≤ f.exp + f.frac by omega), pow_succ, Nat.mul_mod_left]
  cases neg
  · simp [Fmt.pattern]
  · simp only [Fmt.pattern, if_true]; omega

theorem Fmt.mod_signBit_div (f : Fmt) (x : Nat) : x % f.signBit / 2 ^ f.frac = x / 2 ^ f.frac % 2 ^ f.exp := by
  rw [Fmt.signBit, pow_add, Nat.mod_mul_left_div_self]

theorem Fmt.mod_signBit_mod (f : Fmt) (x : Nat) : x % f.signBit % 2 ^ f.frac = x % 2 ^ f.frac :=
  Nat.mod_mod_of_dvd _ (by rw [Fmt.signBit, pow_add]; exact Nat.dvd_mul_left _ _)

/-- The magnitude bits of a pattern stand for a number if they lie below those of the infinity. -/
theorem Fmt.code_ne_top_iff (f : Fmt) (x : Nat) : x / 2 ^ f.frac % 2 ^ f.exp ≠ f.top ↔ x % f.signBit < f.past := by
  have small := Nat.mod_lt (x / 2 ^ f.frac) (Nat.two_pow_pos f.exp)
  rw [Fmt.past, ← Nat.div_lt_iff_lt_mul (Nat.two_pow_pos _), f.mod_signBit_div, Fmt.top]
  omega

section Values
variable {f : Fmt} (h : f.Ieee) (x : Nat)
include h

theorem Fmt.value_finite (fin : x % f.signBit < f.past) : ∃ m e, f.value x = .fin (f.isNeg x) m e ∧
    (m : ℚ) * 2 ^ e = f.magnitude (x % f.signBit) ∧ (m = 0 ↔ x % f.signBit = 0) ∧ m < 2 ^ (f.frac + 1) ∧ f.low ≤ e := by
  have code := (f.code_ne_top_iff x).mpr fin
  have parts := Nat.div_add_mod' (x % f.signBit) (2 ^ f.frac)
  have small := Nat.mod_lt x (Nat.two_pow_pos f.frac)
  rw [f.mod_signBit_mod, f.mod_signBit_div] at parts
  rw [Fmt.magnitude, f.mod_signBit_div, f.mod_signBit_mod]
  simp only [Fmt.value, h.reading, Bool.false_and, Bool.false_eq_true, if_false, code, false_and]
  by_cases sub : x / 2 ^ f.frac % 2 ^ f.exp = 0
  · rw [sub, Nat.zero_mul, Nat.zero_add] at parts
    rw [if_pos sub, if_pos sub]
    exact ⟨_, _, rfl, rfl, by rw [parts], by omega, le_rfl⟩
  · have := Nat.mul_pos (Nat.pos_of_ne_zero sub) (Nat.two_pow_pos f.frac)
    rw [if_neg sub, if_neg sub]
    exact ⟨_, _, rfl, rfl, by omega, by omega, Int.le_add_of_nonneg_right (Int.natCast_nonneg _)⟩

theorem Fmt.value_special (special : f.past ≤ x % f.signBit) : f.value x =
    if x % f.signBit = f.past then .inf (f.isNeg x) else .nan (f.signals && decide (x % 2 ^ f.frac < 2 ^ (f.frac - 1))) := by
  have code : x / 2 ^ f.frac % 2 ^ f.exp = f.top := not_not.mp fun ne => by have := (f.code_ne_top_iff x).mp ne; omega
  have parts := Nat.div_add_mod' (x % f.signBit) (2 ^ f.frac)
  rw [f.mod_signBit_mod, f.mod_signBit_div, code] at parts
  simp only [Fmt.value, h.reading, Bool.false_and, Bool.false_eq_true, if_false, code, and_self, if_true]
  exact if_congr (by rw [← parts, Fmt.past]; omega) rfl rfl

theorem Fmt.isFin_value_iff : isFin (f.value x) = true ↔ x % f.signBit < f.past := by
  by_cases fin : x % f.signBit < f.past
  · obtain ⟨m, e, is, -⟩ := f.value_finite h x fin
    simp [is, isFin, fin]
  · rw [f.value_special h x (Nat.not_lt.mp fin)]
    split <;> simp [isFin, fin]

theorem Fmt.ratOf_value (fin : x % f.signBit < f.past) : ratOf (f.value x) = signed (f.isNeg x) (f.magnitude (x % f.signBit)) := by
  obtain ⟨m, e, is, mag, -⟩ := f.value_finite h x fin
  rw [is, ratOf, mul_assoc, mag, signed_eq_mul]

end Values

/-- The number of a pattern that is written as a sign over magnitude bits. -/
theorem Fmt.ratOf_value_pattern {f : Fmt} (h : f.Ieee) (neg : Bool) {c : Nat} (fin : c < f.past) :
    ratOf (f.value (f.pattern neg c)) = signed neg (f.magnitude c) := by
  have small := fin.trans f.past_lt_signBit
  rw [f.ratOf_value h _ (by rwa [f.pattern_mod neg small]), f.isNeg_pattern neg small, f.pattern_mod neg small]

end Sys2Proof.Machine
end

section
/-!
One rounding (R88 to R91, R135): what `Fmt.round` makes of a magnitude that its integers hold, under a mode of `rmode`.
-/

namespace Sys2Proof.Machine

open Claims

/-- A rounding that `rmode` selects. -/
def Rnd.IsMode (rm : Rnd) : Prop := ∀ q, rm ≠ .sr q

theorem isMode_rndOf (mode : W64) : (rndOf mode).IsMode := by
  unfold rndOf
  split <;> exact fun q e => Rnd.noConfusion e

/-- R88: the mode takes a number of a sign away from zero. -/
def Rnd.away (rm : Rnd) (neg : Bool) : Bool :=
  match rm with
  | .rup => !neg
  | .rdn => neg
  | _ => false

/-- R88: whether a magnitude x between the neighbours lo and hi is taken to hi. -/
def takesUp (rm : Rnd) (neg : Bool) (x lo hi : ℝ) (odd : Prop) : Prop :=
  if rm = .rne then hi - x < x - lo ∨ hi - x = x - lo ∧ odd else rm.away neg = true ∧ lo < x

theorem takesUp_scale (rm : Rnd) (neg : Bool) (x lo hi c : ℝ) (odd : Prop) (pos : 0 < c) :
    takesUp rm neg (x * c) (lo * c) (hi * c) odd ↔ takesUp rm neg x lo hi odd := by
  simp only [takesUp, ← sub_mul, mul_lt_mul_iff_left₀ pos, mul_left_inj' pos.ne']

/-- Nothing is taken up that has nothing left over. -/
theorem not_takesUp_self (rm : Rnd) (neg : Bool) {lo hi : ℝ} (odd : Prop) (apart : lo < hi) : ¬takesUp rm neg lo lo hi odd := by
  unfold takesUp
  split
  · rintro (h | ⟨h, -⟩) <;> linarith
  · exact fun h => lt_irrefl _ h.2

/-! ## Magnitudes as integers hold them -/

/-- The magnitude x is m · 2^e, plus something smaller than 2^e where sticky holds. -/
structure HeldBy (m : Nat) (e : Int) (sticky : Bool) (x : ℝ) : Prop where
  lower : m * (2 : ℝ) ^ e ≤ x
  upper : x < (m + 1) * (2 : ℝ) ^ e
  sticks : sticky = true ↔ m * (2 : ℝ) ^ e < x

theorem HeldBy.exact (m : Nat) (e : Int) : HeldBy m e false (m * (2 : ℝ) ^ e) where
  lower := le_rfl
  upper := by rw [add_one_mul]; exact lt_add_of_pos_right _ (by positivity)
  sticks := by simp

/-- `Rnd.up` on units of 2^d parts decides as the mode says, if something smaller is left only below such parts. -/
theorem up_iff_takesUp {rm : Rnd} (mode : rm.IsMode) (neg : Bool) (kept rem d : Nat) (sticky : Bool) (y : ℝ)
    (lower : (kept * 2 ^ d + rem : ℕ) ≤ y) (upper : y < (kept * 2 ^ d + rem : ℕ) + 1)
    (sticks : sticky = true ↔ ((kept * 2 ^ d + rem : ℕ) : ℝ) < y) (fine : sticky = true → d ≠ 0) (small : rem < 2 ^ d) :
    (rm.up neg kept rem d sticky = true ↔ takesUp rm neg y ((kept * 2 ^ d : ℕ) : ℝ) ((kept * 2 ^ d + 2 ^ d : ℕ) : ℝ) (kept % 2 = 1)) ∧
    ((rem != 0 || sticky) = true ↔ ((kept * 2 ^ d : ℕ) : ℝ) < y) := by
  have left : (rem != 0 || sticky) = true ↔ ((kept * 2 ^ d : ℕ) : ℝ) < y := by
    rw [Bool.or_eq_true, bne_iff_ne, sticks]
    rcases Nat.eq_zero_or_pos rem with rfl | pos
    · simp
    · have : ((kept * 2 ^ d : ℕ) : ℝ) < (kept * 2 ^ d + rem : ℕ) := by exact_mod_cast Nat.lt_add_of_pos_right pos
      simp only [pos.ne', ne_eq, not_false_eq_true, true_or, true_iff]
      linarith
  refine ⟨?_, left⟩
  cases rm with
  | sr q => exact absurd rfl (mode q)
  | rtz => simp [Rnd.up, takesUp, Rnd.away]
  | rup => simp only [Rnd.up, takesUp, Rnd.away, reduceCtorEq, if_false, ← left, Bool.and_eq_true]
  | rdn => simp only [Rnd.up, takesUp, Rnd.away, reduceCtorEq, if_false, ← left, Bool.and_eq_true]
  | rne =>
    simp only [Rnd.up, takesUp, if_true, Bool.or_eq_true, Bool.and_eq_true, decide_eq_true_eq, beq_iff_eq, sticks]
    push_cast at lower upper sticks ⊢
    rcases Nat.eq_zero_or_pos d with rfl | pos
    · obtain rfl : rem = 0 := by simpa using small
      have whole : ¬(kept : ℝ) < y := by simpa [sticks] using fine
      have : y = kept := le_antisymm (not_lt.mp whole) (by simpa using lower)
      simp [this]
    · obtain ⟨d, rfl⟩ := Nat.exists_eq_succ_of_ne_zero pos.ne'
      simp only [Nat.succ_eq_add_one, pow_succ] at lower upper sticks ⊢
      generalize (kept : ℝ) * (2 ^ d * 2) = below at lower upper sticks ⊢
      rcases lt_trichotomy rem (2 ^ d) with less | even | more
      · have : (rem : ℝ) + 1 ≤ 2 ^ d := by exact_mod_cast less
        refine iff_of_false (by omega) ?_
        rintro (h | ⟨h, -⟩) <;> linarith
      · have half : (rem : ℝ) = 2 ^ d := by exact_mod_cast even
        rw [half] at lower ⊢
        simp only [even, Nat.mul_comm, lt_irrefl, false_or, true_and]
        rcases lower.lt_or_eq with more | tie
        · exact iff_of_true (.inl more) (.inl (by linarith))
        · rw [← tie]
          simp only [lt_irrefl, false_or]
          refine ⟨fun odd => .inr ⟨by ring, odd⟩, ?_⟩
          rintro (h | ⟨-, odd⟩)
          · linarith
          · exact odd
      · have : (2 : ℝ) ^ d < rem := by exact_mod_cast more
        exact iff_of_true (.inl (by omega)) (.inl (by linarith))

/-- What the units of x at the quantum 2^q say of it, and of its rounding to such units. -/
structure Cut (rm : Rnd) (neg sticky : Bool) (x : ℝ) (q : Int) (kept rem sh : Nat) : Prop where
  lower : kept * (2 : ℝ) ^ q ≤ x
  upper : x < (kept + 1) * (2 : ℝ) ^ q
  inexact : (rem != 0 || sticky) = true ↔ kept * (2 : ℝ) ^ q < x
  up : rm.up neg kept rem sh sticky = true ↔ takesUp rm neg x (kept * 2 ^ q) ((kept + 1) * 2 ^ q) (kept % 2 = 1)

section
variable {rm : Rnd} (mode : rm.IsMode) (neg : Bool) {sticky : Bool} {x : ℝ} {q : Int} {kept rem d : Nat}
include mode

/-- A magnitude held in parts of 2^d to the quantum is cut at the quantum. -/
theorem HeldBy.cut_of_parts {e : Int} (held : HeldBy (kept * 2 ^ d + rem) e sticky x) (scale : q = e + d)
    (fine : sticky = true → d ≠ 0) (small : rem < 2 ^ d) : Cut rm neg sticky x q kept rem d := by
  have pos : (0 : ℝ) < 2 ^ e := by positivity
  obtain ⟨y, rfl⟩ : ∃ y, x = y * 2 ^ e := ⟨x / 2 ^ e, (div_mul_cancel₀ x pos.ne').symm⟩
  have quantum : (2 : ℝ) ^ q = 2 ^ d * 2 ^ e := by rw [scale, zpow_add₀ two_ne_zero, zpow_natCast, mul_comm]
  obtain ⟨lower, upper, sticks⟩ := held
  rw [mul_le_mul_iff_left₀ pos] at lower
  rw [mul_lt_mul_iff_left₀ pos] at upper sticks
  obtain ⟨up, inexact⟩ := up_iff_takesUp mode neg kept rem d sticky y lower upper sticks fine small
  have whole : (rem : ℝ) + 1 ≤ 2 ^ d := by exact_mod_cast small
  rw [← takesUp_scale _ _ _ _ _ _ _ pos] at up
  push_cast at lower upper up inexact
  constructor
  · rw [quantum, ← mul_assoc, mul_le_mul_iff_left₀ pos]
    exact le_trans (le_add_of_nonneg_right (Nat.cast_nonneg _)) lower
  · rw [quantum, ← mul_assoc, mul_lt_mul_iff_left₀ pos]
    linarith
  · rw [quantum, ← mul_assoc, mul_lt_mul_iff_left₀ pos]
    exact inexact
  · rw [quantum, ← mul_assoc, ← mul_assoc, add_one_mul]
    exact up

/-- `quantise` cuts a magnitude at a quantum, if something smaller is left only below it. -/
theorem HeldBy.cut {m : Nat} {e : Int} (held : HeldBy m e sticky x) (fine : sticky = true → e < q)
    (parts : quantise m e q = (kept, rem, d)) : Cut rm neg sticky x q kept rem d := by
  unfold quantise at parts
  split at parts
  · rename_i coarse
    obtain ⟨rfl, rfl, rfl⟩ := parts
    have exact : sticky = false := Bool.eq_false_iff.mpr fun h => absurd (fine h) (by omega)
    subst exact
    obtain rfl : x = m * 2 ^ e := le_antisymm (not_lt.mp fun more => by simpa using held.sticks.mpr more) held.lower
    have same : ((m * 2 ^ (e - q).toNat : ℕ) : ℝ) * 2 ^ q = m * 2 ^ e := by
      rw [Nat.cast_mul, Nat.cast_pow, Nat.cast_ofNat, ← zpow_natCast, mul_assoc, ← zpow_add₀ two_ne_zero]
      congr 2
      omega
    have whole := HeldBy.exact (m * 2 ^ (e - q).toNat) q
    rw [same] at whole
    exact HeldBy.cut_of_parts mode neg (by simpa using whole) (by simp) (by simp) (by simp)
  · rename_i finer
    obtain ⟨rfl, rfl, rfl⟩ := parts
    exact HeldBy.cut_of_parts mode neg (by rwa [Nat.div_add_mod']) (by omega) (by omega) (Nat.mod_lt _ (Nat.two_pow_pos _))

end

/-! ## The top digit -/

theorem bitLen_bounds {m : Nat} (h : m ≠ 0) : 2 ^ (bitLen m - 1) ≤ m ∧ m < 2 ^ bitLen m ∧ 1 ≤ bitLen m := by
  rw [bitLen, if_neg h]
  exact ⟨Nat.log2_self_le h, Nat.lt_log2_self, Nat.le_add_left _ _⟩

theorem HeldBy.top {m : Nat} {e : Int} {sticky : Bool} {x : ℝ} (held : HeldBy m e sticky x) (h : m ≠ 0) :
    (2 : ℝ) ^ (e + (bitLen m : Int) - 1) ≤ x ∧ x < 2 ^ (e + (bitLen m : Int) - 1 + 1) := by
  obtain ⟨low, high, pos⟩ := bitLen_bounds h
  have scale (k : Nat) : (2 : ℝ) ^ (e + k) = (2 ^ k : ℕ) * 2 ^ e := by
    rw [add_comm, zpow_add₀ two_ne_zero, zpow_natCast, Nat.cast_pow, Nat.cast_ofNat]
  rw [show e + (bitLen m : Int) - 1 = e + (bitLen m - 1 : ℕ) by omega, show e + ((bitLen m - 1 : ℕ) : Int) + 1 = e + bitLen m by omega,
    scale, scale]
  exact ⟨le_trans (by gcongr) held.lower, held.upper.trans_le (by gcongr; exact_mod_cast high)⟩

/-! ## A rounded magnitude -/

/-- R89: x, rounded with unbounded exponent to the precision of f, lies at 2^k or beyond. -/
def Fmt.reachesReal (f : Fmt) (rm : Rnd) (neg : Bool) (x : ℝ) (k : Int) : Prop :=
  if rm = .rne then 2 ^ k * (1 - 1 / (4 * 2 ^ f.frac)) ≤ x
  else if rm.away neg = true then 2 ^ k * (1 - 1 / (2 * 2 ^ f.frac)) < x else 2 ^ k ≤ x

theorem Fmt.two_zpow_units (f : Fmt) (k : Int) : (2 : ℝ) ^ k = 2 * 2 ^ f.frac * 2 ^ (k - 1 - f.frac) := by
  rw [← pow_succ', ← zpow_natCast, ← zpow_add₀ two_ne_zero]
  congr 1
  push_cast
  ring

section Reaches
variable (f : Fmt) (rm : Rnd) (neg : Bool) {x : ℝ} {k : Int}

theorem Fmt.reachesReal_of_le (h : 2 ^ k ≤ x) : f.reachesReal rm neg x k := by
  have pos : (0 : ℝ) < 2 ^ k := by positivity
  have cut (c : ℝ) (hc : 0 < c) : 2 ^ k * (1 - 1 / c) < (2 : ℝ) ^ k :=
    mul_lt_of_lt_one_right pos (sub_lt_self _ (one_div_pos.mpr hc))
  unfold Fmt.reachesReal
  split_ifs
  · exact (cut _ (by positivity)).le.trans h
  · exact (cut _ (by positivity)).trans_le h
  · exact h

/-- Below 2^k by more than the last unit there, a magnitude does not reach it. -/
theorem Fmt.not_reachesReal_of_lt (h : x < (2 * 2 ^ f.frac - 1) * 2 ^ (k - 1 - f.frac)) : ¬f.reachesReal rm neg x k := by
  have unit : (0 : ℝ) < 2 ^ (k - 1 - f.frac) := by positivity
  have frac : (0 : ℝ) < 2 ^ f.frac := by positivity
  unfold Fmt.reachesReal
  rw [f.two_zpow_units k]
  generalize (2 : ℝ) ^ (k - 1 - f.frac) = u at *
  generalize (2 : ℝ) ^ f.frac = p at *
  have quarter : 2 * p * u * (1 - 1 / (4 * p)) = (2 * p - 1) * u + u / 2 := by field_simp; ring
  have half : 2 * p * u * (1 - 1 / (2 * p)) = (2 * p - 1) * u := by field_simp
  rw [quarter, half]
  split_ifs <;> linarith

theorem Fmt.not_reachesReal_of_lt_half (h : x < 2 ^ (k - 1)) : ¬f.reachesReal rm neg x k := by
  have frac : (1 : ℝ) ≤ 2 ^ f.frac := one_le_pow₀ one_le_two
  refine f.not_reachesReal_of_lt rm neg ?_
  calc x < 2 ^ (k - 1) := h
    _ = 2 ^ f.frac * 2 ^ (k - 1 - f.frac) := by rw [← zpow_natCast, ← zpow_add₀ two_ne_zero, add_sub_cancel]
    _ ≤ (2 * 2 ^ f.frac - 1) * 2 ^ (k - 1 - f.frac) := by gcongr; linarith

/-- Within the last unit below 2^k, a magnitude reaches it if it is taken up. -/
theorem Fmt.reachesReal_iff_takesUp (high : x < 2 ^ k) (odd : Prop) (h : odd) :
    f.reachesReal rm neg x k ↔ takesUp rm neg x ((2 * 2 ^ f.frac - 1) * 2 ^ (k - 1 - f.frac)) (2 ^ k) odd := by
  have frac : (0 : ℝ) < 2 ^ f.frac := by positivity
  unfold Fmt.reachesReal takesUp
  rw [f.two_zpow_units k] at high ⊢
  generalize (2 : ℝ) ^ (k - 1 - f.frac) = u at *
  generalize (2 : ℝ) ^ f.frac = p at *
  have quarter : 2 * p * u * (1 - 1 / (4 * p)) = (2 * p - 1) * u + u / 2 := by field_simp; ring
  have half : 2 * p * u * (1 - 1 / (2 * p)) = (2 * p - 1) * u := by field_simp
  rw [quarter, half]
  split_ifs with nearest away
  · rw [and_iff_left h, ← le_iff_lt_or_eq, sub_le_sub_iff]
    constructor <;> intro h <;> linarith
  · exact (and_iff_right away).symm
  · exact iff_of_false (not_le.mpr high) fun up => away up.1

end Reaches

open Classical in
/-- R88: the magnitude bits that x rounds to, between those n below it and the next. -/
noncomputable def Fmt.roundedMag (f : Fmt) (rm : Rnd) (neg : Bool) (x : ℝ) (n : Nat) : Nat :=
  if takesUp rm neg x (f.magnitude n) (f.magnitude (n + 1)) (n % 2 = 1) then n + 1 else n

open Classical in
/-- R88 to R91: a sign and a magnitude x, rounded once, where n are the magnitude bits next below x. -/
noncomputable def Fmt.rounded (f : Fmt) (rm : Rnd) (neg : Bool) (x : ℝ) (n : Nat) : Nat × FlagSet :=
  if f.past ≤ f.roundedMag rm neg x n then (f.overflow rm neg, flagOf ||| flagNx)
  else (f.pattern neg (f.roundedMag rm neg x n),
    if x = f.magnitude n then 0 else if f.reachesReal rm neg x (1 - f.bias) then flagNx else flagNx ||| flagUf)

/-- The magnitude bits n are those next below x. -/
structure Fmt.Below (f : Fmt) (n : Nat) (x : ℝ) : Prop where
  lower : f.magnitude n ≤ x
  upper : x < f.magnitude (n + 1)

theorem Fmt.Below.unique {f : Fmt} {n k : Nat} {x : ℝ} (h : f.Below n x) (h' : f.Below k x) : n = k := by
  have one (n k : Nat) (h : f.Below n x) (h' : f.Below k x) : n ≤ k := by
    have : ((f.magnitude n : ℚ) : ℝ) < (f.magnitude (k + 1) : ℚ) := h.lower.trans_lt h'.upper
    exact Nat.lt_succ_iff.mp (f.magnitude_strictMono.lt_iff_lt.mp (by exact_mod_cast this))
  exact (one n k h h').antisymm (one k n h' h)

theorem Fmt.overflow_eq (f : Fmt) (h : f.finite = false) (rm : Rnd) (mode : rm.IsMode) (neg : Bool) :
    f.overflow rm neg = f.pattern neg (if rm = .rne ∨ rm.away neg = true then f.past else f.past - 1) := by
  cases rm with
  | sr q => exact absurd rfl (mode q)
  | _ => cases neg <;> simp [Fmt.overflow, Rnd.away, Fmt.inf, Fmt.maxMag, Fmt.pattern, Fmt.past, h]

/-- `Fmt.round` with its two cuts given: at the quantum of the format, and at that of an unbounded exponent. -/
theorem Fmt.round_eq {f : Fmt} (h : f.Ieee) {rm : Rnd} (mode : rm.IsMode) (neg : Bool) {m : Nat} (nonzero : m ≠ 0) {e : Int}
    {sticky : Bool} {top q : Int} {kept rem d k r d' : Nat} (ht : top = e + (bitLen m : Int) - 1) (hq : q = max (top - f.frac) f.low)
    (cut : quantise m e q = (kept, rem, d)) (free : quantise m e (top - f.frac) = (k, r, d')) :
    f.round rm neg m e sticky =
      if f.past ≤ (q - f.low).toNat * 2 ^ f.frac + kept + (if rm.up neg kept rem d sticky then 1 else 0) then
        (f.overflow rm neg, flagOf ||| flagNx)
      else
        (f.pattern neg ((q - f.low).toNat * 2 ^ f.frac + kept + if rm.up neg kept rem d sticky then 1 else 0),
          flagIf (rem != 0 || sticky) flagNx ||| flagIf ((rem != 0 || sticky) &&
            if 1 - (f.bias : Int) ≤ top then false
            else if top < 1 - (f.bias : Int) - 1 then true
            else decide (k + (if rm.up neg k r d' sticky then 1 else 0) < 2 ^ (f.frac + 1))) flagUf) := by
  have pos : 0 < f.past := Nat.mul_pos (by rw [Fmt.top_eq h]; omega) (Nat.two_pow_pos _)
  have biggest (c : Nat) : f.maxMag neg < c ↔ f.past ≤ c := by
    simp only [Fmt.maxMag, h.reading, Bool.false_eq_true, if_false]
    unfold Fmt.past at *
    omega
  subst ht hq
  have low : 1 - (f.bias : Int) - f.frac = f.low := rfl
  unfold Fmt.round
  rw [if_neg fun c => nonzero c.1]
  simp only [low, cut, free, biggest]
  cases rm with
  | sr q => exact absurd rfl (mode q)
  | _ => rfl

section Place
variable {f : Fmt} {x : ℝ} {top q : Int} {kept : Nat} (low : (2 : ℝ) ^ top ≤ x) (high : x < 2 ^ (top + 1))
  (below : kept * (2 : ℝ) ^ q ≤ x) (above : x < (kept + 1) * (2 : ℝ) ^ q)

include high below in
/-- No more units than the precision of the format. -/
theorem units_lt (fits : top - f.frac ≤ q) : kept < 2 ^ (f.frac + 1) := by
  have pos : (0 : ℝ) < 2 ^ q := by positivity
  have : (kept : ℝ) * 2 ^ q < 2 ^ (f.frac + 1) * 2 ^ q :=
    calc (kept : ℝ) * 2 ^ q < 2 ^ (top + 1) := below.trans_lt high
      _ ≤ 2 ^ ((f.frac + 1 : ℕ) + q) := zpow_le_zpow_right₀ one_le_two (by push_cast; omega)
      _ = 2 ^ (f.frac + 1) * 2 ^ q := by rw [zpow_add₀ two_ne_zero, zpow_natCast]
  exact_mod_cast (mul_lt_mul_iff_left₀ pos).mp this

include low above in
/-- As many units as a normal number has. -/
theorem le_units {frac : Nat} (normal : q = top - frac) : 2 ^ frac ≤ kept := by
  have pos : (0 : ℝ) < 2 ^ q := by positivity
  have : (2 : ℝ) ^ frac * 2 ^ q < (kept + 1) * 2 ^ q := by
    rw [← zpow_natCast, ← zpow_add₀ two_ne_zero, show (frac : Int) + q = top by omega]
    exact low.trans_lt above
  exact Nat.lt_succ_iff.mp (by exact_mod_cast (mul_lt_mul_iff_left₀ pos).mp this)

/-- Magnitude bits put the units in their place. -/
theorem Fmt.magnitude_place (hq : q = max (top - f.frac) f.low) (k : Nat) (few : k ≤ 2 ^ (f.frac + 1))
    (normal : q = top - f.frac → 2 ^ f.frac ≤ k) : ((f.magnitude ((q - f.low).toNat * 2 ^ f.frac + k) : ℚ) : ℝ) = k * 2 ^ q := by
  rw [f.magnitude_units _ _ few (by omega)]
  push_cast
  congr 2
  omega

end Place

/-- What `Fmt.round` takes for tiny: what does not reach the smallest normal number. -/
theorem tiny_iff {f : Fmt} {rm : Rnd} {neg sticky : Bool} {x : ℝ} {top emin : Int} {k r d : Nat} (low : (2 : ℝ) ^ top ≤ x)
    (high : x < 2 ^ (top + 1)) (cut : Cut rm neg sticky x (top - f.frac) k r d) :
    (if emin ≤ top then false else if top < emin - 1 then true
      else decide (k + (if rm.up neg k r d sticky then 1 else 0) < 2 ^ (f.frac + 1))) = true ↔ ¬f.reachesReal rm neg x emin := by
  have pos := Nat.two_pow_pos f.frac
  by_cases normal : emin ≤ top
  · rw [if_pos normal]
    simpa using f.reachesReal_of_le rm neg (le_trans (zpow_le_zpow_right₀ one_le_two normal) low)
  rw [if_neg normal]
  by_cases deep : top < emin - 1
  · rw [if_pos deep]
    exact iff_of_true rfl (f.not_reachesReal_of_lt_half rm neg (high.trans_le (zpow_le_zpow_right₀ one_le_two (by omega))))
  · obtain rfl : top = emin - 1 := by omega
    have few := units_lt (f := f) high cut.lower le_rfl
    rw [if_neg deep, decide_eq_true_eq]
    rw [pow_succ'] at few ⊢
    rcases Nat.lt_or_ge (k + 1) (2 * 2 ^ f.frac) with less | last
    · refine iff_of_true (by split <;> omega) (f.not_reachesReal_of_lt rm neg (cut.upper.trans_le ?_))
      have : (k : ℝ) + 1 + 1 ≤ 2 * 2 ^ f.frac := by exact_mod_cast less
      gcongr
      linarith
    · have full : k + 1 = 2 * 2 ^ f.frac := by omega
      have cast : (k : ℝ) = 2 * 2 ^ f.frac - 1 := by rw [eq_sub_iff_add_eq]; exact_mod_cast full
      have up := cut.up
      rw [cast, sub_add_cancel, ← f.two_zpow_units] at up
      rw [f.reachesReal_iff_takesUp rm neg (by rwa [sub_add_cancel] at high) _
        (show k % 2 = 1 by omega), ← up]
      cases rm.up neg k r d sticky <;> simp <;> omega

/-- A magnitude that its integers hold is rounded once. -/
theorem Fmt.round_eq_rounded {f : Fmt} (h : f.Ieee) {rm : Rnd} (mode : rm.IsMode) (neg : Bool) {m : Nat} {e : Int} {sticky : Bool}
    {x : ℝ} (held : HeldBy m e sticky x) (nonzero : m ≠ 0) (fine : sticky = true → f.frac + 2 ≤ bitLen m) :
    ∃ n, f.Below n x ∧ f.round rm neg m e sticky = f.rounded rm neg x n := by
  obtain ⟨low, high⟩ := held.top nonzero
  generalize ht : e + (bitLen m : Int) - 1 = top at low high
  obtain ⟨q, hq⟩ : ∃ q, q = max (top - f.frac) f.low := ⟨_, rfl⟩
  rcases parts : quantise m e q with ⟨kept, rem, d⟩
  rcases parts' : quantise m e (top - f.frac) with ⟨k, r, d'⟩
  have cut := held.cut mode neg (fun s => by have := fine s; omega) parts
  have free := held.cut mode neg (fun s => by have := fine s; omega) parts'
  have few := units_lt (f := f) high cut.lower (by omega)
  have normal (c : q = top - f.frac) := le_units low cut.upper c
  have lo := f.magnitude_place hq kept few.le normal
  have hi := f.magnitude_place hq (kept + 1) few fun c => (normal c).trans (Nat.le_succ _)
  rw [← Nat.add_assoc, Nat.cast_add_one] at hi
  have parity : ((q - f.low).toNat * 2 ^ f.frac + kept) % 2 = kept % 2 := by
    rw [← Nat.sub_add_cancel h.frac_pos, pow_succ, ← Nat.mul_assoc, Nat.add_comm, Nat.add_mul_mod_self_right]
  rw [Fmt.round_eq h mode neg nonzero ht.symm hq parts parts']
  generalize (q - f.low).toNat * 2 ^ f.frac + kept = n at lo hi parity ⊢
  refine ⟨n, ⟨by rw [lo]; exact cut.lower, by rw [hi]; exact cut.upper⟩, ?_⟩
  have up : n + (if rm.up neg kept rem d sticky then 1 else 0) = f.roundedMag rm neg x n := by
    have takes : rm.up neg kept rem d sticky = true ↔ takesUp rm neg x (f.magnitude n) (f.magnitude (n + 1)) (n % 2 = 1) := by
      rw [lo, hi, parity, cut.up]
    rw [Fmt.roundedMag]
    by_cases h : rm.up neg kept rem d sticky = true
    · rw [if_pos h, if_pos (takes.mp h)]
    · rw [if_neg h, if_neg (mt takes.mpr h), Nat.add_zero]
  have exact : x = f.magnitude n ↔ ¬(rem != 0 || sticky) = true := by
    rw [lo, cut.inexact, not_lt, eq_comm (a := x)]
    exact cut.lower.ge_iff_eq.symm
  have tiny := tiny_iff (emin := 1 - f.bias) low high free
  rw [up, Fmt.rounded]
  generalize (rem != 0 || sticky) = inexact at exact ⊢
  generalize (if 1 - (f.bias : Int) ≤ top then false else _ : Bool) = t at tiny ⊢
  refine if_congr Iff.rfl rfl (Prod.ext rfl ?_)
  simp only [exact, ← not_iff_comm.mp tiny.symm]
  cases inexact <;> cases t <;> simp [flagIf]

end Sys2Proof.Machine
end

section
/-!
What a rounded number is (R88 to R91): the nearest, or the next on the side of the mode, with its flags.
-/

namespace Sys2Proof.Machine

open Claims

/-! ## Numbers with a sign -/

theorem mag_eq_abs (x : ℚ) : mag x = |x| := by
  unfold mag
  split
  · rw [abs_of_neg ‹_›]
  · rw [abs_of_nonneg (not_lt.mp ‹_›)]

theorem signed_sub_signed (neg : Bool) (x y : ℚ) : signed neg x - signed neg y = signed neg (x - y) := by
  cases neg <;> simp [signed]; ring

@[simp] theorem abs_signed (neg : Bool) (x : ℚ) : |signed neg x| = |x| := by cases neg <;> simp [signed]

theorem signed_inj (neg : Bool) {x y : ℚ} : signed neg x = signed neg y ↔ x = y := by cases neg <;> simp [signed]

theorem signed_lt_zero_iff (neg : Bool) {x : ℚ} (pos : 0 < x) : signed neg x < 0 ↔ neg = true := by
  cases neg <;> simp [signed, pos, pos.le]

theorem goesAway_signed (rm : Rnd) (neg : Bool) {x : ℚ} (pos : 0 < x) : goesAway rm (signed neg x) = rm.away neg := by
  cases rm <;> cases neg <;> simp [goesAway, Rnd.away, signed, pos, pos.le]

theorem reaches_signed (f : Fmt) (rm : Rnd) (neg : Bool) {x : ℚ} (pos : 0 < x) (k : Int) :
    reaches f rm (signed neg x) k = true ↔ f.reachesReal rm neg x k := by
  simp only [reaches, Fmt.reachesReal, goesAway_signed rm neg pos, mag_eq_abs, abs_signed, abs_of_pos pos]
  split_ifs <;> rw [decide_eq_true_eq]
  · rw [← Rat.cast_le (K := ℝ)]; push_cast; rfl
  · rw [← Rat.cast_lt (K := ℝ)]; push_cast; rfl
  · rw [← Rat.cast_le (K := ℝ)]; push_cast; rfl

/-! ## Overflow -/

/-- The largest finite number stands one unit below 2^(bias + 1), and its last bit is 1. -/
theorem Fmt.magnitude_last {f : Fmt} (h : f.Ieee) :
    ((f.magnitude (f.past - 1) : ℚ) : ℝ) = (2 * 2 ^ f.frac - 1) * 2 ^ (((f.bias : Int) + 1) - 1 - f.frac) ∧ (f.past - 1) % 2 = 1 := by
  have frac := Nat.two_pow_pos f.frac
  have bias : 1 ≤ f.bias := by have := h.frac_lt_bias; omega
  have past : f.past = (2 * f.bias - 1) * 2 ^ f.frac + 2 * 2 ^ f.frac := by
    rw [Fmt.past, Fmt.top_eq h, ← Nat.add_mul, show 2 * f.bias + 1 = 2 * f.bias - 1 + 2 by omega]
  refine ⟨?_, ?_⟩
  · rw [past, Nat.add_sub_assoc (by omega), f.magnitude_units _ _ (by rw [pow_succ']; omega) (.inr (by omega)), Fmt.low]
    push_cast [Nat.cast_sub (show 1 ≤ 2 * 2 ^ f.frac by omega), Nat.cast_sub (show 1 ≤ 2 * f.bias by omega)]
    congr 2
    ring
  · rw [Fmt.past, ← Nat.sub_add_cancel h.frac_pos, pow_succ, ← Nat.mul_assoc] at *
    omega

section Rounded
variable {f : Fmt} {rm : Rnd} {neg : Bool} {x : ℝ} {n : Nat}

theorem Fmt.roundedMag_cases (f : Fmt) (rm : Rnd) (neg : Bool) (x : ℝ) (n : Nat) :
    f.roundedMag rm neg x n = n + 1 ∧ takesUp rm neg x (f.magnitude n) (f.magnitude (n + 1)) (n % 2 = 1) ∨
    f.roundedMag rm neg x n = n ∧ ¬takesUp rm neg x (f.magnitude n) (f.magnitude (n + 1)) (n % 2 = 1) := by
  rw [Fmt.roundedMag]
  split
  · exact .inl ⟨rfl, ‹_›⟩
  · exact .inr ⟨rfl, ‹_›⟩

/-- R91: an overflow is a number that reaches 2^(bias + 1). -/
theorem Fmt.past_le_roundedMag_iff (h : f.Ieee) (below : f.Below n x) :
    f.past ≤ f.roundedMag rm neg x n ↔ f.reachesReal rm neg x (f.bias + 1) := by
  obtain ⟨last, odd⟩ := Fmt.magnitude_last h
  have past : ((f.magnitude f.past : ℚ) : ℝ) = 2 ^ ((f.bias : Int) + 1) := by rw [Fmt.magnitude_past h]; push_cast; rfl
  have mono {i j : Nat} (le : i ≤ j) : ((f.magnitude i : ℚ) : ℝ) ≤ f.magnitude j := by exact_mod_cast f.magnitude_strictMono.monotone le
  rcases Nat.lt_trichotomy (n + 1) f.past with less | edge | more
  · refine iff_of_false ?_ (f.not_reachesReal_of_lt rm neg (below.upper.trans_le ?_))
    · rcases f.roundedMag_cases rm neg x n with ⟨c, -⟩ | ⟨c, -⟩ <;> omega
    · rw [← last]
      exact mono (by omega)
  · rw [show f.past - 1 = n by omega] at last odd
    have upper := below.upper
    rw [edge, past] at upper
    rw [f.reachesReal_iff_takesUp rm neg upper _ odd, ← last, ← past, ← edge]
    rcases f.roundedMag_cases rm neg x n with ⟨c, up⟩ | ⟨c, up⟩ <;> rw [c]
    · exact iff_of_true le_rfl up
    · exact iff_of_false (by omega) up
  · refine iff_of_true ?_ (f.reachesReal_of_le rm neg (past ▸ (mono (by omega)).trans below.lower))
    rcases f.roundedMag_cases rm neg x n with ⟨c, -⟩ | ⟨c, -⟩ <;> omega

end Rounded

/-! ## The neighbours of a number -/

section Neighbours
variable {f : Fmt} {rm : Rnd} {neg : Bool} {x : ℝ} {n : Nat}

/-- The magnitude of any bits lies at or below one neighbour, or at or above the other. -/
theorem Fmt.magnitude_outside (f : Fmt) (n j : Nat) :
    ((f.magnitude j : ℚ) : ℝ) ≤ f.magnitude n ∨ ((f.magnitude (n + 1) : ℚ) : ℝ) ≤ f.magnitude j := by
  norm_cast
  exact (Nat.lt_or_ge n j).symm.imp (fun h => f.magnitude_strictMono.monotone h) (fun h => f.magnitude_strictMono.monotone h)

variable (below : f.Below n x)
include below

/-- What is rounded is one of the neighbours, and is the number itself if that is the lower one. -/
theorem Fmt.Below.rounded_eq_iff : f.magnitude (f.roundedMag rm neg x n) = x ↔ x = f.magnitude n := by
  rcases f.roundedMag_cases rm neg x n with ⟨c, up⟩ | ⟨c, -⟩ <;> rw [c]
  · refine iff_of_false below.upper.ne' fun same => ?_
    rw [same] at up
    exact not_takesUp_self rm neg _ (by exact_mod_cast f.magnitude_lt_succ n) up
  · exact eq_comm

/-- R88: under a mode with a side the result lies on that side, and nothing lies between. -/
theorem Fmt.Below.directed (side : rm ≠ .rne) :
    (rm.away neg = false → f.magnitude (f.roundedMag rm neg x n) ≤ x) ∧
    (rm.away neg = true → x ≤ f.magnitude (f.roundedMag rm neg x n)) ∧
    ∀ j, ¬(f.magnitude (f.roundedMag rm neg x n) < f.magnitude j ∧ f.magnitude j ≤ x) ∧
      ¬(x ≤ f.magnitude j ∧ f.magnitude j < f.magnitude (f.roundedMag rm neg x n)) := by
  obtain ⟨lower, upper⟩ := below
  simp only [← Rat.cast_lt (K := ℝ)]
  rcases f.roundedMag_cases rm neg x n with ⟨c, up⟩ | ⟨c, down⟩ <;> rw [c]
  · rw [takesUp, if_neg side] at up
    obtain ⟨away, more⟩ := up
    refine ⟨by simp [away], fun _ => upper.le, fun j => ?_⟩
    rcases f.magnitude_outside n j with h | h <;> constructor <;> rintro ⟨h1, h2⟩ <;> linarith
  · rw [takesUp, if_neg side, not_and, not_lt] at down
    refine ⟨fun _ => lower, down, fun j => ?_⟩
    rcases f.magnitude_outside n j with h | h <;> constructor <;> rintro ⟨h1, h2⟩ <;> linarith

/-- R88: to the nearest, no number is nearer, and of two that are as near the result is even. -/
theorem Fmt.Below.nearest (j : Nat) :
    |f.magnitude (f.roundedMag .rne neg x n) - x| ≤ |f.magnitude j - x| ∧
    (|f.magnitude j - x| = |f.magnitude (f.roundedMag .rne neg x n) - x| → f.magnitude j ≠ f.magnitude (f.roundedMag .rne neg x n) →
      f.roundedMag .rne neg x n % 2 = 0) := by
  obtain ⟨lower, upper⟩ := below
  rw [ne_eq, ← Rat.cast_inj (α := ℝ)]
  rcases f.roundedMag_cases .rne neg x n with ⟨c, up⟩ | ⟨c, down⟩ <;> rw [c]
  · rw [takesUp, if_pos rfl] at up
    rw [abs_of_pos (sub_pos.mpr upper)]
    rcases f.magnitude_outside n j with h | h
    · rw [abs_of_nonpos (by linarith)]
      rcases up with closer | ⟨tie, odd⟩
      · exact ⟨by linarith, fun _ => by linarith⟩
      · exact ⟨by linarith, fun _ _ => by omega⟩
    · rw [abs_of_pos (by linarith)]
      exact ⟨by linarith, fun same other => absurd (by linarith) other⟩
  · rw [takesUp, if_pos rfl, not_or, not_lt, not_and] at down
    obtain ⟨near, even⟩ := down
    rw [abs_of_nonpos (sub_nonpos.mpr lower)]
    rcases f.magnitude_outside n j with h | h
    · rw [abs_of_nonpos (by linarith)]
      exact ⟨by linarith, fun same other => absurd (by linarith) other⟩
    · rw [abs_of_pos (by linarith)]
      exact ⟨by linarith, fun same _ => by have := even (by linarith); omega⟩

end Neighbours

/-! ## What it is to round once -/

/-- A number of a format has the sign of another number, or the opposite one. -/
theorem Fmt.ratOf_value_cases {f : Fmt} (h : f.Ieee) (neg : Bool) (x : Nat) (fin : isFin (f.value x) = true) :
    ∃ j t, ratOf (f.value x) = signed neg t ∧ (t = f.magnitude j ∨ t = -f.magnitude j) := by
  rw [f.ratOf_value h x ((f.isFin_value_iff h x).mp fin)]
  by_cases same : f.isNeg x = neg
  · exact ⟨_, _, by rw [same], .inl rfl⟩
  · refine ⟨x % f.signBit, -f.magnitude (x % f.signBit), ?_, .inr rfl⟩
    rw [Bool.eq_not_of_ne same]
    cases neg <;> simp [signed]

theorem Fmt.past_pos {f : Fmt} (h : f.Ieee) : 0 < f.past := Nat.mul_pos (by rw [Fmt.top_eq h]; omega) (Nat.two_pow_pos _)

section RoundsTo
variable {f : Fmt} (h : f.Ieee) {rm : Rnd} (mode : rm.IsMode) (neg : Bool) {a : ℚ} (pos : 0 < a) {n : Nat} (below : f.Below n a)

include mode in
theorem Fmt.pattern_overflow (h : f.Ieee) : f.overflow rm neg < 2 ^ f.width ∧ f.isNeg (f.overflow rm neg) = neg ∧
    f.overflow rm neg % f.signBit = if rm = .rne ∨ rm.away neg = true then f.past else f.past - 1 := by
  have small : (if rm = .rne ∨ rm.away neg = true then f.past else f.past - 1) < f.signBit := by
    have := f.past_lt_signBit
    split <;> omega
  rw [f.overflow_eq h.reading rm mode neg]
  exact ⟨f.pattern_lt neg small, f.isNeg_pattern neg small, f.pattern_mod neg small⟩

include below in
theorem Fmt.Below.side (side : rm ≠ .rne) : (rm.away neg = false → f.magnitude (f.roundedMag rm neg a n) ≤ a) ∧
    (rm.away neg = true → a ≤ f.magnitude (f.roundedMag rm neg a n)) := by
  obtain ⟨down, up, -⟩ := below.directed (neg := neg) side
  exact_mod_cast And.intro down up

include h pos below

/-- The sides and the neighbours of the result, with the sign. -/
theorem Fmt.Below.directed_signed (side : rm ≠ .rne) (x : Nat) (fin : isFin (f.value x) = true) :
    ¬(signed neg (f.magnitude (f.roundedMag rm neg a n)) < ratOf (f.value x) ∧ ratOf (f.value x) ≤ signed neg a) ∧
    ¬(signed neg a ≤ ratOf (f.value x) ∧ ratOf (f.value x) < signed neg (f.magnitude (f.roundedMag rm neg a n))) := by
  obtain ⟨j, t, w, is⟩ := Fmt.ratOf_value_cases h neg x fin
  have between : ¬(f.magnitude (f.roundedMag rm neg a n) < t ∧ t ≤ a) ∧ ¬(a ≤ t ∧ t < f.magnitude (f.roundedMag rm neg a n)) := by
    rcases is with rfl | rfl
    · exact_mod_cast (below.directed side).2.2 j
    · have := f.magnitude_nonneg j
      have := f.magnitude_nonneg (f.roundedMag rm neg a n)
      constructor <;> rintro ⟨h1, h2⟩ <;> linarith
  rw [w]
  cases neg
  · exact between
  · simp only [signed, if_true, neg_lt_neg_iff, neg_le_neg_iff]
    exact ⟨fun c => between.2 c.symm, fun c => between.1 c.symm⟩

theorem Fmt.Below.nearest_signed (x : Nat) (fin : isFin (f.value x) = true) :
    let v := signed neg (f.magnitude (f.roundedMag .rne neg a n))
    let w := ratOf (f.value x)
    |v - signed neg a| ≤ |w - signed neg a| ∧
      (|w - signed neg a| = |v - signed neg a| → w ≠ v → f.roundedMag .rne neg a n % 2 = 0) := by
  obtain ⟨j, t, w, is⟩ := Fmt.ratOf_value_cases h neg x fin
  simp only [w, signed_sub_signed, abs_signed, ne_eq, signed_inj]
  rcases is with rfl | rfl
  · exact_mod_cast below.nearest j
  · obtain ⟨near, even⟩ : |f.magnitude (f.roundedMag .rne neg a n) - a| ≤ |f.magnitude 0 - a| ∧ _ := by
      exact_mod_cast below.nearest (neg := neg) 0
    have nonneg := f.magnitude_nonneg j
    rw [f.magnitude_zero, zero_sub, abs_neg, abs_of_pos pos] at near even
    rw [abs_of_neg (show -f.magnitude j - a < 0 by linarith)]
    refine ⟨by linarith, fun same other => even (by linarith) ?_⟩
    rwa [show -f.magnitude j = 0 by linarith] at other

include mode

/-- A number rounded once is rounded as R88 to R91 say. -/
theorem Fmt.rounded_roundsTo : RoundsTo f rm (signed neg a) (f.rounded rm neg a n) := by
  have reach (k : Int) := reaches_signed f rm neg pos k
  have sign (x : Nat) : (x / f.signBit % 2 = 1 ↔ signed neg a < 0) ↔ f.isNeg x = neg := by
    rw [signed_lt_zero_iff neg pos, Fmt.isNeg]
    cases neg <;> simp
  have overflows := (Fmt.past_le_roundedMag_iff (rm := rm) (neg := neg) h below).trans (reach _).symm
  unfold RoundsTo Fmt.rounded
  by_cases big : f.past ≤ f.roundedMag rm neg a n
  · rw [if_pos big]
    obtain ⟨width, negative, bits⟩ := Fmt.pattern_overflow mode neg h
    refine ⟨width, (sign _).mpr negative, fun _ => ⟨rfl, ?_⟩, fun no => ?_⟩
    · rw [goesAway_signed rm neg pos]
      exact bits
    · rw [overflows.mp big] at no
      exact Bool.noConfusion no
  · have fin := Nat.not_le.mp big
    have small := fin.trans f.past_lt_signBit
    have value := Fmt.ratOf_value_pattern h neg fin
    have same : f.magnitude (f.roundedMag rm neg a n) = a ↔ (a : ℝ) = f.magnitude n := by
      rw [← Rat.cast_inj (α := ℝ)]
      exact below.rounded_eq_iff
    rw [if_neg big]
    refine ⟨f.pattern_lt neg small, (sign _).mpr (f.isNeg_pattern neg small), fun yes => absurd (overflows.mpr yes) big, fun _ => ?_⟩
    simp only [value, mag_eq_abs, within, f.pattern_mod_two h.frac_pos, signed_inj, same, abs_signed,
      abs_of_pos pos, abs_of_nonneg (f.magnitude_nonneg _)]
    refine ⟨(f.isFin_value_iff h _).mpr (by rwa [f.pattern_mod neg small]), ?_, ?_, ?_, ?_, ?_, ?_⟩
    · by_cases whole : (a : ℝ) = f.magnitude n
      · rw [if_pos whole, if_pos whole]
      · rw [if_neg whole, if_neg whole]
        by_cases normal : reaches f rm (signed neg a) (1 - f.bias) = true
        · rw [if_pos normal, if_pos ((reach _).mp normal)]
        · rw [if_neg normal, if_neg (mt (reach _).mpr normal)]
    · rintro rfl
      exact (below.side neg (rm := .rtz) (by decide)).1 rfl
    · rintro rfl
      obtain ⟨down, up⟩ := below.side neg (rm := .rup) (by decide)
      cases neg
      · exact up rfl
      · exact neg_le_neg (down rfl)
    · rintro rfl
      obtain ⟨down, up⟩ := below.side neg (rm := .rdn) (by decide)
      cases neg
      · exact down rfl
      · exact neg_le_neg (up rfl)
    · exact fun side x ⟨_, num⟩ => Fmt.Below.directed_signed h neg pos below side x num
    · rintro rfl x ⟨-, num⟩
      exact Fmt.Below.nearest_signed h neg pos below x num

end RoundsTo

end Sys2Proof.Machine
end

section
/-!
Delivering an exact value (R88 to R91), and the obligation that says what that is.
-/

namespace Sys2Proof.Machine

open Claims

/-! ## Exact values -/

theorem ratOf_fin (neg : Bool) (m : Nat) (e : Int) : ratOf (.fin neg m e) = signed neg ((m : ℚ) * 2 ^ e) := by
  rw [ratOf, mul_assoc, signed_eq_mul]

theorem exists_of_isFin {v : FVal} (h : isFin v = true) : ∃ neg m e, v = .fin neg m e := by
  cases v with
  | fin neg m e => exact ⟨neg, m, e, rfl⟩
  | _ => exact absurd h Bool.false_ne_true

theorem exists_of_isNan {v : FVal} (h : v.isNan = true) : ∃ b, v = .nan b := by
  cases v with
  | nan b => exact ⟨b, rfl⟩
  | _ => exact absurd h Bool.false_ne_true

theorem exists_of_isInf {v : FVal} (h : v.isInf = true) : ∃ neg, v = .inf neg := by
  cases v with
  | inf neg => exact ⟨neg, rfl⟩
  | _ => exact absurd h Bool.false_ne_true

theorem exists_of_isZero {v : FVal} (h : v.isZero = true) : ∃ neg e, v = .fin neg 0 e := by
  cases v with
  | fin neg m e =>
    obtain rfl : m = 0 := by simpa [FVal.isZero] using h
    exact ⟨neg, e, rfl⟩
  | _ => exact absurd h Bool.false_ne_true

theorem isZero_fin_eq_false {neg : Bool} {m : Nat} {e : Int} : (FVal.fin neg m e).isZero = false ↔ m ≠ 0 := by simp [FVal.isZero]

theorem ratOf_zero {v : FVal} (zero : v.isZero = true) : ratOf v = 0 := by
  obtain ⟨neg, e, rfl⟩ := exists_of_isZero zero
  simp [ratOf]

theorem isZero_of_ratOf_ne {v : FVal} (h : ratOf v ≠ 0) : v.isZero = false := Bool.eq_false_iff.mpr fun zero => h (ratOf_zero zero)

/-- A finite value other than zero: its sign, and a positive magnitude. -/
theorem ratOf_of_nonzero {v : FVal} (fin : isFin v = true) (nonzero : v.isZero = false) :
    0 < |ratOf v| ∧ ratOf v = signed v.sign |ratOf v| := by
  obtain ⟨neg, m, e, rfl⟩ := exists_of_isFin fin
  have pos : (0 : ℚ) < m * 2 ^ e := by
    have : 0 < m := Nat.pos_of_ne_zero (isZero_fin_eq_false.mp nonzero)
    positivity
  rw [ratOf_fin, abs_signed, abs_of_pos pos]
  exact ⟨pos, rfl⟩

theorem sign_eq_of_ratOf_eq {v : FVal} (fin : isFin v = true) (nonzero : v.isZero = false) (neg : Bool) {x : ℚ} (nonneg : 0 ≤ x)
    (same : ratOf v = signed neg x) : v.sign = neg ∧ |ratOf v| = x := by
  obtain ⟨pos, is⟩ := ratOf_of_nonzero fin nonzero
  have size : |ratOf v| = x := by rw [same, abs_signed, abs_of_nonneg nonneg]
  refine ⟨?_, size⟩
  rw [size] at pos
  rw [Bool.eq_iff_iff, ← signed_lt_zero_iff v.sign pos, ← signed_lt_zero_iff neg pos, ← same, is, size]

/-! ## Delivery -/

section Deliver
variable {f : Fmt} (h : f.Ieee) {rm : Rnd}

theorem Fmt.deliver_nan (f : Fmt) (rm : Rnd) {v : FVal} (nan : v.isNan = true) : f.deliver rm v = (f.nan, 0) := by
  obtain ⟨b, rfl⟩ := exists_of_isNan nan
  rfl

include h in
theorem Fmt.infinite_eq (neg : Bool) : f.infinite neg = (f.inf neg, 0) := by simp [Fmt.infinite, h.reading]

include h in
theorem Fmt.deliver_inf (rm : Rnd) {v : FVal} (inf : v.isInf = true) : f.deliver rm v = (f.inf v.sign, 0) := by
  obtain ⟨neg, rfl⟩ := exists_of_isInf inf
  exact f.infinite_eq h neg

theorem Fmt.deliver_zero (f : Fmt) (rm : Rnd) {v : FVal} (zero : v.isZero = true) :
    f.deliver rm v = (if v.sign then f.signBit else 0, 0) := by
  obtain ⟨neg, e, rfl⟩ := exists_of_isZero zero
  rw [Fmt.deliver, Fmt.round, if_pos ⟨rfl, rfl⟩]
  rfl

variable (mode : rm.IsMode)

include h mode in
/-- A finite value other than zero is rounded once. -/
theorem Fmt.deliver_eq_rounded {v : FVal} (fin : isFin v = true) (nonzero : v.isZero = false) :
    ∃ n, f.Below n (|ratOf v| : ℚ) ∧ f.deliver rm v = f.rounded rm v.sign (|ratOf v| : ℚ) n := by
  obtain ⟨neg, m, e, rfl⟩ := exists_of_isFin fin
  have size : ((|ratOf (.fin neg m e)| : ℚ) : ℝ) = m * 2 ^ e := by
    rw [ratOf_fin, abs_signed, abs_of_nonneg (by positivity)]
    push_cast
    rfl
  rw [size]
  exact Fmt.round_eq_rounded h mode neg (.exact m e) (isZero_fin_eq_false.mp nonzero) (by simp)

include h mode in
theorem Fmt.deliver_roundsTo {v : FVal} (fin : isFin v = true) (nonzero : v.isZero = false) :
    RoundsTo f rm (ratOf v) (f.deliver rm v) := by
  obtain ⟨n, below, is⟩ := Fmt.deliver_eq_rounded h mode fin nonzero
  obtain ⟨pos, number⟩ := ratOf_of_nonzero fin nonzero
  have rounds := Fmt.rounded_roundsTo h mode v.sign pos below
  rwa [← number, ← is] at rounds

/-- A number of the format is rounded to itself, with no flag. -/
theorem Fmt.rounded_exact (f : Fmt) (rm : Rnd) (neg : Bool) {j n : Nat} (fin : j < f.past) (below : f.Below n (f.magnitude j : ℚ)) :
    f.rounded rm neg (f.magnitude j : ℚ) n = (f.pattern neg j, 0) := by
  obtain rfl : n = j := below.unique ⟨le_rfl, by exact_mod_cast f.magnitude_lt_succ j⟩
  have stays : f.roundedMag rm neg (f.magnitude n : ℚ) n = n :=
    if_neg (not_takesUp_self rm neg _ (by exact_mod_cast f.magnitude_lt_succ n))
  rw [Fmt.rounded, stays, if_neg (Nat.not_le.mpr fin), if_pos rfl]

include h mode in
/-- A number of the format is delivered as it is. -/
theorem Fmt.deliver_exact {v : FVal} (fin : isFin v = true) (nonzero : v.isZero = false) {x : Nat} (small : x < 2 ^ f.width)
    (num : isFin (f.value x) = true) (same : ratOf (f.value x) = ratOf v) : f.deliver rm v = (x, 0) := by
  have bits := (f.isFin_value_iff h x).mp num
  rw [f.ratOf_value h x bits] at same
  obtain ⟨sign, size⟩ := sign_eq_of_ratOf_eq fin nonzero _ (f.magnitude_nonneg _) same.symm
  obtain ⟨n, below, is⟩ := Fmt.deliver_eq_rounded h mode fin nonzero
  rw [size] at below is
  rw [is, Fmt.rounded_exact f rm _ bits below, sign, f.pattern_isNeg_mod small]

theorem Fmt.inf_eq_pattern (f : Fmt) (neg : Bool) : f.inf neg = f.pattern neg f.past := rfl

theorem Fmt.inf_lt (f : Fmt) (neg : Bool) : f.inf neg < 2 ^ f.width := f.inf_eq_pattern neg ▸ f.pattern_lt neg f.past_lt_signBit

theorem Fmt.signed_zero_lt (f : Fmt) (neg : Bool) : (if neg then f.signBit else 0) < 2 ^ f.width := by
  have := f.pattern_lt neg f.signBit_pos
  rwa [Fmt.pattern, Nat.zero_add] at this

end Deliver

theorem FVal.kinds (v : FVal) : v.isNan = true ∨ v.isInf = true ∨ v.isZero = true ∨ isFin v = true ∧ v.isZero = false := by
  cases v with
  | fin n m e => cases h : FVal.isZero (.fin n m e) <;> simp [isFin]
  | _ => simp [FVal.isNan, FVal.isInf]

theorem Fmt.deliver_lt (f : FTy) {rm : Rnd} (mode : rm.IsMode) (v : FVal) : ((ftyFmt f).deliver rm v).1 < 2 ^ (ftyFmt f).width := by
  have h := Fmt.ieee_ftyFmt f
  rcases v.kinds with nan | inf | zero | ⟨fin, nonzero⟩
  · rw [Fmt.deliver_nan _ _ nan]
    cases f <;> decide
  · rw [Fmt.deliver_inf h _ inf]
    exact Fmt.inf_lt _ _
  · rw [Fmt.deliver_zero _ _ zero]
    exact Fmt.signed_zero_lt _ _
  · exact (Fmt.deliver_roundsTo h mode fin nonzero).1

/-- Settles O12: a delivery rounds once a magnitude that integers hold exactly, to one of its neighbours in the format. -/
theorem fpDelivery : Obligations.FpDelivery := by
  unfold Obligations.FpDelivery
  intro f mode v
  have h := Fmt.ieee_ftyFmt f
  have rmode := isMode_rndOf mode
  refine ⟨Fmt.deliver_lt f rmode v, fun nan => ?_, Fmt.deliver_inf h _, Fmt.deliver_zero _ _, ?_, rfl, Fmt.deliver_roundsTo h rmode⟩
  · rw [Fmt.deliver_nan _ _ nan]
    cases f <;> decide
  · exact fun x small fin nonzero num same => Fmt.deliver_exact h rmode fin nonzero small num same

end Sys2Proof.Machine
end

section
/-!
Quotients and square roots (R88 to R91): the digits that are computed, and one rounding of what they leave.
-/

namespace Sys2Proof.Machine

open Claims

theorem lt_bitLen {m b : Nat} (h : 2 ^ b ≤ m) : m ≠ 0 ∧ b < bitLen m := by
  have nonzero : m ≠ 0 := by have := Nat.two_pow_pos b; omega
  exact ⟨nonzero, (Nat.pow_lt_pow_iff_right one_lt_two).mp (h.trans_lt (bitLen_bounds nonzero).2.1)⟩

/-! ## Quotients -/

/-- The whole part of a quotient, with what a division leaves, holds it. -/
theorem HeldBy.div (n : Nat) {d : Nat} (pos : 0 < d) (e : Int) : HeldBy (n / d) e (n % d != 0) ((n : ℝ) / d * 2 ^ e) := by
  have unit : (0 : ℝ) < 2 ^ e := by positivity
  have real : (0 : ℝ) < d := by exact_mod_cast pos
  have split : ((n / d : ℕ) : ℝ) * d + (n % d : ℕ) = n := by exact_mod_cast Nat.div_add_mod' n d
  have small : ((n % d : ℕ) : ℝ) < d := by exact_mod_cast Nat.mod_lt n pos
  constructor
  · rw [mul_le_mul_iff_left₀ unit, le_div_iff₀ real]
    have := Nat.cast_nonneg (α := ℝ) (n % d)
    linarith
  · rw [mul_lt_mul_iff_left₀ unit, div_lt_iff₀ real]
    linarith
  · rw [mul_lt_mul_iff_left₀ unit, lt_div_iff₀ real, ← split, lt_add_iff_pos_right, Nat.cast_pos, bne_iff_ne, Nat.pos_iff_ne_zero]

section Quotient
variable {f : Fmt} (h : f.Ieee) {rm : Rnd} {A B : FVal}

theorem Fmt.quotient_nan (f : Fmt) (rm : Rnd) (nan : A.isNan = true ∨ B.isNan = true) :
    f.quotient rm A B = (f.nan, flagIf (A.isSnan || B.isSnan) flagNv) := by
  rcases nan with nan | nan <;> obtain ⟨x, rfl⟩ := exists_of_isNan nan
  · cases B <;> simp [Fmt.quotient, FVal.isSnan]
  · cases A <;> simp [Fmt.quotient, FVal.isSnan]

theorem Fmt.quotient_inf_inf (f : Fmt) (rm : Rnd) (a : A.isInf = true) (b : B.isInf = true) : f.quotient rm A B = (f.nan, flagNv) := by
  obtain ⟨n1, rfl⟩ := exists_of_isInf a
  obtain ⟨n2, rfl⟩ := exists_of_isInf b
  rfl

include h in
theorem Fmt.quotient_inf_fin (a : A.isInf = true) (b : isFin B = true) : f.quotient rm A B = (f.inf (A.sign != B.sign), 0) := by
  obtain ⟨n1, rfl⟩ := exists_of_isInf a
  obtain ⟨n2, m2, e2, rfl⟩ := exists_of_isFin b
  exact f.infinite_eq h _

theorem Fmt.quotient_fin_inf (f : Fmt) (rm : Rnd) (a : isFin A = true) (b : B.isInf = true) :
    f.quotient rm A B = (if A.sign != B.sign then f.signBit else 0, 0) := by
  obtain ⟨n1, m1, e1, rfl⟩ := exists_of_isFin a
  obtain ⟨n2, rfl⟩ := exists_of_isInf b
  rfl

theorem Fmt.quotient_zero_zero (f : Fmt) (rm : Rnd) (a : A.isZero = true) (b : B.isZero = true) :
    f.quotient rm A B = (f.nan, flagNv) := by
  obtain ⟨n1, e1, rfl⟩ := exists_of_isZero a
  obtain ⟨n2, e2, rfl⟩ := exists_of_isZero b
  rfl

include h in
theorem Fmt.quotient_by_zero (a : isFin A = true) (nonzero : A.isZero = false) (b : B.isZero = true) :
    f.quotient rm A B = (f.inf (A.sign != B.sign), flagDz) := by
  obtain ⟨n1, m1, e1, rfl⟩ := exists_of_isFin a
  obtain ⟨n2, e2, rfl⟩ := exists_of_isZero b
  rw [isZero_fin_eq_false] at nonzero
  simp [Fmt.quotient, FVal.sign, nonzero, f.infinite_eq h]

theorem Fmt.quotient_zero (f : Fmt) (rm : Rnd) (a : A.isZero = true) (b : isFin B = true) (nonzero : B.isZero = false) :
    f.quotient rm A B = (if A.sign != B.sign then f.signBit else 0, 0) := by
  obtain ⟨n1, e1, rfl⟩ := exists_of_isZero a
  obtain ⟨n2, m2, e2, rfl⟩ := exists_of_isFin b
  rw [isZero_fin_eq_false] at nonzero
  simp [Fmt.quotient, FVal.sign, nonzero]

theorem signed_div_signed (n1 n2 : Bool) (x y : ℚ) : signed n1 x / signed n2 y = signed (n1 != n2) (x / y) := by
  cases n1 <;> cases n2 <;> simp [signed, neg_div, div_neg]

variable (mode : rm.IsMode) (a : isFin A = true) (a0 : A.isZero = false) (b : isFin B = true) (b0 : B.isZero = false)
include a a0 b b0

theorem ratOf_div_ratOf : 0 < |ratOf A / ratOf B| ∧ ratOf A / ratOf B = signed (A.sign != B.sign) |ratOf A / ratOf B| := by
  obtain ⟨posA, isA⟩ := ratOf_of_nonzero a a0
  obtain ⟨posB, isB⟩ := ratOf_of_nonzero b b0
  rw [abs_div]
  refine ⟨div_pos posA posB, ?_⟩
  rw [← signed_div_signed, ← isA, ← isB]

include h mode

/-- Any other quotient is the exact one, rounded once. -/
theorem Fmt.quotient_eq_rounded : ∃ n, f.Below n (|ratOf A / ratOf B| : ℚ) ∧
    f.quotient rm A B = f.rounded rm (A.sign != B.sign) (|ratOf A / ratOf B| : ℚ) n := by
  obtain ⟨n1, m1, e1, rfl⟩ := exists_of_isFin a
  obtain ⟨n2, m2, e2, rfl⟩ := exists_of_isFin b
  rw [isZero_fin_eq_false] at a0 b0
  obtain ⟨k, hk⟩ : ∃ k, k = extraBits f + bitLen m2 := ⟨_, rfl⟩
  have held := HeldBy.div (m1 * 2 ^ k) (Nat.pos_of_ne_zero b0) (e1 - e2 - k)
  have size : ((|ratOf (.fin n1 m1 e1) / ratOf (.fin n2 m2 e2)| : ℚ) : ℝ) = ((m1 * 2 ^ k : ℕ) : ℝ) / m2 * 2 ^ (e1 - e2 - k) := by
    rw [ratOf_fin, ratOf_fin, signed_div_signed, abs_signed, abs_of_nonneg (by positivity)]
    have : (m2 : ℝ) ≠ 0 := by exact_mod_cast b0
    push_cast
    rw [zpow_sub₀ two_ne_zero, zpow_sub₀ two_ne_zero, zpow_natCast]
    field_simp
  have digits : 2 ^ extraBits f ≤ m1 * 2 ^ k / m2 := by
    rw [Nat.le_div_iff_mul_le (Nat.pos_of_ne_zero b0), hk, pow_add]
    calc 2 ^ extraBits f * m2 ≤ 2 ^ extraBits f * 2 ^ bitLen m2 := Nat.mul_le_mul_left _ (bitLen_bounds b0).2.1.le
      _ ≤ m1 * (2 ^ extraBits f * 2 ^ bitLen m2) := Nat.le_mul_of_pos_left _ (Nat.pos_of_ne_zero a0)
  obtain ⟨nonzero, long⟩ := lt_bitLen digits
  have round : f.quotient rm (.fin n1 m1 e1) (.fin n2 m2 e2) =
      f.round rm (n1 != n2) (m1 * 2 ^ k / m2) (e1 - e2 - k) (m1 * 2 ^ k % m2 != 0) := by
    simp only [Fmt.quotient, a0, b0, if_false, hk]
  rw [size, round]
  exact Fmt.round_eq_rounded h mode _ held nonzero fun _ => by unfold extraBits at long; omega

theorem Fmt.quotient_roundsTo : RoundsTo f rm (ratOf A / ratOf B) (f.quotient rm A B) := by
  obtain ⟨n, below, is⟩ := Fmt.quotient_eq_rounded h mode a a0 b b0
  obtain ⟨pos, number⟩ := ratOf_div_ratOf a a0 b b0
  have rounds := Fmt.rounded_roundsTo h mode (A.sign != B.sign) pos below
  rwa [← number, ← is] at rounds

/-- A quotient of finite binary expansion is delivered. -/
theorem Fmt.quotient_eq_deliver {q : FVal} (fin : isFin q = true) (nonzero : q.isZero = false) (same : ratOf q * ratOf B = ratOf A) :
    f.quotient rm A B = f.deliver rm q := by
  obtain ⟨n, below, is⟩ := Fmt.quotient_eq_rounded h mode a a0 b b0
  obtain ⟨k, below', is'⟩ := Fmt.deliver_eq_rounded h mode fin nonzero
  obtain ⟨pos, number⟩ := ratOf_div_ratOf a a0 b b0
  have divisor : ratOf B ≠ 0 := abs_pos.mp (ratOf_of_nonzero b b0).1
  rw [← same, mul_div_cancel_right₀ _ divisor] at below is number
  obtain ⟨sign, -⟩ := sign_eq_of_ratOf_eq fin nonzero _ (abs_nonneg _) number
  rw [is, is', sign, below.unique below']

end Quotient

/-! ## Square roots -/

theorem sqrtFrom_spec (n i r : Nat) (low : r * r ≤ n) (high : n < (r + 2 ^ i) * (r + 2 ^ i)) :
    sqrtFrom n i r * sqrtFrom n i r ≤ n ∧ n < (sqrtFrom n i r + 1) * (sqrtFrom n i r + 1) := by
  induction i generalizing r with
  | zero => exact ⟨low, high⟩
  | succ i ih =>
    rw [sqrtFrom, sqrtStep]
    split
    · next fits => exact ih _ fits (by rwa [Nat.add_assoc, ← Nat.two_mul, ← pow_succ'])
    · next over_ => exact ih _ low (Nat.lt_of_not_le over_)

/-- R91: the digits found are those of the whole part of the root. -/
theorem natSqrt_spec (n : Nat) : natSqrt n * natSqrt n ≤ n ∧ n < (natSqrt n + 1) * (natSqrt n + 1) := by
  refine sqrtFrom_spec n _ 0 (Nat.zero_le _) ?_
  rw [Nat.zero_add, ← pow_add]
  rcases Nat.eq_zero_or_pos n with rfl | pos
  · exact Nat.two_pow_pos _
  · exact (bitLen_bounds pos.ne').2.1.trans_le (Nat.pow_le_pow_right two_pos (by omega))

theorem HeldBy.sqrt (v : Nat) (e : Int) : HeldBy (natSqrt v) e (natSqrt v * natSqrt v != v) (√v * 2 ^ e) := by
  have unit : (0 : ℝ) < 2 ^ e := by positivity
  obtain ⟨low, high⟩ := natSqrt_spec v
  generalize natSqrt v = r at low high ⊢
  constructor
  · rw [mul_le_mul_iff_left₀ unit, Real.le_sqrt (Nat.cast_nonneg _) (Nat.cast_nonneg _), sq]
    exact_mod_cast low
  · rw [mul_lt_mul_iff_left₀ unit, Real.sqrt_lt' (by positivity), sq]
    exact_mod_cast high
  · rw [mul_lt_mul_iff_left₀ unit, Real.lt_sqrt (Nat.cast_nonneg _), sq, bne_iff_ne, ← low.lt_iff_ne]
    norm_cast

section Root
variable {f : Fmt} (h : f.Ieee) {rm : Rnd} {A : FVal}

theorem Fmt.root_nan (f : Fmt) (rm : Rnd) (nan : A.isNan = true) : f.root rm A = (f.nan, flagIf A.isSnan flagNv) := by
  obtain ⟨b, rfl⟩ := exists_of_isNan nan
  rfl

include h in
theorem Fmt.root_inf (inf : A.isInf = true) (pos : A.sign = false) : f.root rm A = (f.inf false, 0) := by
  obtain ⟨neg, rfl⟩ := exists_of_isInf inf
  obtain rfl : neg = false := pos
  exact f.infinite_eq h false

theorem Fmt.root_zero (f : Fmt) (rm : Rnd) (zero : A.isZero = true) : f.root rm A = (if A.sign then f.signBit else 0, 0) := by
  obtain ⟨neg, e, rfl⟩ := exists_of_isZero zero
  rfl

theorem Fmt.root_negative (f : Fmt) (rm : Rnd) (num : A.isNan = false) (nonzero : A.isZero = false) (neg : A.sign = true) :
    f.root rm A = (f.nan, flagNv) := by
  cases A with
  | nan b => exact Bool.noConfusion num
  | inf n =>
    obtain rfl : n = true := neg
    rfl
  | fin n m e =>
    obtain rfl : n = true := neg
    rw [Fmt.root, if_neg (isZero_fin_eq_false.mp nonzero), if_pos rfl]

variable (mode : rm.IsMode) (a : isFin A = true) (a0 : A.isZero = false) (pos : A.sign = false)
include h mode a a0 pos

/-- Any other root is the exact one, rounded once. -/
theorem Fmt.root_eq_rounded : ∃ n, f.Below n √(ratOf A : ℚ) ∧ f.root rm A = f.rounded rm false √(ratOf A : ℚ) n := by
  obtain ⟨neg, m, e, rfl⟩ := exists_of_isFin a
  obtain rfl : neg = false := pos
  rw [isZero_fin_eq_false] at a0
  obtain ⟨k, hk⟩ : ∃ k, k = 2 * extraBits f + if e % 2 = 0 then 0 else 1 := ⟨_, rfl⟩
  have even : e - k = (e - k) / 2 + (e - k) / 2 := by split at hk <;> omega
  have held := HeldBy.sqrt (m * 2 ^ k) ((e - k) / 2)
  have size : √((ratOf (.fin false m e) : ℚ) : ℝ) = √(m * 2 ^ k : ℕ) * 2 ^ ((e - k) / 2) := by
    have unit : (0 : ℝ) ≤ 2 ^ ((e - k) / 2) := by positivity
    rw [← Real.sqrt_mul_self unit, ← Real.sqrt_mul (Nat.cast_nonneg _), ← zpow_add₀ two_ne_zero, ← even, ratOf_fin]
    congr 1
    simp only [signed, Bool.false_eq_true, if_false]
    push_cast
    rw [mul_assoc, ← zpow_natCast, ← zpow_add₀ two_ne_zero, add_sub_cancel]
  have digits : 2 ^ extraBits f ≤ natSqrt (m * 2 ^ k) := by
    have large : 2 ^ extraBits f * 2 ^ extraBits f ≤ m * 2 ^ k := by
      rw [← pow_add]
      exact (Nat.pow_le_pow_right two_pos (by omega)).trans (Nat.le_mul_of_pos_left _ (Nat.pos_of_ne_zero a0))
    exact Nat.lt_succ_iff.mp (Nat.mul_self_lt_mul_self_iff.mp (large.trans_lt (natSqrt_spec _).2))
  obtain ⟨nonzero, long⟩ := lt_bitLen digits
  have round : f.root rm (.fin false m e) =
      f.round rm false (natSqrt (m * 2 ^ k)) ((e - k) / 2) (natSqrt (m * 2 ^ k) * natSqrt (m * 2 ^ k) != m * 2 ^ k) := by
    simp only [Fmt.root, a0, Bool.false_eq_true, if_false, hk]
  rw [size, round]
  exact Fmt.round_eq_rounded h mode _ held nonzero fun _ => by unfold extraBits at long; omega

/-- A root of finite binary expansion is delivered. -/
theorem Fmt.root_eq_deliver {q : FVal} (fin : isFin q = true) (nonzero : q.isZero = false) (q0 : q.sign = false)
    (same : ratOf q * ratOf q = ratOf A) : f.root rm A = f.deliver rm q := by
  obtain ⟨n, below, is⟩ := Fmt.root_eq_rounded h mode a a0 pos
  obtain ⟨k, below', is'⟩ := Fmt.deliver_eq_rounded h mode fin nonzero
  have root : √((ratOf A : ℚ) : ℝ) = (|ratOf q| : ℚ) := by
    rw [← same, Rat.cast_mul, Real.sqrt_mul_self_eq_abs, Rat.cast_abs]
  rw [root] at below is
  rw [is, is', q0, below.unique below']

end Root

theorem Fmt.magnitude_one (f : Fmt) : f.magnitude 1 = 2 ^ f.low := by simpa using f.magnitude_units 0 1 Nat.one_le_two_pow (.inl rfl)

/-- A number of a format other than zero is at least its least positive one, and below 2^(bias + 1). -/
theorem Fmt.value_range {f : Fmt} (h : f.Ieee) (x : Nat) (fin : isFin (f.value x) = true) (nonzero : (f.value x).isZero = false) :
    2 ^ f.low ≤ |ratOf (f.value x)| ∧ |ratOf (f.value x)| < 2 ^ ((f.bias : Int) + 1) := by
  have bits := (f.isFin_value_iff h x).mp fin
  obtain ⟨pos, -⟩ := ratOf_of_nonzero fin nonzero
  rw [f.ratOf_value h x bits, abs_signed, abs_of_nonneg (f.magnitude_nonneg _)] at pos ⊢
  rw [← f.magnitude_zero, f.magnitude_strictMono.lt_iff_lt] at pos
  rw [← Fmt.magnitude_past h, ← f.magnitude_one]
  exact ⟨f.magnitude_strictMono.monotone pos, f.magnitude_strictMono bits⟩

theorem sq_le_iff {t E : ℚ} (h : 0 ≤ t) (hE : 0 ≤ E) : t * t ≤ E ↔ (t : ℝ) ≤ √E := by
  rw [Real.le_sqrt (by exact_mod_cast h) (by exact_mod_cast hE), sq]
  norm_cast

theorem le_sq_iff {t E : ℚ} (h : 0 ≤ t) : E ≤ t * t ↔ √E ≤ (t : ℝ) := by
  rw [Real.sqrt_le_left (by exact_mod_cast h), sq]
  norm_cast

/-- A positive number of a format is the magnitude of its bits. -/
theorem Fmt.exists_magnitude_of_pos {f : Fmt} (h : f.Ieee) (x : Nat) (fin : isFin (f.value x) = true) (pos : 0 < ratOf (f.value x)) :
    ∃ j, ratOf (f.value x) = f.magnitude j := by
  have nonneg := f.magnitude_nonneg (x % f.signBit)
  rw [f.ratOf_value h x ((f.isFin_value_iff h x).mp fin)] at pos ⊢
  cases sign : f.isNeg x
  · exact ⟨_, rfl⟩
  · rw [sign, signed, if_pos rfl] at pos
    linarith

section RootOf
variable {f : Fmt} (h : f.Ieee) {rm : Rnd} {E : ℚ} (low : 2 ^ f.low ≤ E) (high : E < 2 ^ ((f.bias : Int) + 1))

include h low in
/-- The root of a number of a format is no tiny number. -/
theorem Fmt.normal_le_sqrt : (2 : ℝ) ^ (1 - (f.bias : Int)) ≤ √E := by
  have small : (2 : ℝ) ^ f.low ≤ E := by simpa using (Rat.cast_le (K := ℝ)).mpr low
  refine Real.le_sqrt_of_sq_le (le_trans ?_ small)
  rw [sq, ← zpow_add₀ two_ne_zero]
  have := h.frac_lt_bias
  exact zpow_le_zpow_right₀ one_le_two (by rw [Fmt.low]; omega)

include h high in
/-- The root of a number of a format does not overflow. -/
theorem Fmt.sqrt_lt_bias : √E < (2 : ℝ) ^ ((f.bias : Int) + 1 - 1) := by
  have large : (E : ℝ) < 2 ^ ((f.bias : Int) + 1) := by exact_mod_cast high
  rw [Real.sqrt_lt' (by positivity), sq, ← zpow_add₀ two_ne_zero]
  have := h.frac_lt_bias
  exact large.trans_le (zpow_le_zpow_right₀ one_le_two (by omega))

include h low in
theorem Fmt.Below.sqrt_pos {n : Nat} (below : f.Below n √E) : 0 < n := by
  refine Nat.pos_of_ne_zero fun zero => absurd below.upper (not_lt.mpr (le_trans ?_ (Fmt.normal_le_sqrt h low)))
  rw [zero, f.magnitude_one, Rat.cast_zpow, Rat.cast_ofNat]
  exact zpow_le_zpow_right₀ one_le_two (by rw [Fmt.low]; omega)

include low in
/-- To the nearest, the root lies on the near side of the midpoint to any other number. -/
theorem Fmt.Below.midpoint {n : Nat} (below : f.Below n √E) (j : Nat) :
    let v := f.magnitude (f.roundedMag .rne false √E n)
    let w := f.magnitude j
    (v < w → 4 * E ≤ (v + w) * (v + w)) ∧ (w < v → (v + w) * (v + w) ≤ 4 * E) := by
  intro v w
  have v0 : 0 ≤ v := f.magnitude_nonneg _
  have w0 : 0 ≤ w := f.magnitude_nonneg _
  have near : |(v : ℝ) - √E| ≤ |w - √E| := (below.nearest j).1
  have positive : 0 ≤ E := le_trans (by positivity) low
  rw [← sq_le_sq, sub_sq, sub_sq] at near
  constructor <;> intro less
  · have apart : (v : ℝ) < w := by exact_mod_cast less
    have := (le_sq_iff (E := E) (t := (v + w) / 2) (by linarith)).mpr (by push_cast; nlinarith)
    linarith
  · have apart : (w : ℝ) < v := by exact_mod_cast less
    have := (sq_le_iff (E := E) (t := (v + w) / 2) (by linarith) positive).mpr (by push_cast; nlinarith)
    linarith

/-- A root within a format, rounded once, is rounded as R88 says. -/
theorem Fmt.rounded_rootOf (h : f.Ieee) (low : 2 ^ f.low ≤ E) (high : E < 2 ^ ((f.bias : Int) + 1)) {n : Nat} (below : f.Below n √E) :
    RootOf f rm E (f.rounded rm false √E n) := by
  have normal := Fmt.normal_le_sqrt h low
  have fin : f.roundedMag rm false √E n < f.past := Nat.not_le.mp fun over_ =>
    f.not_reachesReal_of_lt_half rm false (Fmt.sqrt_lt_bias h high) ((Fmt.past_le_roundedMag_iff h below).mp over_)
  have small := fin.trans f.past_lt_signBit
  have value := Fmt.ratOf_value_pattern h false fin
  have positive : 0 < E := lt_of_lt_of_le (by positivity) low
  have least := f.magnitude_nonneg (f.roundedMag rm false √E n)
  unfold RootOf Fmt.rounded
  rw [if_neg (Nat.not_le.mpr fin)]
  simp only [value, signed, Bool.false_eq_true, if_false]
  have whole : f.magnitude (f.roundedMag rm false √E n) * f.magnitude (f.roundedMag rm false √E n) = E ↔ √E = f.magnitude n := by
    rw [← below.rounded_eq_iff (rm := rm) (neg := false), le_antisymm_iff, le_antisymm_iff, sq_le_iff least positive.le, le_sq_iff least]
  refine ⟨f.pattern_lt false small, (f.isFin_value_iff h _).mpr (by rwa [f.pattern_mod false small]), ?_, ?_, ?_, ?_, ?_⟩
  · rw [← f.magnitude_zero]
    have := Fmt.Below.sqrt_pos h low below
    exact f.magnitude_strictMono (by rcases f.roundedMag_cases rm false √E n with ⟨c, -⟩ | ⟨c, -⟩ <;> omega)
  · by_cases exact : √E = f.magnitude n
    · rw [if_pos exact, if_pos (whole.mpr exact)]
    · rw [if_neg exact, if_neg (mt whole.mp exact), if_pos (f.reachesReal_of_le rm false normal)]
  · rintro down
    rw [sq_le_iff least positive.le]
    exact (below.directed (by rcases down with rfl | rfl <;> decide)).1 (by rcases down with rfl | rfl <;> rfl)
  · rintro rfl
    rw [le_sq_iff least]
    exact (below.directed (by decide)).2.1 rfl
  · intro x _ num pos
    obtain ⟨j, is⟩ := Fmt.exists_magnitude_of_pos h x num pos
    rw [is] at pos ⊢
    refine ⟨fun side => ?_, ?_⟩
    · rw [sq_le_iff pos.le positive.le, le_sq_iff pos.le]
      exact (below.directed side).2.2 j
    · rintro rfl
      exact Fmt.Below.midpoint low below j

end RootOf

section
variable {gd : Guard} {s : State} (issues : Issues gd s) (d a b : GReg) (f : FTy)
include issues

theorem exec_fdiv : exec (.fdiv gd d a b f) s = .next (s.setF d ((ftyFmt f).quotient s.rnd (fpVal f s a) (fpVal f s b))) :=
  half_runs gd s (fun s => s.setF d ((ftyFmt f).quotient s.rnd (fpVal f s a) (fpVal f s b))) issues.1 issues.2

theorem exec_fsqrt : exec (.fsqrt gd d a f) s = .next (s.setF d ((ftyFmt f).root s.rnd (fpVal f s a))) :=
  half_runs gd s (fun s => s.setF d ((ftyFmt f).root s.rnd (fpVal f s a))) issues.1 issues.2

end

theorem Fmt.root_rootOf {f : Fmt} (h : f.Ieee) {rm : Rnd} (mode : rm.IsMode) (x : Nat) (fin : isFin (f.value x) = true)
    (nonzero : (f.value x).isZero = false) (pos : (f.value x).sign = false) :
    RootOf f rm (ratOf (f.value x)) (f.root rm (f.value x)) := by
  obtain ⟨n, below, is⟩ := Fmt.root_eq_rounded h mode fin nonzero pos
  obtain ⟨low, high⟩ := Fmt.value_range h x fin nonzero
  obtain ⟨-, number⟩ := ratOf_of_nonzero fin nonzero
  rw [pos] at number
  rw [is]
  exact Fmt.rounded_rootOf h (number ▸ low) (number ▸ high) below

/-- Settles O8: quotients and roots are computed to more digits than a rounding looks at, and what is left below them is kept as one bit. -/
theorem fpDivisionAndRoot : Obligations.FpDivisionAndRoot := by
  unfold Obligations.FpDivisionAndRoot
  intro gd d a b f s issues
  have h := Fmt.ieee_ftyFmt f
  have mode : s.rnd.IsMode := isMode_rndOf _
  refine ⟨⟨_, _, exec_fdiv issues d a b f, ?_⟩, _, _, exec_fsqrt issues d a f, ?_⟩
  · refine ⟨fun nan => Prod.ext_iff.mp (Fmt.quotient_nan _ _ nan), fun a b => Prod.ext_iff.mp (Fmt.quotient_inf_inf _ _ a b),
      fun a b => Prod.ext_iff.mp (Fmt.quotient_inf_fin h a b), fun a b => Prod.ext_iff.mp (Fmt.quotient_fin_inf _ _ a b),
      fun a b => Prod.ext_iff.mp (Fmt.quotient_zero_zero _ _ a b), fun a a0 b => Prod.ext_iff.mp (Fmt.quotient_by_zero h a a0 b),
      fun a b b0 => Prod.ext_iff.mp (Fmt.quotient_zero _ _ a b b0), Fmt.quotient_roundsTo h mode, ?_⟩
    intro q fin nonzero a b b0 same
    have a0 : ratOf (fpVal f s _) ≠ 0 := same ▸
      mul_ne_zero (abs_pos.mp (ratOf_of_nonzero fin nonzero).1) (abs_pos.mp (ratOf_of_nonzero b b0).1)
    exact Fmt.quotient_eq_deliver h mode a (isZero_of_ratOf_ne a0) b b0 fin nonzero same
  · refine ⟨fun nan => Prod.ext_iff.mp (Fmt.root_nan _ _ nan), fun inf pos => Prod.ext_iff.mp (Fmt.root_inf h inf pos),
      fun zero => Prod.ext_iff.mp (Fmt.root_zero _ _ zero), fun num nonzero neg => Prod.ext_iff.mp (Fmt.root_negative _ _ num nonzero neg),
      Fmt.root_rootOf h mode _, ?_⟩
    intro q fin nonzero q0 a pos same
    have root := abs_pos.mp (ratOf_of_nonzero fin nonzero).1
    exact Fmt.root_eq_deliver h mode a (isZero_of_ratOf_ne (same ▸ mul_ne_zero root root)) pos fin nonzero q0 same

end Sys2Proof.Machine
end

section
/-!
Scalar sums, products and fused operations (R91, R92).
-/

namespace Sys2Proof.Machine

open Claims

/-- Two magnitudes at one exponent. -/
theorem alignTo_spec (n1 n2 : Bool) (m1 m2 : Nat) (e1 e2 : Int) :
    let t := alignTo n1 m1 e1 n2 m2 e2
    ratOf (.fin n1 m1 e1) = (t.1 : ℚ) * 2 ^ t.2.2 ∧ ratOf (.fin n2 m2 e2) = (t.2.1 : ℚ) * 2 ^ t.2.2 := by
  have shift (n : Bool) (m : Nat) (e e' : Int) (le : e ≤ e') :
      ratOf (.fin n m e') =
        (((if n then -((m * 2 ^ (e' - e).toNat : ℕ) : Int) else ((m * 2 ^ (e' - e).toNat : ℕ) : Int)) : Int) : ℚ) * 2 ^ e := by
    have split : (2 : ℚ) ^ e' = 2 ^ (e' - e).toNat * 2 ^ e := by
      rw [← zpow_natCast, ← zpow_add₀ two_ne_zero]
      congr 1
      omega
    rw [ratOf, split]
    cases n <;> push_cast <;> simp <;> ring
  exact ⟨shift n1 m1 _ e1 (min_le_left _ _), shift n2 m2 _ e2 (min_le_right _ _)⟩

theorem ratOf_ofAligned (t e : Int) : ratOf (.fin (decide (t < 0)) t.natAbs e) = (t : ℚ) * 2 ^ e := by
  rw [ratOf, ← Int.cast_natCast, Int.natCast_natAbs]
  by_cases neg : t < 0
  · simp [neg, abs_of_neg]
  · simp [neg, abs_of_nonneg (not_lt.mp neg)]

/-- R91: the sum of finite values is exact, and that of opposite ones has the sign of the mode. -/
theorem isSum_add_fin (rm : Rnd) (n1 n2 : Bool) (m1 m2 : Nat) (e1 e2 : Int) :
    let x := FVal.fin n1 m1 e1
    let y := FVal.fin n2 m2 e2
    isFin (x.add rm y).1 = true ∧ ratOf (x.add rm y).1 = ratOf x + ratOf y ∧ (x.add rm y).2 = 0 ∧
      (ratOf x + ratOf y = 0 → (x.add rm y).1.sign = if x.isZero && y.isZero && x.sign == y.sign then x.sign else rm == .rdn) := by
  have spec := alignTo_spec n1 n2 m1 m2 e1 e2
  simp only [FVal.add]
  generalize alignTo n1 m1 e1 n2 m2 e2 = t at spec ⊢
  obtain ⟨a, b, e⟩ := t
  obtain ⟨ha, hb⟩ := spec
  have sum : ratOf (.fin n1 m1 e1) + ratOf (.fin n2 m2 e2) = ((a + b : Int) : ℚ) * 2 ^ e := by rw [ha, hb]; push_cast; ring
  have zero : ((a + b : Int) : ℚ) * 2 ^ e = 0 ↔ a + b = 0 := by
    rw [mul_eq_zero, or_iff_left (zpow_ne_zero _ two_ne_zero), Int.cast_eq_zero]
  rw [sum, zero]
  by_cases opposite : a + b = 0
  · rw [if_pos opposite, opposite]
    refine ⟨rfl, by simp [ratOf], rfl, fun _ => ?_⟩
    simp [FVal.isZero, FVal.sign, and_assoc]
  · rw [if_neg opposite]
    exact ⟨rfl, ratOf_ofAligned _ _, rfl, fun h => absurd h opposite⟩

/-- R91: `FVal.add` gives the exact sum. -/
theorem isSum_add (rm : Rnd) (x y : FVal) : IsSum rm x y (x.add rm y).1 (x.add rm y).2 := by
  cases x with
  | nan a => cases y <;> simp [IsSum, FVal.add, FVal.isNan, FVal.isSnan, FVal.isInf, isFin]
  | inf a =>
    cases y with
    | inf b => by_cases same : a = b <;> simp [IsSum, FVal.add, FVal.isNan, FVal.isInf, isFin, FVal.sign, same]
    | _ => simp [IsSum, FVal.add, FVal.isNan, FVal.isSnan, FVal.isInf, isFin]
  | fin n1 m1 e1 =>
    cases y with
    | fin n2 m2 e2 =>
      have exact_ := isSum_add_fin rm n1 n2 m1 m2 e1 e2
      exact ⟨by simp [FVal.isNan], by simp [FVal.isInf], by simp [FVal.isInf], by simp [FVal.isInf], fun _ _ => exact_⟩
    | _ => simp [IsSum, FVal.add, FVal.isNan, FVal.isSnan, FVal.isInf, isFin]

theorem ratOf_mul_fin (n1 n2 : Bool) (m1 m2 : Nat) (e1 e2 : Int) :
    ratOf (.fin (n1 != n2) (m1 * m2) (e1 + e2)) = ratOf (.fin n1 m1 e1) * ratOf (.fin n2 m2 e2) := by
  simp only [ratOf, zpow_add₀ (two_ne_zero (α := ℚ)), Nat.cast_mul]
  cases n1 <;> cases n2 <;> simp <;> ring

/-- R91: `FVal.mul` gives the exact product. -/
theorem isProduct_mul (x y : FVal) : IsProduct x y (x.mul y).1 (x.mul y).2 := by
  cases x with
  | nan a => cases y <;> simp [IsProduct, FVal.mul, FVal.isNan, FVal.isSnan, FVal.isInf, FVal.isZero, isFin]
  | inf a =>
    cases y with
    | fin n m e => by_cases zero : m = 0 <;> simp [IsProduct, FVal.mul, FVal.isNan, FVal.isInf, FVal.isZero, FVal.sign, isFin, zero]
    | _ => simp [IsProduct, FVal.mul, FVal.isNan, FVal.isSnan, FVal.isInf, FVal.isZero, FVal.sign, isFin]
  | fin n1 m1 e1 =>
    cases y with
    | fin n2 m2 e2 =>
      exact ⟨by simp [FVal.isNan], by simp [FVal.isInf], by simp [FVal.isInf], fun _ _ => ⟨rfl, ratOf_mul_fin n1 n2 m1 m2 e1 e2, rfl, rfl⟩⟩
    | inf b => by_cases zero : m1 = 0 <;> simp [IsProduct, FVal.mul, FVal.isNan, FVal.isInf, FVal.isZero, FVal.sign, isFin, zero]
    | nan b => simp [IsProduct, FVal.mul, FVal.isNan, FVal.isSnan, FVal.isInf, isFin]

section
variable {gd : Guard} {s : State} (issues : Issues gd s) (d a b : GReg) (f : FTy)

include issues

theorem exec_fadd : exec (.fadd gd d a b f) s = .next (s.setF d ((ftyFmt f).sum s.rnd (fpVal f s a) (fpVal f s b))) :=
  half_runs gd s (fun s => s.setF d ((ftyFmt f).sum s.rnd (fpVal f s a) (fpVal f s b))) issues.1 issues.2

theorem exec_fsub : exec (.fsub gd d a b f) s = .next (s.setF d ((ftyFmt f).sum s.rnd (fpVal f s a) (fpVal f s b).negate)) :=
  half_runs gd s (fun s => s.setF d ((ftyFmt f).sum s.rnd (fpVal f s a) (fpVal f s b).negate)) issues.1 issues.2

theorem exec_fmul : exec (.fmul gd d a b f) s = .next (s.setF d ((ftyFmt f).product s.rnd (fpVal f s a) (fpVal f s b))) :=
  half_runs gd s (fun s => s.setF d ((ftyFmt f).product s.rnd (fpVal f s a) (fpVal f s b))) issues.1 issues.2

theorem exec_fma : exec (.fma gd d a b f) s =
    .next (s.setF d ((ftyFmt f).fused s.rnd (fpVal f s a) (fpVal f s b) (fpVal f s d) false)) :=
  half_runs gd s (fun s => s.setF d ((ftyFmt f).fused s.rnd (fpVal f s a) (fpVal f s b) (fpVal f s d) false)) issues.1 issues.2

theorem exec_fms : exec (.fms gd d a b f) s =
    .next (s.setF d ((ftyFmt f).fused s.rnd (fpVal f s a) (fpVal f s b) (fpVal f s d).negate false)) :=
  half_runs gd s (fun s => s.setF d ((ftyFmt f).fused s.rnd (fpVal f s a) (fpVal f s b) (fpVal f s d).negate false)) issues.1 issues.2

theorem exec_fnma : exec (.fnma gd d a b f) s =
    .next (s.setF d ((ftyFmt f).fused s.rnd (fpVal f s a) (fpVal f s b) (fpVal f s d) true)) :=
  half_runs gd s (fun s => s.setF d ((ftyFmt f).fused s.rnd (fpVal f s a) (fpVal f s b) (fpVal f s d) true)) issues.1 issues.2

end

/-- Settles O7: each operation delivers the value that `FVal.add` and `FVal.mul` give, which is exact. -/
theorem fpArithmetic : Obligations.FpArithmetic := by
  unfold Obligations.FpArithmetic
  intro gd d a b f s issues A B D
  exact ⟨⟨_, _, isSum_add _ _ _, exec_fadd issues d a b f⟩, ⟨_, _, isSum_add _ _ _, exec_fsub issues d a b f⟩,
    ⟨_, _, isProduct_mul _ _, exec_fmul issues d a b f⟩, _, _, isProduct_mul _ _, ⟨_, _, isSum_add _ _ _, exec_fma issues d a b f⟩,
    ⟨_, _, isSum_add _ _ _, exec_fms issues d a b f⟩, _, _, isSum_add _ _ _, exec_fnma issues d a b f⟩

end Sys2Proof.Machine
end

section
/-!
Scalar conversions (R97): between the formats, to integers and from them.
-/

namespace Sys2Proof.Machine

open Claims

/-! ## Between formats -/

/-- An integer of no more digits than the precision of a format, at a place that it has, is a magnitude of it. -/
theorem Fmt.exists_magnitude (f : Fmt) (i m : Nat) (few : m < 2 ^ (f.frac + 1)) : ∃ j, f.magnitude j = m * 2 ^ (f.low + i) := by
  induction i generalizing m with
  | zero => exact ⟨m, by simpa using f.magnitude_units 0 m few.le (.inl rfl)⟩
  | succ i ih =>
    rcases Nat.lt_or_ge m (2 ^ f.frac) with sub | normal
    · obtain ⟨j, is⟩ := ih (2 * m) (by rw [pow_succ']; omega)
      refine ⟨j, is.trans ?_⟩
      rw [Nat.cast_succ, ← add_assoc, zpow_add_one₀ two_ne_zero]
      push_cast
      ring
    · exact ⟨_, f.magnitude_units (i + 1) m few.le (.inr normal)⟩

/-- A finite value of one format is a number of another that has no less precision and no less range. -/
theorem Fmt.exists_same_number {f g : Fmt} (hf : f.Ieee) (hg : g.Ieee) (frac : f.frac ≤ g.frac) (low : g.low ≤ f.low) (bias : f.bias ≤ g.bias)
    (x : Nat) (fin : isFin (f.value x) = true) :
    ∃ j, j < g.past ∧ ratOf (f.value x) = signed (f.value x).sign (g.magnitude j) ∧ ((f.value x).isZero = true → j = 0) := by
  have bits := (f.isFin_value_iff hf x).mp fin
  obtain ⟨m, e, is, number, zero, few, place⟩ := f.value_finite hf x bits
  obtain ⟨i, rfl⟩ : ∃ i : Nat, e = g.low + i := ⟨(e - g.low).toNat, by omega⟩
  obtain ⟨j, same⟩ := g.exists_magnitude i m (few.trans_le (Nat.pow_le_pow_right two_pos (by omega)))
  refine ⟨j, ?_, by rw [is, ratOf_fin, same]; rfl, fun none_ => ?_⟩
  · rw [← g.magnitude_strictMono.lt_iff_lt, same, number, Fmt.magnitude_past hg]
    calc f.magnitude (x % f.signBit) < f.magnitude f.past := f.magnitude_strictMono bits
      _ = 2 ^ ((f.bias : Int) + 1) := Fmt.magnitude_past hf
      _ ≤ 2 ^ ((g.bias : Int) + 1) := zpow_le_zpow_right₀ one_le_two (by omega)
  · have m0 : m = 0 := by simpa [is, FVal.isZero] using none_
    rw [m0, Nat.cast_zero, zero_mul, ← g.magnitude_zero] at same
    exact g.magnitude_strictMono.injective same

/-- R97: nothing is lost into a format that has no less precision and no less range. -/
theorem Fmt.deliver_widening {f g : Fmt} (hf : f.Ieee) (hg : g.Ieee) (frac : f.frac ≤ g.frac) (low : g.low ≤ f.low) (bias : f.bias ≤ g.bias)
    {rm : Rnd} (mode : rm.IsMode) (x : Nat) (fin : isFin (f.value x) = true) :
    ∃ y, g.deliver rm (f.value x) = (y, 0) ∧ isFin (g.value y) = true ∧ ratOf (g.value y) = ratOf (f.value x) := by
  obtain ⟨j, small, number, zero⟩ := Fmt.exists_same_number hf hg frac low bias x fin
  have bits := small.trans g.past_lt_signBit
  have num : isFin (g.value (g.pattern (f.value x).sign j)) = true := (g.isFin_value_iff hg _).mpr (by rwa [g.pattern_mod _ bits])
  have same : ratOf (g.value (g.pattern (f.value x).sign j)) = ratOf (f.value x) := by rw [Fmt.ratOf_value_pattern hg _ small, number]
  refine ⟨g.pattern (f.value x).sign j, ?_, num, same⟩
  cases none_ : (f.value x).isZero
  · exact Fmt.deliver_exact hg mode fin none_ (g.pattern_lt _ bits) num same
  · rw [g.deliver_zero rm none_, zero none_, Fmt.pattern, Nat.zero_add]

/-! ## To integers -/

section Integers
variable {rm : Rnd} {neg : Bool} {a : ℚ} {kept rem d : Nat}

/-- The units of a magnitude after its rounding. -/
def unitsRounded (rm : Rnd) (neg : Bool) (kept rem d : Nat) : Nat := kept + if rm.up neg kept rem d false then 1 else 0

variable (cut : Cut rm neg false a 0 kept rem d)
include cut

/-- A magnitude cut at whole units, in rational numbers. -/
theorem Cut.units : kept ≤ a ∧ a < kept + 1 ∧ ((rem != 0) = true ↔ kept < a) ∧
    (unitsRounded rm neg kept rem d = kept + 1 ∧ takesUp rm neg a kept (kept + 1) (kept % 2 = 1) ∨
      unitsRounded rm neg kept rem d = kept ∧ ¬takesUp rm neg a kept (kept + 1) (kept % 2 = 1)) := by
  obtain ⟨lower, upper, inexact, up⟩ := cut
  simp only [zpow_zero, mul_one] at lower upper inexact up
  rw [Bool.or_false] at inexact
  refine ⟨by exact_mod_cast lower, by exact_mod_cast upper, by rw [inexact]; norm_cast, ?_⟩
  rw [unitsRounded, ← up]
  cases rm.up neg kept rem d false <;> simp

/-- R88: to the nearest integer, with ties to even. -/
theorem Cut.nearest (mode : rm = .rne) : -1 ≤ 2 * (a - unitsRounded rm neg kept rem d) ∧ 2 * (a - unitsRounded rm neg kept rem d) ≤ 1 ∧
    (2 * (a - unitsRounded rm neg kept rem d) = 1 ∨ 2 * (a - unitsRounded rm neg kept rem d) = -1 → unitsRounded rm neg kept rem d % 2 = 0) := by
  obtain ⟨lower, upper, -, ⟨c, up⟩ | ⟨c, down⟩⟩ := cut.units <;> rw [c]
  · rw [takesUp, if_pos mode] at up
    have up : kept + 1 - a < a - kept ∨ kept + 1 - a = a - kept ∧ kept % 2 = 1 := by exact_mod_cast up
    push_cast
    rcases up with closer | ⟨tie, odd⟩
    · exact ⟨by linarith, by linarith, by rintro (h | h) <;> linarith⟩
    · exact ⟨by linarith, by linarith, fun _ => by omega⟩
  · rw [takesUp, if_pos mode, not_or, not_lt, not_and] at down
    obtain ⟨near, even⟩ : a - kept ≤ kept + 1 - a ∧ (kept + 1 - a = a - kept → ¬kept % 2 = 1) := by exact_mod_cast down
    exact ⟨by linarith, by linarith, by rintro (h | h); exacts [by have := even (by linarith); omega, by linarith]⟩

/-- R88: to the next integer on the side of the mode. -/
theorem Cut.directed (mode : rm ≠ .rne) :
    (rm.away neg = false → unitsRounded rm neg kept rem d ≤ a ∧ a < unitsRounded rm neg kept rem d + 1) ∧
    (rm.away neg = true → a ≤ unitsRounded rm neg kept rem d ∧ (unitsRounded rm neg kept rem d : ℚ) - 1 < a) := by
  obtain ⟨lower, upper, -, ⟨c, up⟩ | ⟨c, down⟩⟩ := cut.units <;> rw [c]
  · rw [takesUp, if_neg mode] at up
    obtain ⟨away, more⟩ : rm.away neg = true ∧ kept < a := by exact_mod_cast up
    rw [away]
    push_cast
    exact ⟨False.elim, fun _ => ⟨upper.le, by linarith⟩⟩
  · rw [takesUp, if_neg mode, not_and, not_lt] at down
    have down : rm.away neg = true → a ≤ kept := by exact_mod_cast down
    exact ⟨fun _ => ⟨lower, upper⟩, fun away => ⟨down away, by linarith⟩⟩

/-- What is left over says whether the integer differs. -/
theorem Cut.rounded_eq_iff : (unitsRounded rm neg kept rem d : ℚ) = a ↔ rem = 0 := by
  obtain ⟨lower, upper, inexact, ⟨c, up⟩ | ⟨c, -⟩⟩ := cut.units <;> rw [c]
  · refine iff_of_false (by push_cast; exact upper.ne') fun zero => ?_
    rw [zero] at inexact
    have whole : a = kept := le_antisymm (not_lt.mp (by simpa using inexact)) lower
    exact not_takesUp_self rm neg _ (lt_add_one (kept : ℝ)) (by simpa [whole] using up)
  · rw [← not_iff_not, ← ne_eq, ← lower.lt_iff_ne, ← inexact, bne_iff_ne]

/-- R88: a number rounded to its units is the integer next to it, as the mode says. -/
theorem Cut.nearInt (mode : rm.IsMode) (nonneg : 0 ≤ a) : NearInt rm (signed neg a) (signed neg (unitsRounded rm neg kept rem d : Int)) := by
  have cast : ((signed neg (unitsRounded rm neg kept rem d : Int) : Int) : ℚ) = signed neg (unitsRounded rm neg kept rem d : ℚ) := by
    cases neg <;> simp [signed]
  cases rm with
  | sr q => exact absurd rfl (mode q)
  | rne =>
    obtain ⟨above, below, even⟩ := cut.nearest rfl
    simp only [NearInt, cast]
    generalize unitsRounded .rne neg kept rem d = c at above below even ⊢
    cases neg
    · exact ⟨above, below, fun tie => by have := even tie; simp only [signed]; omega⟩
    · simp only [signed, if_true]
      refine ⟨by linarith, by linarith, fun tie => ?_⟩
      have := even (by rcases tie with h | h <;> [right; left] <;> linarith)
      omega
  | rtz =>
    obtain ⟨above, below⟩ := (cut.directed (by decide)).1 rfl
    simp only [NearInt, cast]
    generalize unitsRounded .rtz neg kept rem d = c at above below ⊢
    cases neg
    · exact (if_pos nonneg).mpr ⟨above, below⟩
    · simp only [signed, if_true]
      split
      · have : (0 : ℚ) ≤ c := Nat.cast_nonneg c
        constructor <;> linarith
      · constructor <;> linarith
  | rup =>
    have side := cut.directed (by decide)
    simp only [NearInt, cast]
    generalize unitsRounded .rup neg kept rem d = c at side ⊢
    cases neg
    · exact side.2 rfl
    · obtain ⟨above, below⟩ := side.1 rfl
      simp only [signed, if_true]
      constructor <;> linarith
  | rdn =>
    have side := cut.directed (by decide)
    simp only [NearInt, cast]
    generalize unitsRounded .rdn neg kept rem d = c at side ⊢
    cases neg
    · exact side.1 rfl
    · obtain ⟨above, below⟩ := side.2 rfl
      simp only [signed, if_true]
      constructor <;> linarith

end Integers

/-- R97: the least and the greatest integer of the destination. -/
def leastInt (u : Bool) : Int := if u then 0 else -2 ^ 63
def greatestInt (u : Bool) : Int := if u then 2 ^ 64 - 1 else 2 ^ 63 - 1

/-- An integer in a word of 64 bits. -/
def inWord (n : Int) : Nat := (n % (2 ^ 64 : Nat)).toNat

theorem w64_inWord (n : Int) : w64 (inWord n) = BitVec.ofInt 64 n := by
  apply BitVec.eq_of_toNat_eq
  rw [w64, BitVec.toNat_ofNat, BitVec.toNat_ofInt, inWord]
  omega

/-- `FVal.toInt` of a finite value: its rounded magnitude with its sign, within the limits. -/
theorem toInt_fin {rm : Rnd} (mode : rm.IsMode) (u neg : Bool) {m kept rem d : Nat} {e : Int} (parts : quantise m e 0 = (kept, rem, d))
    {n : Int} (rounded : signed neg (unitsRounded rm neg kept rem d : Int) = n) :
    (FVal.fin neg m e).toInt rm 64 u =
      if n < leastInt u then (inWord (leastInt u), flagNv) else if greatestInt u < n then (inWord (greatestInt u), flagNv)
      else (inWord n, flagIf (rem != 0) flagNx) := by
  have least : (if u = true then 0 else -((2 ^ (64 - 1) : ℕ) : Int)) = leastInt u := by cases u <;> decide
  have greatest : (if u = true then ((2 ^ 64 - 1 : ℕ) : Int) else ((2 ^ (64 - 1) - 1 : ℕ) : Int)) = greatestInt u := by cases u <;> decide
  subst rounded
  simp only [FVal.toInt, parts, least, greatest]
  cases rm with
  | sr q => exact absurd rfl (mode q)
  | _ => rfl

/-- R97: the nearest integer, or the nearest limit with nv. -/
theorem toInt_spec {rm : Rnd} (mode : rm.IsMode) (u : Bool) (A : FVal) :
    ∃ (v : Int) (fl : FlagSet), A.toInt rm 64 u = (inWord v, fl) ∧ (A.isNan = true → v = 0 ∧ fl = flagNv) ∧
      (A.isInf = true → v = (if A.sign then leastInt u else greatestInt u) ∧ fl = flagNv) ∧
      (isFin A = true → ∃ n : Int, NearInt rm (ratOf A) n ∧
        if n < leastInt u then v = leastInt u ∧ fl = flagNv else if greatestInt u < n then v = greatestInt u ∧ fl = flagNv
        else v = n ∧ fl = if (n : Rat) = ratOf A then 0 else flagNx) := by
  cases A with
  | nan b => exact ⟨0, flagNv, rfl, by simp, by simp [FVal.isInf], by simp [isFin]⟩
  | inf neg =>
    refine ⟨if neg then leastInt u else greatestInt u, flagNv, ?_, by simp [FVal.isNan], fun _ => ⟨rfl, rfl⟩, by simp [isFin]⟩
    cases u <;> cases neg <;> rfl
  | fin neg m e =>
    rcases parts : quantise m e 0 with ⟨kept, rem, d⟩
    have held : HeldBy m e false (((m : ℚ) * 2 ^ e : ℚ) : ℝ) := by
      push_cast
      exact .exact m e
    have cut := held.cut mode neg (by simp) parts
    have near := cut.nearInt mode (by positivity)
    have exact_ : (((signed neg (unitsRounded rm neg kept rem d : Int) : Int) : ℚ) = ratOf (.fin neg m e)) ↔ rem = 0 := by
      rw [← cut.rounded_eq_iff, ratOf_fin, ← signed_inj neg]
      cases neg <;> simp [signed]
    rw [← ratOf_fin] at near
    obtain ⟨n, rounded⟩ : ∃ n : Int, signed neg (unitsRounded rm neg kept rem d : Int) = n := ⟨_, rfl⟩
    rw [rounded] at near exact_
    have is := toInt_fin mode u neg parts rounded
    have nan : FVal.isNan (.fin neg m e) = true → False := Bool.false_ne_true
    have inf : FVal.isInf (.fin neg m e) = true → False := Bool.false_ne_true
    by_cases below : n < leastInt u
    · exact ⟨_, _, is.trans (if_pos below), fun h => (nan h).elim, fun h => (inf h).elim, fun _ => ⟨n, near, by simp [below]⟩⟩
    rw [if_neg below] at is
    by_cases above : greatestInt u < n
    · exact ⟨_, _, is.trans (if_pos above), fun h => (nan h).elim, fun h => (inf h).elim, fun _ => ⟨n, near, by simp [below, above]⟩⟩
    · refine ⟨_, _, is.trans (if_neg above), fun h => (nan h).elim, fun h => (inf h).elim, fun _ => ⟨n, near, ?_⟩⟩
      simp [below, above, exact_, flagIf]

/-! ## The obligation -/

section
variable {gd : Guard} {s : State} (issues : Issues gd s) (d a : GReg) (f : FTy)
include issues

omit f in
theorem exec_fcvt_single : exec (.fcvt gd d a .s) s = .next (s.setF d (fmt32.convert s.rnd (fpVal .d s a))) :=
  half_runs gd s (fun s => s.setF d (fmt32.convert s.rnd (fpVal .d s a))) issues.1 issues.2

omit f in
theorem exec_fcvt_double : exec (.fcvt gd d a .d) s = .next (s.setF d (fmt64.convert s.rnd (fpVal .s s a))) :=
  half_runs gd s (fun s => s.setF d (fmt64.convert s.rnd (fpVal .s s a))) issues.1 issues.2

theorem exec_fcvti (tr u : Bool) : exec (.fcvti gd d a tr u f) s =
    .next (s.setF d ((fpVal f s a).toInt (if tr then .rtz else s.rnd) 64 u)) :=
  half_runs gd s (fun s => s.setF d ((fpVal f s a).toInt (if tr then .rtz else s.rnd) 64 u)) issues.1 issues.2

theorem exec_icvtf (u : Bool) : exec (.icvtf gd d a u f) s =
    .next (s.setF d ((ftyFmt f).ofInt s.rnd (if u then ((s.g a).toNat : Int) else (s.g a).toInt))) :=
  half_runs gd s (fun s => s.setF d ((ftyFmt f).ofInt s.rnd (if u then ((s.g a).toNat : Int) else (s.g a).toInt))) issues.1 issues.2

end

theorem setF_convert (s : State) (d : GReg) (f : FTy) (v : FVal) :
    s.setF d ((ftyFmt f).convert s.rnd v) = delivers f d v (flagIf v.isSnan flagNv) s := by
  rw [delivers, BitVec.or_comm]
  rfl

theorem setF_ofInt (s : State) (d : GReg) (f : FTy) (n : Int) : s.setF d ((ftyFmt f).ofInt s.rnd n) = delivers f d (.ofInt n) 0 s := by
  rw [delivers, show (0 : FlagSet) = 0#5 from rfl, BitVec.zero_or]
  rfl

/-- Settles O11: FP64 has every number of FP32, and a conversion to an integer rounds a magnitude that is cut at its units. -/
theorem fpConversions : Obligations.FpConversions := by
  unfold Obligations.FpConversions
  intro gd d a f s issues src C
  have mode : s.rnd.IsMode := isMode_rndOf _
  refine ⟨?_, ?_, fun tr u => ?_, fun u => ⟨.ofInt _, rfl, ?_, rfl, ?_⟩⟩
  · cases f
    · exact (exec_fcvt_single issues d a).trans (congrArg _ (setF_convert s d .s _))
    · exact (exec_fcvt_double issues d a).trans (congrArg _ (setF_convert s d .d _))
  · rintro rfl fin
    obtain ⟨y, is, num, same⟩ := Fmt.deliver_widening (Fmt.ieee_ftyFmt .s) (Fmt.ieee_ftyFmt .d) (by decide) (by decide) (by decide) mode _ fin
    have is : fmt64.deliver s.rnd C = (y, 0) := is
    rw [is]
    exact ⟨rfl, num, same⟩
  · have rounding : (if tr then .rtz else s.rnd : Rnd).IsMode := by
      cases tr
      · exact mode
      · exact fun q e => Rnd.noConfusion e
    obtain ⟨v, fl, is, clauses⟩ := toInt_spec rounding u (fpVal f s a)
    refine ⟨v, fl, ?_, clauses⟩
    rw [exec_fcvti issues, is, ← w64_inWord]
    rfl
  · rw [FVal.ofInt, ratOf_ofAligned, zpow_zero, mul_one]
  · rw [exec_icvtf issues, setF_ofInt]

end Sys2Proof.Machine
end

section
/-!
Signs, classes and the order of scalar operands (R93 to R96).
-/

namespace Sys2Proof.Machine

open Claims

/-! ## Bits of a scalar operand -/

/-- A sign bit over magnitude bits, bit by bit. -/
theorem Fmt.testBit_pattern (f : Fmt) (neg : Bool) {c : Nat} (small : c < f.signBit) (j : Nat) :
    (f.pattern neg c).testBit j = if j = f.exp + f.frac then neg else c.testBit j := by
  have top : c.testBit (f.exp + f.frac) = false := Nat.testBit_lt_two_pow small
  cases neg
  · by_cases last : j = f.exp + f.frac
    · simp [Fmt.pattern, last, top]
    · simp [Fmt.pattern, last]
  · have joined : f.pattern true c = f.signBit ||| c := by
      simpa [Fmt.pattern, Fmt.signBit, Nat.add_comm] using Nat.two_pow_add_eq_or_of_lt small 1
    rw [joined, Nat.testBit_or, Fmt.signBit, Nat.testBit_two_pow]
    by_cases last : j = f.exp + f.frac
    · simp [last]
    · simp [last, Ne.symm last]

theorem testBit_fpRead (f : FTy) (A : W64) (j : Nat) (low : j ≤ (ftyFmt f).exp + (ftyFmt f).frac) : (fpRead f A).testBit j = A.getLsbD j := by
  cases f
  · have : j < 32 := by have : (ftyFmt .s).exp + (ftyFmt .s).frac = 31 := rfl; omega
    show (A.toNat % 2 ^ 32).testBit j = _
    rw [Nat.testBit_mod_two_pow, BitVec.testBit_toNat, decide_eq_true this, Bool.true_and]
  · exact BitVec.testBit_toNat A

theorem isNeg_fpRead (f : FTy) (A : W64) : (ftyFmt f).isNeg (fpRead f A) = A.getLsbD ((ftyFmt f).exp + (ftyFmt f).frac) := by
  rw [← testBit_fpRead f A _ le_rfl, Nat.testBit_eq_decide_div_mod_eq]
  rfl

/-- A result that puts a sign over the magnitude bits of an operand. -/
theorem getLsbD_signed (f : FTy) (neg : Bool) (A : W64) (j : Nat) (inside : j < 64) :
    (w64 ((ftyFmt f).pattern neg (fpRead f A % (ftyFmt f).signBit))).getLsbD j =
      if j = (ftyFmt f).exp + (ftyFmt f).frac then neg else decide (j < (ftyFmt f).exp + (ftyFmt f).frac) && A.getLsbD j := by
  rw [w64, BitVec.getLsbD_ofNat, Fmt.testBit_pattern _ _ (Nat.mod_lt _ (Fmt.signBit_pos _)), Fmt.signBit, Nat.testBit_mod_two_pow]
  by_cases low : j < (ftyFmt f).exp + (ftyFmt f).frac
  · simp [inside, low, testBit_fpRead f A j low.le]
  · simp [inside, low]

section
variable {gd : Guard} {s : State} (issues : Issues gd s) (d a b : GReg) (f : FTy)
include issues

theorem exec_fabs : exec (.fabs gd d a f) s = .next (s.setF d ((ftyFmt f).pattern false (fpRead f (s.g a) % (ftyFmt f).signBit), 0)) := by
  have is : (ftyFmt f).absBits (fpRead f (s.g a)) = (ftyFmt f).pattern false (fpRead f (s.g a) % (ftyFmt f).signBit) := by
    simp [Fmt.absBits, Fmt.pattern, (Fmt.ieee_ftyFmt f).reading]
  rw [← is]
  exact half_runs gd s (fun s => s.setF d ((ftyFmt f).absBits (fpRead f (s.g a)), 0)) issues.1 issues.2

theorem exec_fneg : exec (.fneg gd d a f) s =
    .next (s.setF d ((ftyFmt f).pattern (!(ftyFmt f).isNeg (fpRead f (s.g a))) (fpRead f (s.g a) % (ftyFmt f).signBit), 0)) := by
  have is : (ftyFmt f).negBits (fpRead f (s.g a)) =
      (ftyFmt f).pattern (!(ftyFmt f).isNeg (fpRead f (s.g a))) (fpRead f (s.g a) % (ftyFmt f).signBit) := by
    by_cases neg : fpRead f (s.g a) / (ftyFmt f).signBit % 2 = 1 <;>
      simp [Fmt.negBits, Fmt.pattern, Fmt.isNeg, (Fmt.ieee_ftyFmt f).reading, neg]
  rw [← is]
  exact half_runs gd s (fun s => s.setF d ((ftyFmt f).negBits (fpRead f (s.g a)), 0)) issues.1 issues.2

theorem exec_fsgnj : exec (.fsgnj gd d a b f) s =
    .next (s.setF d ((ftyFmt f).pattern ((ftyFmt f).isNeg (fpRead f (s.g b))) (fpRead f (s.g a) % (ftyFmt f).signBit), 0)) := by
  have is : (ftyFmt f).pattern ((ftyFmt f).isNeg (fpRead f (s.g b))) (fpRead f (s.g a) % (ftyFmt f).signBit) =
      fpRead f (s.g a) % (ftyFmt f).signBit + fpRead f (s.g b) / (ftyFmt f).signBit % 2 * (ftyFmt f).signBit := by
    rcases Nat.mod_two_eq_zero_or_one (fpRead f (s.g b) / (ftyFmt f).signBit) with sign | sign <;>
      simp [Fmt.pattern, Fmt.isNeg, sign]
  rw [is]
  exact half_runs gd s (fun s => s.setF d (fpRead f (s.g a) % (ftyFmt f).signBit +
    fpRead f (s.g b) / (ftyFmt f).signBit % 2 * (ftyFmt f).signBit, 0)) issues.1 issues.2

omit b in
theorem exec_fclass : exec (.fclass gd d a f) s = .next (s.setF d ((ftyFmt f).classOf (fpRead f (s.g a)), 0)) :=
  half_runs gd s (fun s => s.setF d ((ftyFmt f).classOf (fpRead f (s.g a)), 0)) issues.1 issues.2

end

/-- R95: the place of the bit that names the class of a pattern, read off its sign, its exponent code and its fraction. -/
def Fmt.classPlace (f : Fmt) (x : Nat) : Nat :=
  let neg := f.isNeg x
  let e := x / 2 ^ f.frac % 2 ^ f.exp
  let t := x % 2 ^ f.frac
  if e = f.top then (if t = 0 then (if neg then 9 else 2) else if t < 2 ^ (f.frac - 1) then 1 else 0)
  else if e = 0 then (if t = 0 then (if neg then 6 else 5) else if neg then 7 else 4)
  else if neg then 8 else 3

theorem Fmt.classOf_eq {f : Fmt} (h : f.Ieee) (signals : f.signals = true) (x : Nat) : f.classOf x = 2 ^ f.classPlace x := by
  have parts := Nat.div_add_mod' (x % f.signBit) (2 ^ f.frac)
  have small := Nat.mod_lt x (Nat.two_pow_pos f.frac)
  rw [f.mod_signBit_mod, f.mod_signBit_div] at parts
  by_cases fin : x % f.signBit < f.past
  · have code := (f.code_ne_top_iff x).mpr fin
    obtain ⟨m, e, is, -, zero, -⟩ := f.value_finite h x fin
    have sub : x % f.signBit < 2 ^ f.frac ↔ x / 2 ^ f.frac % 2 ^ f.exp = 0 := by
      rw [← f.mod_signBit_div, Nat.div_eq_zero_iff_lt (Nat.two_pow_pos _)]
    simp only [Fmt.classOf, Fmt.classPlace, is, code, if_false, sub, zero, decide_eq_true_eq]
    by_cases c : x / 2 ^ f.frac % 2 ^ f.exp = 0
    · have bits : x % f.signBit = x % 2 ^ f.frac := by rw [← parts, c, Nat.zero_mul, Nat.zero_add]
      rw [bits, if_pos c, if_pos c]
      cases f.isNeg x <;> by_cases t : x % 2 ^ f.frac = 0 <;> simp [t]
    · have bits : x % f.signBit ≠ 0 := by
        have := Nat.mul_pos (Nat.pos_of_ne_zero c) (Nat.two_pow_pos f.frac)
        omega
      rw [if_neg bits, if_neg c, if_neg c]
      cases f.isNeg x <;> rfl
  · have code : x / 2 ^ f.frac % 2 ^ f.exp = f.top := not_not.mp fun ne => fin ((f.code_ne_top_iff x).mp ne)
    have zero : x % f.signBit = f.past ↔ x % 2 ^ f.frac = 0 := by
      rw [code] at parts
      unfold Fmt.past
      omega
    rw [Fmt.classOf, f.value_special h x (Nat.not_lt.mp fin), Fmt.classPlace, if_pos code, signals]
    by_cases t : x % 2 ^ f.frac = 0
    · rw [if_pos (zero.mpr t), if_pos t]
      cases f.isNeg x <;> rfl
    · rw [if_neg (mt zero.mp t), if_neg t]
      by_cases q : x % 2 ^ f.frac < 2 ^ (f.frac - 1) <;> simp [q]

theorem w64_two_pow (k : Nat) : w64 (2 ^ k) = 1#64 <<< k := by
  apply BitVec.eq_of_toNat_eq
  simp [w64, Nat.shiftLeft_eq]

/-- Settles O10: each operation puts a sign over the magnitude bits of its operand, and the class is read off the fields of the pattern. -/
theorem fpSignAndClass : Obligations.FpSignAndClass := by
  unfold Obligations.FpSignAndClass
  intro gd d a b f s issues w A B
  have place : w = (ftyFmt f).exp + (ftyFmt f).frac + 1 := by cases f <;> rfl
  have sign : w - 1 = (ftyFmt f).exp + (ftyFmt f).frac := by omega
  refine ⟨⟨_, exec_fabs issues d a f, fun j inside => ?_⟩, ⟨_, exec_fneg issues d a f, fun j inside => ?_⟩,
    ⟨_, exec_fsgnj issues d a b f, fun j inside => ?_⟩, ?_⟩
  · rw [getLsbD_signed f _ _ j inside, sign]
    by_cases last : j = (ftyFmt f).exp + (ftyFmt f).frac <;> simp [last, A]
  · rw [getLsbD_signed f _ _ j inside, sign, isNeg_fpRead, place]
    by_cases last : j = (ftyFmt f).exp + (ftyFmt f).frac
    · simp [last, A]
    · simp [last, A, show j < (ftyFmt f).exp + (ftyFmt f).frac + 1 ↔ j < (ftyFmt f).exp + (ftyFmt f).frac by omega]
  · rw [getLsbD_signed f _ _ j inside, sign, isNeg_fpRead, place]
    by_cases last : j = (ftyFmt f).exp + (ftyFmt f).frac
    · simp [last, B]
    · simp [last, A, show j < (ftyFmt f).exp + (ftyFmt f).frac + 1 ↔ j < (ftyFmt f).exp + (ftyFmt f).frac by omega]
  · intro m x neg e t
    have signals : m.signals = true := by cases f <;> decide
    have class_ := Fmt.classOf_eq (Fmt.ieee_ftyFmt f) signals x
    refine (exec_fclass issues d a f).trans ?_
    show Host.Outcome.next ((s.setG d (w64 (m.classOf x))).raise 0) = _
    rw [class_, w64_two_pow]
    rfl

end Sys2Proof.Machine
end

section
/-!
The order of scalar operands (R93, R96): that of their values is that of their patterns' keys.
-/

namespace Sys2Proof.Machine

open Claims

/-! ## Keys -/

theorem fpKey_true (f : Fmt) (x : Nat) : fpKey f true x = signed (f.isNeg x) ((x % f.signBit : Nat) : Int) := by
  by_cases neg : x / f.signBit % 2 = 1 <;> simp [fpKey, Fmt.isNeg, signed, neg]

theorem fpKey_false (f : Fmt) (x : Nat) : fpKey f false x = if f.isNeg x then -((x % f.signBit : Nat) : Int) - 1 else (x % f.signBit : Nat) := by
  by_cases neg : x / f.signBit % 2 = 1 <;> simp [fpKey, Fmt.isNeg, neg]

/-- Magnitudes with signs are ordered as their bits with these signs. -/
theorem Fmt.signed_magnitude_lt_iff (f : Fmt) (p q : Bool) (i j : Nat) :
    signed p (f.magnitude i) < signed q (f.magnitude j) ↔ signed p (i : Int) < signed q (j : Int) := by
  have pos (k : Nat) : 0 < f.magnitude k ↔ 0 < k := by
    rw [← f.magnitude_strictMono.lt_iff_lt (a := 0) (b := k), f.magnitude_zero]
  have nonneg := f.magnitude_nonneg
  cases p <;> cases q
  · simp [signed, f.magnitude_strictMono.lt_iff_lt]
  · simp only [signed, Bool.false_eq_true, if_false, if_true]
    exact iff_of_false (by have := nonneg i; have := nonneg j; linarith) (by omega)
  · simp only [signed, Bool.false_eq_true, if_false, if_true]
    have negative : -f.magnitude i < f.magnitude j ↔ 0 < f.magnitude i ∨ 0 < f.magnitude j := by
      constructor
      · intro less
        by_contra none_
        push Not at none_
        linarith
      · have := nonneg i
        have := nonneg j
        rintro (h | h) <;> linarith
    rw [negative, pos, pos]
    omega
  · simp [signed, f.magnitude_strictMono.lt_iff_lt]

/-! ## The order of values -/

theorem FVal.lt_fin (n1 n2 : Bool) (m1 m2 : Nat) (e1 e2 : Int) :
    (FVal.fin n1 m1 e1).lt (.fin n2 m2 e2) = true ↔ ratOf (.fin n1 m1 e1) < ratOf (.fin n2 m2 e2) := by
  obtain ⟨ha, hb⟩ := alignTo_spec n1 n2 m1 m2 e1 e2
  rw [ha, hb, mul_lt_mul_iff_left₀ (by positivity), Int.cast_lt]
  exact decide_eq_true_iff

theorem FVal.eqv_nan {v w : FVal} (nan : v.isNan = true ∨ w.isNan = true) : v.eqv w = false := by
  rcases nan with nan | nan <;> obtain ⟨b, rfl⟩ := exists_of_isNan nan
  · rfl
  · cases v <;> rfl

section Order
variable {f : Fmt} (h : f.Ieee) {x y : Nat}
include h

/-- A pattern that is no NaN: a number or an infinity, with the sign of the pattern. -/
theorem Fmt.value_not_nan (num : (f.value x).isNan = false) :
    (f.value x).sign = f.isNeg x ∧ ((f.value x).isZero = true ↔ x % f.signBit = 0) ∧
    (isFin (f.value x) = true ∧ x % f.signBit < f.past ∨ f.value x = .inf (f.isNeg x) ∧ x % f.signBit = f.past) := by
  by_cases fin : x % f.signBit < f.past
  · obtain ⟨m, e, is, -, zero, -⟩ := f.value_finite h x fin
    rw [is]
    exact ⟨rfl, by rw [← zero]; exact beq_iff_eq, .inl ⟨rfl, fin⟩⟩
  · have is := f.value_special h x (Nat.not_lt.mp fin)
    by_cases edge : x % f.signBit = f.past
    · rw [if_pos edge] at is
      have := Fmt.past_pos h
      exact ⟨by rw [is]; rfl, by rw [is, edge]; exact iff_of_false Bool.false_ne_true (by omega), .inr ⟨is, edge⟩⟩
    · rw [is, if_neg edge] at num
      exact Bool.noConfusion num

/-- R96: the order of values is that of their keys with one zero. -/
theorem Fmt.lt_iff_key (numX : (f.value x).isNan = false) (numY : (f.value y).isNan = false) :
    (f.value x).lt (f.value y) = true ↔ fpKey f true x < fpKey f true y := by
  obtain ⟨-, -, ⟨finX, bitsX⟩ | ⟨isX, bitsX⟩⟩ := Fmt.value_not_nan h numX <;>
    obtain ⟨-, -, ⟨finY, bitsY⟩ | ⟨isY, bitsY⟩⟩ := Fmt.value_not_nan h numY <;> rw [fpKey_true, fpKey_true]
  · rw [← f.signed_magnitude_lt_iff, ← f.ratOf_value h x bitsX, ← f.ratOf_value h y bitsY]
    obtain ⟨n1, m1, e1, isX⟩ := exists_of_isFin finX
    obtain ⟨n2, m2, e2, isY⟩ := exists_of_isFin finY
    rw [isX, isY]
    exact FVal.lt_fin n1 n2 m1 m2 e1 e2
  · obtain ⟨n, m, e, isX⟩ := exists_of_isFin finX
    rw [isX, isY]
    cases f.isNeg x <;> cases f.isNeg y <;> simp [FVal.lt, signed] <;> omega
  · obtain ⟨n, m, e, isY⟩ := exists_of_isFin finY
    rw [isX, isY]
    cases f.isNeg x <;> cases f.isNeg y <;> simp [FVal.lt, signed] <;> omega
  · have := Fmt.past_pos h
    rw [isX, isY, bitsX, bitsY]
    cases f.isNeg x <;> cases f.isNeg y <;> simp [FVal.lt, signed]
    omega

/-- R96: values are equal if their keys with one zero are. -/
theorem Fmt.eqv_iff_key (numX : (f.value x).isNan = false) (numY : (f.value y).isNan = false) :
    (f.value x).eqv (f.value y) = true ↔ fpKey f true x = fpKey f true y := by
  have unordered : (f.value x).eqv (f.value y) = (!(f.value x).lt (f.value y) && !(f.value y).lt (f.value x)) := by
    revert numX numY
    cases f.value x <;> cases f.value y <;> simp [FVal.eqv, FVal.isNan]
  rw [unordered, Bool.and_eq_true, Bool.not_eq_true', Bool.not_eq_true', ← Bool.not_eq_true, ← Bool.not_eq_true,
    Fmt.lt_iff_key h numX numY, Fmt.lt_iff_key h numY numX]
  omega

/-- R93: the order in which -0 is below +0 is that of the keys with two zeros. -/
theorem Fmt.below_iff_key (numX : (f.value x).isNan = false) (numY : (f.value y).isNan = false) :
    (f.value x).below (f.value y) = true ↔ fpKey f false x < fpKey f false y := by
  obtain ⟨signX, zeroX, -⟩ := Fmt.value_not_nan h numX
  obtain ⟨signY, zeroY, -⟩ := Fmt.value_not_nan h numY
  rw [FVal.below, Bool.or_eq_true, Bool.and_eq_true, Bool.and_eq_true, Bool.and_eq_true, Bool.not_eq_true', Fmt.lt_iff_key h numX numY,
    zeroX, zeroY, signX, signY, fpKey_true, fpKey_true, fpKey_false, fpKey_false]
  cases f.isNeg x <;> cases f.isNeg y <;> simp [signed] <;> omega

end Order

/-! ## The obligation -/

section Extremes
variable {f : Fmt} {x y : Nat}

theorem Fmt.least_flags (f : Fmt) (x y : Nat) : (f.least x y).2 = flagIf ((f.value x).isSnan || (f.value y).isSnan) flagNv := by
  simp only [Fmt.least]
  split_ifs <;> rfl

theorem Fmt.greatest_flags (f : Fmt) (x y : Nat) : (f.greatest x y).2 = flagIf ((f.value x).isSnan || (f.value y).isSnan) flagNv := by
  simp only [Fmt.greatest]
  split_ifs <;> rfl

/-- R93: two NaNs give the canonical one. -/
theorem Fmt.extremes_nan_nan (nanX : (f.value x).isNan = true) (nanY : (f.value y).isNan = true) :
    (f.least x y).1 = f.nan ∧ (f.greatest x y).1 = f.nan := by simp [Fmt.least, Fmt.greatest, nanX, nanY]

/-- R93: one NaN gives the other operand. -/
theorem Fmt.extremes_nan_num (nanX : (f.value x).isNan = true) (numY : (f.value y).isNan = false) :
    (f.least x y).1 = y ∧ (f.greatest x y).1 = y := by simp [Fmt.least, Fmt.greatest, nanX, numY]

theorem Fmt.extremes_num_nan (numX : (f.value x).isNan = false) (nanY : (f.value y).isNan = true) :
    (f.least x y).1 = x ∧ (f.greatest x y).1 = x := by simp [Fmt.least, Fmt.greatest, numX, nanY]

/-- R93: of two numbers the result is the one whose key is the lesser, or the greater. -/
theorem Fmt.extremes_num_num (h : f.Ieee) (numX : (f.value x).isNan = false) (numY : (f.value y).isNan = false) :
    ((f.least x y).1 = x ∨ (f.least x y).1 = y) ∧ ((f.greatest x y).1 = x ∨ (f.greatest x y).1 = y) ∧
    fpKey f false (f.least x y).1 = min (fpKey f false x) (fpKey f false y) ∧
    fpKey f false (f.greatest x y).1 = max (fpKey f false x) (fpKey f false y) := by
  have least : (f.least x y).1 = if (f.value y).below (f.value x) then y else x := by simp [Fmt.least, numX, numY]
  have greatest : (f.greatest x y).1 = if (f.value x).below (f.value y) then y else x := by simp [Fmt.greatest, numX, numY]
  rw [least, greatest]
  simp only [Fmt.below_iff_key h numX numY, Fmt.below_iff_key h numY numX]
  refine ⟨(ite_eq_or_eq _ _ _).symm, (ite_eq_or_eq _ _ _).symm, ?_, ?_⟩
  · rw [apply_ite (fpKey f false)]
    split <;> omega
  · rw [apply_ite (fpKey f false)]
    split <;> omega

end Extremes

section Conditions
variable {f : Fmt} (h : f.Ieee) (x y : Nat)
include h

/-- R96: equality, of numbers only. -/
theorem Fmt.fpEq_eq : (fpEq (f.value x) (f.value y)).1 = (!(f.value x).isNan && !(f.value y).isNan && fpKey f true x == fpKey f true y) := by
  rw [fpEq]
  cases numX : (f.value x).isNan
  · cases numY : (f.value y).isNan
    · rw [Bool.eq_iff_iff]
      simp [Fmt.eqv_iff_key h numX numY]
    · exact FVal.eqv_nan (.inr numY)
  · exact FVal.eqv_nan (.inl numX)

theorem Fmt.fpLt_eq : (fpLt (f.value x) (f.value y)).1 =
    (!(f.value x).isNan && !(f.value y).isNan && decide (fpKey f true x < fpKey f true y)) := by
  rw [fpLt]
  cases numX : (f.value x).isNan
  · cases numY : (f.value y).isNan
    · rw [Bool.eq_iff_iff]
      simp [Fmt.lt_iff_key h numX numY]
    · rfl
  · rfl

theorem Fmt.fpLe_eq : (fpLe (f.value x) (f.value y)).1 =
    (!(f.value x).isNan && !(f.value y).isNan && decide (fpKey f true x ≤ fpKey f true y)) := by
  rw [fpLe]
  cases numX : (f.value x).isNan
  · cases numY : (f.value y).isNan
    · rw [Bool.eq_iff_iff]
      simp [Fmt.lt_iff_key h numX numY, Fmt.eqv_iff_key h numX numY, ← le_iff_lt_or_eq]
    · rfl
  · rfl

end Conditions

section
variable {gd : Guard} {s : State} (issues : Issues gd s) (a b : GReg) (f : FTy)
include issues

theorem exec_fmin (d : GReg) : exec (.fmin gd d a b f) s = .next (s.setF d ((ftyFmt f).least (fpRead f (s.g a)) (fpRead f (s.g b)))) :=
  half_runs gd s (fun s => s.setF d ((ftyFmt f).least (fpRead f (s.g a)) (fpRead f (s.g b)))) issues.1 issues.2

theorem exec_fmax (d : GReg) : exec (.fmax gd d a b f) s = .next (s.setF d ((ftyFmt f).greatest (fpRead f (s.g a)) (fpRead f (s.g b)))) :=
  half_runs gd s (fun s => s.setF d ((ftyFmt f).greatest (fpRead f (s.g a)) (fpRead f (s.g b)))) issues.1 issues.2

theorem exec_fcmp (p : PReg) (c : FCond) : exec (.fcmp gd p a b f c) s =
    .next ((s.setB p (fcmpHolds c (fpVal f s a) (fpVal f s b)).1).raise (fcmpHolds c (fpVal f s a) (fpVal f s b)).2) :=
  half_runs gd s (fun s => (s.setB p (fcmpHolds c (fpVal f s a) (fpVal f s b)).1).raise (fcmpHolds c (fpVal f s a) (fpVal f s b)).2)
    issues.1 issues.2

end

/-- Settles O9: the order of values is that of their patterns' keys, with two zeros for the extremes and with one for the conditions. -/
theorem fpOrder : Obligations.FpOrder := by
  unfold Obligations.FpOrder
  intro gd d a b p f s issues m X Y A B snan nan
  have h := Fmt.ieee_ftyFmt f
  refine ⟨⟨(m.least X Y).1, (m.greatest X Y).1, ?_, ?_, Fmt.extremes_nan_nan, Fmt.extremes_nan_num, Fmt.extremes_num_nan,
    Fmt.extremes_num_num h⟩, ?_⟩
  · rw [exec_fmin issues, State.setF, Fmt.least_flags]
  · rw [exec_fmax issues, State.setF, Fmt.greatest_flags]
  · intro num
    refine ⟨?_, ?_, ?_, ?_⟩ <;> rw [exec_fcmp issues]
    · exact congrArg (fun t => Host.Outcome.next ((s.setB p t).raise snan)) (Fmt.fpEq_eq h X Y)
    · have unordered : (A.isNan || B.isNan) = !num := by simp [num]
      exact congrArg (fun t => Host.Outcome.next ((s.setB p t).raise snan)) unordered
    · exact congrArg (fun t => Host.Outcome.next ((s.setB p t).raise nan)) (Fmt.fpLt_eq h X Y)
    · exact congrArg (fun t => Host.Outcome.next ((s.setB p t).raise nan)) (Fmt.fpLe_eq h X Y)

end Sys2Proof.Machine
end

section
/-!
Integer operations and divisions (R83, R84).
-/

namespace Sys2Proof.Machine

open Claims

section
variable {gd : Guard} {s : State} (issues : Issues gd s)
include issues

/-- An operation on two general registers, by what it writes. -/
theorem binG_eq (d a b : GReg) {op : W64 → W64 → W64} {v : W64} (result : op (s.g a) (s.g b) = v) :
    binG gd d a b s op = .next (s.setG d v) := result ▸ half_runs gd s (fun s => s.setG d (op (s.g a) (s.g b))) issues.1 issues.2

/-- An operation on one general register, by what it writes. -/
theorem unG_eq (d a : GReg) {op : W64 → W64} {v : W64} (result : op (s.g a) = v) : unG gd d a s op = .next (s.setG d v) :=
  result ▸ half_runs gd s (fun s => s.setG d (op (s.g a))) issues.1 issues.2

end

/-! ## Sums, products and shifts -/

section Results
variable (x y : W64)

theorem add_eq_ofNat : x + y = BitVec.ofNat 64 (x.toNat + y.toNat) := by rw [BitVec.ofNat_add, BitVec.ofNat_toNat, BitVec.ofNat_toNat]; simp

theorem sub_eq_ofInt : x - y = BitVec.ofInt 64 ((x.toNat : Int) - y.toNat) := by
  apply BitVec.eq_of_toNat_eq
  have := x.isLt
  have := y.isLt
  rw [BitVec.toNat_sub, BitVec.toNat_ofInt]
  omega

theorem shiftLeft_eq_ofNat (k : Nat) : x <<< k = BitVec.ofNat 64 (x.toNat * 2 ^ k) := by
  apply BitVec.eq_of_toNat_eq
  rw [BitVec.toNat_shiftLeft, BitVec.toNat_ofNat, Nat.shiftLeft_eq]

theorem ushiftRight_eq_ofNat (k : Nat) : x >>> k = BitVec.ofNat 64 (x.toNat / 2 ^ k) := by
  apply BitVec.eq_of_toNat_eq
  rw [BitVec.toNat_ushiftRight, BitVec.toNat_ofNat, Nat.shiftRight_eq_div_pow,
    Nat.mod_eq_of_lt ((Nat.div_le_self _ _).trans_lt x.isLt)]

theorem sshiftRight_eq_ofInt (k : Nat) : x.sshiftRight k = BitVec.ofInt 64 (x.toInt / 2 ^ k) := by
  rw [BitVec.sshiftRight, Int.shiftRight_eq_div_pow]
  norm_cast

theorem mul_eq_ofNat : x * y = BitVec.ofNat 64 (x.toNat * y.toNat) := by
  apply BitVec.eq_of_toNat_eq
  rw [BitVec.toNat_mul, BitVec.toNat_ofNat]

theorem mulh_eq_extract : wrap64 (x.toInt * y.toInt / (2 ^ 64 : Nat)) = (x.signExtend 128 * y.signExtend 128).extractLsb' 64 64 := by
  apply BitVec.eq_of_toNat_eq
  rw [BitVec.signExtend, BitVec.signExtend, ← BitVec.ofInt_mul, wrap64, BitVec.toNat_ofInt, BitVec.extractLsb'_toNat, BitVec.toNat_ofInt,
    Nat.shiftRight_eq_div_pow]
  generalize x.toInt * y.toInt = z
  omega

theorem mulhu_eq_extract : w64 (x.toNat * y.toNat / 2 ^ 64) = (x.zeroExtend 128 * y.zeroExtend 128).extractLsb' 64 64 := by
  have product := Nat.mul_lt_mul'' x.isLt y.isLt
  have hx := x.isLt
  have hy := y.isLt
  apply BitVec.eq_of_toNat_eq
  show (w64 _).toNat = ((x.setWidth 128 * y.setWidth 128).extractLsb' 64 64).toNat
  rw [w64, BitVec.toNat_ofNat, BitVec.extractLsb'_toNat, BitVec.toNat_mul, BitVec.toNat_setWidth,
    BitVec.toNat_setWidth, Nat.mod_eq_of_lt (show x.toNat < 2 ^ 128 by omega), Nat.mod_eq_of_lt (show y.toNat < 2 ^ 128 by omega),
    Nat.shiftRight_eq_div_pow, Nat.mod_eq_of_lt (b := 2 ^ 128) (by omega)]

/-! ## The lesser and the greater -/

omit x y in
/-- Of two things that agree where keys tie, it is the same to choose by < or by ≤. -/
theorem ite_lt_eq_ite_le {K : Type} [LinearOrder K] {k l : K} {u v : W64} (tie : k = l → u = v) :
    (if k < l then u else v) = if k ≤ l then u else v := by
  rcases lt_trichotomy k l with less | same | more
  · rw [if_pos less, if_pos less.le]
  · rw [tie same, ite_self, ite_self]
  · rw [if_neg more.not_gt, if_neg more.not_ge]

theorem slt_min_eq : (if x.slt y then x else y) = if x.toInt ≤ y.toInt then x else y := by
  simp only [BitVec.slt_iff_toInt_lt]
  exact ite_lt_eq_ite_le BitVec.toInt_inj.mp

theorem slt_max_eq : (if x.slt y then y else x) = if x.toInt ≤ y.toInt then y else x := by
  simp only [BitVec.slt_iff_toInt_lt]
  exact ite_lt_eq_ite_le fun tie => (BitVec.toInt_inj.mp tie).symm

theorem ult_min_eq : (if x.ult y then x else y) = if x.toNat ≤ y.toNat then x else y := by
  simp only [BitVec.ult_iff_toNat_lt]
  exact ite_lt_eq_ite_le BitVec.toNat_inj.mp

theorem ult_max_eq : (if x.ult y then y else x) = if x.toNat ≤ y.toNat then y else x := by
  simp only [BitVec.ult_iff_toNat_lt]
  exact ite_lt_eq_ite_le fun tie => (BitVec.toNat_inj.mp tie).symm

/-! ## Counting bits -/

theorem clzW_spec : clzW x ≤ 64 ∧ (∀ j, 64 - clzW x ≤ j → x.getLsbD j = false) ∧ (clzW x < 64 → x.getLsbD (63 - clzW x) = true) := by
  rw [clzW]
  by_cases zero : x = 0
  · rw [if_pos zero, zero]
    exact ⟨le_rfl, fun _ _ => BitVec.getLsbD_zero, fun less => absurd less (lt_irrefl _)⟩
  · have nonzero : x.toNat ≠ 0 := fun h => zero (BitVec.eq_of_toNat_eq h)
    have small : x.toNat.log2 < 64 := (Nat.log2_lt nonzero).mpr x.isLt
    rw [if_neg zero]
    refine ⟨by omega, fun j high => ?_, fun _ => ?_⟩
    · rw [← BitVec.testBit_toNat]
      exact Nat.testBit_lt_two_pow (Nat.lt_log2_self.trans_le (Nat.pow_le_pow_right two_pos (by omega)))
    · rw [← BitVec.testBit_toNat, show 63 - (63 - x.toNat.log2) = x.toNat.log2 by omega]
      exact Nat.testBit_log2 nonzero

theorem ctzW_spec : ctzW x ≤ 64 ∧ (∀ j, j < ctzW x → x.getLsbD j = false) ∧ (ctzW x < 64 → x.getLsbD (ctzW x) = true) := by
  rw [ctzW]
  rcases found : (List.range 64).find? fun n => bitAt x n with _ | n
  · rw [List.find?_range_eq_none] at found
    exact ⟨le_rfl, fun j low => by simpa [bitAt] using found j low, fun less => absurd less (lt_irrefl _)⟩
  · obtain ⟨one, place, zeros⟩ := List.find?_range_eq_some.mp found
    exact ⟨(List.mem_range.mp place).le, fun j low => by simpa [bitAt] using zeros j low, fun _ => one⟩

theorem popW_eq : popW x = (List.range 64).countP fun j => x.getLsbD j := List.countP_eq_length_filter.symm

theorem getLsbD_setBit (n j : Nat) (b : Bool) (inside : j < 64) : (setBit x n b).getLsbD j = if j = n then b else x.getLsbD j := by
  rw [setBit]
  by_cases same : j = n
  · subst same
    cases b <;> simp [inside]
  · cases b <;> simp [inside, same] <;> omega

/-- The bits that `brevW` has moved once it has come to place m. -/
theorem getLsbD_foldl_setBit (m j : Nat) (places : m ≤ 64) (inside : j < 64) :
    ((List.range m).foldl (fun r n => setBit r (63 - n) (bitAt x n)) 0).getLsbD j = (decide (63 - j < m) && x.getLsbD (63 - j)) := by
  induction m with
  | zero => simp
  | succ m ih =>
    rw [List.range_succ, List.foldl_append, List.foldl_cons, List.foldl_nil, getLsbD_setBit _ _ _ _ inside, ih (by omega)]
    by_cases here : j = 63 - m
    · rw [if_pos here, show 63 - j = m by omega, bitAt, decide_eq_true (Nat.lt_succ_self m), Bool.true_and]
    · rw [if_neg here]
      congr 2
      exact propext (by omega)

theorem getLsbD_brevW (j : Nat) (inside : j < 64) : (brevW x).getLsbD j = x.getLsbD (63 - j) := by
  rw [brevW, getLsbD_foldl_setBit x 64 j le_rfl inside, decide_eq_true (by omega), Bool.true_and]

end Results

/-- Settles O4: each operation writes one function of its operands, and each function is the one that the table of R83 gives. -/
theorem integerOperations : Obligations.IntegerOperations := by
  unfold Obligations.IntegerOperations
  intro gd d a b s issues A B k
  have two (op : W64 → W64 → W64) {v : W64} (result : op A B = v) : binG gd d a b s op = .next (s.setG d v) := binG_eq issues d a b result
  have one (op : W64 → W64) {v : W64} (result : op A = v) : unG gd d a s op = .next (s.setG d v) := unG_eq issues d a result
  exact ⟨two (fun x y => x + y) (add_eq_ofNat A B), two (fun x y => x - y) (sub_eq_ofInt A B), two (fun x y => x &&& y) rfl,
    two (fun x y => x ||| y) rfl, two (fun x y => x ^^^ y) rfl, two (fun x y => x <<< shamt y) (shiftLeft_eq_ofNat A k),
    two (fun x y => x >>> shamt y) (ushiftRight_eq_ofNat A k), two (fun x y => x.sshiftRight (shamt y)) (sshiftRight_eq_ofInt A k),
    two (fun x y => x * y) (mul_eq_ofNat A B), two (fun x y => wrap64 (x.toInt * y.toInt / (2 ^ 64 : Nat))) (mulh_eq_extract A B),
    two (fun x y => w64 (x.toNat * y.toNat / 2 ^ 64)) (mulhu_eq_extract A B), two (fun x y => if x.slt y then x else y) (slt_min_eq A B),
    two (fun x y => if x.slt y then y else x) (slt_max_eq A B), two (fun x y => if x.ult y then x else y) (ult_min_eq A B),
    two (fun x y => if x.ult y then y else x) (ult_max_eq A B), ⟨_, one (fun x => w64 (clzW x)) rfl, clzW_spec A⟩,
    ⟨_, one (fun x => w64 (ctzW x)) rfl, ctzW_spec A⟩, one (fun x => w64 (popW x)) (congrArg w64 (popW_eq A)),
    _, one brevW rfl, getLsbD_brevW A⟩

/-! ## Divisions -/

section Division
variable {n q : Int}

theorem natAbs_tmod_lt (h : q ≠ 0) : (n.tmod q).natAbs < q.natAbs := by
  rw [Int.natAbs_tmod]
  exact Nat.mod_lt _ (Int.natAbs_pos.mpr h)

theorem tmod_nonpos (h : n ≤ 0) : n.tmod q ≤ 0 := by
  have := Int.tmod_nonneg q (Int.neg_nonneg.mpr h)
  rw [Int.neg_tmod] at this
  omega

/-- R84: a division that neither a zero divisor nor an overflow excepts truncates toward zero. -/
theorem quoS_remS (divisor : q ≠ 0) (fits : ¬(n = -(2 ^ 63 : Nat) ∧ q = -1)) :
    n = quoS n q * q + remS n q ∧ (remS n q).natAbs < q.natAbs ∧ (0 ≤ n → 0 ≤ remS n q) ∧ (n ≤ 0 → remS n q ≤ 0) := by
  have quo : quoS n q = n.tdiv q := by rw [quoS, if_neg divisor, if_neg fits]
  have rem : remS n q = n.tmod q := by rw [remS, if_neg divisor, if_neg fits, Int.tmod_def, Int.mul_comm]
  rw [quo, rem]
  exact ⟨(Int.tdiv_mul_add_tmod n q).symm, natAbs_tmod_lt divisor, Int.tmod_nonneg q, tmod_nonpos⟩

theorem quoU_remU (n q : Nat) (divisor : q ≠ 0) : n = quoU n q * q + remU n q ∧ remU n q < q := by
  rw [quoU, remU, if_neg divisor, if_neg divisor]
  exact ⟨(Nat.div_add_mod' n q).symm, Nat.mod_lt n (Nat.pos_of_ne_zero divisor)⟩

end Division

/-- Settles O5: a zero divisor and the overflowing quotient are answered by name, and every other division is the one that truncates. -/
theorem divisionResults : Obligations.DivisionResults := by
  unfold Obligations.DivisionResults
  intro gd d a b s issues A B
  have signed_zero : B.toInt = 0 ↔ B = 0 := by rw [← BitVec.toInt_inj, show (0 : W64).toInt = 0 from rfl]
  have unsigned_zero : B.toNat = 0 ↔ B = 0 := BitVec.toNat_inj (y := 0)
  have two (op : W64 → W64 → W64) : binG gd d a b s op = .next (s.setG d (op A B)) := binG_eq issues d a b rfl
  refine ⟨⟨quoS A.toInt B.toInt, remS A.toInt B.toInt, two fun x y => wrap64 (quoS x.toInt y.toInt), two fun x y => wrap64 (remS x.toInt y.toInt),
      fun zero => ?_, fun least one => ?_, fun nonzero => ?_⟩,
    quoU A.toNat B.toNat, remU A.toNat B.toNat, two fun x y => w64 (quoU x.toNat y.toNat), two fun x y => w64 (remU x.toNat y.toNat),
    fun zero => ?_, fun nonzero => ?_⟩
  · exact ⟨if_pos (signed_zero.mpr zero), if_pos (signed_zero.mpr zero)⟩
  · rw [least, one]
    decide
  · exact quoS_remS (mt signed_zero.mp nonzero)
  · exact ⟨if_pos (unsigned_zero.mpr zero), if_pos (unsigned_zero.mpr zero)⟩
  · exact quoU_remU _ _ (mt unsigned_zero.mp nonzero)

end Sys2Proof.Machine
end

section
/-!
Immediate forms, comparison, predicates and selection (R85, R86).
-/

namespace Sys2Proof.Machine

open Claims

section Immediates
variable (x : W64)

theorem add_sext_eq_ofInt {n : Nat} (i : BitVec n) : x + sext i = BitVec.ofInt 64 (x.toInt + i.toInt) := by
  rw [BitVec.ofInt_add, BitVec.ofInt_toInt]
  rfl

/-- R85: a field of a register, bit by bit. -/
theorem getLsbD_bitsAt (pos wm1 j : Nat) : (w64 (bitsAt x (pos + wm1) pos)).getLsbD j = (decide (j ≤ wm1) && x.getLsbD (pos + j)) := by
  rw [bitsAt, show pos + wm1 + 1 - pos = wm1 + 1 by omega, ← Nat.shiftRight_eq_div_pow, ← BitVec.toNat_ushiftRight, getLsbD_field]
  simp only [Nat.lt_succ_iff]

theorem getLsbD_ones (k : Nat) : (0xFFFF#64).getLsbD k = decide (k < 16) := by
  rw [BitVec.getLsbD_ofNat, show (0xFFFF : Nat) = 2 ^ 16 - 1 from rfl, Nat.testBit_two_pow_sub_one, ← Bool.decide_and]
  congr 1
  exact propext (by omega)

/-- R85: one 16-bit chunk is replaced, and every other bit is kept. -/
theorem getLsbD_setChunk (q j : Nat) (c : BitVec 16) (inside : j < 64) :
    (setChunk x q c).getLsbD j = if j / 16 = q then c.getLsbD (j % 16) else x.getLsbD j := by
  rw [setChunk, zext, BitVec.getLsbD_or, BitVec.getLsbD_and, BitVec.getLsbD_not, BitVec.getLsbD_shiftLeft, BitVec.getLsbD_shiftLeft,
    getLsbD_ones, BitVec.getLsbD_setWidth]
  by_cases here : j / 16 = q
  · rw [if_pos here, show j - 16 * q = j % 16 by omega]
    have low : ¬j < 16 * q := by omega
    have bits : j % 16 < 64 := by omega
    have chunk : j % 16 < 16 := by omega
    simp [inside, low, bits, chunk]
  · rw [if_neg here]
    by_cases low : j < 16 * q
    · simp [inside, low]
    · have past : ¬j - 16 * q < 16 := by omega
      simp [inside, low, past, BitVec.getLsbD_of_ge c _ (Nat.not_lt.mp past)]

end Immediates

section Predicates
variable {gd : Guard} {s : State} (issues : Issues gd s)
include issues

/-- R86: a comparison, by the truth value that it writes. -/
theorem exec_cmp (d : PReg) (a b : GReg) (c : CmpCond) {p : Prop} [Decidable p] (holds : cmpHolds c (s.g a) (s.g b) = true ↔ p) :
    exec (.cmp gd d a b c) s = .next (s.setB d (decide p)) := by
  have value : cmpHolds c (s.g a) (s.g b) = decide p := by rw [Bool.eq_iff_iff, holds, decide_eq_true_iff]
  rw [← value]
  exact half_runs gd s (fun s => s.setB d (cmpHolds c (s.g a) (s.g b))) issues.1 issues.2

/-- R86: a half that writes a predicate. -/
theorem half_setB (d : PReg) (v : State → Bool) : half gd s (fun s => s.setB d (v s)) = .next (s.setB d (v s)) :=
  half_runs gd s (fun s => s.setB d (v s)) issues.1 issues.2

/-- R85, R86: a half that writes a general register. -/
theorem half_setG (d : GReg) (v : State → W64) : half gd s (fun s => s.setG d (v s)) = .next (s.setG d (v s)) :=
  half_runs gd s (fun s => s.setG d (v s)) issues.1 issues.2

end Predicates

/-- Settles O6: each form writes one function of its operands, whose bits are those that R85 and R86 give. -/
theorem immediatesAndPredicates : Obligations.ImmediatesAndPredicates := by
  unfold Obligations.ImmediatesAndPredicates
  refine ⟨fun gd d a s issues => ⟨fun i => ?_, fun n => ?_, fun pos wm1 => ?_, fun i => ?_, fun c => ?_⟩, fun gd s issues =>
    ⟨fun d a b => ?_, fun d a b => ?_, fun d => ?_, fun a => ?_, fun d a b p => ?_⟩⟩
  · have one (op : W64 → W64) {v : W64} (result : op (s.g a) = v) : unG gd d a s op = .next (s.setG d v) := unG_eq issues d a result
    exact ⟨one (fun x => x + sext i) (add_sext_eq_ofInt _ i), one (fun x => x &&& sext i) rfl, one (fun x => x ||| sext i) rfl,
      one (fun x => x ^^^ sext i) rfl⟩
  · have one (op : W64 → W64) {v : W64} (result : op (s.g a) = v) : unG gd d a s op = .next (s.setG d v) := unG_eq issues d a result
    exact ⟨one (fun x => x <<< n.toNat) (shiftLeft_eq_ofNat _ _), one (fun x => x >>> n.toNat) (ushiftRight_eq_ofNat _ _),
      one (fun x => x.sshiftRight n.toNat) (sshiftRight_eq_ofInt _ _)⟩
  · exact ⟨_, unG_eq issues d a (op := fun x => w64 (bitsAt x (pos.toNat + wm1.toNat) pos.toNat)) rfl,
      fun j _ => getLsbD_bitsAt _ _ _ j⟩
  · exact half_setG issues d fun _ => sext i
  · have chunk (q : Nat) : unG gd d d s (fun x => setChunk x q c) = .next (s.setG d (setChunk (s.g d) q c)) := unG_eq issues d d rfl
    exact ⟨_, _, _, chunk 1, chunk 2, chunk 3, fun j inside =>
      ⟨getLsbD_setChunk _ 1 j c inside, getLsbD_setChunk _ 2 j c inside, getLsbD_setChunk _ 3 j c inside⟩⟩
  · refine ⟨exec_cmp issues d a b .eq beq_iff_eq, exec_cmp issues d a b .ne bne_iff_ne, exec_cmp issues d a b .lt BitVec.slt_iff_toInt_lt,
      exec_cmp issues d a b .ge ?_, exec_cmp issues d a b .ltu BitVec.ult_iff_toNat_lt, exec_cmp issues d a b .geu ?_⟩
    · rw [cmpHolds, Bool.not_eq_true', ← Bool.not_eq_true, BitVec.slt_iff_toInt_lt, not_lt]
    · rw [cmpHolds, Bool.not_eq_true', ← Bool.not_eq_true, BitVec.ult_iff_toNat_lt, not_lt]
  · exact ⟨half_setB issues d fun s => s.rd.getB a && s.rd.getB b, half_setB issues d fun s => s.rd.getB a || s.rd.getB b,
      half_setB issues d fun s => s.rd.getB a != s.rd.getB b, half_setB issues d fun s => !s.rd.getB a,
      half_setB issues d fun s => s.rd.getB a⟩
  · exact ⟨packB s.rd, half_setG issues d fun s => packB s.rd, fun j _ => bitAt_packB s.rd j⟩
  · refine ⟨fun c => unpackB c (s.g a), half_runs gd s (fun s => s.upd fun c => unpackB c (s.g a)) issues.1 issues.2, fun c n => ?_⟩
    rw [Ctx.getB_unpackB]
    by_cases zero : n = 0 <;> simp [zero, bitAt]
  · exact half_setG issues d fun s => if s.rd.getB p then s.g a else s.g b

end Sys2Proof.Machine
end

section
/-!
The obligation of branches and jumps.
-/

namespace Sys2Proof.Machine

open Claims

/-! ## Targets (R105) -/

/-- R105: the target of a relative branch is its offset, counted in bundles, from the branch on. -/
theorem branchTo_eq_ofInt (pc : W64) {w : Nat} (off : BitVec w) : branchTo pc off = BitVec.ofInt 64 (pc.toNat + 8 * off.toInt) := by
  rw [BitVec.ofInt_add, BitVec.ofInt_mul, BitVec.ofInt_natCast, BitVec.ofNat_toNat, BitVec.setWidth_eq, BitVec.mul_comm]
  rfl

/-- R105: the 53-bit offset of `j`, whose upper 32 bits are the immediate. -/
theorem toInt_offset (imm : BitVec 32) (off : BitVec 21) : (imm ++ off).toInt = imm.toInt * 2 ^ 21 + off.toNat := by
  rw [BitVec.toInt_append, if_neg (by decide), Int.mul_comm]

theorem next_bundle_eq_ofInt (pc : W64) : pc + 8 = BitVec.ofInt 64 (pc.toNat + 8 * 1) := by
  rw [BitVec.ofInt_add, BitVec.ofInt_natCast, BitVec.ofNat_toNat, BitVec.setWidth_eq]
  rfl

theorem sub_one_eq_ofInt (n : W64) : n - 1 = BitVec.ofInt 64 ((n.toNat : Int) - 1) := sub_eq_ofInt n 1

/-! ## Jumps to registers (R106) -/

theorem jumpTo_aligned (s : State) (t : W64) (f : State → State) (aligned : t.toNat % 8 = 0) : jumpTo s t f = (f s).setNpc t :=
  if_neg (not_not.mpr aligned)

theorem jumpTo_misaligned (s : State) (t : W64) (f : State → State) (misaligned : t.toNat % 8 ≠ 0) :
    jumpTo s t f = s.takeTrap s.cur ⟨0x03, t⟩ := if_pos misaligned

/-! ## The obligation -/

section Executes
variable {gd : Guard} {s : State} (issues : Issues gd s)
include issues

theorem exec_br (off : BitVec 21) : exec (.br gd off) s = .next (s.setNpc (branchTo s.pc off)) :=
  half_runs gd s (fun s => s.setNpc (branchTo s.pc off)) issues.1 issues.2

theorem exec_jl (off : BitVec 21) : exec (.jl gd off) s = .next ((s.setG 30 (s.pc + 8)).setNpc (branchTo s.pc off)) :=
  half_runs gd s (fun s => (s.setG 30 (s.pc + 8)).setNpc (branchTo s.pc off)) issues.1 issues.2

theorem exec_j (off : BitVec 21) (imm : BitVec 32) : exec (.j gd off imm) s = .next (s.setNpc (branchTo s.pc (imm ++ off))) :=
  half_runs gd s (fun s => s.setNpc (branchTo s.pc (imm ++ off))) issues.1 issues.2

theorem exec_lpd (d : GReg) (off : BitVec 16) : exec (.lpd gd d off) s = .next
    (if s.g d - 1 = 0 then s.setG d (s.g d - 1) else (s.setG d (s.g d - 1)).setNpc (branchTo s.pc off)) :=
  half_runs gd s (fun s => if s.g d - 1 = 0 then s.setG d (s.g d - 1) else (s.setG d (s.g d - 1)).setNpc (branchTo s.pc off))
    issues.1 issues.2

theorem exec_jr (a : GReg) : exec (.jr gd a) s = .next (jumpTo s (s.g a) fun s => s) :=
  half_runs gd s (fun s => jumpTo s (s.g a) fun s => s) issues.1 issues.2

theorem exec_jlr (a : GReg) : exec (.jlr gd a) s = .next (jumpTo s (s.g a) fun s => s.setG 30 (s.pc + 8)) :=
  half_runs gd s (fun s => jumpTo s (s.g a) fun s => s.setG 30 (s.pc + 8)) issues.1 issues.2

theorem exec_ret : exec (.ret gd) s = .next (jumpTo s (s.g 30) fun s => s) := exec_jr issues 30

end Executes

/-- Settles O22: the targets are sums of the branch's address and its offset, and a jump to a register asks its alignment first. -/
theorem branchesAndJumps : Obligations.BranchesAndJumps := by
  unfold Obligations.BranchesAndJumps
  intro gd s issues
  refine ⟨fun off => ⟨?_, ?_, fun imm => ?_⟩, fun d off => ?_, fun a aligned => ⟨?_, ?_⟩, fun a misaligned => ⟨?_, ?_⟩,
    fun aligned => ?_, fun misaligned => ?_⟩
  · rw [exec_br issues, branchTo_eq_ofInt]
  · rw [exec_jl issues, branchTo_eq_ofInt, next_bundle_eq_ofInt]
  · rw [exec_j issues, branchTo_eq_ofInt, toInt_offset]
  · rw [exec_lpd issues, branchTo_eq_ofInt]
    by_cases last : s.g d = 1
    · simp [last]
    · have more : s.g d - 1 ≠ 0 := sub_ne_zero.mpr last
      rw [if_neg last, if_neg more, sub_one_eq_ofInt]
  · rw [exec_jr issues, jumpTo_aligned s _ _ aligned]
  · rw [exec_jlr issues, jumpTo_aligned s _ _ aligned, next_bundle_eq_ofInt]
  · rw [exec_jr issues, jumpTo_misaligned s _ _ misaligned]
  · rw [exec_jlr issues, jumpTo_misaligned s _ _ misaligned]
  · rw [exec_ret issues, jumpTo_aligned s _ _ aligned]
  · rw [exec_ret issues, jumpTo_misaligned s _ _ misaligned]

end Sys2Proof.Machine
end

section
/-!
What an instruction meets once the stores that it waits for are accepted (R348, R349, R353): the registers at issue and the
instruction caches are as before.
-/

namespace Sys2Proof.Machine

open Claims

/-! ## Registers at issue -/

section Flushed
variable {s : State} (p : OutStore → Bool)

theorem State.cur_flushWhere (k : Nat) : (s.flushWhere k p).cur = s.cur := (StillRuns.flushWhere s k p).cur

theorem State.core_flushWhere (k : Nat) : (s.flushWhere k p).core = s.core := congrArg caCore (s.cur_flushWhere p k)

theorem State.rd_flushWhere (k : Nat) (issued : s.src.isSome = true) : (s.flushWhere k p).rd = s.rd := by
  obtain ⟨c, hc⟩ := Option.isSome_iff_exists.mp issued
  simp [State.rd, (StillRuns.flushWhere s k p).src, hc]

theorem State.g_flushWhere (k : Nat) (n : GReg) (issued : s.src.isSome = true) : (s.flushWhere k p).g n = s.g n :=
  congrArg (Ctx.getG · n) (s.rd_flushWhere p k issued)

end Flushed

/-! ## The wait -/

/-- A half that may park, in a plain turn: it answers what its body gives. -/
theorem halfPark_answers {gd : Guard} {i : Instr} {s t : State} {p : Bool} {f : State → State} (issues : Issues gd s) (fast : s.slow = false)
    (body : f s = t) : halfPark gd i s p f = .next t :=
  (halfPark_runs gd i s p f issues.1 issues.2 fast).trans (congrArg _ body)

theorem State.afterStores_of_goesOn (s : State) {i : Instr} {p : OutStore → Bool} {l : List (Nat × Nat)} {f : State → State}
    (goes : GoesOn s p l) : s.afterStores i p l f = f (s.flushWhere s.cur p) :=
  s.afterStores_goes i p l f goes.2.2.1 goes.2.2.2

/-! ## Slots and instruction caches -/

theorem Stored.slots {s t : State} (h : Stored s t) : t.slots = s.slots := by unfold Stored at h; rw [h]

theorem Stored.icache {s t : State} (h : Stored s t) : t.icache = s.icache := by unfold Stored at h; rw [h]

theorem State.slots_storeBytes (s : State) (pa : Nat) (l : List Byte) : (s.storeBytes pa l).slots = s.slots :=
  (Stored.storeBytes s pa l).slots

section Caches
variable (s : State) {t : State}

theorem State.icache_setQueue (pa : Nat) (q : Queue) : (s.setQueue pa q).icache = s.icache := (Stored.syncDesc _ pa).icache

theorem State.icache_answerSlot (k : Nat) (status : W64) (e : Option (BitVec 512)) : (s.answerSlot k status e).icache = s.icache := by
  unfold State.answerSlot
  split <;> rfl

theorem State.icache_storeEntry (pa : Nat) (e : BitVec 512) (h : s.storeEntry pa e = some t) : t.icache = s.icache := by
  unfold State.storeEntry at h
  dsimp only at h
  split_ifs at h <;> cases h <;> exact s.icache_setQueue pa _

theorem State.icache_homePush (pa : Nat) (e : BitVec 512) (h : s.homePush pa e = some t) : t.icache = s.icache := by
  unfold State.homePush at h
  split at h
  · cases h
    exact (State.icache_setQueue _ pa _).trans (s.icache_answerSlot _ _ _)
  · exact s.icache_storeEntry pa e h

theorem State.icache_postEvent (tenant : Nat) (f : List W64) : (s.postEvent tenant f).icache = s.icache := by
  unfold State.postEvent
  dsimp only
  split
  · rfl
  · split_ifs
    · rfl
    · rfl
    · split
      · rfl
      next t pushed => exact show t.icache = s.icache from s.icache_homePush _ _ pushed

theorem State.icache_flushWhere (k : Nat) (p : OutStore → Bool) : (s.flushWhere k p).icache = s.icache := by
  unfold State.flushWhere
  refine List.foldlRecOn (motive := fun t : State => t.icache = s.icache) _ _ rfl fun t same o _ => ?_
  have accepted := (Stored.acceptStore t o).icache
  split
  next u h => rw [h] at accepted; exact accepted.trans same
  next u cause h => rw [h] at accepted; exact (State.icache_postEvent u _ _).trans (accepted.trans same)

/-- R104: of the instruction caches those of one core lose their lines. -/
theorem State.icache_dropCache (core k e : Nat) (inside : e < 2 ^ 20) :
    smGet none (s.dropCache core).icache (k * 2 ^ 20 + e) =
      if e = caCore core then none else smGet none s.icache (k * 2 ^ 20 + e) := by
  have key : (k * 2 ^ 20 + e) % 2 ^ 20 = e := by omega
  rw [State.dropCache, smGet_filter none _ fun n => n % 2 ^ 20 != caCore core, key]
  by_cases own : e = caCore core <;> simp [own]

end Caches

end Sys2Proof.Machine
end

section
/-!
The obligation of frames.
-/

namespace Sys2Proof.Machine

open Claims

/-! ## Addresses that would migrate (R152) -/

theorem space_eq {ea : W64} {n : Nat} (space : ea.toNat / 2 ^ 60 = n) : bitsAt ea 63 60 = n := by
  have := ea.isLt
  simp only [bitsAt]
  omega

section Foreign
variable {s : State} {ea : W64} (n : Nat) (ld st : Bool) (impure : s.rd.pure = false) (moves : caKind s.core ≠ .station)
include impure moves

theorem State.locateHere_otherTcm (space : ea.toNat / 2 ^ 60 = 1) (form : ea &&& 0x0FFFC080FFFE0000#64 = 0)
    (other : ¬(caKind s.core = .compute ∧ ea.toNat / 2 ^ 32 % 2 ^ 14 = caTileOf s.core)) :
    s.locateHere ea n ld st = .trap ⟨0x0D, ea⟩ := by
  have space1 := space_eq space
  have foreign : ownTcmForm s.core ea = false := by
    have elsewhere : ¬(caKind s.core = .compute ∧ bitsAt ea 45 32 = caTileOf s.core) := other
    simpa [ownTcmForm, space1] using elsewhere
  simp [State.locateHere, State.impure, impure, moves, space1, formBad1, form, foreign]

theorem State.locateHere_otherSpad (space : ea.toNat / 2 ^ 60 = 2) (form : ea &&& 0x0FFFF0E0FFE00000#64 = 0)
    (other : ¬(caKind s.core = .compute ∧ ea.toNat / 2 ^ 32 % 2 ^ 5 = caX s.core / 4 ∧ ea.toNat / 2 ^ 40 % 2 ^ 4 = caY s.core / 4)) :
    s.locateHere ea n ld st = .trap ⟨0x0D, ea⟩ := by
  have space2 := space_eq space
  have zero : ea &&& formBad2 = 0 := by
    have := congrArg (· &&& formBad2) form
    simpa [formBad2, BitVec.and_assoc] using this
  have named : bitAt ea 47 = false := by
    have := congrArg (BitVec.getLsbD · 47) form
    simpa [bitAt] using this
  have foreign : caKind s.core = .bank ∨ bitsAt ea 36 32 ≠ caX s.core / 4 ∨ bitsAt ea 43 40 ≠ caY s.core / 4 := by
    cases kind : caKind s.core
    · exact .inr (not_and_or.mp fun same => other ⟨kind, same⟩)
    · exact .inl rfl
    · exact absurd kind moves
  have foreign' : (caKind s.core == .bank || bitsAt ea 36 32 != caX s.core / 4 || bitsAt ea 43 40 != caY s.core / 4) = true := by
    simpa [or_assoc] using foreign
  simp [State.locateHere, State.impure, impure, moves, space2, zero, named, foreign']

end Foreign

/-! ## enter (R111) -/

theorem sub_w64_eq_ofInt (x : W64) (n : Nat) : x - w64 n = BitVec.ofInt 64 ((x.toNat : Int) - n) := by
  have word : (w64 n : W64) = BitVec.ofInt 64 n := (BitVec.ofInt_natCast 64 n).symm
  rw [word, BitVec.sub_eq_add_neg, ← BitVec.ofInt_neg, sub_eq_add_neg, BitVec.ofInt_add, BitVec.ofInt_natCast, BitVec.ofNat_toNat,
    BitVec.setWidth_eq]

theorem exec_enter (gd : Guard) (i : BitVec 11) (s : State) : exec (.enter gd i) s = execEnter gd i s := rfl

section Enter
variable {gd : Guard} {s : State} (issues : Issues gd s) (fast : s.slow = false) (i : BitVec 11)
include issues fast

theorem exec_enter_misaligned (misaligned : (s.g 29).toNat % 16 ≠ 0) :
    exec (.enter gd i) s = .next (s.takeTrap s.cur ⟨0x03, s.g 29⟩) := by
  rw [exec_enter, execEnter]
  refine halfPark_answers issues fast ?_
  rw [if_pos misaligned]
  rfl

variable (aligned : (s.g 29).toNat % 16 = 0)
include aligned

theorem exec_enter_overflow (full : (s.g 29).toNat < 16 * i.toNat + 16 + 128 + s.rd.cr.stklim.toNat) :
    exec (.enter gd i) s = .next (s.takeTrap s.cur ⟨0x07, s.g 29 - w64 (16 * i.toNat + 16)⟩) := by
  rw [exec_enter, execEnter]
  refine halfPark_answers issues fast ?_
  rw [if_neg (not_not.mpr aligned), if_pos (by omega)]
  rfl

variable (room : 16 * i.toNat + 16 + 128 + s.rd.cr.stklim.toNat ≤ (s.g 29).toNat)
include room

theorem exec_enter_trap {t : Trap} (place : s.locateHere (s.g 29 - 16) 16 false true = .trap t) :
    exec (.enter gd i) s = .next (s.takeTrap s.cur t) := by
  rw [exec_enter, execEnter]
  refine halfPark_answers issues fast ?_
  rw [if_neg (not_not.mpr aligned), if_neg (by omega)]
  simp only [place, stayPut]

variable {pa : Nat} (place : s.locateHere (s.g 29 - 16) 16 false true = .at_ pa)
include place

theorem exec_enter_desc (desc : s.hitsDesc [(pa, 16)] = true) :
    exec (.enter gd i) s = .next (s.takeTrap s.cur ⟨0x0F, s.g 29 - 16⟩) := by
  rw [exec_enter, execEnter]
  refine halfPark_answers issues fast ?_
  rw [if_neg (not_not.mpr aligned), if_neg (by omega)]
  simp only [place, stayPut]
  exact if_pos desc

/-- R111: the link pair is stored once the stores that the access waits for are accepted, and fp and sp are set. -/
theorem exec_enter_goes (plain : s.hitsDesc [(pa, 16)] = false)
    (goes : GoesOn s (s.waitsFor .all (isOwn s.core pa) [(pa, 16)]) [(pa, 16)]) :
    exec (.enter gd i) s = .next
      (((((s.flushWhere s.cur (s.waitsFor .all (isOwn s.core pa) [(pa, 16)])).storeBytes pa
        (leBytes 8 (s.g 28).toNat ++ leBytes 8 (s.g 30).toNat)).setG 28 (s.g 29 - 16)).setG 29
          (s.g 29 - w64 (16 * i.toNat + 16)))) := by
  rw [exec_enter, execEnter]
  refine halfPark_answers issues fast ?_
  rw [if_neg (not_not.mpr aligned), if_neg (by omega)]
  simp only [place, stayPut]
  rw [if_neg (Bool.eq_false_iff.mp plain), s.afterStores_of_goesOn goes, State.g_flushWhere _ _ 28 goes.1, State.g_flushWhere _ _ 30 goes.1]

end Enter

/-! ## leave (R112) -/

theorem exec_leave (gd : Guard) (s : State) : exec (.leave gd) s = execLeave gd s := rfl

section Leave
variable {gd : Guard} {s : State} (issues : Issues gd s) (fast : s.slow = false)
include issues fast

theorem exec_leave_misaligned (misaligned : (s.g 28).toNat % 16 ≠ 0) :
    exec (.leave gd) s = .next (s.takeTrap s.cur ⟨0x03, s.g 28⟩) := by
  rw [exec_leave, execLeave]
  refine halfPark_answers issues fast ?_
  rw [if_pos misaligned]
  rfl

variable (aligned : (s.g 28).toNat % 16 = 0)
include aligned

theorem exec_leave_trap {t : Trap} (place : s.locateHere (s.g 28) 16 true false = .trap t) :
    exec (.leave gd) s = .next (s.takeTrap s.cur t) := by
  rw [exec_leave, execLeave]
  refine halfPark_answers issues fast ?_
  rw [if_neg (not_not.mpr aligned)]
  simp only [place, stayPut]

/-- R112: the pair is read once the stores that the access waits for are accepted, unless one of its words is bad. -/
theorem exec_leave_goes {pa : Nat} (place : s.locateHere (s.g 28) 16 true false = .at_ pa)
    (goes : GoesOn s (s.waitsFor .all (isOwn s.core pa) [(pa, 16)]) [(pa, 16)]) :
    let u := s.flushWhere s.cur (s.waitsFor .all (isOwn s.core pa) [(pa, 16)])
    exec (.leave gd) s = .next (match u.badWord (s.g 28) [(pa, 16)] with
      | some v => u.takeTrap u.cur ⟨0x09, v⟩
      | none => (((u.correct pa 16).setG 28 (u.readW pa)).setG 30 (u.readW (pa + 8))).setG 29 (s.g 28 + 16)) := by
  rw [exec_leave, execLeave]
  refine halfPark_answers issues fast ?_
  rw [if_neg (not_not.mpr aligned)]
  simp only [place, stayPut]
  rw [s.afterStores_of_goesOn goes]
  rfl

end Leave

/-! ## The obligation -/

/-- Settles O23: both check alignment, room and place in this order, and go on once the stores that they wait for are accepted. -/
theorem frames : Obligations.Frames := by
  unfold Obligations.Frames
  intro gd s issues fast foreign
  have moves (ea : W64) (ld st : Bool) (h : foreign ea) : s.locateHere ea 16 ld st = .trap ⟨0x0D, ea⟩ := by
    obtain ⟨impure, kind, ⟨space, form, other⟩ | ⟨space, form, other⟩⟩ := h
    · exact State.locateHere_otherTcm 16 ld st impure kind space form other
    · exact State.locateHere_otherSpad 16 ld st impure kind space form other
  refine ⟨fun i => ⟨?_, ?_, ?_, ?_⟩, ?_, ?_, ?_⟩
  · exact exec_enter_misaligned issues fast i
  · intro aligned full
    rw [← sub_w64_eq_ofInt]
    exact exec_enter_overflow issues fast i aligned (by omega)
  · intro aligned room
    exact ⟨fun h => exec_enter_trap issues fast i aligned room (moves _ _ _ h), fun t => exec_enter_trap issues fast i aligned room,
      fun pa => exec_enter_desc issues fast i aligned room⟩
  · intro pa aligned room place plain p goes u pair
    refine ⟨u.storeBytes pa pair, u.byte_storeBytes pa pair, u.slots_storeBytes pa pair, ?_⟩
    rw [← sub_w64_eq_ofInt]
    exact exec_enter_goes issues fast i aligned room place plain goes
  · exact exec_leave_misaligned issues fast
  · intro aligned
    exact ⟨fun h => exec_leave_trap issues fast aligned (moves _ _ _ h), fun t => exec_leave_trap issues fast aligned⟩
  · intro pa aligned place p goes u
    have step := exec_leave_goes issues fast aligned place goes
    refine ⟨fun clean => step.trans ?_, fun v bad => step.trans ?_⟩
    · rw [clean]
    · rw [bad]

end Sys2Proof.Machine
end

section
/-!
The obligation of the fences, `isync` and the phase objects.
-/

namespace Sys2Proof.Machine

open Claims

/-! ## Words of memory after a store -/

theorem leNat_leBytes (n : Nat) {v : Nat} (fits : v < 256 ^ n) : leNat (leBytes n v) = v := by
  induction n generalizing v with
  | zero => exact (Nat.lt_one_iff.mp fits).symm
  | succ n ih =>
    have rest : v / 256 < 256 ^ n := Nat.div_lt_of_lt_mul (by rwa [pow_succ'] at fits)
    rw [leBytes, leNat, ih rest, BitVec.toNat_ofNat]
    omega

theorem State.readBytes_storeBytes (s : State) (pa : Nat) (l : List Byte) (plain : ∀ j, j < l.length → paIsStatus (pa + j) = false) :
    (s.storeBytes pa l).readBytes pa l.length = l := by
  rw [State.readBytes_eq _ _ _ plain]
  refine List.ext_getElem (by simp) fun j h _ => ?_
  have inside : j < l.length := by simpa using h
  simp [State.byte_storeBytes, inside]

/-- A word of stacked memory reads back as it was stored. -/
theorem State.readW_storeBytes (s : State) (pa : Nat) (v : W64) (stacked : 2 ^ 64 ≤ pa) :
    (s.storeBytes pa (leBytes 8 v.toNat)).readW pa = v := by
  have plain (j : Nat) (_ : j < (leBytes 8 v.toNat).length) : paIsStatus (pa + j) = false := by
    have : (pa + j) / 2 ^ 60 ≠ 3 := by omega
    rw [paIsStatus, beq_eq_false_iff_ne.mpr this, Bool.false_and]
  have read := s.readBytes_storeBytes pa _ plain
  rw [length_leBytes] at read
  rw [State.readW, State.readN, read, leNat_leBytes 8 v.isLt]
  exact BitVec.ofNat_toNat 64 v

/-- The definition, said of the function and not of its value, which the kernel would first evaluate as far as the handle's bits. -/
theorem State.resolve_eq : State.resolve = fun s tenant ea need =>
    match s.resolveHandle tenant ea with
    | .error t => .error t
    | .ok pa =>
      if need &&& BitVec.ofNat 4 (s.obj tenant (paHandle pa)).opts.toNat != need then .error (trapAt 0x06 ea)
      else if s.isLost pa then .error (trapAt 0x14 ea)
      else if s.offline pa then .error (trapAt 0x0A ea)
      else .ok pa := rfl

theorem State.resolveHandle_of_resolve {s : State} {tenant pa : Nat} {ea : W64} {need : BitVec 4} (found : s.resolve tenant ea need = .ok pa) :
    s.resolveHandle tenant ea = .ok pa := by
  rw [State.resolve_eq] at found
  beta_reduce at found
  generalize s.resolveHandle tenant ea = handle at found ⊢
  cases handle with
  | error t => cases found
  | ok place =>
    dsimp only at found
    split_ifs at found
    exact found

theorem State.resolve_stacked {s : State} {tenant pa : Nat} {ea : W64} {need : BitVec 4} (found : s.resolve tenant ea need = .ok pa) :
    2 ^ 64 ≤ pa := by
  have handle := State.resolveHandle_of_resolve found
  unfold State.resolveHandle at handle
  dsimp only at handle
  split_ifs at handle
  rw [← Except.ok.inj handle, paStack]
  omega

/-! ## Fences (R357) -/

theorem caCore_core (s : State) : caCore s.core = s.core := Nat.mod_mod _ _

theorem fenceOn_goes {gd : Guard} {i : Instr} {s : State} {p : OutStore → Bool} (issues : Issues gd s) (goes : GoesOn s p []) :
    fenceOn gd i s p = .next (if s.me.out.any p then s.flushWhere s.cur p else s) := by
  refine (half_runs gd s _ issues.1 issues.2).trans (congrArg _ ?_)
  cases some_ : s.me.out.any p
  · rfl
  · simp only [Bool.not_true, Bool.false_eq_true, if_false, goes.2.1, if_true]
    exact s.afterStores_of_goesOn goes

/-- R104: `isync` drops the lines of its core once every earlier store is accepted. -/
theorem exec_isync {gd : Guard} {s : State} (issues : Issues gd s) (goes : GoesOn s (fun _ => true) []) :
    exec (.isync gd) s = .next ((s.flushWhere s.cur fun _ => true).dropCache s.core) := by
  show execIsync gd s = _
  rw [execIsync]
  refine halfPark_answers issues goes.2.1 ?_
  rw [s.afterStores_of_goesOn goes, State.core_flushWhere]

/-! ## Phase objects (R358, R359) -/

/-- R359: the checks of a phase instruction, and what it answers once they are passed and its stores are accepted. -/
theorem wordAccess_phaseOp {gd : Guard} {i : Instr} {s : State} {ea : W64} {need : BitVec 4} {st : Bool} {f : Nat → State → State}
    {R : State → Nat → Prop} (issues : Issues gd s) (fast : s.slow = false) (step : exec i s = phaseOp gd i ea need st f s)
    (answers : ∀ pa, 2 ^ 64 ≤ pa → s.src.isSome = true →
      exec i s = .next (f pa (s.flushWhere s.cur s.scoped)) → R (s.flushWhere s.cur s.scoped) pa) :
    WordAccess s i ea 16 need st (fun _ => s.scoped) 16 fun u pa =>
      (∀ v, u.badWord ea [(pa, 16)] = some v → exec i s = .next (u.takeTrap u.cur ⟨0x09, v⟩)) ∧
      (u.badWord ea [(pa, 16)] = none → R u pa) := by
  have sync : s.impureSync ea = true ↔ s.rd.pure = true ∧ ownTcmForm s.core ea = false := by simp [State.impureSync]
  have space : bitsAt ea 63 60 = ea.toNat / 2 ^ 60 := space_eq rfl
  have body {t : State} (h : _ = t) : exec i s = .next t := step.trans (halfPark_answers issues fast h)
  refine ⟨fun misaligned => body ?_, fun aligned impure => body ?_, fun aligned pure_ other => body ?_, fun aligned pure_ stacked => ?_⟩
  · exact if_pos misaligned
  · exact (if_neg (not_not.mpr aligned)).trans (if_pos (sync.mpr impure))
  · exact (if_neg (not_not.mpr aligned)).trans ((if_neg (mt sync.mp pure_)).trans (if_pos (by rwa [space])))
  have checked {t : State} (h : _ = t) : exec i s = .next t :=
    body ((if_neg (not_not.mpr aligned)).trans ((if_neg (mt sync.mp pure_)).trans ((if_neg (not_not.mpr (space.trans stacked))).trans h)))
  refine ⟨fun t lost => checked ?_, fun pa found => ⟨fun stores desc => checked ?_, fun plain goes => ?_⟩⟩
  · simp only [lost]
  · simp only [found, stores, desc]
    rfl
  · have open_ : ¬(st && s.inDesc pa) = true := by rcases plain with h | h <;> simp [h]
    refine ⟨fun v bad => checked ?_, fun clean => answers pa (State.resolve_stacked found) goes.1 (checked ?_)⟩
    · simp only [found]
      rw [if_neg open_, s.afterStores_of_goesOn goes]
      simp only [bad]
      rfl
    · simp only [found]
      rw [if_neg open_, s.afterStores_of_goesOn goes]
      simp only [clean]

/-! ## Fields of a phase object (R358) -/

section Fields
variable (x : W64)

theorem phaseNo_eq : phaseNo x = x.toNat / 2 ^ 48 := by
  have := x.isLt
  simp only [phaseNo, bitsAt]
  omega

theorem bitsAt_low (h : Nat) : bitsAt x h 0 = x.toNat % 2 ^ (h + 1) := by rw [bitsAt, pow_zero, Nat.div_one, Nat.sub_zero]

theorem phaseNo_phaseWord (p q r : Nat) : phaseNo (phaseWord p q r) = r % 2 ^ 16 := by
  simp only [phaseNo, phaseWord, bitsAt, w64, BitVec.toNat_ofNat]
  omega

theorem phaseWord_eq (p q r : Nat) (arrivals : p < 2 ^ 16) (bytes : q < 2 ^ 32) :
    phaseWord p q r = BitVec.ofNat 64 (p + q * 2 ^ 16 + r % 2 ^ 16 * 2 ^ 48) := by
  rw [phaseWord, Nat.mod_eq_of_lt arrivals, Nat.mod_eq_of_lt bytes]
  rfl

theorem phaseArr_lt : phaseArr x < 2 ^ 16 := Nat.mod_lt _ (by decide)

theorem phaseBytes_lt : phaseBytes x < 2 ^ 32 := Nat.mod_lt _ (by decide)

end Fields

/-! ## The scan of the waiters (R359) -/

section Scan
variable (s : State) (pa : Nat)

theorem phaseWaiters_setPhase (a : Nat) (w : W64) : (s.setPhase a w).phaseWaiters pa = s.phaseWaiters pa := by
  rw [State.phaseWaiters, State.waiting, State.setPhase, s.slots_storeBytes]
  rfl

theorem phaseScan_none (none_ : s.phaseWaiters pa = []) : s.phaseScan pa = s := by
  rw [State.phaseScan, none_, List.foldl_nil]

/-- A waiter whose phase has passed is served with dword 0. -/
theorem phaseScan_one {k n : Nat} {g : Guard} {e y z : GReg} {w : Wait} {sn : List Byte} (one : s.phaseWaiters pa = [k])
    (waits : (s.slot k).st = .park w (.pwait g e y z) sn n) (passed : ((s.slot k).ctx.getG z).toNat % 2 ^ 16 ≠ phaseNo (s.readW pa)) :
    s.phaseScan pa = served s k fun c => c.setG e (s.readW pa) := by
  have operation : (s.slot k).instr = some (.pwait g e y z) := by rw [Slot.instr, waits]
  have passed' : bitsAt ((s.slot k).ctx.getG z) 15 0 ≠ phaseNo (s.readW pa) := by simpa [bitsAt] using passed
  rw [State.phaseScan, one, List.foldl_cons, List.foldl_nil, operation]
  exact if_pos passed'

end Scan

/-! ## The requests at the port (R359) -/

section Requests
variable (u : State) (d : GReg) (pa : Nat) (arg : W64)

/-- What the port does with a `pinit` of this argument. -/
def State.initPhase : State :=
  if phaseNo arg ≠ 0 ∨ bitsAt arg 47 0 = 0 then u.setG d 1
  else (((u.setPhase (pa + 8) arg).setPhase pa arg).phaseScan pa).setG d 0

/-- What it does with a `parr`. -/
def State.arrivePhase : State :=
  let w := u.readW pa
  let r := u.readW (pa + 8)
  if phaseNo arg ≠ 0 ∨ phaseArr w < phaseArr arg ∨ phaseBytes w < phaseBytes arg then u.setG d (w64 (phaseNo w + 2 ^ 17))
  else if phaseArr w - phaseArr arg = 0 ∧ phaseBytes w - phaseBytes arg = 0 then
    ((u.setPhase pa (phaseWord (phaseArr r) (phaseBytes r) (phaseNo w + 1))).phaseScan pa).setG d (w64 (phaseNo w + 2 ^ 16))
  else (u.setPhase pa (phaseWord (phaseArr w - phaseArr arg) (phaseBytes w - phaseBytes arg) (phaseNo w))).setG d (w64 (phaseNo w))

/-- What it does with a `pwait` i. -/
def State.awaitPhase (i : Instr) : State :=
  if phaseNo (u.readW pa) ≠ bitsAt arg 15 0 then u.setG d (u.readW pa) else u.joinWaiters (.phase pa) i pa

theorem execPinit_eq (gd : Guard) (a b : GReg) (s : State) : execPinit gd d a b s =
    phaseOp gd (.pinit gd d a b) (s.g a) (rightW ||| rightS) true (fun pa u => u.initPhase d pa (u.g b)) s := rfl

theorem execParr_eq (gd : Guard) (a b : GReg) (s : State) : execParr gd d a b s =
    phaseOp gd (.parr gd d a b) (s.g a) (rightR ||| rightW ||| rightS) true (fun pa u => u.arrivePhase d pa (u.g b)) s := rfl

theorem execPwait_eq (gd : Guard) (a b : GReg) (s : State) : execPwait gd d a b s =
    phaseOp gd (.pwait gd d a b) (s.g a) (rightR ||| rightS) false (fun pa u => u.awaitPhase d pa (u.g b) (.pwait gd d a b)) s := rfl

theorem initPhase_refused (h : phaseNo arg ≠ 0 ∨ arg.toNat % 2 ^ 48 = 0) : u.initPhase d pa arg = u.setG d 1 :=
  if_pos (by rwa [bitsAt_low])

theorem initPhase_taken (reserved : phaseNo arg = 0) (counts : arg.toNat % 2 ^ 48 ≠ 0) (none_ : u.phaseWaiters pa = []) :
    u.initPhase d pa arg = ((u.setPhase (pa + 8) arg).setPhase pa arg).setG d 0 := by
  have waiters : ((u.setPhase (pa + 8) arg).setPhase pa arg).phaseWaiters pa = [] := by
    rw [phaseWaiters_setPhase, phaseWaiters_setPhase, none_]
  rw [State.initPhase, bitsAt_low, if_neg (not_or.mpr ⟨not_not.mpr reserved, counts⟩), phaseScan_none _ _ waiters]

variable {u d pa arg}

/-- The counts of a `parr` are among those that the phase still expects. -/
def FitsPhase (w arg : W64) : Prop := phaseNo arg = 0 ∧ phaseArr arg ≤ phaseArr w ∧ phaseBytes arg ≤ phaseBytes w

/-- They are all that it expects. -/
def EndsPhase (w arg : W64) : Prop := phaseArr arg = phaseArr w ∧ phaseBytes arg = phaseBytes w

/-- Dword 0 of an object whose phase passes: the counts of dword 1, in the next phase. -/
def State.nextPhase (u : State) (pa : Nat) : W64 :=
  phaseWord (phaseArr (u.readW (pa + 8))) (phaseBytes (u.readW (pa + 8))) (phaseNo (u.readW pa) + 1)

theorem not_fitsPhase_iff (w arg : W64) :
    ¬FitsPhase w arg ↔ phaseNo arg ≠ 0 ∨ phaseArr w < phaseArr arg ∨ phaseBytes w < phaseBytes arg := by
  simp only [FitsPhase, not_and_or, not_le, ne_eq]

theorem FitsPhase.ends_iff {w arg : W64} (fits : FitsPhase w arg) :
    phaseArr w - phaseArr arg = 0 ∧ phaseBytes w - phaseBytes arg = 0 ↔ EndsPhase w arg := by
  obtain ⟨-, arrivals, bytes⟩ := fits
  unfold EndsPhase
  omega

theorem arrivePhase_unfit (unfit : ¬FitsPhase (u.readW pa) arg) :
    u.arrivePhase d pa arg = u.setG d (w64 (phaseNo (u.readW pa) + 2 ^ 17)) :=
  if_pos ((not_fitsPhase_iff _ _).mp unfit)

section Fits
variable (fits : FitsPhase (u.readW pa) arg)
include fits

theorem arrivePhase_counts (more : ¬EndsPhase (u.readW pa) arg) : u.arrivePhase d pa arg =
    (u.setPhase pa (phaseWord (phaseArr (u.readW pa) - phaseArr arg) (phaseBytes (u.readW pa) - phaseBytes arg)
      (phaseNo (u.readW pa)))).setG d (w64 (phaseNo (u.readW pa))) :=
  (if_neg (mt (not_fitsPhase_iff _ _).mpr (not_not.mpr fits))).trans (if_neg (mt fits.ends_iff.mp more))

theorem arrivePhase_ends (last : EndsPhase (u.readW pa) arg) : u.arrivePhase d pa arg =
    ((u.setPhase pa (u.nextPhase pa)).phaseScan pa).setG d (w64 (phaseNo (u.readW pa) + 2 ^ 16)) :=
  (if_neg (mt (not_fitsPhase_iff _ _).mpr (not_not.mpr fits))).trans (if_pos (fits.ends_iff.mpr last))

end Fits

/-- R359: the scan after a phase has passed serves a `pwait` for it with the new dword 0. -/
theorem phaseScan_nextPhase {k n : Nat} {g : Guard} {e y z : GReg} {w : Wait} {sn : List Byte} (stacked : 2 ^ 64 ≤ pa)
    (one : u.phaseWaiters pa = [k]) (waits : (u.slot k).st = .park w (.pwait g e y z) sn n)
    (old : ((u.slot k).ctx.getG z).toNat % 2 ^ 16 = phaseNo (u.readW pa)) :
    (u.setPhase pa (u.nextPhase pa)).phaseScan pa =
      served (u.setPhase pa (u.nextPhase pa)) k fun c => c.setG e (u.nextPhase pa) := by
  have slot_ : (u.setPhase pa (u.nextPhase pa)).slot k = u.slot k := congrArg (smGet Slot.free · k) (u.slots_storeBytes pa _)
  have word_ : (u.setPhase pa (u.nextPhase pa)).readW pa = u.nextPhase pa := u.readW_storeBytes pa _ stacked
  have one_ : (u.setPhase pa (u.nextPhase pa)).phaseWaiters pa = [k] := (phaseWaiters_setPhase u pa pa _).trans one
  have passed : phaseNo (u.readW pa) ≠ phaseNo (u.nextPhase pa) := by
    rw [State.nextPhase, phaseNo_phaseWord]
    omega
  refine (phaseScan_one _ pa one_ (by rwa [slot_]) ?_).trans (by rw [word_])
  rwa [slot_, word_, old]

theorem awaitPhase_passed {i : Instr} (passed : phaseNo (u.readW pa) ≠ arg.toNat % 2 ^ 16) :
    u.awaitPhase d pa arg i = u.setG d (u.readW pa) :=
  if_pos (by rwa [bitsAt_low])

theorem awaitPhase_joins {i : Instr} (same : phaseNo (u.readW pa) = arg.toNat % 2 ^ 16) :
    u.awaitPhase d pa arg i = joins u pa (.phase pa) i := by
  rw [State.awaitPhase, bitsAt_low, if_neg (not_not.mpr same)]
  exact congrArg (fun w => u.parkAt u.cur w i []) (if_congr decide_eq_true_iff rfl rfl)

end Requests

/-! ## The obligation -/

/-- Settles O48: the fences and `isync` go on once their stores are accepted, and so does a request for a phase object, which its
port then answers by the counts and the phase of dword 0. -/
theorem fencesAndPhases : Obligations.FencesAndPhases := by
  unfold Obligations.FencesAndPhases
  intro gd d a b s issues near waits
  refine ⟨fenceOn_goes issues, fenceOn_goes issues, fenceOn_goes issues, fun goes => ⟨_, exec_isync issues goes, rfl, fun k e inside => ?_⟩,
    fun fast => ?_⟩
  · rw [State.icache_dropCache _ _ k e inside, State.icache_flushWhere, caCore_core]
  intro ea arg arr bytes no word put Phase
  have arr_ : arr = phaseArr := funext fun x => (bitsAt_low x 15).symm
  have bytes_ : bytes = phaseBytes := rfl
  have no_ : no = phaseNo := funext fun x => (phaseNo_eq x).symm
  have word_ (p q r : Nat) (hp : p < 2 ^ 16) (hq : q < 2 ^ 32) : phaseWord p q r = word p q r := phaseWord_eq p q r hp hq
  have put_ (u : State) (pa : Nat) (x : W64) : u.setPhase pa x = put u pa x := by rw [State.setPhase, leBytes_toNat]
  clear_value arr bytes no word put
  subst arr_ bytes_ no_
  refine ⟨wordAccess_phaseOp issues fast (execPinit_eq d gd a b s) fun pa stacked issued step => ?_,
    wordAccess_phaseOp issues fast (execParr_eq d gd a b s) fun pa stacked issued step => ?_,
    wordAccess_phaseOp issues fast (execPwait_eq d gd a b s) fun pa stacked issued step => ?_⟩
  all_goals
    rw [State.g_flushWhere s.scoped s.cur b issued] at step
    generalize s.flushWhere s.cur s.scoped = u at step ⊢
  · refine ⟨fun refused => step.trans ?_, fun reserved counts none_ => step.trans ?_⟩
    · rw [initPhase_refused u d pa arg refused]
    · rw [initPhase_taken u d pa arg reserved counts none_, put_, put_]
  · intro i x r fits last t
    have next_ : u.nextPhase pa = word (phaseArr r) (phaseBytes r) (phaseNo x + 1) := word_ _ _ _ (phaseArr_lt r) (phaseBytes_lt r)
    refine ⟨fun unfit => step.trans ?_, fun fit more => step.trans ?_, fun fit ends none_ => step.trans ?_,
      fun k g e y z sn n fit ends one waits old => step.trans ?_⟩
    · rw [arrivePhase_unfit unfit]
      rfl
    · rw [arrivePhase_counts fit more, word_ _ _ _ ((Nat.sub_le _ _).trans_lt (phaseArr_lt x)) ((Nat.sub_le _ _).trans_lt (phaseBytes_lt x)),
        put_]
      rfl
    · rw [arrivePhase_ends fit ends, phaseScan_none _ _ ((phaseWaiters_setPhase u pa pa _).trans none_), next_, put_]
      rfl
    · rw [arrivePhase_ends fit ends, phaseScan_nextPhase stacked one waits old, next_, put_]
      rfl
  · exact ⟨fun passed => step.trans (congrArg _ (awaitPhase_passed passed)), fun same => step.trans (congrArg _ (awaitPhase_joins same))⟩

end Sys2Proof.Machine
end

section
/-!
Lanes of vector registers (R167, R168, R172): what a register reads as after it was written lane by lane, and which flags the
lanes raise.
-/

namespace Sys2Proof.Machine

open Claims

/-! ## Registers and their lanes -/

theorem toNat_ofNat_of_lt {n x : Nat} (h : x < 2 ^ n) : (BitVec.ofNat n x).toNat = x := by rw [BitVec.toNat_ofNat, Nat.mod_eq_of_lt h]

@[simp] theorem lane_lt {n : Nat} (x : BitVec n) (w j : Nat) : lane x w j < 2 ^ w := Nat.mod_lt _ (Nat.two_pow_pos w)

/-- The number that lanes of w bits make, lane 0 lowest. -/
def joined (w : Nat) (l : List Nat) : Nat := l.foldr (fun v acc => v % 2 ^ w + 2 ^ w * acc) 0

theorem joined_lt (w : Nat) (l : List Nat) : joined w l < 2 ^ (w * l.length) := by
  induction l with
  | nil => exact Nat.one_pos
  | cons x t ih =>
    have low := Nat.mod_lt x (Nat.two_pow_pos w)
    calc joined w (x :: t) = x % 2 ^ w + 2 ^ w * joined w t := rfl
      _ < 2 ^ w * (joined w t + 1) := by rw [Nat.mul_succ]; omega
      _ ≤ 2 ^ w * 2 ^ (w * t.length) := Nat.mul_le_mul_left _ ih
      _ = 2 ^ (w * (x :: t).length) := by rw [← pow_add, List.length_cons, Nat.mul_succ, Nat.add_comm]

theorem joined_cut (w : Nat) (l : List Nat) (j : Nat) : joined w l / 2 ^ (w * j) % 2 ^ w = ((l[j]?).getD 0) % 2 ^ w := by
  have unit := Nat.two_pow_pos w
  induction l generalizing j with
  | nil => simp [joined]
  | cons x t ih =>
    have split : joined w (x :: t) = x % 2 ^ w + 2 ^ w * joined w t := rfl
    cases j with
    | zero => simp [split]
    | succ j =>
      have place : 2 ^ (w * (j + 1)) = 2 ^ w * 2 ^ (w * j) := by rw [Nat.mul_succ, pow_add, Nat.mul_comm]
      rw [split, place, ← Nat.div_div_eq_div_mul, Nat.add_mul_div_left _ _ unit, Nat.div_eq_of_lt (Nat.mod_lt x unit), Nat.zero_add, ih,
        List.getElem?_cons_succ]

/-- A register that is written lane by lane reads lane by lane. -/
theorem lane_ofLanes (w : Nat) (l : List Nat) (j : Nat) (fits : w * l.length ≤ 1024) :
    lane (ofLanes w l) w j = ((l[j]?).getD 0) % 2 ^ w := by
  have small := (joined_lt w l).trans_le (pow_le_pow_right₀ one_le_two fits)
  have number : (ofLanes w l).toNat = joined w l := by
    show (BitVec.ofNat 1024 (joined w l)).toNat = joined w l
    exact toNat_ofNat_of_lt small
  rw [← joined_cut, lane, number]

theorem vlen_cases (c : Ctx) : c.vlen = 512 ∨ c.vlen = 1024 := by
  unfold Ctx.vlen
  split <;> simp

theorem mul_lanes_le (c : Ctx) (w : Nat) : w * c.lanes w ≤ 1024 := by
  have := Nat.mul_div_le c.vlen w
  rcases vlen_cases c with h | h <;> rw [Ctx.lanes] <;> omega

/-- The lanes of an operand, one for one. -/
theorem lanesV_eq (s : State) (a : VReg) (w : Nat) : s.lanesV a w = (List.range (s.rd.lanes w)).map (laneOf s a w) := rfl

/-! ## Flags of lanes -/

theorem getLsbD_foldl_or {α : Type} (f : α → FlagSet) (l : List α) (fl : FlagSet) (b : Nat) :
    (l.foldl (fun x e => x ||| f e) fl).getLsbD b = true ↔ fl.getLsbD b = true ∨ ∃ e ∈ l, (f e).getLsbD b = true := by
  induction l generalizing fl with
  | nil => simp
  | cons x t ih => simp [ih, or_assoc]

/-- The flags of a list of results are those that one of them raises. -/
theorem flagsOf_orFlags (n : Nat) (r : Nat → Nat × FlagSet) : FlagsOf (orFlags ((List.range n).map r)) n r := by
  intro b
  rw [orFlags, getLsbD_foldl_or]
  simp

/-! ## Halves that write lanes -/

/-- `State.setLanes` writes a register lane by lane and raises the flags of its lanes. -/
theorem writesLanes_setLanes {s : State} {d : VReg} {w : Nat} {o : Res} {r : Nat → Nat × FlagSet}
    (is : o = .next (s.setLanes d w ((List.range (s.rd.lanes w)).map r))) : WritesLanes s d w o r := by
  refine ⟨_, _, is, fun j inside => ?_, flagsOf_orFlags _ r⟩
  rw [lane_ofLanes _ _ _ (by simpa using mul_lanes_le s.rd w)]
  simp [List.getElem?_range inside]

section Halves
variable {gd : Guard} {s : State} (issues : Issues gd s) (d a b : VReg) (t : ETy)
include issues

theorem vec1_writesLanes (int : Nat → Nat → Nat × FlagSet) (fp : Fmt → Rnd → Nat → Nat × FlagSet) :
    WritesLanes s d t.width (vec1 gd d a t s int fp) fun j =>
      if t.isFp then fp (etyFmt t s.finite) s.rnd (laneOf s a t.width j) else int t.width (laneOf s a t.width j) := by
  refine writesLanes_setLanes ((half_runs gd s _ issues.1 issues.2).trans (congrArg Host.Outcome.next ?_))
  simp only [lanesV_eq, List.map_map]
  rfl

theorem vec2_writesLanes (int : Nat → Nat → Nat → Nat × FlagSet) (fp : Fmt → Rnd → Nat → Nat → Nat × FlagSet) :
    WritesLanes s d t.width (vec2 gd d a b t s int fp) fun j =>
      if t.isFp then fp (etyFmt t s.finite) s.rnd (laneOf s a t.width j) (laneOf s b t.width j)
      else int t.width (laneOf s a t.width j) (laneOf s b t.width j) := by
  refine writesLanes_setLanes ((half_runs gd s _ issues.1 issues.2).trans (congrArg Host.Outcome.next ?_))
  simp only [lanesV_eq, List.zipWith_map, List.zipWith_self]

theorem vecFused_writesLanes (minus : Bool) :
    WritesLanes s d t.width (vecFused gd d a b t minus s) fun j =>
      let F := etyFmt t s.finite
      let z := F.value (laneOf s d t.width j)
      F.fused s.rnd (F.value (laneOf s a t.width j)) (F.value (laneOf s b t.width j)) (if minus then z.negate else z) false := by
  refine writesLanes_setLanes ((half_runs gd s _ issues.1 issues.2).trans (congrArg Host.Outcome.next ?_))
  simp only [lanesV_eq, List.zip_map', List.zipWith_map, List.zipWith_self]

end Halves

end Sys2Proof.Machine
end

section
/-!
The formats of the element types in either reading (R122, R126): which patterns are numbers, and which number each is.
-/

namespace Sys2Proof.Machine

open Claims

/-! ## Patterns that are numbers -/

/-- The sign, the magnitude and the zeros of a pattern that is a number, in either reading. -/
theorem Fmt.value_of_isFin {f : Fmt} {x : Nat} (fin : isFin (f.value x) = true) : ∃ m e, f.value x = .fin (f.isNeg x) m e ∧
    (m : ℚ) * 2 ^ e = f.magnitude (x % f.signBit) ∧ (m = 0 ↔ x % f.signBit = 0) ∧ m < 2 ^ (f.frac + 1) ∧ f.low ≤ e := by
  have parts := Nat.div_add_mod' (x % f.signBit) (2 ^ f.frac)
  have small := Nat.mod_lt x (Nat.two_pow_pos f.frac)
  rw [f.mod_signBit_mod, f.mod_signBit_div] at parts
  rw [Fmt.magnitude, f.mod_signBit_div, f.mod_signBit_mod]
  revert fin
  simp only [Fmt.value]
  split
  · exact fun fin => Bool.noConfusion fin
  split
  · split <;> exact fun fin => Bool.noConfusion fin
  intro _
  by_cases sub : x / 2 ^ f.frac % 2 ^ f.exp = 0
  · rw [sub, Nat.zero_mul, Nat.zero_add] at parts
    rw [if_pos sub, if_pos sub]
    exact ⟨_, _, rfl, rfl, by rw [parts], by omega, le_rfl⟩
  · have := Nat.mul_pos (Nat.pos_of_ne_zero sub) (Nat.two_pow_pos f.frac)
    rw [if_neg sub, if_neg sub]
    exact ⟨_, _, rfl, rfl, by omega, by omega, Int.le_add_of_nonneg_right (Int.natCast_nonneg _)⟩

theorem Fmt.ratOf_value_of_isFin {f : Fmt} {x : Nat} (fin : isFin (f.value x) = true) :
    ratOf (f.value x) = signed (f.isNeg x) (f.magnitude (x % f.signBit)) := by
  obtain ⟨m, e, is, number, -⟩ := Fmt.value_of_isFin fin
  rw [is, ratOf_fin, number]

/-- The finite reading has one NaN, and no infinity: every other pattern is a number. -/
theorem Fmt.value_finite_reading {f : Fmt} (reading : f.finite = true) (x : Nat) :
    if x % 2 ^ f.width = 2 ^ f.width - 1 then f.value x = .nan false else isFin (f.value x) = true := by
  simp only [Fmt.value, reading, Bool.true_and, beq_iff_eq, Bool.true_eq_false, and_false, if_false]
  split
  · rfl
  · split <;> rfl

/-- What the theorems on rounding suppose of a format in either reading, and what the formats of the element types meet. -/
structure Fmt.Shape (f : Fmt) : Prop where
  exp_pos : 1 ≤ f.exp
  frac_pos : 1 ≤ f.frac
  frac_lt_bias : f.frac < f.bias

theorem Fmt.Shape.ieee {f : Fmt} (h : f.Shape) (reading : f.finite = false) : f.Ieee := ⟨reading, h.exp_pos, h.frac_pos, h.frac_lt_bias⟩

theorem shape_etyFmt (t : ETy) (finite : Bool) : (etyFmt t finite).Shape := by
  cases t <;> cases finite <;> constructor <;> decide

/-- A pattern of an element type fills its lane, with the sign on top. -/
theorem etyFmt_width {t : ETy} (fp : t.isFp = true) (finite : Bool) :
    (etyFmt t finite).width = t.width ∧ (etyFmt t finite).signBit = 2 ^ (t.width - 1) := by
  cases t with
  | f16 | bf16 | f32 | f64 => exact ⟨rfl, rfl⟩
  | i8 | i16 | i32 | i64 => exact Bool.noConfusion fp

/-! ## The order of patterns -/

/-- R93: the order in which -0 is below +0 is that of the keys with two zeros. -/
theorem Fmt.below_iff_key_of_isFin {f : Fmt} {x y : Nat} (finX : isFin (f.value x) = true) (finY : isFin (f.value y) = true) :
    (f.value x).below (f.value y) = true ↔ fpKey f false x < fpKey f false y := by
  have order : (f.value x).lt (f.value y) = true ↔
      signed (f.isNeg x) ((x % f.signBit : Nat) : Int) < signed (f.isNeg y) ((y % f.signBit : Nat) : Int) := by
    rw [← f.signed_magnitude_lt_iff, ← Fmt.ratOf_value_of_isFin finX, ← Fmt.ratOf_value_of_isFin finY]
    obtain ⟨n1, m1, e1, isX⟩ := exists_of_isFin finX
    obtain ⟨n2, m2, e2, isY⟩ := exists_of_isFin finY
    rw [isX, isY]
    exact FVal.lt_fin n1 n2 m1 m2 e1 e2
  obtain ⟨m1, e1, isX, -, zeroX, -⟩ := Fmt.value_of_isFin finX
  obtain ⟨m2, e2, isY, -, zeroY, -⟩ := Fmt.value_of_isFin finY
  rw [FVal.below, Bool.or_eq_true, order, isX, isY, fpKey_false, fpKey_false]
  simp only [FVal.isZero, FVal.sign, Bool.and_eq_true, beq_iff_eq, zeroX, zeroY, Bool.not_eq_true']
  cases f.isNeg x <;> cases f.isNeg y <;> simp [signed] <;> omega

/-- The order of the patterns of an element type that are no NaNs is that of their keys. -/
theorem below_iff_key_etyFmt (t : ETy) (finite : Bool) {x y : Nat}
    (numX : ((etyFmt t finite).value x).isNan = false) (numY : ((etyFmt t finite).value y).isNan = false) :
    ((etyFmt t finite).value x).below ((etyFmt t finite).value y) = true ↔
      fpKey (etyFmt t finite) false x < fpKey (etyFmt t finite) false y := by
  cases reading : (etyFmt t finite).finite
  · exact Fmt.below_iff_key ((shape_etyFmt t finite).ieee reading) numX numY
  · have number (z : Nat) (num : ((etyFmt t finite).value z).isNan = false) : isFin ((etyFmt t finite).value z) = true := by
      have is := Fmt.value_finite_reading reading z
      split at is
      · rw [is] at num
        exact Bool.noConfusion num
      · exact is
    exact Fmt.below_iff_key_of_isFin (number x numX) (number y numY)

/-- R93: the lesser and the greater of two patterns of an element type. -/
theorem extremes_etyFmt (t : ETy) (finite : Bool) (x y : Nat) :
    Extreme (etyFmt t finite) min x y ((etyFmt t finite).least x y) ∧ Extreme (etyFmt t finite) max x y ((etyFmt t finite).greatest x y) := by
  have order := below_iff_key_etyFmt t finite (x := x) (y := y)
  have order' := below_iff_key_etyFmt t finite (x := y) (y := x)
  generalize etyFmt t finite = F at order order' ⊢
  have pick (c : Prop) [Decidable c] (p : Int → Int → Int)
      (choice : p (fpKey F false x) (fpKey F false y) = if c then fpKey F false y else fpKey F false x) :
      ((if c then y else x) = x ∨ (if c then y else x) = y) ∧ fpKey F false (if c then y else x) = p (fpKey F false x) (fpKey F false y) := by
    rw [choice, apply_ite (fpKey F false)]
    exact ⟨(ite_eq_or_eq _ _ _).symm, rfl⟩
  refine ⟨⟨F.least_flags x y, fun nx ny => (Fmt.extremes_nan_nan nx ny).1, fun nx ny => (Fmt.extremes_nan_num nx ny).1,
    fun nx ny => (Fmt.extremes_num_nan nx ny).1, fun nx ny => ?_⟩, F.greatest_flags x y, fun nx ny => (Fmt.extremes_nan_nan nx ny).2,
    fun nx ny => (Fmt.extremes_nan_num nx ny).2, fun nx ny => (Fmt.extremes_num_nan nx ny).2, fun nx ny => ?_⟩
  · have least : (F.least x y).1 = if (F.value y).below (F.value x) = true then y else x := by simp [Fmt.least, nx, ny]
    rw [least]
    refine pick _ min ?_
    simp only [order' ny nx]
    split <;> omega
  · have greatest : (F.greatest x y).1 = if (F.value x).below (F.value y) = true then y else x := by simp [Fmt.greatest, nx, ny]
    rw [greatest]
    refine pick _ max ?_
    simp only [order nx ny]
    split <;> omega

/-! ## Signs -/

/-- R94, R173: the pattern without its sign; the NaN of the finite reading stays. -/
theorem absBits_etyFmt {t : ETy} (fp : t.isFp = true) (finite : Bool) (x : Nat) : (etyFmt t finite).absBits x =
    if (etyFmt t finite).finite = true ∧ x = 2 ^ t.width - 1 then x else x % 2 ^ (t.width - 1) := by
  obtain ⟨width, sign⟩ := etyFmt_width fp finite
  simp only [Fmt.absBits, Fmt.nan, width, sign, Bool.and_eq_true, beq_iff_eq]
  cases (etyFmt t finite).finite <;> simp

/-- R94, R126, R173: the pattern with its sign inverted; the NaN of the finite reading stays, and no number becomes it. -/
theorem Fmt.negBits_eq (f : Fmt) {x : Nat} (small : x < 2 ^ f.width) : f.negBits x =
    if f.finite = true ∧ x = 2 ^ f.width - 1 then x
    else if f.finite = true ∧ x = f.signBit - 1 then 2 ^ f.width - 2
    else (x + f.signBit) % 2 ^ f.width := by
  have double : 2 ^ f.width = 2 * f.signBit := by rw [Fmt.signBit, ← pow_succ', Fmt.width, add_assoc, add_comm]
  have unit : 0 < f.signBit := Nat.two_pow_pos _
  have flipped : (if x / f.signBit % 2 = 1 then x % f.signBit else x % f.signBit + f.signBit) =
      if x < f.signBit then x + f.signBit else x - f.signBit := by
    by_cases low : x < f.signBit
    · simp [Nat.div_eq_of_lt low, Nat.mod_eq_of_lt low, low]
    · have one_ : x / f.signBit = 1 := Nat.div_eq_of_lt_le (by omega) (by omega)
      rw [one_, if_pos rfl, if_neg low, Nat.mod_eq_sub_mod (by omega), Nat.mod_eq_of_lt (by omega)]
  have wrapped : (x + f.signBit) % 2 ^ f.width = if x < f.signBit then x + f.signBit else x - f.signBit := by
    split
    · exact Nat.mod_eq_of_lt (by omega)
    · rw [show x + f.signBit = x - f.signBit + 2 ^ f.width by omega, Nat.add_mod_right, Nat.mod_eq_of_lt (by omega)]
  simp only [Fmt.negBits, Fmt.nan, flipped, wrapped, Bool.and_eq_true, beq_iff_eq]
  cases f.finite
  · simp
  · simp only [true_and, if_true]
    split
    · rfl
    · split_ifs <;> omega

theorem negBits_etyFmt {t : ETy} (fp : t.isFp = true) (finite : Bool) {x : Nat} (small : x < 2 ^ t.width) : (etyFmt t finite).negBits x =
    if (etyFmt t finite).finite = true ∧ x = 2 ^ t.width - 1 then x
    else if (etyFmt t finite).finite = true ∧ x = 2 ^ (t.width - 1) - 1 then 2 ^ t.width - 2
    else (x + 2 ^ (t.width - 1)) % 2 ^ t.width := by
  obtain ⟨width, sign⟩ := etyFmt_width fp finite
  simpa only [width, sign] using (etyFmt t finite).negBits_eq (width.symm ▸ small)

end Sys2Proof.Machine
end

section
/-!
The obligation of the floating-point lanes.
-/

namespace Sys2Proof.Machine

open Claims

/-- R91: `Fmt.sum` is the sum, and `Fmt.product` the product. -/
theorem sums_sum (F : Fmt) (rm : Rnd) (A B : FVal) : Sums F rm A B (F.sum rm A B) := ⟨_, _, isSum_add rm A B, rfl⟩

theorem multiplies_product (F : Fmt) (rm : Rnd) (A B : FVal) : Multiplies F rm A B (F.product rm A B) := ⟨_, _, isProduct_mul A B, rfl⟩

/-- R92: `Fmt.fused` rounds the sum of a product once. -/
theorem fuses_fused (F : Fmt) (rm : Rnd) (A B D : FVal) : Fuses F rm A B D (F.fused rm A B D false) :=
  ⟨_, _, _, _, isProduct_mul A B, isSum_add rm _ D, rfl⟩

/-- Settles O14: each lane is one operation of its format, and the order of values is that of their patterns' keys in either reading. -/
theorem vectorFloatLanes : Obligations.VectorFloatLanes := by
  unfold Obligations.VectorFloatLanes
  intro gd d a b t s issues
  refine ⟨half_runs gd s (fun s => s.setV d (s.rd.getV a)) issues.1 issues.2, ?_⟩
  intro fp w F rm A B D
  have add := vec2_writesLanes issues d a b t intAdd fpAdd
  have sub := vec2_writesLanes issues d a b t (fun w x y => intLane w ((x : Int) - y)) fun f r x y => f.sum r (f.value x) (f.value y).negate
  have mul := vec2_writesLanes issues d a b t (fun w x y => intLane w (x * y)) fun f r x y => f.product r (f.value x) (f.value y)
  have fma := vecFused_writesLanes issues d a b t false
  have fms := vecFused_writesLanes issues d a b t true
  have lo := vec2_writesLanes issues d a b t intLeast fpLeast
  have hi := vec2_writesLanes issues d a b t intGreatest fpGreatest
  have abs := vec1_writesLanes issues d a t (fun w x => intLane w (signedOf w x).natAbs) fun f _ x => (f.absBits x, 0)
  have neg := vec1_writesLanes issues d a t (fun w x => intLane w (-(x : Int))) fun f _ x => (f.negBits x, 0)
  simp only [fp, if_true] at add sub mul lo hi abs neg
  refine ⟨_, _, _, _, _, _, _, _, _, add, sub, mul, fma, fms, lo, hi, abs, neg, fun j _ => ?_⟩
  obtain ⟨lesser, greater⟩ := extremes_etyFmt t s.finite (A j) (B j)
  exact ⟨sums_sum .., sums_sum .., multiplies_product .., fuses_fused .., fuses_fused .., lesser, greater,
    congrArg (·, 0) (absBits_etyFmt fp s.finite _), congrArg (·, 0) (negBits_etyFmt fp s.finite (lane_lt ..))⟩

end Sys2Proof.Machine
end

section
/-!
Exact values as the encoder of a decode table compares them (R133, R135), and the numbers they stand for.
-/

namespace Sys2Proof.Machine

open Claims

/-! ## Finite values and their numbers -/

section Numbers
variable {v w : FVal} (finV : isFin v = true) (finW : isFin w = true)

include finV

theorem abs_number : isFin v.abs = true ∧ ratOf v.abs = |ratOf v| := by
  obtain ⟨n, m, e, rfl⟩ := exists_of_isFin finV
  refine ⟨rfl, ?_⟩
  rw [FVal.abs, ratOf_fin, ratOf_fin, abs_signed, abs_of_nonneg (by positivity)]
  rfl

theorem ratOf_negate : isFin v.negate = true ∧ ratOf v.negate = -ratOf v := by
  obtain ⟨n, m, e, rfl⟩ := exists_of_isFin finV
  refine ⟨rfl, ?_⟩
  rw [FVal.negate, ratOf_fin, ratOf_fin]
  cases n <;> simp [signed]

include finW

theorem lt_iff_ratOf : v.lt w = true ↔ ratOf v < ratOf w := by
  obtain ⟨n1, m1, e1, rfl⟩ := exists_of_isFin finV
  obtain ⟨n2, m2, e2, rfl⟩ := exists_of_isFin finW
  exact FVal.lt_fin n1 n2 m1 m2 e1 e2

theorem le_iff_ratOf : v.le w = true ↔ ratOf v ≤ ratOf w := by
  rw [FVal.le, Bool.not_eq_true', ← Bool.not_eq_true, lt_iff_ratOf finW finV, not_lt]

theorem eqv_iff_ratOf : v.eqv w = true ↔ ratOf v = ratOf w := by
  have unordered : v.eqv w = (v.le w && w.le v) := by
    obtain ⟨n1, m1, e1, rfl⟩ := exists_of_isFin finV
    obtain ⟨n2, m2, e2, rfl⟩ := exists_of_isFin finW
    exact Bool.and_comm ..
  rw [unordered, Bool.and_eq_true, le_iff_ratOf finV finW, le_iff_ratOf finW finV, le_antisymm_iff]

theorem minus_number : isFin (v.minus w) = true ∧ ratOf (v.minus w) = ratOf v - ratOf w := by
  obtain ⟨fin, number⟩ := ratOf_negate finW
  obtain ⟨-, -, -, -, sum⟩ := isSum_add .rne v w.negate
  obtain ⟨isNum, is, -⟩ := sum finV fin
  exact ⟨isNum, by rw [FVal.minus, is, number, sub_eq_add_neg]⟩

/-- R135: a draw lies below the part of the way, cut to 32 bits, exactly if the next number does not lie above it. -/
theorem lt_ratio32_iff (pos : 0 < ratOf w) (r : Nat) : r < ratio32 v w ↔ (r : ℚ) + 1 ≤ 2 ^ 32 * (ratOf v / ratOf w) := by
  obtain ⟨n1, m1, e1, rfl⟩ := exists_of_isFin finV
  obtain ⟨n2, m2, e2, rfl⟩ := exists_of_isFin finW
  have spec := alignTo_spec n1 n2 m1 m2 e1 e2
  simp only [ratio32]
  generalize alignTo n1 m1 e1 n2 m2 e2 = t at spec ⊢
  obtain ⟨a, b, e⟩ := t
  obtain ⟨ha, hb⟩ := spec
  have unit : (0 : ℚ) < 2 ^ e := by positivity
  rw [hb] at pos
  have posB : 0 < b := by exact_mod_cast pos_of_mul_pos_left pos unit.le
  rw [ha, hb, mul_div_mul_right _ _ unit.ne']
  dsimp only
  rcases le_or_gt a 0 with neg | posA
  · rw [if_pos (.inr neg)]
    refine iff_of_false (Nat.not_lt_zero r) (not_le.mpr ?_)
    have : (a : ℚ) / b ≤ 0 := div_nonpos_of_nonpos_of_nonneg (by exact_mod_cast neg) (by exact_mod_cast posB.le)
    have : (0 : ℚ) ≤ r := Nat.cast_nonneg r
    linarith
  · rw [if_neg (by omega)]
    obtain ⟨a, rfl⟩ := Int.eq_ofNat_of_zero_le posA.le
    obtain ⟨b, rfl⟩ := Int.eq_ofNat_of_zero_le posB.le
    have posB : 0 < b := by omega
    rw [Int.toNat_natCast, Int.toNat_natCast, ← Nat.succ_le_iff, Nat.le_div_iff_mul_le posB,
      Int.cast_natCast, Int.cast_natCast, ← mul_div_assoc, le_div_iff₀ (by exact_mod_cast posB)]
    norm_cast

/-- The order of magnitudes is that of the values without their signs. -/
theorem abs_lt_abs_eq : v.abs.lt w.abs = decide (mag (ratOf v) < mag (ratOf w)) := by
  obtain ⟨absV, sizeV⟩ := abs_number finV
  obtain ⟨absW, sizeW⟩ := abs_number finW
  rw [Bool.eq_iff_iff, decide_eq_true_iff, lt_iff_ratOf absV absW, sizeV, sizeW, mag_eq_abs, mag_eq_abs]

/-- R135: the part of the way from the nearer magnitude v to the farther w that a value stands at, against a draw. -/
theorem draws_iff {y : FVal} (finY : isFin y = true) (less : mag (ratOf v) < mag (ratOf w)) (r : Nat) :
    r < ratio32 (y.abs.minus v.abs) (w.abs.minus v.abs) ↔
      (r : ℚ) + 1 ≤ 2 ^ 32 * ((mag (ratOf y) - mag (ratOf v)) / (mag (ratOf w) - mag (ratOf v))) := by
  obtain ⟨absV, sizeV⟩ := abs_number finV
  obtain ⟨absW, sizeW⟩ := abs_number finW
  obtain ⟨absY, sizeY⟩ := abs_number finY
  obtain ⟨fin, number⟩ := minus_number absY absV
  obtain ⟨fin', number'⟩ := minus_number absW absV
  simp only [mag_eq_abs, ← sizeV, ← sizeW, ← sizeY] at less ⊢
  rw [lt_ratio32_iff fin fin' (number' ▸ sub_pos.mpr less), number, number']

end Numbers

end Sys2Proof.Machine
end

section
/-!
The encoder of a decode table (R133, R135): the codes that it may choose, its search among them, and its choice between two.
-/

namespace Sys2Proof.Machine

open Claims

section Encoder
variable (T : DecTab) (finite : Bool)

/-- The codes that may be chosen: those of the table whose entries are marked as in use and stand for numbers. -/
theorem DecTab.mem_codes (c : Nat) : c ∈ T.codes finite ↔
    c < (if T.sm then 128 else 256) ∧ (T.ent c).getLsbD 19 = false ∧ isFin (T.entVal finite c) = true := by
  have same : (T.entVal finite c).isFin = isFin (T.entVal finite c) := by cases T.entVal finite c <;> rfl
  have bit_ : bitAt (T.ent c) 19 = (T.ent c).getLsbD 19 := rfl
  rw [DecTab.codes, List.mem_filter, List.mem_range, Bool.and_eq_true, Bool.not_eq_true', same, bit_]

theorem DecTab.codes_sorted : (T.codes finite).Pairwise (· < ·) := List.pairwise_lt_range.filter _

theorem DecTab.length_codes_le : (T.codes finite).length ≤ 256 := by
  refine (List.length_filter_le _ _).trans ?_
  rw [List.length_range]
  split <;> omega

variable {T finite}

/-- The halvings find where the entries that are not above y end, if they come first. -/
theorem DecTab.search_spec {l : List Nat} {y : FVal} {P : Nat → Prop} (is : ∀ i, (T.entVal finite ((l[i]?).getD 0)).le y = true ↔ P i)
    (first : ∀ i j, i ≤ j → j < l.length → P j → P i) (k lo hi : Nat) (wide : hi - lo < 2 ^ k) (range : lo ≤ hi) (ends : hi ≤ l.length)
    (below : ∀ i, i < lo → P i) (above : ∀ i, hi ≤ i → i < l.length → ¬P i) :
    T.search finite l y k lo hi ≤ l.length ∧ (∀ i, i < T.search finite l y k lo hi → P i) ∧
      ∀ i, T.search finite l y k lo hi ≤ i → i < l.length → ¬P i := by
  induction k generalizing lo hi with
  | zero =>
    obtain rfl : lo = hi := by omega
    exact ⟨ends, below, above⟩
  | succ k ih =>
    rw [DecTab.search]
    rw [pow_succ] at wide
    split
    · obtain rfl : lo = hi := by omega
      exact ⟨ends, below, above⟩
    dsimp only
    split
    · next le =>
      have mid := (is _).mp le
      exact ih _ _ (by omega) (by omega) ends (fun i h => first i _ (by omega) (by omega) mid) above
    · next gt =>
      have mid := mt (is _).mpr gt
      exact ih _ _ (by omega) (by omega) (by omega) below fun i h inside p => mid (first _ i h inside p)

/-- R133: the value that the search looks for. -/
def DecTab.target (T : DecTab) (v : FVal) : FVal := if T.sm then v.abs else v

/-- R133: the place where the entries above the value begin. -/
def DecTab.place (T : DecTab) (finite : Bool) (v : FVal) : Nat :=
  T.search finite (T.codes finite) (T.target v) 9 0 (T.codes finite).length

/-- R133: the bit that the sign of the value puts into the code. -/
def DecTab.signCode (T : DecTab) (v : FVal) : Nat := if T.sm && v.sign then 128 else 0

theorem DecTab.place_spec {v : FVal} {P : Nat → Prop}
    (is : ∀ c ∈ T.codes finite, (T.entVal finite c).le (T.target v) = true ↔ P c)
    (first : ∀ c ∈ T.codes finite, ∀ c' ∈ T.codes finite, c ≤ c' → P c' → P c) :
    T.place finite v ≤ (T.codes finite).length ∧
      ∀ i (inside : i < (T.codes finite).length), i < T.place finite v ↔ P (T.codes finite)[i] := by
  have at_ (i : Nat) (inside : i < (T.codes finite).length) : ((T.codes finite)[i]?).getD 0 = (T.codes finite)[i] := by
    simp [inside]
  have spec := DecTab.search_spec (T := T) (finite := finite) (l := T.codes finite) (y := T.target v)
    (P := fun i => (T.entVal finite (((T.codes finite)[i]?).getD 0)).le (T.target v) = true) (fun _ => Iff.rfl) ?_ 9 0
    (T.codes finite).length (by have := T.length_codes_le finite; omega) (Nat.zero_le _) le_rfl (fun _ h => absurd h (Nat.not_lt_zero _))
    (fun _ h h' => absurd h' (Nat.not_lt.mpr h))
  · obtain ⟨ends, below, above⟩ := spec
    refine ⟨ends, fun i inside => ?_⟩
    have same := is _ (List.getElem_mem inside)
    rw [← at_ i inside] at same ⊢
    rw [← same]
    exact ⟨below i, fun p => Nat.lt_of_not_le fun h => above i h inside p⟩
  · intro i j le inside p
    have inside' : i < (T.codes finite).length := by omega
    rw [at_ i inside', is _ (List.getElem_mem inside')]
    rw [at_ j inside, is _ (List.getElem_mem inside)] at p
    refine first _ (List.getElem_mem inside') _ (List.getElem_mem inside) ?_ p
    exact (T.codes_sorted finite).sortedLT.getElem_le_getElem_iff.mpr le

/-! ## The choice between two entries -/

/-- R133: the choice between the entries a and b, in the numbers that they and the value stand for. -/
def chooses (val : Nat → ℚ) (rm : Rnd) (a b : Nat) (y : ℚ) (neg tie : Bool) : Nat :=
  let far (p q : Nat) : Bool := decide (mag (val p) < mag (val q))
  match rm with
  | .rne =>
    if y - val a < val b - y then a else if val b - y < y - val a then b
    else if a % 2 = b % 2 then min a b else if a % 2 = 0 then a else b
  | .rtz => if far a b then a else if far b a then b else if tie then b else a
  | .rup => if neg then a else b
  | .rdn => if neg then b else a
  | .sr q =>
    if far a b = true ∨ far b a = true then
      let n := if far a b then a else b
      let f := if far a b then b else a
      if (q : ℚ) + 1 ≤ 2 ^ 32 * ((mag y - mag (val n)) / (mag (val f) - mag (val n))) then f else n
    else if tie then b else a

theorem DecTab.pick_eq {a b : Nat} {y : FVal} (finA : isFin (T.entVal finite a) = true) (finB : isFin (T.entVal finite b) = true)
    (finY : isFin y = true) (rm : Rnd) (neg tie : Bool) :
    T.pick finite rm a b y neg tie = chooses (fun c => ratOf (T.entVal finite c)) rm a b (ratOf y) (T.sm && neg) tie := by
  have ab := abs_lt_abs_eq finA finB
  have ba := abs_lt_abs_eq finB finA
  cases rm with
  | rtz => simp only [DecTab.pick, chooses, ab, ba]
  | rup => rfl
  | rdn => rfl
  | rne =>
    obtain ⟨finL, low⟩ := minus_number finY finA
    obtain ⟨finH, high⟩ := minus_number finB finY
    simp only [DecTab.pick, chooses, lt_iff_ratOf finL finH, lt_iff_ratOf finH finL, low, high, Bool.and_eq_true, beq_iff_eq]
    split_ifs <;> omega
  | sr r =>
    simp only [DecTab.pick, chooses, ab, ba, Bool.or_eq_true]
    by_cases nearA : mag (ratOf (T.entVal finite a)) < mag (ratOf (T.entVal finite b))
    · simp only [nearA, decide_true, true_or, if_true]
      exact if_congr (draws_iff finA finB finY nearA r) rfl rfl
    by_cases nearB : mag (ratOf (T.entVal finite b)) < mag (ratOf (T.entVal finite a))
    · simp only [nearA, nearB, decide_true, decide_false, or_true, if_true, Bool.false_eq_true, if_false]
      exact if_congr (draws_iff finB finA finY nearB r) rfl rfl
    · simp [nearA, nearB]

section Choice
variable (val : Nat → ℚ) (a b : Nat) (y : ℚ) (neg tie : Bool)

theorem chooses_mem (rm : Rnd) : chooses val rm a b y neg tie = a ∨ chooses val rm a b y neg tie = b := by
  unfold chooses
  cases rm <;> dsimp only <;> split_ifs <;> omega

variable {val a b y} (low : val a < y) (high : y < val b)
include low high

/-- R133: to the nearest, the entry chosen lies no farther than either. -/
theorem chooses_rne_nearest : |val (chooses val .rne a b y neg tie) - y| ≤ min (y - val a) (val b - y) := by
  have distA : |val a - y| = y - val a := by rw [abs_sub_comm, abs_of_pos (sub_pos.mpr low)]
  have distB : |val b - y| = val b - y := abs_of_pos (sub_pos.mpr high)
  simp only [chooses]
  split_ifs with nearA nearB odd even
  · rw [distA, min_eq_left nearA.le]
  · rw [distB, min_eq_right nearB.le]
  · have : y - val a = val b - y := le_antisymm (not_lt.mp nearB) (not_lt.mp nearA)
    rcases min_choice a b with h | h <;> rw [h]
    · rw [distA, this, min_self]
    · rw [distB, this, min_self]
  · rw [distA, le_antisymm (not_lt.mp nearB) (not_lt.mp nearA), min_self]
  · rw [distB, le_antisymm (not_lt.mp nearB) (not_lt.mp nearA), min_self]

end Choice

/-! ## The code for a value -/

section Code
variable {v : FVal} (rm : Rnd) (tie : Bool) (num : v.isNan = false) (range : v.isInf = true → T.iv = false)
include num range

/-- R133: the table has no entry in use that is a number. -/
theorem DecTab.encode_of_codes_nil (none_ : T.codes finite = []) : T.encode finite rm v tie = (T.nanCode, flagNv) := by
  have inf : (v.isInf && T.iv) = false := by
    cases h : v.isInf
    · rfl
    · exact range h
  simp [DecTab.encode, num, inf, none_]

/-- R133: the code, by where the search ends. -/
theorem DecTab.encode_eq (some_ : T.codes finite ≠ []) : T.encode finite rm v tie =
    let l := T.codes finite
    let at_ (k : Nat) : Nat := (l[k]?).getD 0
    let j := T.place finite v
    if 0 < j ∧ (T.entVal finite (at_ (j - 1))).eqv (T.target v) = true then (at_ (j - 1) ||| T.signCode v, 0)
    else if j = l.length then (at_ (l.length - 1) ||| T.signCode v, flagOf ||| flagNx)
    else if j = 0 then (at_ 0 ||| T.signCode v, (if T.sm then flagUf else flagOf) ||| flagNx)
    else
      let c := T.pick finite rm (at_ (j - 1)) (at_ j) (T.target v) (T.sm && v.sign) tie
      (c ||| T.signCode v, flagNx ||| flagIf (e8m10Subnormal ((T.ent c).toNat % 2 ^ 19)) flagUf) := by
  have inf : (v.isInf && T.iv) = false := by
    cases h : v.isInf
    · rfl
    · exact range h
  have size : (T.codes finite).length ≠ 0 := mt List.length_eq_zero_iff.mp some_
  rw [DecTab.encode, if_neg (Bool.eq_false_iff.mp num)]
  simp only [inf, Bool.false_eq_true, if_false, size]
  rfl

end Code

/-- R133: the code of an infinity that the table has no code for is the last of the side that it lies on. -/
theorem DecTab.encode_inf {v : FVal} (inf : v.isInf = true) (noCode : T.iv = false) (some_ : T.codes finite ≠ []) (rm : Rnd) (tie : Bool) :
    ∃ c ∈ T.codes finite, T.encode finite rm v tie = (c ||| T.signCode v, flagOf ||| flagNx) ∧
      ∀ c' ∈ T.codes finite, if T.sm = false ∧ v.sign = true then c ≤ c' else c' ≤ c := by
  obtain ⟨neg, rfl⟩ := exists_of_isInf inf
  have size : 0 < (T.codes finite).length := List.length_pos_iff.mpr some_
  have target : T.target (.inf neg) = .inf (!T.sm && neg) := by
    rw [DecTab.target]
    cases T.sm <;> rfl
  have number (c : Nat) (h : c ∈ T.codes finite) : isFin (T.entVal finite c) = true := ((T.mem_codes finite c).mp h).2.2
  have le (c : Nat) (h : c ∈ T.codes finite) : (T.entVal finite c).le (T.target (.inf neg)) = !(!T.sm && neg) := by
    obtain ⟨n, m, e, is⟩ := exists_of_isFin (number c h)
    rw [is, target]
    rfl
  have apart (c : Nat) (h : c ∈ T.codes finite) : (T.entVal finite c).eqv (T.target (.inf neg)) = false := by
    obtain ⟨n, m, e, is⟩ := exists_of_isFin (number c h)
    rw [is, target]
    cases (!T.sm && neg) <;> rfl
  have at_ (i : Nat) (inside : i < (T.codes finite).length) : ((T.codes finite)[i]?).getD 0 = (T.codes finite)[i] := by simp [inside]
  obtain ⟨ends, place⟩ := DecTab.place_spec (T := T) (finite := finite) (v := .inf neg) (P := fun _ => (!T.sm && neg) = false)
    (fun c h => by rw [le c h, Bool.not_eq_true']) (fun _ _ _ _ _ p => p)
  have least := (T.codes_sorted finite).sortedLT
  have eq_ := DecTab.encode_eq (T := T) (finite := finite) (v := .inf neg) rm tie rfl (fun _ => noCode) some_
  by_cases low : (!T.sm && neg) = true
  · have sm : T.sm = false ∧ neg = true := by simpa using low
    have start : T.place finite (.inf neg) = 0 := by
      by_contra h
      rw [(place 0 size).mp (Nat.pos_of_ne_zero h)] at low
      exact Bool.noConfusion low
    refine ⟨_, List.getElem_mem size, eq_.trans ?_, fun c' mem => ?_⟩
    · simp only [start, lt_irrefl, false_and, if_false, size.ne, if_true, at_ 0 size, sm.1, Bool.false_eq_true]
    · rw [if_pos (show T.sm = false ∧ (FVal.inf neg).sign = true from sm)]
      obtain ⟨i, inside, rfl⟩ := List.getElem_of_mem mem
      exact least.getElem_le_getElem_iff.mpr (Nat.zero_le i)
  · have high : (!T.sm && neg) = false := Bool.eq_false_iff.mpr low
    have last : (T.codes finite).length - 1 < (T.codes finite).length := by omega
    have stop : T.place finite (.inf neg) = (T.codes finite).length := by
      have := (place _ last).mpr high
      omega
    refine ⟨_, List.getElem_mem last, eq_.trans ?_, fun c' mem => ?_⟩
    · simp only [stop, at_ _ last, apart _ (List.getElem_mem last), Bool.false_eq_true, and_false, if_false, if_true]
    · rw [if_neg (show ¬(T.sm = false ∧ (FVal.inf neg).sign = true) by simpa [FVal.sign] using high)]
      obtain ⟨i, inside, rfl⟩ := List.getElem_of_mem mem
      exact least.getElem_le_getElem_iff.mpr (by omega)

/-- Where a finite value stands among the entries of a table, and the code that it has there. -/
inductive DecTab.Coded (T : DecTab) (finite : Bool) (rm : Rnd) (v : FVal) (tie : Bool) (r : Nat × FlagSet) : Prop
  | equal (c : Nat) (mem : c ∈ T.codes finite) (same : ratOf (T.entVal finite c) = ratOf (T.target v)) (is : r = (c ||| T.signCode v, 0))
  | above (c : Nat) (mem : c ∈ T.codes finite)
      (all : ∀ c' ∈ T.codes finite, ratOf (T.entVal finite c') < ratOf (T.target v) ∧ c' ≤ c)
      (is : r = (c ||| T.signCode v, flagOf ||| flagNx))
  | below (c : Nat) (mem : c ∈ T.codes finite)
      (all : ∀ c' ∈ T.codes finite, ratOf (T.target v) < ratOf (T.entVal finite c') ∧ c ≤ c')
      (is : r = (c ||| T.signCode v, (if T.sm then flagUf else flagOf) ||| flagNx))
  | between (a b : Nat) (memA : a ∈ T.codes finite) (memB : b ∈ T.codes finite)
      (low : ratOf (T.entVal finite a) < ratOf (T.target v)) (high : ratOf (T.target v) < ratOf (T.entVal finite b))
      (all : ∀ c' ∈ T.codes finite, ratOf (T.entVal finite c') ≤ ratOf (T.entVal finite a) ∨
        ratOf (T.entVal finite b) ≤ ratOf (T.entVal finite c'))
      (c : Nat) (choice : c = chooses (fun c => ratOf (T.entVal finite c)) rm a b (ratOf (T.target v)) (T.sm && v.sign) tie)
      (is : r = (c ||| T.signCode v, flagNx ||| flagIf (e8m10Subnormal ((T.ent c).toNat % 2 ^ 19)) flagUf))

/-- R133: the code of a finite value in a table whose entries ascend. -/
theorem DecTab.coded_encode {v : FVal} (fin : isFin v = true) (some_ : T.codes finite ≠ [])
    (ascend : ∀ c ∈ T.codes finite, ∀ c' ∈ T.codes finite, c < c' → ratOf (T.entVal finite c) < ratOf (T.entVal finite c'))
    (rm : Rnd) (tie : Bool) : T.Coded finite rm v tie (T.encode finite rm v tie) := by
  have size : 0 < (T.codes finite).length := List.length_pos_iff.mpr some_
  have target : isFin (T.target v) = true := by
    rw [DecTab.target]
    split
    · exact (abs_number fin).1
    · exact fin
  have number (c : Nat) (h : c ∈ T.codes finite) : isFin (T.entVal finite c) = true := ((T.mem_codes finite c).mp h).2.2
  have mono (c : Nat) (h : c ∈ T.codes finite) (c' : Nat) (h' : c' ∈ T.codes finite) (le : c ≤ c') :
      ratOf (T.entVal finite c) ≤ ratOf (T.entVal finite c') := by
    rcases le.lt_or_eq with lt | rfl
    · exact (ascend c h c' h' lt).le
    · exact le_rfl
  have num : v.isNan = false := by
    obtain ⟨n, m, e, rfl⟩ := exists_of_isFin fin
    rfl
  have noInf : v.isInf = true → T.iv = false := by
    obtain ⟨n, m, e, rfl⟩ := exists_of_isFin fin
    exact fun h => Bool.noConfusion h
  have at_ (i : Nat) (inside : i < (T.codes finite).length) : ((T.codes finite)[i]?).getD 0 = (T.codes finite)[i] := by simp [inside]
  have order {i j : Nat} (hi : i < (T.codes finite).length) (hj : j < (T.codes finite).length) :
      (T.codes finite)[i] ≤ (T.codes finite)[j] ↔ i ≤ j := (T.codes_sorted finite).sortedLT.getElem_le_getElem_iff
  obtain ⟨ends, place⟩ := DecTab.place_spec (T := T) (finite := finite) (v := v)
    (P := fun c => ratOf (T.entVal finite c) ≤ ratOf (T.target v)) (fun c h => le_iff_ratOf (number c h) target)
    (fun c h c' h' le p => (mono c h c' h' le).trans p)
  have eq_ := DecTab.encode_eq (T := T) (finite := finite) rm tie num noInf some_
  have equal_ (c : Nat) (h : c ∈ T.codes finite) :
      (T.entVal finite c).eqv (T.target v) = true ↔ ratOf (T.entVal finite c) = ratOf (T.target v) := eqv_iff_ratOf (number c h) target
  generalize T.place finite v = j at ends place eq_
  dsimp only at eq_
  by_cases hit : 0 < j ∧ (T.entVal finite (((T.codes finite)[j - 1]?).getD 0)).eqv (T.target v) = true
  · have inside : j - 1 < (T.codes finite).length := by omega
    rw [if_pos hit, at_ _ inside] at eq_
    rw [at_ _ inside, equal_ _ (List.getElem_mem inside)] at hit
    exact .equal _ (List.getElem_mem inside) hit.2 eq_
  rw [if_neg hit] at eq_
  have miss (i : Nat) (inside : i < (T.codes finite).length) (under : i < j) :
      ratOf (T.entVal finite (T.codes finite)[i]) < ratOf (T.target v) := by
    have inside' : j - 1 < (T.codes finite).length := by omega
    have last : ratOf (T.entVal finite (T.codes finite)[j - 1]) ≠ ratOf (T.target v) := by
      rw [at_ _ inside', equal_ _ (List.getElem_mem inside'), not_and] at hit
      exact hit (by omega)
    exact (mono _ (List.getElem_mem inside) _ (List.getElem_mem inside') ((order inside inside').mpr (by omega))).trans_lt
      (lt_of_le_of_ne ((place _ inside').mp (by omega)) last)
  have over_ (i : Nat) (inside : i < (T.codes finite).length) (from_ : j ≤ i) :
      ratOf (T.target v) < ratOf (T.entVal finite (T.codes finite)[i]) := not_le.mp (mt (place i inside).mpr (by omega))
  by_cases all : j = (T.codes finite).length
  · have last : (T.codes finite).length - 1 < (T.codes finite).length := by omega
    rw [if_pos all, at_ _ last] at eq_
    refine .above _ (List.getElem_mem last) (fun c' mem => ?_) eq_
    obtain ⟨i, inside, rfl⟩ := List.getElem_of_mem mem
    exact ⟨miss i inside (by omega), (order inside last).mpr (by omega)⟩
  rw [if_neg all] at eq_
  by_cases none_ : j = 0
  · rw [if_pos none_, at_ _ size] at eq_
    refine .below _ (List.getElem_mem size) (fun c' mem => ?_) eq_
    obtain ⟨i, inside, rfl⟩ := List.getElem_of_mem mem
    exact ⟨over_ i inside (by omega), (order size inside).mpr (by omega)⟩
  · have insideA : j - 1 < (T.codes finite).length := by omega
    have insideB : j < (T.codes finite).length := by omega
    rw [if_neg none_, at_ _ insideA, at_ _ insideB, DecTab.pick_eq (number _ (List.getElem_mem insideA)) (number _ (List.getElem_mem insideB))
      target, ← Bool.and_assoc, Bool.and_self] at eq_
    refine .between _ _ (List.getElem_mem insideA) (List.getElem_mem insideB) (miss _ insideA (by omega)) (over_ _ insideB le_rfl)
      (fun c' mem => ?_) _ rfl eq_
    obtain ⟨i, inside, rfl⟩ := List.getElem_of_mem mem
    rcases Nat.lt_or_ge i j with under | from_
    · exact .inl (mono _ mem _ (List.getElem_mem insideA) ((order inside insideA).mpr (by omega)))
    · exact .inr (mono _ (List.getElem_mem insideB) _ mem ((order insideB inside).mpr from_))

/-- R133: the number that the search looks for. -/
theorem DecTab.ratOf_target {v : FVal} (fin : isFin v = true) :
    ratOf (T.target v) = if (T.sm && v.sign) = true then -ratOf v else ratOf v := by
  rw [DecTab.target]
  cases T.sm
  · rfl
  · obtain ⟨n, m, e, rfl⟩ := exists_of_isFin fin
    rw [if_pos rfl, (abs_number fin).2, ratOf_fin, abs_signed, abs_of_nonneg (by positivity)]
    cases n <;> simp [signed, FVal.sign]

theorem e8m10Subnormal_eq (x : Nat) :
    e8m10Subnormal (x % 2 ^ 19) = decide (x / 2 ^ 10 % 2 ^ 8 = 0 ∧ x % 2 ^ 10 ≠ 0) := by
  rw [e8m10Subnormal, bitsAt, BitVec.toNat_ofNat, Bool.eq_iff_iff]
  simp only [Bool.and_eq_true, beq_iff_eq, bne_iff_ne, decide_eq_true_eq]
  omega

end Encoder

/-- Settles O20: the search ends where the entries above the value begin, and `pick` chooses between the entries on both sides. -/
theorem decodeTableEncoding : Obligations.DecodeTableEncoding := by
  unfold Obligations.DecodeTableEncoding
  intro T finite rm v tie E val In r neg sgn y far
  have mem (c : Nat) : c ∈ T.codes finite ↔ In c := T.mem_codes finite c
  have some_ (h : ∃ c, In c) : T.codes finite ≠ [] := by
    obtain ⟨c, h⟩ := h
    exact List.ne_nil_of_mem ((mem c).mpr h)
  refine ⟨fun nan => ?_, fun inf code => ?_, fun num range none_ => ?_, fun inf noCode exists_ => ?_, fun fin exists_ ascend => ?_⟩
  · simp [r, DecTab.encode, nan]
  · obtain ⟨n, rfl⟩ := exists_of_isInf inf
    simp [r, sgn, neg, DecTab.encode, FVal.isNan, FVal.isInf, code]
  · exact DecTab.encode_of_codes_nil rm tie num range (List.eq_nil_iff_forall_not_mem.mpr fun c h => none_ c ((mem c).mp h))
  · obtain ⟨c, h, is, last⟩ := DecTab.encode_inf inf noCode (some_ exists_) rm tie
    exact ⟨c, (mem c).mp h, is, fun c' h' => last c' ((mem c').mpr h')⟩
  have number : ratOf (T.target v) = y := DecTab.ratOf_target fin
  have coded := DecTab.coded_encode fin (some_ exists_)
    (fun c h c' h' => ascend c c' ((mem c).mp h) ((mem c').mp h')) rm tie
  have nowhere {c : Nat} (same : val c = y) (c' : Nat) : ¬(val c < val c' ∧ val c' < y) ∧ ¬(y < val c' ∧ val c' < val c) := by
    rw [same]
    exact ⟨fun h => lt_asymm h.1 h.2, fun h => lt_asymm h.1 h.2⟩
  rcases coded with ⟨c, h, same, is⟩ | ⟨c, h, all, is⟩ | ⟨c, h, all, is⟩ | ⟨a, b, ha, hb, low, high, all, c, choice, is⟩
  · have same : val c = y := same.trans number
    have inC := (mem c).mp h
    refine ⟨c, inC, congrArg Prod.fst is, fun _ => ⟨same, congrArg Prod.snd is⟩, fun under => absurd same (under c inC).ne,
      fun over_ => absurd same (over_ c inC).ne', fun a b _ _ low high all => absurd ?_ (all c inC), fun _ _ => ⟨?_, ?_, ?_, ?_⟩⟩
    · rw [same]
      exact ⟨low, high⟩
    · intro _ c' _
      rw [same, within, sub_self, mag_eq_abs, mag_eq_abs, abs_zero]
      exact abs_nonneg _
    · intro _
      rw [same, ite_self]
    · intro _
      rw [same, ite_self]
    · exact fun c' _ => nowhere same c'
  · have under (c' : Nat) (h' : In c') : val c' < y := number ▸ (all c' ((mem c').mpr h')).1
    refine ⟨c, (mem c).mp h, congrArg Prod.fst is, fun ⟨c', h', same⟩ => absurd same (under c' h').ne,
      fun _ => ⟨fun c' h' => (all c' ((mem c').mpr h')).2, congrArg Prod.snd is⟩,
      fun over_ => absurd (over_ c ((mem c).mp h)) (under c ((mem c).mp h)).not_gt,
      fun a b _ h' _ high => absurd high (under b h').not_gt, fun _ ⟨c', h', high⟩ => absurd high (under c' h').not_gt⟩
  · have over_ (c' : Nat) (h' : In c') : y < val c' := number ▸ (all c' ((mem c').mpr h')).1
    refine ⟨c, (mem c).mp h, congrArg Prod.fst is, fun ⟨c', h', same⟩ => absurd same (over_ c' h').ne',
      fun under => absurd (under c ((mem c).mp h)) (over_ c ((mem c).mp h)).not_gt,
      fun _ => ⟨fun c' h' => (all c' ((mem c').mpr h')).2, congrArg Prod.snd is⟩,
      fun a b h' _ low => absurd low (over_ a h').not_gt, fun ⟨c', h', low⟩ => absurd low (over_ c' h').not_gt⟩
  · rw [number] at low high choice
    have low : val a < y := low
    have high : y < val b := high
    have inA := (mem a).mp ha
    have inB := (mem b).mp hb
    have apart (c' : Nat) (h' : In c') : val c' ≤ val a ∨ val b ≤ val c' := all c' ((mem c').mpr h')
    have one (p q : Nat) (hp : In p) (hq : In q) (same : val p = val q) : p = q := by
      rcases Nat.lt_trichotomy p q with h | h | h
      · exact absurd same (ascend p q hp hq h).ne
      · exact h
      · exact absurd same (ascend q p hq hp h).ne'
    have neg_ : (T.sm && v.sign) = neg := rfl
    rw [neg_] at choice
    have choice : c = chooses val rm a b y neg tie := choice
    have member : c = a ∨ c = b := choice ▸ chooses_mem val a b y neg tie rm
    have flags : r.2 = flagNx ||| flagIf (decide ((T.ent c).toNat / 2 ^ 10 % 2 ^ 8 = 0 ∧ (T.ent c).toNat % 2 ^ 10 ≠ 0)) flagUf :=
      (congrArg Prod.snd is).trans (by rw [e8m10Subnormal_eq])
    refine ⟨c, by rcases member with rfl | rfl <;> assumption, congrArg Prod.fst is, fun ⟨c', h', same⟩ => ?_, fun under => ?_,
      fun over_ => ?_, fun p q hp hq lowP highQ none_ => ?_, fun _ _ => ⟨?_, ?_, ?_, ?_⟩⟩
    · rcases apart c' h' with le | le <;> linarith
    · exact absurd (under b inB) high.not_gt
    · exact absurd (over_ a inA) low.not_gt
    · have lowP : val p ≤ val a := (apart p hp).resolve_right fun le => by linarith
      have highQ : val b ≤ val q := (apart q hq).resolve_left fun le => by linarith
      obtain rfl : p = a := one p a hp inA (lowP.antisymm (not_lt.mp fun less => none_ a inA ⟨less, by linarith⟩))
      obtain rfl : q = b := one q b hq inB ((not_lt.mp fun less => none_ b inB ⟨by linarith, less⟩).antisymm highQ)
      refine ⟨flags, ?_, ?_, ?_⟩
      · rintro rfl tied
        rw [choice, chooses, if_neg tied.not_lt, if_neg tied.symm.not_lt]
      · rintro rfl
        exact choice
      · rintro k rfl
        exact choice
    · rintro rfl c' h'
      have near := chooses_rne_nearest neg tie low high
      rw [← choice] at near
      rw [within, mag_eq_abs, mag_eq_abs]
      rcases apart c' h' with le | le
      · rw [abs_sub_comm (val c'), abs_of_nonneg (show 0 ≤ y - val c' by linarith)]
        linarith [near.trans (min_le_left _ _)]
      · rw [abs_of_nonneg (show 0 ≤ val c' - y by linarith)]
        linarith [near.trans (min_le_right _ _)]
    · rintro rfl
      rw [choice, chooses]
      split
      · exact low.le
      · exact high.le
    · rintro rfl
      rw [choice, chooses]
      split
      · exact high.le
      · exact low.le
    · intro c' h'
      rcases member with rfl | rfl
      · exact ⟨fun ⟨more, less⟩ => by rcases apart c' h' with le | le <;> linarith, fun ⟨more, less⟩ => by linarith⟩
      · exact ⟨fun ⟨more, less⟩ => by linarith, fun ⟨more, less⟩ => by rcases apart c' h' with le | le <;> linarith⟩

end Sys2Proof.Machine
end

section
/-!
One rounding in either reading of a format, and by the bits that an element draws (R88, R89, R126, R135).
-/

namespace Sys2Proof.Machine

open Claims

/-! ## The numbers of a format -/

section Shape
variable {f : Fmt} (h : f.Shape) (neg : Bool)
include h

theorem Fmt.two_le_signBit : 2 ≤ f.signBit := by
  have : 2 ^ 1 ≤ 2 ^ (f.exp + f.frac) := Nat.pow_le_pow_right two_pos (by have := h.exp_pos; omega)
  exact this

theorem Fmt.maxMag_lt_signBit : f.maxMag neg < f.signBit := by
  have := Fmt.two_le_signBit h
  have := f.past_lt_signBit
  unfold Fmt.past at this
  rw [Fmt.maxMag]
  split_ifs <;> omega

/-- In the IEEE reading the numbers end below the infinity. -/
theorem Fmt.maxMag_of_ieee (reading : f.finite = false) : f.maxMag neg + 1 = f.past := by
  have := Fmt.past_pos (h.ieee reading)
  unfold Fmt.past at *
  simp only [Fmt.maxMag, reading, Bool.false_eq_true, if_false]
  omega

/-- The magnitude bits up to the largest, with a sign, are a number. -/
theorem Fmt.isFin_pattern {c : Nat} (small : c ≤ f.maxMag neg) : isFin (f.value (f.pattern neg c)) = true := by
  have below := small.trans_lt (Fmt.maxMag_lt_signBit h neg)
  cases reading : f.finite
  · have := Fmt.maxMag_of_ieee h neg reading
    rw [Fmt.isFin_value_iff (h.ieee reading), f.pattern_mod neg below]
    omega
  · have is := Fmt.value_finite_reading reading (f.pattern neg c)
    have two := Fmt.two_le_signBit h
    rwa [if_neg] at is
    rw [Nat.mod_eq_of_lt (f.pattern_lt neg below), f.two_pow_width, Fmt.pattern]
    simp only [Fmt.maxMag, reading, if_true] at small
    cases neg
    · simp only [Bool.false_eq_true, if_false] at *
      omega
    · simp only [if_true] at *
      omega

theorem Fmt.ratOf_pattern {c : Nat} (small : c ≤ f.maxMag neg) : ratOf (f.value (f.pattern neg c)) = signed neg (f.magnitude c) := by
  have below := small.trans_lt (Fmt.maxMag_lt_signBit h neg)
  rw [Fmt.ratOf_value_of_isFin (Fmt.isFin_pattern h neg small), f.isNeg_pattern neg below, f.pattern_mod neg below]

omit neg in
/-- A number has magnitude bits up to the largest of its sign. -/
theorem Fmt.mod_le_maxMag {x : Nat} (small : x < 2 ^ f.width) (fin : isFin (f.value x) = true) : x % f.signBit ≤ f.maxMag (f.isNeg x) := by
  cases reading : f.finite
  · have := Fmt.maxMag_of_ieee h (f.isNeg x) reading
    have := (Fmt.isFin_value_iff (h.ieee reading) x).mp fin
    omega
  · have is := Fmt.value_finite_reading reading x
    rw [Nat.mod_eq_of_lt small] at is
    have number : x ≠ 2 ^ f.width - 1 := by
      intro nan
      rw [if_pos nan] at is
      rw [is] at fin
      exact Bool.noConfusion fin
    have two := Fmt.two_le_signBit h
    have bits := Nat.mod_lt x f.signBit_pos
    have whole := f.pattern_isNeg_mod small
    rw [f.two_pow_width] at number small
    simp only [Fmt.maxMag, reading, if_true]
    unfold Fmt.pattern at whole
    cases neg : f.isNeg x
    · simp only [Bool.false_eq_true, if_false]
      omega
    · simp only [neg, if_true] at *
      omega

/-- A number, as its magnitude on the side of a sign or on the other one. -/
theorem Fmt.exists_side {x : Nat} (small : x < 2 ^ f.width) (fin : isFin (f.value x) = true) :
    ∃ c t, ratOf (f.value x) = signed neg t ∧ (c ≤ f.maxMag neg ∧ t = f.magnitude c ∨ t = -f.magnitude c) := by
  rw [Fmt.ratOf_value_of_isFin fin]
  by_cases same : f.isNeg x = neg
  · exact ⟨_, _, by rw [same], .inl ⟨same ▸ Fmt.mod_le_maxMag h small fin, rfl⟩⟩
  · refine ⟨x % f.signBit, -f.magnitude (x % f.signBit), ?_, .inr rfl⟩
    rw [Bool.eq_not_of_ne same]
    cases neg <;> simp [signed]

end Shape

/-! ## Rounding by a mode or by a draw -/

/-- R88, R135: whether a magnitude x between the neighbours lo and hi is taken to hi, by a mode or by a draw. -/
def takesTo (rm : Rnd) (neg : Bool) (x lo hi : ℝ) (odd : Prop) : Prop :=
  match rm with
  | .sr q => (q : ℝ) + 1 ≤ 2 ^ 32 * ((x - lo) / (hi - lo))
  | rm => takesUp rm neg x lo hi odd

theorem takesTo_of_isMode {rm : Rnd} (mode : rm.IsMode) : takesTo rm = takesUp rm := by
  cases rm with
  | sr q => exact absurd rfl (mode q)
  | _ => rfl

theorem takesTo_sr_iff (q : Nat) (neg : Bool) (x lo hi : ℚ) (odd : Prop) :
    takesTo (.sr q) neg x lo hi odd ↔ (q : ℚ) + 1 ≤ 2 ^ 32 * ((x - lo) / (hi - lo)) := by
  rw [takesTo, ← Rat.cast_le (K := ℝ)]
  push_cast
  rfl

theorem not_takesTo_self (rm : Rnd) (neg : Bool) {lo hi : ℝ} (odd : Prop) (apart : lo < hi) : ¬takesTo rm neg lo lo hi odd := by
  cases rm with
  | sr q =>
    rw [takesTo, sub_self, zero_div, mul_zero, not_le]
    positivity
  | _ => exact not_takesUp_self _ neg odd apart

/-- The parts that `quantise` leaves of a magnitude. -/
theorem quantise_parts {m : Nat} {e q : Int} {kept rem d : Nat} (parts : quantise m e q = (kept, rem, d)) :
    rem < 2 ^ d ∧ (m : ℝ) * 2 ^ e = (kept + rem / 2 ^ d) * 2 ^ q := by
  unfold quantise at parts
  split at parts
  · obtain ⟨rfl, rfl, rfl⟩ := parts
    refine ⟨Nat.two_pow_pos 0, ?_⟩
    rw [Nat.cast_mul, Nat.cast_pow, Nat.cast_ofNat, ← zpow_natCast, Nat.cast_zero, zero_div, add_zero, mul_assoc, ← zpow_add₀ two_ne_zero]
    congr 2
    omega
  · obtain ⟨rfl, rfl, rfl⟩ := parts
    have unit : (2 : ℝ) ^ (q - e).toNat ≠ 0 := by positivity
    have whole : ((m / 2 ^ (q - e).toNat : ℕ) : ℝ) * 2 ^ (q - e).toNat + (m % 2 ^ (q - e).toNat : ℕ) = m := by
      exact_mod_cast Nat.div_add_mod' m _
    have scale : (2 : ℝ) ^ q = 2 ^ (q - e).toNat * 2 ^ e := by
      rw [← zpow_natCast, ← zpow_add₀ two_ne_zero]
      congr 1
      omega
    refine ⟨Nat.mod_lt _ (Nat.two_pow_pos _), ?_⟩
    rw [scale, ← mul_assoc, add_mul, div_mul_cancel₀ _ unit, whole]

/-- R135: `Rnd.up` on a draw compares it with the part of a unit that is left, cut to 32 bits. -/
theorem up_sr_iff (q : Nat) (neg : Bool) (kept rem d : Nat) :
    (Rnd.sr q).up neg kept rem d false = true ↔ (q : ℝ) + 1 ≤ 2 ^ 32 * (rem / 2 ^ d) := by
  have unit : (0 : ℝ) < 2 ^ d := by positivity
  rw [Rnd.up, decide_eq_true_iff, ← Nat.succ_le_iff, Nat.le_div_iff_mul_le (Nat.two_pow_pos d), ← mul_div_assoc, le_div_iff₀ unit]
  norm_cast

/-- `Rnd.up` on the units of a magnitude at the quantum 2^q decides as the mode or the draw says. -/
theorem up_iff_takesTo (rm : Rnd) (neg : Bool) {m : Nat} {e q : Int} {kept rem d : Nat} (parts : quantise m e q = (kept, rem, d)) :
    rm.up neg kept rem d false = true ↔ takesTo rm neg (m * 2 ^ e) (kept * 2 ^ q) ((kept + 1) * 2 ^ q) (kept % 2 = 1) := by
  cases rm with
  | sr k =>
    have unit : (2 : ℝ) ^ q ≠ 0 := by positivity
    rw [up_sr_iff, takesTo, (quantise_parts parts).2, ← sub_mul, ← sub_mul, add_sub_cancel_left, add_sub_cancel_left, one_mul,
      mul_div_cancel_right₀ _ unit]
  | _ => exact ((HeldBy.exact m e).cut (fun q h => Rnd.noConfusion h) neg (by simp) parts).up

/-- R88 to R91, R126, R135: r is a magnitude x > 0 with a sign rounded by a mode or a draw, where n are the magnitude bits next
below x. -/
def Fmt.RoundsBy (f : Fmt) (rm : Rnd) (neg : Bool) (x : ℚ) (n : Nat) (r : Nat × FlagSet) : Prop :=
  ∃ k, (k = n + 1 ∧ takesTo rm neg x (f.magnitude n) (f.magnitude (n + 1)) (n % 2 = 1) ∨
      k = n ∧ ¬takesTo rm neg x (f.magnitude n) (f.magnitude (n + 1)) (n % 2 = 1)) ∧
    if f.maxMag neg < k then r = (f.overflow rm neg, flagOf ||| flagNx)
    else r.1 = f.pattern neg k ∧ (x = f.magnitude n → r.2 = 0) ∧ (x ≠ f.magnitude n → r.2 = flagNx ∨ r.2 = flagNx ||| flagUf)

/-- R135: the rounding that a magnitude gets: a draw gives way to the nearest beyond the largest number. -/
def Rnd.within (rm : Rnd) (beyond : Bool) : Rnd :=
  match rm with
  | .sr q => if beyond then .rne else .sr q
  | rm => rm

/-- R89: a magnitude m · 2^e that the rounding with unbounded exponent leaves below the smallest normal number. -/
def Fmt.tiny (f : Fmt) (rm : Rnd) (neg : Bool) (m : Nat) (e : Int) : Bool :=
  let top : Int := e + (bitLen m : Int) - 1
  let emin : Int := 1 - (f.bias : Int)
  if emin ≤ top then false
  else if top < emin - 1 then true
  else
    let (k, r, d) := quantise m e (top - f.frac)
    decide (k + (if rm.up neg k r d false then 1 else 0) < 2 ^ (f.frac + 1))

/-- R88 to R91: the pattern and the flags of magnitude bits k, of a number that is inexact and tiny or not. -/
def Fmt.delivered (f : Fmt) (rm : Rnd) (neg : Bool) (k : Nat) (inexact tiny : Bool) : Nat × FlagSet :=
  if f.maxMag neg < k then (f.overflow rm neg, flagOf ||| flagNx)
  else (f.pattern neg k, flagIf inexact flagNx ||| flagIf (inexact && tiny) flagUf)

/-- `Fmt.round` with its cut at the quantum of the format given. -/
theorem Fmt.round_exact_eq (f : Fmt) (rm : Rnd) (neg : Bool) {m : Nat} (nonzero : m ≠ 0) {e top q : Int} {kept rem d : Nat}
    (ht : top = e + (bitLen m : Int) - 1) (hq : q = max (top - f.frac) f.low) (cut : quantise m e q = (kept, rem, d)) :
    let n := (q - f.low).toNat * 2 ^ f.frac + kept
    let rm' := rm.within (decide (f.maxMag neg < n) || (f.maxMag neg == n && rem != 0))
    f.round rm neg m e false =
      f.delivered rm' neg (n + if rm'.up neg kept rem d false then 1 else 0) (rem != 0) (f.tiny rm' neg m e) := by
  subst ht hq
  have low : 1 - (f.bias : Int) - f.frac = f.low := rfl
  unfold Fmt.round
  rw [if_neg fun c => nonzero c.1]
  simp only [low, cut, Bool.or_false]
  rfl

section Exact
variable {f : Fmt} (h : f.Shape) (neg : Bool) {m : Nat} (nonzero : m ≠ 0) (e : Int)
include h nonzero

/-- A magnitude m · 2^e is rounded by its mode or its draw; a draw beyond the largest number rounds to the nearest. -/
theorem Fmt.round_roundsBy {x : ℚ} (hx : x = m * 2 ^ e) : ∃ n, f.Below n x ∧ ∀ rm,
    ((∀ q, rm = .sr q → x ≤ f.magnitude (f.maxMag neg)) → f.RoundsBy rm neg x n (f.round rm neg m e false)) ∧
    ∀ q, rm = .sr q → f.magnitude (f.maxMag neg) < x → f.round rm neg m e false = f.round .rne neg m e false := by
  have size : (m : ℝ) * 2 ^ e = x := by
    rw [hx]
    push_cast
    rfl
  have held := HeldBy.exact m e
  obtain ⟨low, high⟩ := held.top nonzero
  generalize ht : e + (bitLen m : Int) - 1 = top at low high
  obtain ⟨q, hq⟩ : ∃ q, q = max (top - f.frac) f.low := ⟨_, rfl⟩
  rcases parts : quantise m e q with ⟨kept, rem, d⟩
  have cut := held.cut (rm := .rne) (fun q h => Rnd.noConfusion h) neg (by simp) parts
  have few := units_lt (f := f) high cut.lower (by omega)
  have normal (c : q = top - f.frac) := le_units low cut.upper c
  have lo := f.magnitude_place hq kept few.le normal
  have hi := f.magnitude_place hq (kept + 1) few fun c => (normal c).trans (Nat.le_succ _)
  rw [← Nat.add_assoc, Nat.cast_add_one] at hi
  have parity : ((q - f.low).toNat * 2 ^ f.frac + kept) % 2 = kept % 2 := by
    rw [← Nat.sub_add_cancel h.frac_pos, pow_succ, ← Nat.mul_assoc, Nat.add_comm, Nat.add_mul_mod_self_right]
  have is (rm : Rnd) := f.round_exact_eq rm neg nonzero ht.symm hq parts
  have up (rm : Rnd) := up_iff_takesTo rm neg parts
  have left : (rem != 0) = true ↔ (kept : ℝ) * 2 ^ q < m * 2 ^ e := by simpa using cut.inexact
  dsimp only at is
  generalize (q - f.low).toNat * 2 ^ f.frac + kept = n at lo hi parity is
  simp only [← lo, ← hi, ← parity, size, Rat.cast_lt] at up left
  have below : f.Below n x := ⟨by rw [lo, ← size]; exact cut.lower, by rw [hi, ← size]; exact cut.upper⟩
  have lower : f.magnitude n ≤ x := by exact_mod_cast below.lower
  have upper : x < f.magnitude (n + 1) := by exact_mod_cast below.upper
  have exact_ : x ≠ f.magnitude n ↔ (rem != 0) = true := by
    rw [left]
    exact ⟨fun ne => lt_of_le_of_ne lower ne.symm, fun lt => lt.ne'⟩
  have beyond : (decide (f.maxMag neg < n) || (f.maxMag neg == n && rem != 0)) = true ↔ f.magnitude (f.maxMag neg) < x := by
    rw [Bool.or_eq_true, decide_eq_true_iff, Bool.and_eq_true, beq_iff_eq, left]
    rcases Nat.lt_trichotomy (f.maxMag neg) n with less | rfl | more
    · exact iff_of_true (.inl less) ((f.magnitude_strictMono less).trans_le lower)
    · simp
    · exact iff_of_false (by omega) (not_lt.mpr (upper.le.trans (f.magnitude_strictMono.monotone more)))
  refine ⟨n, below, fun rm => ⟨fun inside => ?_, ?_⟩⟩
  · have same : rm.within (decide (f.maxMag neg < n) || (f.maxMag neg == n && rem != 0)) = rm := by
      cases rm with
      | sr k => exact if_neg (mt beyond.mp (not_lt.mpr (inside k rfl)))
      | _ => rfl
    have is := is rm
    rw [same] at is
    rw [is]
    refine ⟨n + if rm.up neg kept rem d false then 1 else 0, ?_, ?_⟩
    · rw [← up]
      cases rm.up neg kept rem d false <;> simp
    · rw [Fmt.delivered]
      by_cases over_ : f.maxMag neg < n + if rm.up neg kept rem d false then 1 else 0
      · rw [if_pos over_, if_pos over_]
      · rw [if_neg over_, if_neg over_]
        refine ⟨rfl, fun whole => ?_, fun more => ?_⟩
        · simp [Bool.eq_false_iff.mpr (mt exact_.mpr (not_not.mpr whole)), flagIf]
        · rw [exact_.mp more]
          cases f.tiny rm neg m e <;> simp [flagIf]
  · rintro k rfl out
    rw [is (.sr k), is .rne, beyond.mpr out]
    rfl

end Exact

/-! ## What is delivered -/

section Delivered
variable {f : Fmt} (h : f.Shape)
include h

theorem Fmt.overflow_lt (rm : Rnd) (neg : Bool) : f.overflow rm neg < 2 ^ f.width := by
  have most (big : Bool) : (if big && !f.finite then f.inf neg else f.maxMag neg + if neg then f.signBit else 0) < 2 ^ f.width := by
    split
    · exact f.inf_lt neg
    · exact f.pattern_lt neg (Fmt.maxMag_lt_signBit h neg)
  exact most _

omit h in
/-- In the finite reading an overflow saturates. -/
theorem Fmt.overflow_finite (reading : f.finite = true) (rm : Rnd) (neg : Bool) : f.overflow rm neg = f.pattern neg (f.maxMag neg) := by
  cases rm <;> simp [Fmt.overflow, reading, Fmt.pattern]

variable {rm : Rnd} {neg : Bool} {x : ℚ} {n : Nat} {r : Nat × FlagSet} (rounds : f.RoundsBy rm neg x n r)
include rounds

theorem Fmt.RoundsBy.lt_width : r.1 < 2 ^ f.width := by
  obtain ⟨k, -, is⟩ := rounds
  split at is
  · rw [is]
    exact Fmt.overflow_lt h rm neg
  · next small => exact is.1 ▸ f.pattern_lt neg ((Nat.not_lt.mp small).trans_lt (Fmt.maxMag_lt_signBit h neg))

omit h in
/-- A number of the format stays as it is. -/
theorem Fmt.RoundsBy.exact {j : Nat} (small : j ≤ f.maxMag neg) (below : f.Below n x) (same : x = f.magnitude j) :
    r = (f.pattern neg j, 0) := by
  subst same
  obtain rfl : n = j := below.unique ⟨le_rfl, by exact_mod_cast f.magnitude_lt_succ j⟩
  obtain ⟨k, ⟨-, up⟩ | ⟨rfl, -⟩, is⟩ := rounds
  · exact absurd up (not_takesTo_self rm neg _ (by exact_mod_cast f.magnitude_lt_succ n))
  · rw [if_neg (Nat.not_lt.mpr small)] at is
    exact Prod.ext is.1 (is.2.1 rfl)

end Delivered

section Deliver
variable {f : Fmt} (h : f.Shape) {v : FVal} (fin : isFin v = true)
include h fin

/-- A finite value other than zero is rounded by its mode or its draw. -/
theorem Fmt.deliver_roundsBy (nonzero : v.isZero = false) : ∃ n, f.Below n (|ratOf v| : ℚ) ∧ ∀ rm,
    ((∀ q, rm = .sr q → |ratOf v| ≤ f.magnitude (f.maxMag v.sign)) → f.RoundsBy rm v.sign |ratOf v| n (f.deliver rm v)) ∧
    ∀ q, rm = .sr q → f.magnitude (f.maxMag v.sign) < |ratOf v| → f.deliver rm v = f.deliver .rne v := by
  obtain ⟨neg, m, e, rfl⟩ := exists_of_isFin fin
  exact Fmt.round_roundsBy h neg (isZero_fin_eq_false.mp nonzero) e (by rw [ratOf_fin, abs_signed, abs_of_nonneg (by positivity)])

theorem Fmt.deliver_lt_width (rm : Rnd) : (f.deliver rm v).1 < 2 ^ f.width := by
  cases zero : v.isZero
  · obtain ⟨n, -, rounds⟩ := Fmt.deliver_roundsBy h fin zero
    obtain ⟨nearest, -⟩ := rounds .rne
    obtain ⟨inside, beyond⟩ := rounds rm
    by_cases small : ∀ q, rm = .sr q → |ratOf v| ≤ f.magnitude (f.maxMag v.sign)
    · exact (inside small).lt_width h
    · push Not at small
      obtain ⟨q, is, more⟩ := small
      rw [beyond q is more]
      exact (nearest fun q no => Rnd.noConfusion no).lt_width h
  · rw [f.deliver_zero rm zero]
    exact f.signed_zero_lt _

/-- A number of the format is delivered as it is, whatever the rounding. -/
theorem Fmt.deliver_number (rm : Rnd) {j : Nat} (small : j ≤ f.maxMag v.sign) (same : |ratOf v| = f.magnitude j) :
    f.deliver rm v = (f.pattern v.sign j, 0) := by
  cases zero : v.isZero
  · obtain ⟨n, below, rounds⟩ := Fmt.deliver_roundsBy h fin zero
    exact ((rounds rm).1 fun _ _ => same ▸ f.magnitude_strictMono.monotone small).exact small below same
  · rw [ratOf_zero zero, abs_zero, ← f.magnitude_zero] at same
    rw [f.deliver_zero rm zero, ← f.magnitude_strictMono.injective same, Fmt.pattern, Nat.zero_add]

end Deliver

end Sys2Proof.Machine
end

section
/-!
What the finite reading and the draws make of a number (R89, R126, R135).
-/

namespace Sys2Proof.Machine

open Claims

/-! ## Saturation -/

section Neighbours
variable {f : Fmt} {x : ℚ} {n k M : Nat} (below : f.Below n x)

/-- The magnitude bits k, cut at the largest M, against a magnitude c up to M or a number on the other side. -/
structure Fmt.Nearby (f : Fmt) (x : ℚ) (k M : Nat) (t : ℚ) : Prop where
  under : ¬(f.magnitude (min k M) < t ∧ t ≤ x)
  above : ¬(x ≤ t ∧ t < f.magnitude (min k M))

include below

theorem Fmt.Below.nearby (neighbour : k = n + 1 ∧ x ≠ f.magnitude n ∨ k = n) {c : Nat} {t : ℚ}
    (is : c ≤ M ∧ t = f.magnitude c ∨ t = -f.magnitude c) (pos : 0 < x) : f.Nearby x k M t := by
  have lower : f.magnitude n ≤ x := by exact_mod_cast below.lower
  have upper : x < f.magnitude (n + 1) := by exact_mod_cast below.upper
  rcases is with ⟨small, rfl⟩ | rfl
  · constructor
    · rintro ⟨more, le⟩
      have more := f.magnitude_strictMono.lt_iff_lt.mp more
      have := f.magnitude_strictMono.lt_iff_lt.mp (le.trans_lt upper)
      omega
    · rintro ⟨le, less⟩
      have less := f.magnitude_strictMono.lt_iff_lt.mp less
      have from_ := f.magnitude_strictMono.le_iff_le.mp (lower.trans le)
      obtain rfl : c = n := by omega
      exact (neighbour.resolve_right (by omega)).2 (le_antisymm le lower)
  · have := f.magnitude_nonneg c
    have := f.magnitude_nonneg (min k M)
    exact ⟨fun ⟨_, _⟩ => by linarith, fun ⟨_, _⟩ => by linarith⟩

/-- R88: to the nearest, no number up to the largest is nearer. -/
theorem Fmt.Below.nearest_within (nearest : k = f.roundedMag .rne neg x n) {c : Nat} {t : ℚ}
    (is : c ≤ M ∧ t = f.magnitude c ∨ t = -f.magnitude c) (pos : 0 < x) : |f.magnitude (min k M) - x| ≤ |t - x| := by
  have near (j : Nat) : |f.magnitude k - x| ≤ |f.magnitude j - x| := by exact_mod_cast nearest ▸ (below.nearest (neg := neg) j).1
  rcases (Nat.lt_or_ge M k).symm with inside | out
  · rw [Nat.min_eq_left inside]
    rcases is with ⟨-, rfl⟩ | rfl
    · exact near c
    · have := f.magnitude_nonneg c
      have origin := near 0
      rw [f.magnitude_zero, zero_sub, abs_neg, abs_of_pos pos] at origin
      rw [abs_of_neg (show -f.magnitude c - x < 0 by linarith)]
      linarith
  · have lower : f.magnitude n ≤ x := by exact_mod_cast below.lower
    have step : M ≤ n := by
      rcases f.roundedMag_cases .rne neg x n with ⟨c, -⟩ | ⟨c, -⟩ <;> omega
    have last := (f.magnitude_strictMono.monotone step).trans lower
    have most : t ≤ f.magnitude M := by
      rcases is with ⟨small, rfl⟩ | rfl
      · exact f.magnitude_strictMono.monotone small
      · have := f.magnitude_nonneg c
        have := f.magnitude_nonneg M
        linarith
    rw [Nat.min_eq_right out.le, abs_of_nonpos (by linarith), abs_of_nonpos (by linarith)]
    linarith

end Neighbours

section Saturates
variable {f : Fmt} {rm : Rnd} {neg : Bool} {x : ℚ} {n k : Nat} (below : f.Below n x)
  (neighbour : k = n + 1 ∧ takesUp rm neg x (f.magnitude n) (f.magnitude (n + 1)) (n % 2 = 1) ∨
    k = n ∧ ¬takesUp rm neg x (f.magnitude n) (f.magnitude (n + 1)) (n % 2 = 1))

/-- What is taken up differs from its lower neighbour. -/
theorem ne_of_takesUp (up : takesUp rm neg x (f.magnitude n) (f.magnitude (n + 1)) (n % 2 = 1)) : x ≠ f.magnitude n := by
  rintro rfl
  exact not_takesUp_self rm neg _ (by exact_mod_cast f.magnitude_lt_succ n) up

include below neighbour

/-- R88, R126: under a mode with a side the number lies on that side, if there is a number on it. -/
theorem Fmt.Below.side_within (side : rm ≠ .rne) (M : Nat) : (rm.away neg = false → f.magnitude (min k M) ≤ x) ∧
    (rm.away neg = true → ∀ c, c ≤ M → x ≤ f.magnitude c → x ≤ f.magnitude (min k M)) := by
  have lower : f.magnitude n ≤ x := by exact_mod_cast below.lower
  have upper : x < f.magnitude (n + 1) := by exact_mod_cast below.upper
  have mono {i j : Nat} (le : i ≤ j) := f.magnitude_strictMono.monotone le
  simp only [takesUp, if_neg side, Rat.cast_lt] at neighbour
  rcases neighbour with ⟨rfl, away, more⟩ | ⟨rfl, down⟩
  · refine ⟨fun no => ?_, fun _ c small reach => ?_⟩
    · rw [away] at no
      exact Bool.noConfusion no
    · have : n < c := f.magnitude_strictMono.lt_iff_lt.mp (more.trans_le reach)
      rw [Nat.min_eq_left (by omega)]
      exact upper.le
  · refine ⟨fun _ => (mono (Nat.min_le_left _ _)).trans lower, fun away c small reach => ?_⟩
    have same : x = f.magnitude k := le_antisymm (not_lt.mp fun more => down ⟨away, more⟩) lower
    rw [same] at reach ⊢
    exact mono (le_min le_rfl ((f.magnitude_strictMono.le_iff_le.mp reach).trans small))

omit neighbour below in
/-- In the finite reading, what a mode rounds a magnitude to: its pattern, whether nx is raised, and the neighbour it is. -/
theorem Fmt.RoundsBy.saturated (reading : f.finite = true) (mode : rm.IsMode) (below : f.Below n x) {r : Nat × FlagSet}
    (rounds : f.RoundsBy rm neg x n r) : ∃ k, (k = n + 1 ∧ takesUp rm neg x (f.magnitude n) (f.magnitude (n + 1)) (n % 2 = 1) ∨
      k = n ∧ ¬takesUp rm neg x (f.magnitude n) (f.magnitude (n + 1)) (n % 2 = 1)) ∧ r.1 = f.pattern neg (min k (f.maxMag neg)) ∧
    (r.2.getLsbD 4 = true ↔ f.magnitude (min k (f.maxMag neg)) ≠ x) := by
  obtain ⟨k, neighbour, is⟩ := rounds
  rw [takesTo_of_isMode mode] at neighbour
  have lower : f.magnitude n ≤ x := by exact_mod_cast below.lower
  have upper : x < f.magnitude (n + 1) := by exact_mod_cast below.upper
  refine ⟨k, neighbour, ?_⟩
  by_cases out : f.maxMag neg < k
  · rw [if_pos out] at is
    rw [is, Nat.min_eq_right out.le]
    have raised : (flagOf ||| flagNx).getLsbD 4 = true := by decide
    refine ⟨Fmt.overflow_finite reading rm neg, iff_of_true raised fun same => ?_⟩
    have : n ≤ f.maxMag neg := f.magnitude_strictMono.le_iff_le.mp (lower.trans_eq same.symm)
    rcases neighbour with ⟨rfl, up⟩ | ⟨rfl, -⟩
    · obtain rfl : n = f.maxMag neg := by omega
      exact ne_of_takesUp up same.symm
    · omega
  · rw [if_neg out] at is
    obtain ⟨bits, whole, more⟩ := is
    rw [Nat.min_eq_left (Nat.not_lt.mp out)]
    have differs : f.magnitude k ≠ x ↔ x ≠ f.magnitude n := by
      rcases neighbour with ⟨rfl, up⟩ | ⟨rfl, -⟩
      · exact iff_of_true upper.ne' (ne_of_takesUp up)
      · exact ne_comm
    refine ⟨bits, ?_⟩
    rw [differs]
    by_cases same : x = f.magnitude n
    · rw [whole same]
      exact iff_of_false (by decide) (not_not.mpr same)
    · rcases more same with flags | flags <;> rw [flags] <;> exact iff_of_true (by decide) same

end Saturates

/-- R126: in the finite reading a mode delivers a number rounded once, or the largest of its sign. -/
theorem Fmt.deliver_saturates {f : Fmt} (h : f.Shape) (reading : f.finite = true) {v : FVal} (fin : isFin v = true)
    (nonzero : v.isZero = false) {rm : Rnd} (mode : rm.IsMode) : Saturates f rm (ratOf v) (f.deliver rm v) := by
  obtain ⟨pos, number⟩ := ratOf_of_nonzero fin nonzero
  obtain ⟨n, below, rounds⟩ := Fmt.deliver_roundsBy h fin nonzero
  have rounds := (rounds rm).1 fun q is => absurd is (mode q)
  obtain ⟨k, neighbour, bits, raised⟩ := rounds.saturated reading mode below
  generalize v.sign = neg at *
  generalize |ratOf v| = x at *
  have few : min k (f.maxMag neg) ≤ f.maxMag neg := Nat.min_le_right _ _
  have value : ratOf (f.value (f.deliver rm v).1) = signed neg (f.magnitude (min k (f.maxMag neg))) := bits ▸ Fmt.ratOf_pattern h neg few
  have nonneg := f.magnitude_nonneg (min k (f.maxMag neg))
  have side := below.side_within neighbour (M := f.maxMag neg)
  have sided {w : Nat} (num : w < 2 ^ f.width ∧ isFin (f.value w) = true) := Fmt.exists_side h neg num.1 num.2
  have between : k = n + 1 ∧ x ≠ f.magnitude n ∨ k = n := neighbour.imp (fun c => ⟨c.1, ne_of_takesUp c.2⟩) And.left
  unfold Saturates
  simp only [value, number, within, mag_eq_abs, abs_signed, signed_sub_signed, ne_eq, signed_inj, abs_of_nonneg nonneg, abs_of_pos pos]
  refine ⟨bits ▸ Fmt.isFin_pattern h neg few, raised, ?_, ?_, ?_, fun w num => ?_⟩
  · rintro rfl
    exact (side (by decide)).1 rfl
  · rintro rfl ⟨w, num, reach⟩
    obtain ⟨c, t, is, range⟩ := sided num
    obtain ⟨down, up⟩ := side (by decide)
    cases neg
    · rw [is] at reach
      have reach : x ≤ t := reach
      rcases range with ⟨small, rfl⟩ | rfl
      · exact up rfl c small reach
      · linarith [f.magnitude_nonneg c]
    · exact neg_le_neg (down rfl)
  · rintro rfl ⟨w, num, reach⟩
    obtain ⟨c, t, is, range⟩ := sided num
    obtain ⟨down, up⟩ := side (by decide)
    cases neg
    · exact down rfl
    · rw [is] at reach
      have reach : x ≤ t := neg_le_neg_iff.mp reach
      rcases range with ⟨small, rfl⟩ | rfl
      · exact neg_le_neg (up rfl c small reach)
      · linarith [f.magnitude_nonneg c]
  · obtain ⟨c, t, is, range⟩ := sided num
    obtain ⟨under, above⟩ := below.nearby between range pos
    rw [is, signed_sub_signed, abs_signed]
    refine ⟨?_, ?_, ?_⟩
    · cases neg
      · exact under
      · simp only [signed, if_true, neg_lt_neg_iff, neg_le_neg_iff]
        exact fun c => above c.symm
    · cases neg
      · exact above
      · simp only [signed, if_true, neg_lt_neg_iff, neg_le_neg_iff]
        exact fun c => under c.symm
    · rintro rfl
      refine below.nearest_within (neg := neg) ?_ range pos
      rw [Fmt.roundedMag]
      rcases neighbour with ⟨rfl, up⟩ | ⟨rfl, down⟩
      · rw [if_pos up]
      · rw [if_neg down]

/-! ## Draws -/

section Draws
variable {f : Fmt} (h : f.Shape) {neg : Bool} {x : ℚ} (pos : 0 < x)
include h pos

/-- The numbers that lie on the side of a number of a sign: the magnitudes up to the largest. -/
theorem Fmt.exists_magnitude_of_side {w : Nat} (small : w < 2 ^ f.width) (fin : isFin (f.value w) = true)
    (side : 0 ≤ ratOf (f.value w) * signed neg x) : ∃ c, c ≤ f.maxMag neg ∧ mag (ratOf (f.value w)) = f.magnitude c := by
  obtain ⟨c, t, is, range⟩ := Fmt.exists_side h neg small fin
  have product : signed neg t * signed neg x = t * x := by cases neg <;> simp [signed]
  rw [is, product] at side
  have nonneg : 0 ≤ t := nonneg_of_mul_nonneg_left side pos
  rw [is, mag_eq_abs, abs_signed, abs_of_nonneg nonneg]
  rcases range with ⟨small, rfl⟩ | rfl
  · exact ⟨c, small, rfl⟩
  · exact ⟨0, Nat.zero_le _, by linarith [f.magnitude_nonneg c, f.magnitude_zero]⟩

theorem Fmt.pattern_on_side {c : Nat} (small : c ≤ f.maxMag neg) :
    (f.pattern neg c < 2 ^ f.width ∧ isFin (f.value (f.pattern neg c)) = true) ∧
      0 ≤ ratOf (f.value (f.pattern neg c)) * signed neg x ∧ mag (ratOf (f.value (f.pattern neg c))) = f.magnitude c := by
  have nonneg := f.magnitude_nonneg c
  have product : signed neg (f.magnitude c) * signed neg x = f.magnitude c * x := by cases neg <;> simp [signed]
  rw [Fmt.ratOf_pattern h neg small, mag_eq_abs, abs_signed, abs_of_nonneg nonneg, product]
  exact ⟨⟨f.pattern_lt neg (small.trans_lt (Fmt.maxMag_lt_signBit h neg)), Fmt.isFin_pattern h neg small⟩, by positivity, rfl⟩

/-- R135: a draw takes a number between two neighbours of its side to one of them. -/
theorem Fmt.RoundsBy.drawn {n q : Nat} {r : Nat × FlagSet} (below : f.Below n x) (rounds : f.RoundsBy (.sr q) neg x n r)
    (differs : x ≠ f.magnitude n) (inside : n + 1 ≤ f.maxMag neg) :
    (r.1 / f.signBit % 2 = 1 ↔ signed neg x < 0) ∧ r.2 ||| flagUf = flagNx ||| flagUf ∧ mag (ratOf (f.value r.1)) =
      if (q : ℚ) + 1 ≤ 2 ^ 32 * ((x - f.magnitude n) / (f.magnitude (n + 1) - f.magnitude n)) then f.magnitude (n + 1) else f.magnitude n := by
  obtain ⟨k, neighbour, is⟩ := rounds
  have small : k ≤ f.maxMag neg := by omega
  rw [if_neg (Nat.not_lt.mpr small)] at is
  obtain ⟨bits, -, more⟩ := is
  have sign := f.isNeg_pattern neg (small.trans_lt (Fmt.maxMag_lt_signBit h neg))
  rw [← bits] at sign
  refine ⟨?_, ?_, ?_⟩
  · rw [signed_lt_zero_iff neg pos, ← sign, Fmt.isNeg, decide_eq_true_iff]
  · rcases more differs with flags | flags
    · rw [flags]
    · rw [flags]
      decide
  · obtain ⟨-, -, size⟩ := Fmt.pattern_on_side h pos small
    rw [bits, size]
    rw [takesTo_sr_iff] at neighbour
    rcases neighbour with ⟨rfl, up⟩ | ⟨rfl, down⟩
    · rw [if_pos up]
    · rw [if_neg down]

end Draws

/-- R135: by a draw a number is delivered as `DrawsTo` says. -/
theorem Fmt.deliver_drawsTo {f : Fmt} (h : f.Shape) {v : FVal} (fin : isFin v = true) (nonzero : v.isZero = false) (q : Nat) :
    DrawsTo f q (ratOf v) (f.deliver (.sr q) v) := by
  obtain ⟨pos, number⟩ := ratOf_of_nonzero fin nonzero
  obtain ⟨n, below, rounds⟩ := Fmt.deliver_roundsBy h fin nonzero
  obtain ⟨inside, beyond⟩ := rounds (.sr q)
  have exact_ {j : Nat} (small : j ≤ f.maxMag v.sign) (same : |ratOf v| = f.magnitude j) := Fmt.deliver_number h fin (.sr q) small same
  have nearest : if f.finite = true then Saturates f .rne (ratOf v) (f.deliver .rne v) else RoundsTo f .rne (ratOf v) (f.deliver .rne v) := by
    have mode : Rnd.IsMode .rne := fun q h => Rnd.noConfusion h
    split
    · next reading => exact Fmt.deliver_saturates h reading fin nonzero mode
    · next reading => exact Fmt.deliver_roundsTo (h.ieee (Bool.eq_false_iff.mpr reading)) mode fin nonzero
  have sided {w : Nat} (num : w < 2 ^ f.width ∧ isFin (f.value w) = true) := Fmt.exists_side h v.sign num.1 num.2
  generalize f.deliver (.sr q) v = r at *
  generalize v.sign = neg at *
  unfold DrawsTo
  refine ⟨fun w num same => ?_, fun out => ?_, ?_⟩
  · obtain ⟨c, t, is, range⟩ := sided num
    rw [is, number, signed_inj] at same
    rcases range with ⟨small, rfl⟩ | rfl
    · rw [exact_ small same.symm]
      refine ⟨?_, rfl⟩
      rw [Fmt.ratOf_pattern h neg small, number, same]
    · linarith [f.magnitude_nonneg c]
  · have last := out (f.pattern neg (f.maxMag neg)) ⟨f.pattern_lt neg (Fmt.maxMag_lt_signBit h neg), Fmt.isFin_pattern h neg le_rfl⟩
    rw [Fmt.ratOf_pattern h neg le_rfl, mag_eq_abs, mag_eq_abs, abs_signed, abs_of_nonneg (f.magnitude_nonneg _)] at last
    rw [beyond q rfl last]
    exact nearest
  · intro w z numT numA t a sameT sameA less more none_
    rw [number] at less more sameT sameA none_ ⊢
    rw [mag_eq_abs (signed neg _), abs_signed, abs_abs] at less more ⊢
    obtain ⟨i, -, sizeT⟩ := Fmt.exists_magnitude_of_side h pos numT.1 numT.2 sameT
    obtain ⟨j, smallA, sizeA⟩ := Fmt.exists_magnitude_of_side h pos numA.1 numA.2 sameA
    have between {c : Nat} (small : c ≤ f.maxMag neg) : ¬(f.magnitude i < f.magnitude c ∧ f.magnitude c < f.magnitude j) := by
      obtain ⟨num, side, size⟩ := Fmt.pattern_on_side h pos small
      have := none_ _ num side
      rwa [size, sizeT, sizeA] at this
    have lower : f.magnitude n ≤ |ratOf v| := by exact_mod_cast below.lower
    have upper : |ratOf v| < f.magnitude (n + 1) := by exact_mod_cast below.upper
    rw [sizeT] at less
    rw [sizeA] at more
    rw [sizeT, sizeA]
    have hi := f.magnitude_strictMono.lt_iff_lt.mp (less.trans upper)
    have hj := f.magnitude_strictMono.lt_iff_lt.mp (lower.trans_lt more)
    simp only [f.magnitude_strictMono.lt_iff_lt] at between
    obtain rfl : i = n := by have := between (c := n) (by omega); omega
    obtain rfl : j = i + 1 := by have := between (c := i + 1) (by omega); omega
    exact (inside fun q _ => more.le.trans (f.magnitude_strictMono.monotone smallA)).drawn h pos below less.ne' smallA

end Sys2Proof.Machine
end

section
/-!
Conversions of one element to an integer type (R88, R135, R137).
-/

namespace Sys2Proof.Machine

open Claims

/-! ## Integers in a lane -/

/-- The least and the greatest signed number of w bits. -/
def leastLane (w : Nat) : Int := -(2 ^ (w - 1) : Nat)
def greatestLane (w : Nat) : Int := (2 ^ (w - 1) - 1 : Nat)

theorem leastLane_eq (w : Nat) : leastLane w = -2 ^ (w - 1) := by
  rw [leastLane]
  push_cast
  rfl

theorem greatestLane_eq (w : Nat) : greatestLane w = 2 ^ (w - 1) - 1 := by
  have := Nat.two_pow_pos (w - 1)
  rw [greatestLane]
  push_cast [Nat.cast_sub (show 1 ≤ 2 ^ (w - 1) from this)]
  rfl

/-- An integer in a lane of w bits. -/
def inLane (w : Nat) (n : Int) : Nat := (n % (2 ^ w : Nat)).toNat

theorem inLane_lt (w : Nat) (n : Int) : inLane w n < 2 ^ w := by
  have pos : (0 : Int) < (2 ^ w : Nat) := by exact_mod_cast Nat.two_pow_pos w
  have := Int.emod_nonneg n pos.ne'
  have := Int.emod_lt_of_pos n pos
  rw [inLane]
  omega

theorem signedLane_inLane {w : Nat} (pos : 1 ≤ w) {n : Int} (low : leastLane w ≤ n) (high : n ≤ greatestLane w) :
    signedLane w (inLane w n) = n := by
  have double : 2 ^ w = 2 * 2 ^ (w - 1) := by rw [← pow_succ', Nat.sub_add_cancel pos]
  have unit := Nat.two_pow_pos (w - 1)
  have small := inLane_lt w n
  rw [signedLane, BitVec.toInt_eq_toNat_cond, BitVec.toNat_ofNat, Nat.mod_eq_of_lt small]
  rw [leastLane] at low
  rw [greatestLane] at high
  rcases lt_or_ge n 0 with negative | nonneg
  · have wrapped : inLane w n = (n + (2 ^ w : Nat)).toNat := by
      rw [inLane, ← Int.add_emod_right, Int.emod_eq_of_lt (by omega) (by omega)]
    rw [wrapped]
    split <;> omega
  · have same : inLane w n = n.toNat := by rw [inLane, Int.emod_eq_of_lt nonneg (by omega)]
    rw [same]
    split <;> omega

theorem signedOf_eq_signedLane {w x : Nat} (pos : 1 ≤ w) (small : x < 2 ^ w) : signedOf w x = signedLane w x := by
  have double : 2 ^ w = 2 * 2 ^ (w - 1) := by rw [← pow_succ', Nat.sub_add_cancel pos]
  rw [signedLane, BitVec.toInt_eq_toNat_cond, BitVec.toNat_ofNat, Nat.mod_eq_of_lt small, signedOf]
  rw [double] at *
  generalize 2 ^ (w - 1) = p at *
  split <;> split <;> omega

theorem width_pos (t : ETy) : 1 ≤ t.width := by cases t <;> decide

/-! ## A number rounded to its units -/

/-- The number k in a lane of w bits, saturated to its range, with nv, or nx where something was left. -/
def intoLane (w : Nat) (k : Int) (rem : Nat) : Nat × FlagSet :=
  if k < leastLane w then (inLane w (leastLane w), flagNv)
  else if greatestLane w < k then (inLane w (greatestLane w), flagNv)
  else (inLane w k, flagIf (rem != 0) flagNx)

theorem intoLane_lt (w : Nat) (k : Int) (rem : Nat) : (intoLane w k rem).1 < 2 ^ w := by
  unfold intoLane
  split_ifs <;> dsimp only <;> exact inLane_lt w _

theorem least_le_greatest (w : Nat) : leastLane w ≤ greatestLane w := by
  have := Nat.two_pow_pos (w - 1)
  rw [leastLane, greatestLane]
  omega

/-- R97, R137: saturation to the range, and the flags of that. -/
theorem intoLane_delivers {w : Nat} (pos : 1 ≤ w) {k : Int} {rem : Nat} {E : ℚ} (whole : (k : ℚ) = E ↔ rem = 0) :
    signedLane w (intoLane w k rem).1 = max (leastLane w) (min (greatestLane w) k) ∧
      (intoLane w k rem).2 = if k < leastLane w ∨ greatestLane w < k then flagNv else if (k : ℚ) = E then 0 else flagNx := by
  have order := least_le_greatest w
  unfold intoLane
  by_cases below : k < leastLane w
  · rw [if_pos below, if_pos (.inl below)]
    refine ⟨?_, rfl⟩
    rw [signedLane_inLane pos le_rfl order]
    omega
  rw [if_neg below]
  by_cases above : greatestLane w < k
  · rw [if_pos above, if_pos (.inr above)]
    refine ⟨?_, rfl⟩
    rw [signedLane_inLane pos order le_rfl]
    omega
  · rw [if_neg above, if_neg (by omega)]
    refine ⟨?_, ?_⟩
    · rw [signedLane_inLane pos (by omega) (by omega)]
      omega
    · simp only [whole, flagIf, bne_iff_ne]
      split_ifs <;> simp_all

/-- R135: the limit of the range on the side of a sign, as a magnitude. -/
def signLimit (w : Nat) (neg : Bool) : Nat := if neg then (-leastLane w).toNat else (greatestLane w).toNat

/-- R97, R135, R137: `FVal.toInt` rounds a finite value to its units and saturates. -/
theorem toInt_fin_signed (rm : Rnd) (w : Nat) (neg : Bool) {m kept rem d : Nat} {e : Int} (parts : quantise m e 0 = (kept, rem, d)) :
    (FVal.fin neg m e).toInt rm w false = intoLane w (signed neg (unitsRounded
      (rm.within (decide (signLimit w neg < kept ∨ signLimit w neg = kept ∧ rem ≠ 0))) neg kept rem d : Int)) rem := by
  have round : rm.within (decide (signLimit w neg < kept ∨ signLimit w neg = kept ∧ rem ≠ 0)) =
      match rm with
      | .sr r => if signLimit w neg < kept ∨ signLimit w neg = kept ∧ rem ≠ 0 then .rne else .sr r
      | r => r := by
    cases rm <;> simp only [Rnd.within, decide_eq_true_eq]
  rw [round]
  simp only [FVal.toInt, parts, Bool.false_eq_true, if_false]
  rfl

section Units
variable (rm : Rnd) (neg : Bool) {m kept rem d : Nat} {e : Int} (parts : quantise m e 0 = (kept, rem, d)) {a : ℚ} (ha : a = m * 2 ^ e)
include parts ha

/-- A magnitude and its units before and after its rounding, by a mode or a draw. -/
theorem units_spec : kept ≤ a ∧ a < kept + 1 ∧ (a = kept ↔ rem = 0) ∧
    (unitsRounded rm neg kept rem d = kept + 1 ∧ takesTo rm neg a kept (kept + 1) (kept % 2 = 1) ∨
      unitsRounded rm neg kept rem d = kept ∧ ¬takesTo rm neg a kept (kept + 1) (kept % 2 = 1)) := by
  have size : (m : ℝ) * 2 ^ e = a := by
    rw [ha]
    push_cast
    rfl
  have held := HeldBy.exact m e
  rw [size] at held
  obtain ⟨lower, upper, inexact, -⟩ := (held.cut (rm := .rne) (fun q h => Rnd.noConfusion h) neg (by simp) parts).units
  have up := up_iff_takesTo rm neg parts
  rw [size, zpow_zero, mul_one, mul_one] at up
  refine ⟨lower, upper, ?_, ?_⟩
  · rw [← not_iff_not, ← ne_eq rem, ← bne_iff_ne, inexact]
    exact ⟨fun ne => lt_of_le_of_ne lower (Ne.symm ne), fun lt => lt.ne'⟩
  · rw [unitsRounded, ← up]
    cases rm.up neg kept rem d false <;> simp

/-- What is left over says whether the integer differs. -/
theorem units_eq_iff : (unitsRounded rm neg kept rem d : ℚ) = a ↔ rem = 0 := by
  obtain ⟨lower, upper, whole, ⟨c, up⟩ | ⟨c, -⟩⟩ := units_spec rm neg parts ha <;> rw [c]
  · refine iff_of_false (by push_cast; exact upper.ne') fun zero => ?_
    rw [whole.mpr zero] at up
    exact not_takesTo_self rm neg _ (lt_add_one ((kept : ℚ) : ℝ)) (by exact_mod_cast up)
  · rw [eq_comm, whole]

omit rm neg in
/-- R97, R135: the draw gives way to the nearest where the number lies beyond the limit of its sign. -/
theorem beyond_iff (lim : Nat) : (lim < kept ∨ lim = kept ∧ rem ≠ 0) ↔ (lim : ℚ) < a := by
  obtain ⟨lower, upper, whole, -⟩ := units_spec .rne false parts ha
  rcases Nat.lt_trichotomy lim kept with less | rfl | more
  · exact iff_of_true (.inl less) (lt_of_lt_of_le (by exact_mod_cast less) lower)
  · rw [ne_eq, ← whole]
    exact ⟨fun h => lt_of_le_of_ne lower (Ne.symm (h.resolve_left (lt_irrefl _)).2), fun h => .inr ⟨rfl, h.ne'⟩⟩
  · refine iff_of_false (by omega) (not_lt.mpr (upper.le.trans ?_))
    exact_mod_cast more

end Units

theorem ratOf_signed_units (neg : Bool) (k m : Nat) (e : Int) :
    ((signed neg (k : Int) : Int) : ℚ) = ratOf (.fin neg m e) ↔ (k : ℚ) = m * 2 ^ e := by
  rw [ratOf_fin, ← signed_inj neg]
  cases neg <;> simp [signed]

end Sys2Proof.Machine
end

section
/-!
What an element becomes in another type (R126, R135, R137).
-/

namespace Sys2Proof.Machine

open Claims

/-! ## Into integer types -/

/-- R137: an integer into an integer type, saturated to its range. -/
theorem convertElem_int_int {ts td : ETy} (hs : ts.isFp = false) (hd : td.isFp = false) (finite : Bool) (rm : Rnd) {x : Nat}
    (small : x < 2 ^ ts.width) : (convertElem ts td finite rm x).1 < 2 ^ td.width ∧ (convertElem ts td finite rm x).2 = 0 ∧
      signedLane td.width (convertElem ts td finite rm x).1 =
        max (leastLane td.width) (min (greatestLane td.width) (signedLane ts.width x)) := by
  have is : convertElem ts td finite rm x =
      (inLane td.width (max (leastLane td.width) (min (greatestLane td.width) (signedLane ts.width x))), 0) := by
    rw [← signedOf_eq_signedLane (width_pos ts) small]
    simp only [convertElem, hs, hd]
    rfl
  have order := least_le_greatest td.width
  rw [is]
  exact ⟨inLane_lt _ _, rfl, signedLane_inLane (width_pos td) (by omega) (by omega)⟩

section ToInteger
variable (rm : Rnd) {w : Nat} (pos : 1 ≤ w) (A : FVal)

theorem toInt_nan (w : Nat) (nan : A.isNan = true) : A.toInt rm w false = (0, flagNv) := by
  obtain ⟨b, rfl⟩ := exists_of_isNan nan
  rfl

theorem toInt_inf (w : Nat) (inf : A.isInf = true) :
    A.toInt rm w false = (inLane w (if A.sign then leastLane w else greatestLane w), flagNv) := by
  obtain ⟨n, rfl⟩ := exists_of_isInf inf
  cases n <;> rfl

theorem toInt_lt (w : Nat) : (A.toInt rm w false).1 < 2 ^ w := by
  rcases A with b | n | ⟨neg, m, e⟩
  · exact Nat.two_pow_pos w
  · rw [toInt_inf rm _ w rfl]
    exact inLane_lt w _
  · rcases parts : quantise m e 0 with ⟨kept, rem, d⟩
    rw [toInt_fin_signed rm w neg parts]
    exact intoLane_lt w _ _

include pos

/-- R97, R137: a finite value into an integer type by a mode. -/
theorem toInt_mode (mode : rm.IsMode) (fin : isFin A = true) : ∃ k : Int, NearInt rm (ratOf A) k ∧
    signedLane w (A.toInt rm w false).1 = max (leastLane w) (min (greatestLane w) k) ∧
      (A.toInt rm w false).2 = if k < leastLane w ∨ greatestLane w < k then flagNv else if (k : ℚ) = ratOf A then 0 else flagNx := by
  obtain ⟨neg, m, e, rfl⟩ := exists_of_isFin fin
  rcases parts : quantise m e 0 with ⟨kept, rem, d⟩
  have held : HeldBy m e false (((m : ℚ) * 2 ^ e : ℚ) : ℝ) := by
    push_cast
    exact .exact m e
  have near := (held.cut mode neg (by simp) parts).nearInt mode (by positivity)
  rw [← ratOf_fin] at near
  have same (b : Bool) : rm.within b = rm := by
    cases rm with
    | sr q => exact absurd rfl (mode q)
    | _ => rfl
  have is := toInt_fin_signed rm w neg parts
  rw [same] at is
  rw [is]
  exact ⟨_, near, intoLane_delivers pos ((ratOf_signed_units neg _ m e).trans (units_eq_iff rm neg parts rfl))⟩

/-- R135: a finite value into an integer type by a draw, which gives way to the nearest beyond the limit of its sign. -/
theorem toInt_drawn (q : Nat) (fin : isFin A = true) :
    let E := ratOf A
    let lim : Int := if E < 0 then -leastLane w else greatestLane w
    let Delivers (k : Int) : Prop := signedLane w (A.toInt (.sr q) w false).1 = max (leastLane w) (min (greatestLane w) k) ∧
      (A.toInt (.sr q) w false).2 = if k < leastLane w ∨ greatestLane w < k then flagNv else if (k : ℚ) = E then 0 else flagNx
    (lim < mag E → ∃ k : Int, NearInt .rne E k ∧ Delivers k) ∧
    (mag E ≤ lim → ∃ (k : Int) (t : Nat), (t : ℚ) ≤ mag E ∧ mag E < (t : ℚ) + 1 ∧ 0 ≤ (k : ℚ) * E ∧
      mag k = (if (q : ℚ) + 1 ≤ 2 ^ 32 * (mag E - t) then (t : ℚ) + 1 else t) ∧ Delivers k) := by
  obtain ⟨neg, m, e, rfl⟩ := exists_of_isFin fin
  intro E lim Delivers
  rcases parts : quantise m e 0 with ⟨kept, rem, d⟩
  obtain ⟨a, ha⟩ : ∃ a : ℚ, a = m * 2 ^ e := ⟨_, rfl⟩
  have nonneg : 0 ≤ a := by rw [ha]; positivity
  have number : E = signed neg a := by rw [ha]; exact ratOf_fin neg m e
  have size : mag E = a := by rw [number, mag_eq_abs, abs_signed, abs_of_nonneg nonneg]
  obtain ⟨L, hL⟩ : ∃ L, L = signLimit w neg := ⟨_, rfl⟩
  have limit : ((L : Nat) : ℚ) < a ↔ (lim : ℚ) < a := by
    have unit := Nat.two_pow_pos (w - 1)
    have least : (0 : Int) ≤ -leastLane w := by rw [leastLane]; omega
    have greatest : (0 : Int) ≤ greatestLane w := by rw [greatestLane]; omega
    rcases nonneg.eq_or_lt with zero | pos
    · have : (0 : ℚ) ≤ lim := by
        have : 0 ≤ lim := by simp only [lim]; split <;> assumption
        exact_mod_cast this
      rw [← zero]
      exact iff_of_false (not_lt.mpr (Nat.cast_nonneg L)) (not_lt.mpr this)
    · have same : (L : Int) = lim := by
        simp only [lim, number, signed_lt_zero_iff neg pos, hL, signLimit]
        split <;> rw [Int.toNat_of_nonneg] <;> assumption
      rw [← same, Int.cast_natCast]
  have is := toInt_fin_signed (.sr q) w neg parts
  rw [← hL] at is
  have beyond := beyond_iff parts ha L
  have whole (rm : Rnd) := (ratOf_signed_units neg (unitsRounded rm neg kept rem d) m e).trans (ha ▸ units_eq_iff rm neg parts ha)
  refine ⟨fun out => ?_, fun inside => ?_⟩
  · rw [size, ← limit, ← beyond] at out
    rw [decide_eq_true out] at is
    have held : HeldBy m e false (a : ℝ) := by
      rw [ha]
      push_cast
      exact .exact m e
    have near := (held.cut (rm := .rne) (fun q h => Rnd.noConfusion h) neg (by simp) parts).nearInt (fun q h => Rnd.noConfusion h) nonneg
    rw [← number] at near
    refine ⟨_, near, ?_⟩
    simp only [Delivers, is]
    exact intoLane_delivers pos (whole .rne)
  · rw [size] at inside ⊢
    rw [decide_eq_false (mt beyond.mp (mt limit.mp (not_lt.mpr inside)))] at is
    obtain ⟨lower, upper, -, choice⟩ := units_spec (.sr q) neg parts ha
    have cast : ((signed neg (unitsRounded (.sr q) neg kept rem d : Int) : Int) : ℚ) = signed neg (unitsRounded (.sr q) neg kept rem d : ℚ) := by
      cases neg <;> simp [signed]
    have product (x y : ℚ) : signed neg x * signed neg y = x * y := by cases neg <;> simp [signed]
    refine ⟨signed neg (unitsRounded (.sr q) neg kept rem d : Int), kept, lower, upper, ?_, ?_, ?_⟩
    · rw [cast, number, product]
      positivity
    · have drawn := takesTo_sr_iff q neg a kept (kept + 1) (kept % 2 = 1)
      rw [add_sub_cancel_left, div_one] at drawn
      push_cast at drawn
      rw [cast, mag_eq_abs, abs_signed, abs_of_nonneg (Nat.cast_nonneg _)]
      rcases choice with ⟨c, up⟩ | ⟨c, down⟩ <;> rw [c]
      · rw [if_pos (drawn.mp (by exact_mod_cast up)), Nat.cast_succ]
      · rw [if_neg (mt drawn.mpr (by exact_mod_cast down))]
    · simp only [Delivers, is]
      exact intoLane_delivers pos (whole (.sr q))

end ToInteger

/-! ## Into floating-point types -/

section ToFloat
variable {f : Fmt} (h : f.Shape) (rm : Rnd)
include h

omit h in
theorem Fmt.nan_lt : f.nan < 2 ^ f.width := by
  have := f.past_lt_signBit
  have := f.past_add_frac
  have := Nat.two_pow_pos f.width
  have half : 2 ^ (f.frac - 1) ≤ 2 ^ f.frac := Nat.pow_le_pow_right two_pos (Nat.sub_le _ _)
  have double := f.two_pow_width
  unfold Fmt.past at *
  rw [Fmt.nan]
  split <;> omega

theorem Fmt.deliver_lt_width_of_any (v : FVal) : (f.deliver rm v).1 < 2 ^ f.width := by
  rcases v with b | n | ⟨neg, m, e⟩
  · exact Fmt.nan_lt
  · have bits : (f.deliver rm (.inf n)).1 = if f.finite then f.pattern n (f.maxMag n) else f.inf n := by
      simp only [Fmt.deliver, Fmt.infinite]
      split <;> rfl
    rw [bits]
    split
    · exact f.pattern_lt n (Fmt.maxMag_lt_signBit h n)
    · exact f.inf_lt n
  · exact Fmt.deliver_lt_width h rfl rm

variable {v : FVal} (fin : isFin v = true) (nonzero : v.isZero = false)
include fin nonzero

/-- R88 to R91, R126, R135: a number other than zero, rounded once. -/
theorem Fmt.deliver_rounded : (f.finite = false → (¬∃ q, rm = .sr q) → RoundsTo f rm (ratOf v) (f.deliver rm v)) ∧
    (f.finite = true → (¬∃ q, rm = .sr q) → Saturates f rm (ratOf v) (f.deliver rm v)) ∧
    ∀ q, rm = .sr q → DrawsTo f q (ratOf v) (f.deliver rm v) := by
  refine ⟨fun reading mode => ?_, fun reading mode => ?_, ?_⟩
  · exact Fmt.deliver_roundsTo (h.ieee reading) (fun q is => mode ⟨q, is⟩) fin nonzero
  · exact Fmt.deliver_saturates h reading fin nonzero fun q is => mode ⟨q, is⟩
  · rintro q rfl
    exact Fmt.deliver_drawsTo h fin nonzero q

end ToFloat

/-- R126, R137: an infinite value in an element type. -/
theorem deliver_inf_etyFmt {t : ETy} (fp : t.isFp = true) (finite : Bool) (rm : Rnd) {v : FVal} (inf : v.isInf = true) :
    (etyFmt t finite).deliver rm v =
      if (etyFmt t finite).finite = true then (if v.sign then 2 ^ t.width - 2 else 2 ^ (t.width - 1) - 1, flagOf ||| flagNx)
      else ((etyFmt t finite).inf v.sign, 0) := by
  obtain ⟨n, rfl⟩ := exists_of_isInf inf
  obtain ⟨width, sign⟩ := etyFmt_width fp finite
  have two := Fmt.two_le_signBit (shape_etyFmt t finite)
  have double := (etyFmt t finite).two_pow_width
  rw [width] at double
  simp only [Fmt.deliver, Fmt.infinite]
  split
  · next reading =>
    simp only [Fmt.maxMag, reading, if_true, FVal.sign]
    rw [double, ← sign]
    cases n
    · simp
    · simp only [if_true, Prod.mk.injEq, and_true]
      omega
  · rfl

/-! ## Numbers that a wider type has -/

theorem Fmt.magnitude_signBit (f : Fmt) : f.magnitude f.signBit = 2 ^ (((2 ^ f.exp : Nat) : Int) - f.bias) := by
  have units : f.signBit = (2 ^ f.exp - 1) * 2 ^ f.frac + 2 ^ f.frac := by
    rw [← Nat.succ_mul, Nat.succ_eq_add_one, Nat.sub_add_cancel (Nat.two_pow_pos _), Fmt.signBit, pow_add]
  rw [units, f.magnitude_units _ _ (Nat.pow_le_pow_right two_pos (Nat.le_succ _)) (.inr le_rfl), Nat.cast_pow, Nat.cast_ofNat,
    ← zpow_natCast, ← zpow_add₀ two_ne_zero, Fmt.low]
  congr 1
  have := Nat.two_pow_pos f.exp
  omega

/-- The wider of two element types has no less precision, no less range below, and none of its own above but the IEEE reading. -/
theorem etyFmt_wider {ts td : ETy} (hs : ts.isFp = true) (hd : td.isFp = true) (wide : ts.width < td.width) {finite : Bool}
    (reading : finite = false ∨ ts ≠ .bf16) : (etyFmt ts finite).frac ≤ (etyFmt td finite).frac ∧
      (etyFmt td finite).low ≤ (etyFmt ts finite).low ∧ (etyFmt td finite).finite = false ∧
      (if (etyFmt ts finite).finite then ((2 ^ (etyFmt ts finite).exp : Nat) : Int) - (etyFmt ts finite).bias
        else (etyFmt ts finite).bias + 1) ≤ ((etyFmt td finite).bias : Int) + 1 := by
  cases ts with
  | f16 =>
    cases td with
    | f32 | f64 => cases finite <;> decide
    | _ => exact absurd (And.intro hd wide) (by decide)
  | bf16 =>
    cases td with
    | f32 | f64 =>
      cases finite with
      | false => decide
      | true => exact absurd reading (by decide)
    | _ => exact absurd (And.intro hd wide) (by decide)
  | f32 =>
    cases td with
    | f64 => cases finite <;> decide
    | _ => exact absurd (And.intro hd wide) (by decide)
  | f64 => cases td <;> exact absurd (And.intro hd wide) (by decide)
  | i8 | i16 | i32 | i64 => exact Bool.noConfusion hs

/-- The numbers of a format stay below the power of two that follows its last exponent. -/
theorem Fmt.magnitude_lt_top {f : Fmt} (h : f.Shape) (neg : Bool) {c : Nat} (small : c ≤ f.maxMag neg) :
    f.magnitude c < 2 ^ (if f.finite then ((2 ^ f.exp : Nat) : Int) - f.bias else f.bias + 1) := by
  cases reading : f.finite
  · have last := Fmt.maxMag_of_ieee h neg reading
    exact (f.magnitude_strictMono (show c < f.past by omega)).trans_eq (Fmt.magnitude_past (h.ieee reading))
  · exact (f.magnitude_strictMono (small.trans_lt (Fmt.maxMag_lt_signBit h neg))).trans_eq f.magnitude_signBit

/-- R137: a number of an element type is one of the type itself, and of a wider one. -/
theorem exists_magnitude_etyFmt {ts td : ETy} (hs : ts.isFp = true) (hd : td.isFp = true) (wide : ts.width < td.width ∨ ts = td)
    {finite : Bool} (reading : finite = false ∨ ts ≠ .bf16) {x : Nat} (small : x < 2 ^ ts.width)
    (fin : isFin ((etyFmt ts finite).value x) = true) :
    ∃ j, j ≤ (etyFmt td finite).maxMag ((etyFmt ts finite).value x).sign ∧
      |ratOf ((etyFmt ts finite).value x)| = (etyFmt td finite).magnitude j := by
  have shape := shape_etyFmt ts finite
  have width := (etyFmt_width hs finite).1
  obtain ⟨m, e, is, number, -, few, place⟩ := Fmt.value_of_isFin fin
  have sign : ((etyFmt ts finite).value x).sign = (etyFmt ts finite).isNeg x := by rw [is]; rfl
  have size : |ratOf ((etyFmt ts finite).value x)| = (etyFmt ts finite).magnitude (x % (etyFmt ts finite).signBit) := by
    rw [Fmt.ratOf_value_of_isFin fin, abs_signed, abs_of_nonneg (Fmt.magnitude_nonneg _ _)]
  have range := Fmt.mod_le_maxMag shape (width.symm ▸ small) fin
  rw [sign, size]
  rcases wide with wide | rfl
  · obtain ⟨frac, low, ieee, top⟩ := etyFmt_wider hs hd wide reading
    obtain ⟨i, rfl⟩ : ∃ i : Nat, e = (etyFmt td finite).low + i := ⟨(e - (etyFmt td finite).low).toNat, by omega⟩
    obtain ⟨j, same⟩ := (etyFmt td finite).exists_magnitude i m (few.trans_le (Nat.pow_le_pow_right two_pos (by omega)))
    have shape' := shape_etyFmt td finite
    have last := Fmt.maxMag_of_ieee shape' ((etyFmt ts finite).isNeg x) ieee
    have below : j < (etyFmt td finite).past := by
      rw [← (etyFmt td finite).magnitude_strictMono.lt_iff_lt, same, number, Fmt.magnitude_past (shape'.ieee ieee)]
      exact (Fmt.magnitude_lt_top shape _ range).trans_le (zpow_le_zpow_right₀ one_le_two top)
    exact ⟨j, by omega, (same.trans number).symm⟩
  · exact ⟨_, range, rfl⟩

/-! ## All conversions of an element -/

section Converts
variable {ts td : ETy} (finite : Bool) (rm : Rnd) {x : Nat} (small : x < 2 ^ ts.width)

/-- R137: an integer in a floating-point type. -/
theorem convertElem_int_fp (hs : ts.isFp = false) (hd : td.isFp = true) : convertElem ts td finite rm x =
    (etyFmt td finite).deliver rm (.ofInt (signedOf ts.width x)) := by
  simp only [convertElem, hs, hd]
  rfl

theorem convertElem_fp_int (hs : ts.isFp = true) (hd : td.isFp = false) : convertElem ts td finite rm x =
    ((etyFmt ts finite).value x).toInt rm td.width false := by simp only [convertElem, hs, hd]

theorem convertElem_fp_fp (hs : ts.isFp = true) (hd : td.isFp = true) : convertElem ts td finite rm x =
    (((etyFmt td finite).deliver rm ((etyFmt ts finite).value x)).1,
      ((etyFmt td finite).deliver rm ((etyFmt ts finite).value x)).2 ||| flagIf ((etyFmt ts finite).value x).isSnan flagNv) := by
  simp only [convertElem, hs, hd]
  rfl

theorem convertElem_lt : (convertElem ts td finite rm x).1 < 2 ^ td.width := by
  cases hs : ts.isFp <;> cases hd : td.isFp
  · simp only [convertElem, hs, hd]
    exact inLane_lt td.width _
  · rw [convertElem_int_fp finite rm hs hd, ← (etyFmt_width hd finite).1]
    exact Fmt.deliver_lt_width_of_any (shape_etyFmt td finite) rm _
  · rw [convertElem_fp_int finite rm hs hd]
    exact toInt_lt rm _ _
  · rw [convertElem_fp_fp finite rm hs hd, ← (etyFmt_width hd finite).1]
    exact Fmt.deliver_lt_width_of_any (shape_etyFmt td finite) rm _

include small

/-- R137: `convertElem` converts an element. -/
theorem converts_convertElem : Converts ts td finite rm x (convertElem ts td finite rm x) := by
  have ps := width_pos ts
  have pd := width_pos td
  have shape := shape_etyFmt td finite
  have fits := convertElem_lt (ts := ts) (td := td) finite rm (x := x)
  generalize is : convertElem ts td finite rm x = r at fits ⊢
  unfold Converts
  intro m A n lo hi drawn Rounded Delivers
  have least : leastLane td.width = lo := leastLane_eq _
  have greatest : greatestLane td.width = hi := greatestLane_eq _
  refine ⟨fits, fun hs hd => ?_, fun hs hd => ?_, fun hs hd => ?_, fun hs hd => ?_⟩
  · obtain ⟨-, flags, lane⟩ := convertElem_int_int hs hd finite rm small
    rw [is, least, greatest] at lane
    rw [is] at flags
    exact ⟨flags, lane⟩
  · rw [convertElem_int_fp finite rm hs hd, signedOf_eq_signedLane ps small] at is
    subst is
    have number : ratOf (.ofInt n) = n := by rw [FVal.ofInt, ratOf_ofAligned, zpow_zero, mul_one]
    refine ⟨fun zero => ?_, fun nonzero => ?_⟩
    · rw [show signedLane ts.width x = 0 from zero]
      rfl
    · have rounded := Fmt.deliver_rounded shape rm (v := .ofInt n) rfl (isZero_of_ratOf_ne (by rw [number]; exact_mod_cast nonzero))
      rw [number] at rounded
      exact rounded
  · rw [convertElem_fp_int finite rm hs hd] at is
    subst is
    refine ⟨fun nan => toInt_nan rm _ _ nan, fun inf => ?_, fun fin mode => ?_, ?_⟩
    · rw [toInt_inf rm _ _ inf, ← least, ← greatest]
      refine ⟨signedLane_inLane pd ?_ ?_, rfl⟩ <;> split <;> simp [least_le_greatest]
    · simp only [Delivers, ← least, ← greatest]
      exact toInt_mode rm pd A (fun q is => mode ⟨q, is⟩) fin
    · rintro q fin rfl
      simp only [Delivers, ← least, ← greatest]
      exact toInt_drawn pd A q fin
  · rw [convertElem_fp_fp finite rm hs hd] at is
    obtain ⟨width, sign⟩ := etyFmt_width hd finite
    have quiet (h : A.isNan = false) : flagIf A.isSnan flagNv = 0 := by
      have : A.isSnan = false := by
        revert h
        cases A <;> simp [FVal.isNan, FVal.isSnan]
      rw [this]
      rfl
    have same (h : A.isNan = false) : (((etyFmt td finite).deliver rm A).1, ((etyFmt td finite).deliver rm A).2 ||| flagIf A.isSnan flagNv) =
        (etyFmt td finite).deliver rm A := by
      rw [quiet h]
      exact Prod.ext rfl BitVec.or_zero
    have whole (h : A.isNan = false) : r = (etyFmt td finite).deliver rm A := is.symm.trans (same h)
    have number (fin : isFin A = true) : A.isNan = false := by
      obtain ⟨n, m, e, is⟩ := exists_of_isFin fin
      rw [is]
      rfl
    refine ⟨fun nan => ?_, fun inf => ?_, fun zero => ?_, fun fin nonzero => ?_, fun fin wide reading => ?_⟩
    · rw [← is, Fmt.deliver_nan _ rm nan]
      exact Prod.ext rfl BitVec.zero_or
    · have num : A.isNan = false := by
        obtain ⟨n, is⟩ := exists_of_isInf inf
        rw [is]
        rfl
      rw [whole num]
      exact deliver_inf_etyFmt hd finite rm inf
    · have num : A.isNan = false := by
        obtain ⟨n, e, is⟩ := exists_of_isZero zero
        rw [is]
        rfl
      rw [whole num, Fmt.deliver_zero _ rm zero, sign]
    · have := whole (number fin)
      subst this
      exact Fmt.deliver_rounded shape rm fin nonzero
    · obtain ⟨j, few, size⟩ := exists_magnitude_etyFmt hs hd wide reading small fin
      rw [whole (number fin), Fmt.deliver_number shape fin rm few size]
      refine ⟨rfl, ?_⟩
      rw [Fmt.ratOf_pattern shape _ few, ← size]
      cases zero : A.isZero
      · exact (ratOf_of_nonzero fin zero).2.symm
      · rw [ratOf_zero zero, abs_zero]
        cases A.sign <;> simp [signed]

end Converts

end Sys2Proof.Machine
end

section
/-!
The bits that a stochastic rounding draws, and the conversions between lanes of different widths (R132, R135, R139, R140, R179).
-/

namespace Sys2Proof.Machine

open Claims

/-! ## Drawn bits -/

/-- R135: one step of the drawing. -/
theorem toNat_mixed (z m : W64) (k : Nat) : ((z ^^^ z >>> k) * m).toNat = (z.toNat ^^^ z.toNat / 2 ^ k) * m.toNat % 2 ^ 64 := by
  rw [BitVec.toNat_mul, BitVec.toNat_xor, BitVec.toNat_ushiftRight, Nat.shiftRight_eq_div_pow]

/-- R135: the bits drawn for an element, as numbers. -/
theorem srBits_eq (seed ctr : W64) (i : Nat) :
    let step (z k n : Nat) : Nat := (z ^^^ z / 2 ^ k) * n % 2 ^ 64
    let z := seed.toNat ^^^ ctr.toNat * 0x9E3779B97F4A7C15 % 2 ^ 64 ^^^ i * 0xD1B54A32D192ED03 % 2 ^ 64
    let y := step (step z 30 0xBF58476D1CE4E5B9) 27 0x94D049BB133111EB
    srBits seed ctr i = (y ^^^ y / 2 ^ 31) / 2 ^ 32 := by
  intro step z y
  have seeded : (seed ^^^ ctr * 0x9E3779B97F4A7C15#64 ^^^ w64 i * 0xD1B54A32D192ED03#64).toNat = z := by
    rw [BitVec.toNat_xor, BitVec.toNat_xor, BitVec.toNat_mul, BitVec.toNat_mul, w64, BitVec.toNat_ofNat i, Nat.mod_mul_mod]
    rfl
  simp only [srBits]
  rw [BitVec.toNat_xor, BitVec.toNat_ushiftRight, Nat.shiftRight_eq_div_pow, toNat_mixed, toNat_mixed, seeded]
  rfl

/-! ## Lanes that a conversion fills -/

/-- What stands at a place of a list some of whose elements are replaced. -/
theorem getElem?_replaceAt {α : Type} (l r : List α) (k j : Nat) (fits : k + r.length ≤ l.length) :
    (replaceAt l k r)[j]? = if k ≤ j ∧ j < k + r.length then r[j - k]? else l[j]? := by
  have front : (l.take k).length = k := by simp; omega
  unfold replaceAt
  rcases Nat.lt_or_ge j k with before | from_
  · rw [if_neg (by omega), List.append_assoc, List.getElem?_append_left (by omega), List.getElem?_take_of_lt before]
  rcases Nat.lt_or_ge j (k + r.length) with within | after
  · rw [if_pos ⟨from_, within⟩, List.append_assoc, List.getElem?_append_right (by omega), front, List.getElem?_append_left (by omega)]
  · rw [if_neg (by omega), List.getElem?_append_right (by simp; omega), List.getElem?_drop]
    congr 1
    simp
    omega

theorem length_replaceAt {α : Type} (l r : List α) (k : Nat) (fits : k + r.length ≤ l.length) : (replaceAt l k r).length = l.length := by
  simp [replaceAt]
  omega

/-- Results in the place of some lanes of the destination make a conversion. -/
theorem convertsInto_setConv {s : State} {d : VReg} {w lo n : Nat} {sr : Bool} {o : Res} {r : Nat → Nat × FlagSet}
    (fits : lo + n ≤ s.rd.lanes w)
    (is : o = .next (s.setConv d w (replaceAt (lanesOf (s.rd.getV d) w (s.rd.lanes w)) lo (((List.range n).map r).map Prod.fst))
      (orFlags ((List.range n).map r)) sr)) : ConvertsInto s d w lo n sr o r := by
  have inside : lo + (((List.range n).map r).map Prod.fst).length ≤ (lanesOf (s.rd.getV d) w (s.rd.lanes w)).length := by
    simpa [lanesOf] using fits
  refine ⟨_, _, is, fun j below => ?_, flagsOf_orFlags n r⟩
  rw [lane_ofLanes _ _ _ (by rw [length_replaceAt _ _ _ inside]; simpa [lanesOf] using mul_lanes_le s.rd w),
    getElem?_replaceAt _ _ _ _ inside]
  simp only [List.length_map, List.length_range]
  split
  next place => simp [List.getElem?_range (show j - lo < n by omega)]
  next => simp [lanesOf, List.getElem?_range below, laneOf, Nat.mod_eq_of_lt]

/-- Results in every lane of the destination make a conversion. -/
theorem convertsInto_setConv_all {s : State} {d : VReg} {w : Nat} {sr : Bool} {o : Res} {r : Nat → Nat × FlagSet}
    (is : o = .next (s.setConv d w (((List.range (s.rd.lanes w)).map r).map Prod.fst) (orFlags ((List.range (s.rd.lanes w)).map r)) sr)) :
    ConvertsInto s d w 0 (s.rd.lanes w) sr o r := by
  refine convertsInto_setConv (by omega) (is.trans ?_)
  rw [replaceAt, List.drop_eq_nil_of_le (by simp [lanesOf]), List.take_zero, List.nil_append, List.append_nil]

/-! ## Codes of a decode table -/

/-- R132: the pattern that a code decodes to. -/
theorem decodePat_eq (T : DecTab) (finite : Bool) (c : Nat) :
    let p := (T.ent (if T.sm then c % 128 else c)).toNat % 2 ^ 19
    T.decodePat finite c =
      if (T.sm && decide (128 ≤ c)) = false ∨ (finite = true ∧ p = 2 ^ 19 - 1) then p
      else if finite = true ∧ p = 2 ^ 18 - 1 then 2 ^ 19 - 2 else (p + 2 ^ 18) % 2 ^ 19 := by
  intro p
  have flipped : (fmtE8M10 finite).negBits p = if finite = true ∧ p = 2 ^ 19 - 1 then p
      else if finite = true ∧ p = 2 ^ 18 - 1 then 2 ^ 19 - 2 else (p + 2 ^ 18) % 2 ^ 19 :=
    (fmtE8M10 finite).negBits_eq (Nat.mod_lt _ (Nat.two_pow_pos 19))
  cases magnitudes : T.sm
  · have plain : T.decodePat finite c = p := by simp only [DecTab.decodePat, p, magnitudes, Bool.false_eq_true, if_false]
    rw [plain, if_pos (.inl (Bool.false_and _))]
  · by_cases negative : 128 ≤ c
    · have inverted : T.decodePat finite c = (fmtE8M10 finite).negBits p := by
        simp only [DecTab.decodePat, p, magnitudes, if_true, if_pos negative]
      rw [inverted, flipped]
      simp only [Bool.true_and, negative, decide_true, Bool.true_eq_false, false_or]
    · have plain : T.decodePat finite c = p := by
        simp only [DecTab.decodePat, p, magnitudes, if_true, if_neg negative, Nat.mod_eq_of_lt (Nat.not_le.mp negative)]
      rw [plain, if_pos (.inl (by simp only [Bool.true_and, negative, decide_false]))]

/-! ## The conversions -/

section Issued
variable {gd : Guard} {s : State} (issues : Issues gd s) (d a : VReg) (k : BitVec 5)
include issues

/-- R140: `vcvt` converts a part of its operand, or into a part of its destination. -/
theorem vcvt_convertsInto (ts td : ETy) (sr : Bool) :
    let ws := ts.width
    let wd := td.width
    let n := s.rd.lanes (max ws wd)
    let lo := if wd < ws then k.toNat * n else 0
    let src := if ws < wd then k.toNat * n else 0
    lo + n ≤ s.rd.lanes wd →
      ConvertsInto s d wd lo n sr (exec (.vcvt gd d a k ts td sr) s) fun j =>
        convertElem ts td s.finite (s.rndElem sr (lo + j)) (laneOf s a ws (src + j)) := by
  intro ws wd n lo src fits
  exact convertsInto_setConv fits (half_runs gd s (fun s => convertLanes s d a k.toNat ts td sr) issues.1 issues.2)

variable (t : ETy) (dt : MReg)

/-- R131: a conversion through a table of another tenant traps. -/
theorem t8_traps (unusable : (s.dt s.core dt.toNat).usable s.rd.ten = false) :
    (∀ sr, exec (.t8enc gd d a k sr t dt) s = .next (s.trap 0x06 (BitVec.ofNat 64 s.cur))) ∧
      exec (.t8dec gd d a k t dt) s = .next (s.trap 0x06 (BitVec.ofNat 64 s.cur)) := by
  constructor
  · intro sr
    change execT8enc gd d a k sr t dt s = _
    rw [execT8enc, half_runs gd s _ issues.1 issues.2]
    simp only [unusable, Bool.not_false, if_true]
    rfl
  · change execT8dec gd d a k t dt s = _
    rw [execT8dec, half_runs gd s _ issues.1 issues.2]
    simp only [unusable, Bool.not_false, if_true]
    rfl

/-- R132, R139: `t8dec` decodes a part of its operand. -/
theorem t8dec_convertsInto (usable : (s.dt s.core dt.toNat).usable s.rd.ten = true) :
    ConvertsInto s d t.width 0 (s.rd.lanes t.width) false (exec (.t8dec gd d a k t dt) s) fun j =>
      (etyFmt t s.finite).convert (rndOf s.rd.cr.rmode)
        ((s.dt s.core dt.toNat).decode s.finite (laneOf s a 8 (k.toNat * s.rd.lanes t.width + j))) := by
  refine convertsInto_setConv_all ?_
  change execT8dec gd d a k t dt s = _
  rw [execT8dec, half_runs gd s _ issues.1 issues.2]
  simp only [usable, Bool.not_true, Bool.false_eq_true, if_false]
  rfl

/-- R133, R139: `t8enc` encodes into a part of its destination; the side of a tie near zero is a free value. -/
theorem t8enc_convertsInto (usable : (s.dt s.core dt.toNat).usable s.rd.ten = true) (sr : Bool)
    (fits : k.toNat * s.rd.lanes t.width + s.rd.lanes t.width ≤ s.rd.vlen / 8) :
    ConvertsInto { s with free := s.free + 1 } d 8 (k.toNat * s.rd.lanes t.width) (s.rd.lanes t.width) sr
      (exec (.t8enc gd d a k sr t dt) s) fun j =>
        (s.dt s.core dt.toNat).encode s.finite (s.rndElem sr (k.toNat * s.rd.lanes t.width + j))
          ((etyFmt t s.finite).value (laneOf s a t.width j)) (Config.freeNat s.free / 2 ^ j % 2 == 1) := by
  refine convertsInto_setConv fits ?_
  change execT8enc gd d a k sr t dt s = _
  rw [execT8enc, half_runs gd s _ issues.1 issues.2]
  simp only [usable, Bool.not_true, Bool.false_eq_true, if_false]
  rfl

end Issued

/-- Settles O19: an element converts as `converts_convertElem` says, and each instruction converts the elements of its part. -/
theorem vectorConversions : Obligations.VectorConversions := by
  unfold Obligations.VectorConversions
  refine ⟨fun ts td finite rm x small => converts_convertElem finite rm small, ?_, ?_⟩
  · intro s i step z y
    exact ⟨rfl, congrArg Rnd.sr (srBits_eq s.rd.cr.srseed s.rd.cr.srctr i)⟩
  · intro gd d a k s issues
    refine ⟨vcvt_convertsInto issues d a k, fun t _ _ => rfl, fun t _ _ => rfl, ?_⟩
    intro t dt T n F
    refine ⟨t8_traps issues d a k t dt, fun usable fits => ⟨?_, fun sr => ⟨_, t8enc_convertsInto issues d a k t dt usable sr fits⟩⟩⟩
    have converts := t8dec_convertsInto issues d a k t dt usable
    simp only [DecTab.decode, decodePat_eq] at converts
    exact converts

end Sys2Proof.Machine
end

section
/-!
Where an address lies, and where it takes a thread (R141 to R143, R149, R152, R153).
-/

namespace Sys2Proof.Machine

open Claims

theorem bitsAt_space (ea : W64) : bitsAt ea 63 60 = ea.toNat / 2 ^ 60 := by
  have := ea.isLt
  simp only [bitsAt]
  omega

/-! ## Memories of the SRAM levels -/

section Places
variable (s : State) (ea : W64)

theorem ownerOk_iff (owner : Byte) : ownerOk s.rd.ten owner = true ↔ OpenTo s owner := by simp [ownerOk, OpenTo]

theorem not_ownerOk_iff (owner : Byte) : (!ownerOk s.rd.ten owner) = true ↔ ¬OpenTo s owner := by
  rw [← ownerOk_iff, Bool.not_eq_true', Bool.not_eq_true]

theorem inTcm_tcmAt (core : Nat) : InTcm s core ea (s.tcmAt core s.rd.ten ea) := by
  unfold InTcm
  intro off hole mine
  have offset : bitsAt ea 16 0 = off := bitsAt_low ea 16
  have out : (!s.tcmOk core off) = true ↔ hole := by
    have inside : off < 0x20000 := Nat.mod_lt _ (by decide)
    rw [State.tcmOk, decide_eq_true inside, Bool.true_and, Bool.not_not]
    rfl
  have shut : (!ownerOk s.rd.ten (s.tcmOwner core)) = true ↔ ¬mine := not_ownerOk_iff s _
  simp only [State.tcmAt, offset]
  refine ⟨fun h => if_pos (out.mpr h), fun h m => ?_, fun h m => ?_⟩
  · rw [if_neg (mt out.mp h), if_pos (shut.mpr m)]
  · rw [if_neg (mt out.mp h), if_neg (mt shut.mp (not_not_intro m))]

theorem inSpad_spadAt (cx cy : Nat) : InSpad s cx cy ea (s.spadAt cx cy s.rd.ten ea) := by
  unfold InSpad
  intro off hole mine
  have inside : off < 2 ^ 21 := Nat.mod_lt _ (by decide)
  have offset : bitsAt ea 20 0 = off := bitsAt_low ea 20
  have out : s.spadSize cx cy ≤ off ↔ hole := by
    rw [State.spadSize]
    split
    next half => simp [hole, half]
    next whole => exact iff_of_false (Nat.not_le.mpr inside) fun h => whole h.1
  have shut : (!ownerOk s.rd.ten (smGet 0 s.sowner (cy * 32 + cx))) = true ↔ ¬mine := not_ownerOk_iff s _
  simp only [State.spadAt, offset]
  refine ⟨fun h => if_pos (out.mpr h), fun h m => ?_, fun h m => ?_⟩
  · rw [if_neg (mt out.mp h), if_pos (shut.mpr m)]
  · rw [if_neg (mt out.mp h), if_neg (mt shut.mp (not_not_intro m))]

theorem inShared_sharedAt (die : Nat) (st : Bool) : InShared s die ea st (s.sharedAt die s.rd.ten ea st) := by
  unfold InShared
  intro off mine
  have offset : bitsAt ea 25 0 = off := bitsAt_low ea 25
  have shut : (!ownerOk s.rd.ten (smGet 0 s.gowner (die * 768 + off / 2 ^ 16))) = true ↔ ¬mine := not_ownerOk_iff s _
  simp only [State.sharedAt, offset]
  refine ⟨fun status => if_pos status, fun low high => ?_, fun inside m => ?_, fun inside m => ?_⟩
  · rw [if_neg (by omega), if_pos low]
  · rw [if_neg (by omega), if_neg (by omega), if_pos (shut.mpr m)]
  · rw [if_neg (by omega), if_neg (by omega), if_neg (mt shut.mp (not_not_intro m))]

/-! ## Moves -/

theorem migrationRefused_iff : s.migrationRefused s.cur s.rd = true ↔ Bound s := by
  have unit : (caKind s.cur == .compute && (s.unit (caCore s.cur)).claimed && (s.unit (caCore s.cur)).owner == s.cur) = s.owns s.cur := rfl
  have mask : (decide (bitsAt s.rd.cr.lmask 47 32 ≠ 0)) = true ↔ s.rd.cr.lmask.toNat / 2 ^ 32 % 2 ^ 16 ≠ 0 := decide_eq_true_iff
  simp only [State.migrationRefused, Bound, unit, Bool.or_eq_true, mask, Bool.and_eq_true, beq_iff_eq, or_assoc]

theorem movesTo_moveTo {core : Nat} (compute : caKind core = .compute) : MovesTo s core ea (s.moveTo core ea) := by
  unfold MovesTo
  intro outside
  have refused := migrationRefused_iff s
  have target : s.targetTrap s.rd core ea =
      if s.coreEnabled core = false then some ⟨0x04, ea⟩ else if outside then some ⟨0x06, ea⟩ else none := by
    simp [State.targetTrap, compute, outside]
  refine ⟨fun h => if_pos (refused.mpr h), fun h off => ?_, fun h on o => ?_, fun h on o => ?_⟩
  all_goals rw [State.moveTo, if_neg (mt refused.mp h), target]
  · rw [if_pos off]
  · rw [if_neg (by simp [on]), if_pos o]
  · rw [if_neg (by simp [on]), if_neg o]

theorem caKind_caTile {x y : Nat} (hx : x < 2 ^ 8) (hy : y < 2 ^ 6) : caKind (caTile x y) = .compute := by
  have low : caTile x y < 2 ^ 14 := by
    rw [caTile]
    omega
  rw [caKind, if_neg (by omega), if_neg (by omega)]

theorem caKind_tileIn : caKind (tileIn ea) = .compute :=
  caKind_caTile ((Nat.mod_lt _ (by decide)).trans (by decide : 2 ^ 7 < 2 ^ 8)) (Nat.mod_lt _ (by decide))

theorem movesToCluster_moveToCluster {cx cy : Nat} (hx : cx < 2 ^ 5) (hy : cy < 2 ^ 4) :
    MovesToCluster s cx cy ea (s.moveToCluster cx cy ea) := by
  unfold MovesToCluster
  intro tile fit
  have fits (i : Nat) : (s.coreEnabled (tile i) && (s.rd.ten == 0 || !isCobbler (tile i))) = true ↔ fit i := by simp [fit]
  have target : s.clusterTarget s.core s.rd.ten cx cy =
      ((List.range 16).find? fun i => s.coreEnabled (tile i) && (s.rd.ten == 0 || !isCobbler (tile i))).map tile :=
    List.find?_map ..
  refine ⟨fun i inside good first => ?_, fun none_ => ?_⟩
  · have found : s.clusterTarget s.core s.rd.ten cx cy = some (tile i) := by
      rw [target, List.find?_range_eq_some.mpr ⟨(fits i).mpr good, List.mem_range.mpr inside, fun j below => ?_⟩, Option.map_some]
      simpa only [Bool.not_eq_true', ← Bool.not_eq_true, fits j] using first j below
    simp only [State.moveToCluster, found]
    exact movesTo_moveTo s ea (caKind_caTile (by omega) (by omega))
  · have found : s.clusterTarget s.core s.rd.ten cx cy = none := by
      rw [target, List.find?_range_eq_none.mpr fun i inside => ?_, Option.map_none]
      simpa only [Bool.not_eq_true', ← Bool.not_eq_true, fits i] using none_ i inside
    simp only [State.moveToCluster, found]
    exact ⟨fun h => if_pos ((migrationRefused_iff s).mpr h), fun h => if_neg (mt (migrationRefused_iff s).mp h)⟩

/-! ## Accesses that never migrate -/

/-- R141, R326: an address of the core's own TCM in the form of another's. -/
theorem ownTcmForm_iff {ea : W64} (space : ea.toNat / 2 ^ 60 = 1) (form : ea &&& 0x0FFFC080FFFE0000#64 = 0) (core : Nat) :
    ownTcmForm core ea = true ↔ caKind core = .compute ∧ tileIn ea = caTileOf core := by
  have clear : ea.toNat / 2 ^ 39 % 2 = 0 := by
    have bit : ea.getLsbD 39 = false := by simpa using congrArg (BitVec.getLsbD · 39) form
    rw [BitVec.getLsbD, Nat.testBit_eq_decide_div_mod_eq, decide_eq_false_iff_not] at bit
    omega
  have tile : bitsAt ea 45 32 = tileIn ea := by
    simp only [bitsAt, tileIn, caTile]
    omega
  rw [ownTcmForm, bitsAt_space, space, tile]
  simp

theorem liesHere_locateHere (n : Nat) (ld st : Bool) : LiesHere s ea n ld st (s.locateHere ea n ld st) := by
  unfold LiesHere
  intro kind foreign
  refine ⟨fun impure => if_pos impure, fun pure => ?_⟩
  have cases_ : s.locateHere ea n ld st = if foreign then .trap ⟨0x0D, ea⟩ else s.locate ea n ld st := by
    by_cases station : kind = .station
    · rw [State.locateHere, if_neg (by simp [pure]), if_pos (by simpa using station), if_neg fun h => h.1 station]
    rw [State.locateHere, if_neg (by simp [pure]), if_neg (by simpa using station)]
    by_cases space1 : ea.toNat / 2 ^ 60 = 1
    · have other : (ea &&& formBad1 == 0 && !ownTcmForm s.core ea) = true ↔ foreign := by
        rw [Bool.and_eq_true, beq_iff_eq, Bool.not_eq_true', ← Bool.not_eq_true]
        constructor
        · rintro ⟨form, other⟩
          exact ⟨station, .inl ⟨space1, form, mt (ownTcmForm_iff space1 form s.core).mpr other⟩⟩
        · rintro ⟨-, ⟨-, form, other⟩ | ⟨space2, -⟩⟩
          · exact ⟨form, mt (ownTcmForm_iff space1 form s.core).mp other⟩
          · omega
      simp only [bitsAt_space, space1]
      exact if_congr other rfl rfl
    by_cases space2 : ea.toNat / 2 ^ 60 = 2
    · have elsewhere : (caKind s.core == .bank || bitsAt ea 36 32 != caX s.core / 4 || bitsAt ea 43 40 != caY s.core / 4) = true ↔
          ¬(kind = .compute ∧ clusterIn ea = (caX s.core / 4, caY s.core / 4)) := by
        have cluster : clusterIn ea = (bitsAt ea 36 32, bitsAt ea 43 40) := rfl
        have compute : ¬kind = .bank ↔ kind = .compute := by
          revert station
          cases kind <;> decide
        rw [cluster, Prod.mk.injEq, ← compute]
        simp [or_assoc, kind, imp_iff_not_or]
      have other : (ea &&& formBad2 == 0 && !bitAt ea 47 &&
          (caKind s.core == .bank || bitsAt ea 36 32 != caX s.core / 4 || bitsAt ea 43 40 != caY s.core / 4)) = true ↔ foreign := by
        rw [Bool.and_eq_true, Bool.and_eq_true, beq_iff_eq, Bool.not_eq_true', elsewhere]
        constructor
        · rintro ⟨⟨form, named⟩, other⟩
          exact ⟨station, .inr ⟨space2, form, named, other⟩⟩
        · rintro ⟨-, ⟨space1, -⟩ | ⟨-, form, named, other⟩⟩
          · omega
          · exact ⟨⟨form, named⟩, other⟩
      simp only [bitsAt_space, space2]
      exact if_congr other rfl rfl
    · rw [if_neg fun h => by rcases h.2 with h | h; exacts [space1 h.1, space2 h.1], bitsAt_space]
      split
      next h => exact absurd h space1
      next h => exact absurd h space2
      next => rfl
  exact ⟨fun h => cases_.trans (if_pos h), fun h => cases_.trans (if_neg h)⟩

end Places

end Sys2Proof.Machine
end

section
/-!
Runs of dwords, and where `migr` goes (R130, R138, R160, R164).
-/

namespace Sys2Proof.Machine

open Claims

/-! ## Runs of dwords -/

section Runs
variable {ε : Type} {f : W64 → Except ε Nat} {run : W64 → Nat → Except ε (List (Nat × Nat))}
  (empty : ∀ ea, run ea 0 = .ok [])
  (places : ∀ ea n pa, f ea = .ok pa → run ea (n + 1) = (run (ea + 8) n).map ((pa, 8) :: ·))
  (fails : ∀ ea n e, f ea = .error e → run ea (n + 1) = .error e)
include empty places fails

/-- A function that places one dword after another makes the spans of a run. -/
theorem dwordRun_of_steps (ea : W64) (n : Nat) : DwordRun f ea n (run ea n) := by
  have next (ea : W64) (j : Nat) : ea + 8 + BitVec.ofNat 64 (8 * j) = ea + BitVec.ofNat 64 (8 * (j + 1)) := by
    rw [BitVec.add_assoc, Nat.mul_succ, Nat.add_comm (8 * j), BitVec.ofNat_add]
    rfl
  have here (ea : W64) : ea + BitVec.ofNat 64 (8 * 0) = ea := BitVec.add_zero ea
  unfold DwordRun
  intro at_
  induction n generalizing ea with
  | zero => exact ⟨fun _ _ => empty ea, fun j _ below => absurd below (Nat.not_lt_zero j)⟩
  | succ n ih =>
    constructor
    · intro p placed
      have first : f ea = .ok (p 0) := (congrArg f (here ea)).symm.trans (placed 0 n.succ_pos)
      rw [places ea n _ first, (ih (ea + 8)).1 (fun j => p (j + 1)) fun j below =>
          (congrArg f (next ea j)).trans (placed (j + 1) (by omega)),
        List.range_succ_eq_map, List.map_cons, List.map_map]
      rfl
    · rintro (_ | j) e below before fault
      · exact fails ea n e ((congrArg f (here ea)).symm.trans fault)
      · obtain ⟨pa, first⟩ := before 0 j.succ_pos
        rw [places ea n pa ((congrArg f (here ea)).symm.trans first), (ih (ea + 8)).2 j e (by omega)
          (fun i h => (before (i + 1) (by omega)).imp fun pa at_ => (congrArg f (next ea i)).trans at_) ((congrArg f (next ea j)).trans fault)]
        rfl

/-- The spans of a run are as many dwords. -/
theorem sizes_of_steps {ea : W64} {n : Nat} {l : List (Nat × Nat)} (placed : run ea n = .ok l) :
    l.length = n ∧ ∀ e ∈ l, e.2 = 8 := by
  induction n generalizing ea l with
  | zero =>
    rw [empty] at placed
    cases placed
    simp
  | succ n ih =>
    cases first : f ea with
    | error e =>
      rw [fails ea n e first] at placed
      cases placed
    | ok pa =>
      rw [places ea n pa first] at placed
      cases rest : run (ea + 8) n with
      | error e =>
        rw [rest] at placed
        cases placed
      | ok t =>
        rw [rest] at placed
        cases placed
        obtain ⟨count, size⟩ := ih rest
        exact ⟨congrArg (· + 1) count, List.forall_mem_cons.mpr ⟨rfl, size⟩⟩

end Runs

section RunsOf
variable (s : State) (ld st : Bool)

/-- How `rdrSpans` places a dword. -/
def rdrPlace (a : W64) : Except Trap Nat := placed (s.rdrAt a) ⟨0x04, a⟩

theorem rdrSpans_places (ea : W64) (n pa : Nat) (here : rdrPlace s ea = .ok pa) :
    s.rdrSpans ea (n + 1) = (s.rdrSpans (ea + 8) n).map ((pa, 8) :: ·) := by
  unfold rdrPlace placed at here
  split at here
  next h =>
    cases here
    rw [State.rdrSpans, h]
    cases s.rdrSpans (ea + 8) n <;> rfl
  all_goals cases here

theorem rdrSpans_fails (ea : W64) (n : Nat) (e : Trap) (here : rdrPlace s ea = .error e) : s.rdrSpans ea (n + 1) = .error e := by
  unfold rdrPlace placed at here
  split at here
  next => cases here
  all_goals
    next h =>
      cases here
      rw [State.rdrSpans, h]

/-- How `imageSpans` places a dword. -/
def imagePlace (a : W64) : Except Trap Nat :=
  match placed (s.locateHere a 8 ld st) ⟨0x0D, a⟩ with
  | .ok pa => if st && s.hitsDesc [(pa, 8)] then .error ⟨0x0F, a⟩ else .ok pa
  | r => r

theorem imageSpans_places (ea : W64) (n pa : Nat) (here : imagePlace s ld st ea = .ok pa) :
    s.imageSpans ea ld st (n + 1) = (s.imageSpans (ea + 8) ld st n).map ((pa, 8) :: ·) := by
  unfold imagePlace placed at here
  rw [State.imageSpans]
  cases at_ : s.locateHere ea 8 ld st with
  | at_ pb =>
    simp only [at_] at here ⊢
    split at here
    · cases here
    next free =>
      cases here
      rw [if_neg free]
      cases s.imageSpans (ea + 8) ld st n <;> rfl
  | trap t => simp [at_] at here
  | migrate k => simp [at_] at here

theorem imageSpans_fails (ea : W64) (n : Nat) (e : Trap) (here : imagePlace s ld st ea = .error e) :
    s.imageSpans ea ld st (n + 1) = .error e := by
  unfold imagePlace placed at here
  rw [State.imageSpans]
  cases at_ : s.locateHere ea 8 ld st with
  | at_ pb =>
    simp only [at_] at here ⊢
    split at here
    next held =>
      cases here
      rw [if_pos held]
    · cases here
  | trap t =>
    simp only [at_] at here ⊢
    cases here
    rfl
  | migrate k =>
    simp only [at_] at here ⊢
    cases here
    rfl

end RunsOf

/-! ## Remote reads (R160) -/

section Remote
variable (s : State) (ea : W64)

theorem readThere_rdrAt : ReadThere s ea (s.rdrAt ea) := by
  unfold ReadThere
  intro space own
  unfold State.rdrAt
  rw [bitsAt_space]
  refine ⟨fun h => ?_, fun h => ?_, fun h => ⟨fun o => ?_, fun o => ?_⟩, fun h => ?_⟩
  all_goals simp only [show ea.toNat / 2 ^ 60 = _ from h]
  · exact inTcm_tcmAt s ea _
  · exact inTcm_tcmAt s ea _
  · rw [if_pos (show bitAt ea 47 = true from o)]
    exact inSpad_spadAt s ea _ _
  · rw [if_neg (show ¬bitAt ea 47 = true from o)]
    exact inSpad_spadAt s ea _ _
  · exact inShared_sharedAt s ea _ false

theorem rdrUnit_iff (n : Nat) : s.rdrUnit ea n = true ↔ InOneUnit s ea n := by
  have offset (h : Nat) : bitsAt ea h 0 = ea.toNat % 2 ^ (h + 1) := bitsAt_low ea h
  unfold State.rdrUnit InOneUnit
  simp only [bitsAt_space, offset]
  split
  next space =>
    have own : bitsAt ea 59 17 = 0 ↔ ea.toNat < 2 ^ 17 := by
      simp only [bitsAt]
      omega
    simp only [space, Bool.and_eq_true, beq_iff_eq, decide_eq_true_eq, own, true_and, false_and, or_false, OfNat.zero_ne_ofNat, zero_ne_one]
    constructor
    · rintro ⟨⟨compute, inside⟩, fits⟩
      exact ⟨compute, inside, by omega⟩
    · rintro ⟨compute, inside, fits⟩
      exact ⟨⟨compute, inside⟩, by omega⟩
  next space =>
    simp only [space, Bool.and_eq_true, beq_iff_eq, decide_eq_true_eq, true_and, false_and, or_false, false_or, one_ne_zero,
      OfNat.one_ne_ofNat]
    rfl
  next space =>
    have own : bitsAt ea 44 32 = ea.toNat / 2 ^ 32 % 2 ^ 13 := rfl
    simp only [space, Bool.and_eq_true, Bool.or_eq_true, Bool.not_eq_true', bne_iff_ne, beq_iff_eq, decide_eq_true_eq, true_and, false_and,
      or_false, false_or, OfNat.ofNat_ne_zero, OfNat.ofNat_ne_one, Nat.reduceEqDiff, own]
    rw [and_assoc, imp_iff_not_or, Bool.not_eq_true]
    rfl
  next space =>
    have own : bitsAt ea 34 32 = ea.toNat / 2 ^ 32 % 2 ^ 3 := rfl
    simp only [space, Bool.and_eq_true, Bool.or_eq_true, Bool.not_eq_true', beq_iff_eq, decide_eq_true_eq, true_and, false_and,
      false_or, OfNat.ofNat_ne_zero, OfNat.ofNat_ne_one, Nat.reduceEqDiff, own]
    rw [and_assoc, imp_iff_not_or, Bool.not_eq_true]
    rfl
  next not0 not1 not2 not3 =>
    refine iff_of_false Bool.false_ne_true ?_
    rintro (h | h | h | h)
    exacts [not0 h.1, not1 h.1, not2 h.1, not3 h.1]

end Remote

end Sys2Proof.Machine
end

section
/-!
Where `migr` takes a thread (R164).
-/

namespace Sys2Proof.Machine

open Claims

section Migr
variable (s : State) (ea : W64)

/-- R164: an address that is not here takes the thread to l, but for the refusal of a pure task and on a station core. -/
def awayTo (l : Loc) : Loc :=
  if s.impure ea 1 false then .trap ⟨0x0B, ea⟩ else if caKind s.core = .station then .at_ 0 else l

theorem away_of_awayTo {P : Prop} {l m : Loc} (is : m = awayTo s ea l) (goes : m = l → P) :
    (s.impure ea 1 false = true → m = .trap ⟨0x0B, ea⟩) ∧
      (s.impure ea 1 false = false → (caKind s.core = .station → m = .at_ 0) ∧ (caKind s.core ≠ .station → P)) := by
  unfold awayTo at is
  refine ⟨fun impure => is.trans (if_pos impure), fun pure => ?_⟩
  rw [if_neg (by simp [pure])] at is
  exact ⟨fun station => is.trans (if_pos station), fun moves => goes (is.trans (if_neg moves))⟩

/-- R142: no address takes a thread of a station core away. -/
theorem awayTo_station (station : caKind s.core = .station) (l : Loc) (core : Nat) : awayTo s ea l ≠ .migrate core := by
  unfold awayTo
  rw [if_pos station]
  split
  · exact Loc.noConfusion
  · exact Loc.noConfusion

theorem migrTo_core (space : ea.toNat / 2 ^ 60 = 1) : s.migrTo ea =
    if ea &&& 0x0FFFC080FFFE0000#64 ≠ 0 then .trap ⟨0x04, ea⟩
    else if caKind s.core = .compute ∧ tileIn ea = s.core then .at_ 0
    else awayTo s ea (s.moveTo (tileIn ea) ea) := by
  unfold State.migrTo
  rw [bitsAt_space, space]
  simp only [bne_iff_ne, Bool.and_eq_true, beq_iff_eq]
  rfl

theorem migrTo_cluster (space : ea.toNat / 2 ^ 60 = 2) : s.migrTo ea =
    if ea &&& 0x0FFF70E0FFE00000#64 ≠ 0 then .trap ⟨0x04, ea⟩
    else if ea.getLsbD 47 = true then
      if caKind s.core ≠ .bank ∧ ea.toNat / 2 ^ 32 % 2 ^ 13 = 0 then .at_ 0 else .trap ⟨0x04, ea⟩
    else if caKind s.core = .compute ∧ (clusterIn ea).1 = caX s.core / 4 ∧ (clusterIn ea).2 = caY s.core / 4 then .at_ 0
    else awayTo s ea (s.moveToCluster (clusterIn ea).1 (clusterIn ea).2 ea) := by
  have own : (bitsAt ea 44 32 != 0 || caKind s.core == .bank) = true ↔ ¬(caKind s.core ≠ .bank ∧ ea.toNat / 2 ^ 32 % 2 ^ 13 = 0) := by
    rw [not_and_or, not_not, or_comm, Bool.or_eq_true, beq_iff_eq, bne_iff_ne]
    rfl
  unfold State.migrTo
  rw [bitsAt_space, space]
  simp only [bne_iff_ne, Bool.and_eq_true, beq_iff_eq, own, ite_not, and_assoc]
  rfl

theorem migrTo_stack (space : ea.toNat / 2 ^ 60 = 4) :
    (∀ t, s.resolve s.rd.ten ea 0 = .error t → s.migrTo ea = awayTo s ea (.trap t)) ∧
    ∀ pa, s.resolve s.rd.ten ea 0 = .ok pa → s.migrTo ea =
      if s.bankOf pa = s.core then .at_ 0
      else awayTo s ea (
        if s.migrationRefused s.cur s.rd = true ∨ s.rd.pc.toNat / 2 ^ 60 ≠ 4 then .trap ⟨0x0D, ea⟩
        else if (rectOf s.rd.cr.lrect).hasCore (s.bankOf pa) = false then .trap ⟨0x06, ea⟩
        else .migrate (s.bankOf pa)) := by
  constructor
  · intro t fails
    unfold State.migrTo
    rw [bitsAt_space, space]
    simp only [fails, beq_iff_eq]
    rfl
  · intro pa lies
    unfold State.migrTo
    rw [bitsAt_space, space]
    simp only [lies, beq_iff_eq, Bool.or_eq_true, bne_iff_ne, Bool.not_eq_true', bitsAt_space]
    rfl

theorem migrTo_same (space : ea.toNat / 2 ^ 60 = 0 ∨ ea.toNat / 2 ^ 60 = 3) : s.migrTo ea = .at_ 0 := by
  unfold State.migrTo
  rw [bitsAt_space]
  rcases space with h | h <;> simp only [h]

theorem migrTo_other (space : ea.toNat / 2 ^ 60 ∈ [5, 6, 7] ∨ 8 ≤ ea.toNat / 2 ^ 60) : s.migrTo ea = .trap ⟨0x04, ea⟩ := by
  unfold State.migrTo
  rw [bitsAt_space]
  generalize ea.toNat / 2 ^ 60 = n at space ⊢
  rcases n with _ | _ | _ | _ | _ | n
  case succ.succ.succ.succ.succ => rfl
  all_goals exact absurd space (by decide)

theorem migrGoes_migrTo : MigrGoes s ea (s.migrTo ea) := by
  unfold MigrGoes
  refine ⟨migrTo_same s ea, fun space => ?_, fun space => ?_, fun space => ?_, migrTo_other s ea⟩
  · have is := migrTo_core s ea space
    refine ⟨fun form => is.trans (if_pos form), fun form => ⟨fun here => ?_, fun there => ?_⟩⟩
    all_goals rw [if_neg (not_not_intro form)] at is
    · exact is.trans (if_pos here)
    · rw [if_neg there] at is
      exact away_of_awayTo s ea is fun goes => goes ▸ movesTo_moveTo s ea (caKind_tileIn ea)
  · have is := migrTo_cluster s ea space
    refine ⟨fun form => is.trans (if_pos form), fun form own ok => ?_, fun form own ok => ?_, fun form named here => ?_,
      fun form named there => ?_⟩
    all_goals rw [if_neg (not_not_intro form)] at is
    · rw [if_pos own] at is
      exact is.trans (if_pos ok)
    · rw [if_pos own] at is
      exact is.trans (if_neg ok)
    · rw [if_neg named] at is
      exact is.trans (if_pos ⟨here.1, congrArg Prod.fst here.2, congrArg Prod.snd here.2⟩)
    · rw [if_neg named, if_neg fun h => there ⟨h.1, Prod.ext h.2.1 h.2.2⟩] at is
      exact away_of_awayTo s ea is fun goes =>
        goes ▸ movesToCluster_moveToCluster s ea (Nat.mod_lt _ (by decide)) (Nat.mod_lt _ (by decide))
  · have is := migrTo_stack s ea space
    refine ⟨fun t fails => away_of_awayTo s ea (is.1 t fails) id, fun pa lies => ?_⟩
    intro t refused inside
    have is := is.2 pa lies
    refine ⟨fun here => is.trans (if_pos here), fun there => ?_⟩
    rw [if_neg there] at is
    have bound := migrationRefused_iff s
    refine away_of_awayTo s ea is fun goes => ⟨fun no => ?_, fun ok out => ?_, fun ok within => ?_⟩
    · exact goes.trans (if_pos (no.imp_left bound.mpr))
    · exact goes.trans ((if_neg (mt (Or.imp_left bound.mp) ok)).trans (if_pos (by simpa [inside] using out)))
    · exact goes.trans ((if_neg (mt (Or.imp_left bound.mp) ok)).trans (if_neg (by simpa [inside] using within)))

/-- R142: no thread of a station core leaves it. -/
theorem migrTo_station (station : caKind s.core = .station) (core : Nat) : s.migrTo ea ≠ .migrate core := by
  have away := awayTo_station s ea station
  have limit := ea.isLt
  rcases (by omega : ea.toNat / 2 ^ 60 = 1 ∨ ea.toNat / 2 ^ 60 = 2 ∨ ea.toNat / 2 ^ 60 = 4 ∨
    (ea.toNat / 2 ^ 60 = 0 ∨ ea.toNat / 2 ^ 60 = 3) ∨ (ea.toNat / 2 ^ 60 = 5 ∨ ea.toNat / 2 ^ 60 = 6 ∨ ea.toNat / 2 ^ 60 = 7 ∨
      8 ≤ ea.toNat / 2 ^ 60)) with space | space | space | space | space
  · rw [migrTo_core s ea space]
    split_ifs <;> simp [away]
  · rw [migrTo_cluster s ea space]
    split_ifs <;> simp [away]
  · cases lies : s.resolve s.rd.ten ea 0 with
    | error t => exact (migrTo_stack s ea space).1 t lies ▸ away _ _
    | ok pa =>
      rw [(migrTo_stack s ea space).2 pa lies]
      split_ifs <;> simp [away]
  · simp [migrTo_same s ea space]
  · rw [migrTo_other s ea (by simpa [or_assoc] using space)]
    exact Loc.noConfusion

end Migr

end Sys2Proof.Machine
end

section
/-!
The obligation of remote reads, decode table images and `migr`.
-/

namespace Sys2Proof.Machine

open Claims

/-! ## Bytes of spans -/

theorem length_readBytes (s : State) (a n : Nat) : (s.readBytes a n).length = n := by
  induction n generalizing a with
  | zero => rfl
  | succ n ih => rw [State.readBytes, List.length_cons, ih]

theorem length_readSpans (s : State) (l : List (Nat × Nat)) : (s.readSpans l).length = (l.map Prod.snd).sum := by
  induction l with
  | nil => rfl
  | cons e l ih =>
    rw [State.readSpans, List.foldr_cons, List.length_append, length_readBytes, List.map_cons, List.sum_cons, ← ih]
    rfl

/-- The dwords of a run take eight bytes each. -/
theorem sum_of_sizes {l : List (Nat × Nat)} (sizes : ∀ e ∈ l, e.2 = 8) : (l.map Prod.snd).sum = 8 * l.length := by
  rw [List.map_congr_left sizes, List.map_const', List.sum_replicate, smul_eq_mul, mul_comm]

theorem lane_ofVBytes (l : List Byte) (short : l.length ≤ 128) (j : Nat) : lane (ofVBytes l) 8 j = ((l[j]?).getD 0).toNat := by
  rw [ofVBytes, lane_ofLanes 8 _ j (by rw [List.length_map]; omega), List.getElem?_map]
  cases l[j]? with
  | none => rfl
  | some b => exact Nat.mod_eq_of_lt b.isLt

/-- Spans stored one after another hold their bytes after. -/
theorem storesSpans_storeSpans (s : State) (l : List (Nat × Nat)) (data : List Byte) (enough : (l.map Prod.snd).sum ≤ data.length) :
    StoresSpans s (s.storeSpans l data) l data := by
  induction l generalizing s data with
  | nil => exact ⟨fun _ => rfl, rfl⟩
  | cons e l ih =>
    rw [List.map_cons, List.sum_cons] at enough
    obtain ⟨bytes, slots⟩ := ih (s.storeBytes e.1 (data.take e.2)) (data.drop e.2) (by rw [List.length_drop]; omega)
    refine ⟨fun a => (bytes a).trans ?_, slots.trans (s.slots_storeBytes ..)⟩
    rw [spanByte, State.byte_storeBytes, List.length_take, Nat.min_eq_left (by omega)]
    cases spanByte l (data.drop e.2) a with
    | some b => rfl
    | none =>
      simp only [Option.getD_none]
      split
      next inside => rw [List.getElem?_take_of_lt (by omega), Option.getD_some]
      next => rfl

/-! ## Images of decode tables (R130) -/

theorem ent_ofImage (l : List Byte) (ten : Nat) {c : Nat} (inside : c < 256) :
    (DecTab.ofImage l ten).ent c = BitVec.ofNat 20 (leNat ((l.drop (4 * c)).take 4)) := by
  have kept := smGet_foldl_set_mem (0 : BitVec 20) (fun c => c) (fun c => BitVec.ofNat 20 (leNat ((l.drop (4 * c)).take 4)))
    (List.range 256) [] c (List.mem_range.mpr inside) fun _ _ same => by rw [same]
  rw [DecTab.ent, DecTab.ofImage]
  generalize List.range 256 = codes at kept ⊢
  exact kept

/-- Rows of m make one list. -/
theorem flatMap_rows {α : Type} (g : Nat → Nat → α) {m : Nat} (some_ : 0 < m) (n : Nat) :
    ((List.range n).flatMap fun q => (List.range m).map (g q)) = (List.range (m * n)).map fun j => g (j / m) (j % m) := by
  induction n with
  | zero => rfl
  | succ n ih =>
    rw [List.range_succ (n := n), List.flatMap_append, ih, Nat.mul_succ, List.range_add, List.map_append, List.map_map]
    congr 1
    rw [List.flatMap_singleton]
    refine List.map_congr_left fun r inside => ?_
    have small := List.mem_range.mp inside
    rw [Function.comp_apply, Nat.mul_add_div some_, Nat.div_eq_of_lt small, Nat.add_zero, Nat.mul_add_mod, Nat.mod_eq_of_lt small]

/-- A byte of a dword of two words. -/
theorem byte_of_pair {x y r : Nat} (word : x < 2 ^ 32) (inside : r < 8) :
    (x + y * 2 ^ 32) / 256 ^ r % 2 ^ 8 = (if r < 4 then x / 256 ^ r else y / 256 ^ (r - 4)) % 2 ^ 8 := by
  interval_cases r <;> norm_num <;> omega

theorem image_eq (T : DecTab) : T.image = (List.range 1032).map fun j =>
    BitVec.ofNat 8 (if j < 1024 then (T.ent (j / 4)).toNat / 256 ^ (j % 4) else T.attr.toNat / 256 ^ (j % 8)) := by
  simp only [DecTab.image, leBytes_eq_map]
  rw [flatMap_rows _ (by decide)]
  refine List.map_congr_left fun j _ => BitVec.eq_of_toNat_eq ?_
  rw [BitVec.toNat_ofNat, BitVec.toNat_ofNat, DecTab.dword]
  by_cases entry : j < 1024
  · have low : (T.ent (2 * (j / 8))).toNat < 2 ^ 20 := BitVec.isLt _
    have high : (T.ent (2 * (j / 8) + 1)).toNat < 2 ^ 20 := BitVec.isLt _
    rw [if_pos entry, if_pos (by omega), w64, toNat_ofNat_of_lt (by omega), byte_of_pair (by omega) (Nat.mod_lt _ (by decide))]
    by_cases first : j % 8 < 4
    · rw [if_pos first, show j / 4 = 2 * (j / 8) by omega, show j % 4 = j % 8 by omega]
    · rw [if_neg first, show j / 4 = 2 * (j / 8) + 1 by omega, show j % 4 = j % 8 - 4 by omega]
  · rw [if_neg entry, if_neg (by omega)]

theorem length_image (T : DecTab) : T.image.length = 1032 := by simp [image_eq]

theorem Stored.dts {s t : State} (h : Stored s t) : t.dts = s.dts := by unfold Stored at h; rw [h]

theorem Stored.correctSpans (s : State) (l : List (Nat × Nat)) : Stored s (s.correctSpans l) :=
  Stored.foldl (f := fun t (e : Nat × Nat) => t.correct e.1 e.2) (fun t e => Stored.correct t e.1 e.2) l s

theorem State.afterStoresWith_of_goesOn (s : State) {i : Instr} {snap : List Byte} {p : OutStore → Bool} {l : List (Nat × Nat)}
    {f : State → State} (goes : GoesOn s p l) : s.afterStoresWith i snap p l f = f (s.flushWhere s.cur p) := by
  obtain ⟨-, -, out, bytes⟩ := goes
  unfold State.afterStoresWith
  rw [if_neg]
  simp only [Bool.or_eq_true, List.any_eq_true, Bool.and_eq_true, not_or, not_exists, not_and]
  exact ⟨fun o h hp => by simp [out o h hp], fun e h => by simp [bytes e h]⟩

section Issued
variable {gd : Guard} {s : State} (issues : Issues gd s) (fast : s.slow = false) (a : GReg)
include issues

/-! ## migr (R164) -/

theorem exec_migr_stays (stays : s.migrTo (s.g a) = .at_ 0) : exec (.migr gd a) s = .next s := by
  change execMigr gd a s = _
  rw [execMigr, half_runs gd s _ issues.1 issues.2]
  simp only [stays]

theorem exec_migr_traps {t : Trap} (traps : s.migrTo (s.g a) = .trap t) : exec (.migr gd a) s = .next (s.takeTrap s.cur t) := by
  change execMigr gd a s = _
  rw [execMigr, half_runs gd s _ issues.1 issues.2]
  simp only [traps]

theorem exec_migr_goes {core : Nat} (goes : s.migrTo (s.g a) = .migrate core) : exec (.migr gd a) s =
    .next (s.parkAt s.cur (.migrate core (s.g a) true (bundleReads s.raw)) (.migr gd a) []) := by
  change execMigr gd a s = _
  rw [execMigr, half_runs gd s _ issues.1 issues.2]
  simp only [goes]
  rfl

/-! ## rdr (R160, R161) -/

section Rdr
variable (d : VReg) (n : BitVec 4)

theorem exec_rdr_wide (wide : 8 < n.toNat + 1 ∧ s.rd.gang = false) : exec (.rdr gd d a n) s = .next (s.takeTrap s.cur ⟨0x01, s.raw⟩) := by
  change execRdr gd d a n s = _
  rw [execRdr, half_runs gd s _ issues.1 issues.2]
  exact congrArg _ (if_pos wide)

variable (fits : ¬(8 < n.toNat + 1 ∧ s.rd.gang = false))
include fits

theorem exec_rdr_misaligned (misaligned : (s.g a).toNat % 8 ≠ 0) : exec (.rdr gd d a n) s = .next (s.takeTrap s.cur ⟨0x03, s.g a⟩) := by
  change execRdr gd d a n s = _
  rw [execRdr, half_runs gd s _ issues.1 issues.2]
  simp only [if_neg fits, if_pos misaligned]
  rfl

variable (aligned : (s.g a).toNat % 8 = 0)
include aligned

theorem exec_rdr_scattered (scattered : s.rdrUnit (s.g a) (n.toNat + 1) = false) :
    exec (.rdr gd d a n) s = .next (s.takeTrap s.cur ⟨0x04, s.g a⟩) := by
  change execRdr gd d a n s = _
  rw [execRdr, half_runs gd s _ issues.1 issues.2]
  simp only [if_neg fits, if_neg (not_not_intro aligned), scattered, Bool.not_false, if_true]
  rfl

variable (unit : s.rdrUnit (s.g a) (n.toNat + 1) = true)
include unit

theorem exec_rdr_impure (impure : s.impure (s.g a) (8 * (n.toNat + 1)) false = true) :
    exec (.rdr gd d a n) s = .next (s.takeTrap s.cur ⟨0x0B, s.g a⟩) := by
  change execRdr gd d a n s = _
  rw [execRdr, half_runs gd s _ issues.1 issues.2]
  simp only [if_neg fits, if_neg (not_not_intro aligned), unit, impure, Bool.not_true, Bool.false_eq_true, if_false, if_true]
  rfl

variable (pure : s.impure (s.g a) (8 * (n.toNat + 1)) false = false)
include pure

theorem exec_rdr_waits (full : s.replySlot = false) : exec (.rdr gd d a n) s = .next (s.parkAt s.cur .flight (.rdr gd d a n) []) := by
  change execRdr gd d a n s = _
  rw [execRdr, half_runs gd s _ issues.1 issues.2]
  simp only [if_neg fits, if_neg (not_not_intro aligned), unit, pure, full, Bool.not_true, Bool.not_false, Bool.false_eq_true, if_false,
    if_true]

variable (free : s.replySlot = true) (first : s.mustQueue (.rdr gd d a n) = false)
include free first fast

theorem exec_rdr_fails {e : Trap} (fails : s.rdrSpans (s.g a) (n.toNat + 1) = .error e) :
    exec (.rdr gd d a n) s = .next (s.takeTrap s.cur e) := by
  change execRdr gd d a n s = _
  rw [execRdr, half_runs gd s _ issues.1 issues.2]
  simp only [if_neg fits, if_neg (not_not_intro aligned), unit, pure, free, first, fast, fails, Bool.not_true, Bool.or_self,
    Bool.false_eq_true, if_false]

/-- R160: a run that lies in place is read as its words stand after the stores that it waits for. -/
theorem exec_rdr_reads {l : List (Nat × Nat)} (lies : s.rdrSpans (s.g a) (n.toNat + 1) = .ok l)
    (goes : GoesOn s (s.waitsFor .all (l.all fun e => isOwn s.core e.1) l) []) :
    let u := s.flushWhere s.cur (s.waitsFor .all (l.all fun e => isOwn s.core e.1) l)
    (∀ v, u.badWord (s.g a) l = some v → exec (.rdr gd d a n) s = .next (u.takeTrap u.cur ⟨0x09, v⟩)) ∧
    (u.badWord (s.g a) l = none → ∃ x, exec (.rdr gd d a n) s = .next ((u.correctSpans l).setV d x) ∧
      ∀ j, j < s.rd.vlen / 8 → lane x 8 j = (((u.readSpans l)[j]?).getD 0).toNat) := by
  intro u
  have short : (u.readSpans l).length ≤ 128 := by
    obtain ⟨count, sizes⟩ := sizes_of_steps (f := rdrPlace s) (fun _ => rfl) (rdrSpans_places s) (rdrSpans_fails s) lies
    have := n.isLt
    rw [length_readSpans, sum_of_sizes sizes, count]
    omega
  have runs : exec (.rdr gd d a n) s = .next (match u.badWord (s.g a) l with
      | some v => u.trap 0x09 v
      | none => (u.correctSpans l).setV d (ofVBytes (u.readSpans l))) := by
    change execRdr gd d a n s = _
    rw [execRdr, half_runs gd s _ issues.1 issues.2]
    simp only [if_neg fits, if_neg (not_not_intro aligned), unit, pure, free, first, fast, lies, Bool.not_true, Bool.or_self,
      Bool.false_eq_true, if_false, State.afterStoresWith_of_goesOn s goes]
    rfl
  refine ⟨fun v bad => ?_, fun good => ⟨_, ?_, fun j _ => lane_ofVBytes _ short j⟩⟩
  · rw [runs, bad]
    rfl
  · rw [runs, good]

end Rdr

/-! ## dtld (R131, R138) -/

section Dtld
variable (t : MReg)
include fast

theorem exec_dtld_misaligned (misaligned : (s.g a).toNat % 8 ≠ 0) :
    exec (.dtld gd t a) s = .next (s.takeTrap s.cur ⟨0x03, s.g a⟩) := by
  change execDtld gd t a s = _
  rw [execDtld, halfPark_answers issues fast rfl]
  exact congrArg _ (if_pos misaligned)

variable (aligned : (s.g a).toNat % 8 = 0)
include aligned

theorem exec_dtld_fails {e : Trap} (fails : s.imageSpans (s.g a) true false 129 = .error e) :
    exec (.dtld gd t a) s = .next (s.takeTrap s.cur e) := by
  change execDtld gd t a s = _
  rw [execDtld, halfPark_answers issues fast rfl]
  simp only [if_neg (not_not_intro aligned), fails]

/-- R131, R138: a table is taken from the words of its image, or the slot waits for the operation that holds it. -/
theorem exec_dtld_takes {l : List (Nat × Nat)} (lies : s.imageSpans (s.g a) true false 129 = .ok l)
    (goes : GoesOn s (s.waitsFor .all (l.all fun e => isOwn s.core e.1) l) l) :
    let u := s.flushWhere s.cur (s.waitsFor .all (l.all fun e => isOwn s.core e.1) l)
    (∀ v, u.badWord (s.g a) l = some v → exec (.dtld gd t a) s = .next (u.takeTrap u.cur ⟨0x09, v⟩)) ∧
    (u.badWord (s.g a) l = none → u.tableHeld s.core t.toNat = true →
      exec (.dtld gd t a) s = .next (u.parkAt u.cur .flight (.dtld gd t a) [])) ∧
    (u.badWord (s.g a) l = none → u.tableHeld s.core t.toNat = false →
      exec (.dtld gd t a) s = .next { u.correctSpans l with
        dts := smSet DecTab.zero u.dts (4 * caTileOf s.core + t.toNat) (DecTab.ofImage (u.readSpans l) s.rd.ten) }) := by
  intro u
  have core : u.core = s.core := State.core_flushWhere _ _
  have ten : u.rd.ten = s.rd.ten := congrArg Ctx.ten (State.rd_flushWhere _ _ goes.1)
  have dts : (u.correctSpans l).dts = u.dts := (Stored.correctSpans u l).dts
  have runs : exec (.dtld gd t a) s = .next (match u.badWord (s.g a) l with
      | some v => u.trap 0x09 v
      | none =>
        if u.tableHeld u.core t.toNat then u.parkAt u.cur .flight (.dtld gd t a) []
        else { u.correctSpans l with
          dts := smSet DecTab.zero (u.correctSpans l).dts (4 * caTileOf u.core + t.toNat) (DecTab.ofImage (u.readSpans l) u.rd.ten) }) := by
    change execDtld gd t a s = _
    rw [execDtld, halfPark_answers issues fast rfl]
    simp only [if_neg (not_not_intro aligned), lies, State.afterStores_of_goesOn s goes]
    rfl
  rw [core, ten, dts] at runs
  refine ⟨fun v bad => ?_, fun good held => ?_, fun good free => ?_⟩
  · rw [runs, bad]
    rfl
  · simp only [runs, good, held, if_true]
  · simp only [runs, good, free, Bool.false_eq_true, if_false]

end Dtld

/-! ## dtst (R131, R138) -/

section Dtst
variable (t : MReg)

theorem exec_dtst_misaligned (misaligned : (s.g a).toNat % 8 ≠ 0) :
    exec (.dtst gd t a) s = .next (s.takeTrap s.cur ⟨0x03, s.g a⟩) := by
  change execDtst gd t a s = _
  rw [execDtst, half_runs gd s _ issues.1 issues.2]
  exact congrArg _ (if_pos misaligned)

variable (aligned : (s.g a).toNat % 8 = 0)
include aligned

theorem exec_dtst_denied (denied : (s.dt s.core t.toNat).usable s.rd.ten = false) :
    exec (.dtst gd t a) s = .next (s.takeTrap s.cur ⟨0x06, BitVec.ofNat 64 s.cur⟩) := by
  change execDtst gd t a s = _
  rw [execDtst, half_runs gd s _ issues.1 issues.2]
  simp only [if_neg (not_not_intro aligned), denied, Bool.not_false, if_true]
  rfl

variable (usable : (s.dt s.core t.toNat).usable s.rd.ten = true)
include usable

theorem exec_dtst_fails {e : Trap} (fails : s.imageSpans (s.g a) false true 129 = .error e) :
    exec (.dtst gd t a) s = .next (s.takeTrap s.cur e) := by
  change execDtst gd t a s = _
  rw [execDtst, half_runs gd s _ issues.1 issues.2]
  simp only [if_neg (not_not_intro aligned), usable, fails, Bool.not_true, Bool.false_eq_true, if_false]

theorem exec_dtst_stores (fast : s.slow = false) {l : List (Nat × Nat)} (lies : s.imageSpans (s.g a) false true 129 = .ok l)
    (goes : GoesOn s (s.waitsFor .all (l.all fun e => isOwn s.core e.1) l) l) :
    exec (.dtst gd t a) s = .next ((s.flushWhere s.cur (s.waitsFor .all (l.all fun e => isOwn s.core e.1) l)).storeSpans l
      (s.dt s.core t.toNat).image) := by
  change execDtst gd t a s = _
  rw [execDtst, half_runs gd s _ issues.1 issues.2]
  simp only [if_neg (not_not_intro aligned), usable, lies, fast, Bool.not_true, Bool.false_eq_true, if_false, dtstLands,
    State.afterStoresWith_of_goesOn s goes]

end Dtst
end Issued

/-- Settles O36: each access is placed, checked and performed as its own lemma above says. -/
theorem remoteReadsTablesAndMigr : Obligations.RemoteReadsTablesAndMigr := by
  unfold Obligations.RemoteReadsTablesAndMigr
  intro gd a s issues fast ea
  refine ⟨fun e n k ld st => ⟨liesHere_locateHere s e n ld st, rdrUnit_iff s e n, readThere_rdrAt s e, ?_, ?_⟩, fun t misaligned => ⟨?_, ?_⟩,
    fun d n l => ?_, fun t e aligned => exec_dtld_fails issues fast a t aligned, fun t l aligned lies => ?_, fun t l aligned => ?_,
    exec_migr_stays issues a, fun t => exec_migr_traps issues a, fun core => exec_migr_goes issues a, migrGoes_migrTo s ea,
    fun station core => migrTo_station s ea station core⟩
  · exact dwordRun_of_steps (fun _ => rfl) (rdrSpans_places s) (rdrSpans_fails s) e k
  · exact dwordRun_of_steps (f := imagePlace s ld st) (run := fun ea n => s.imageSpans ea ld st n) (fun _ => rfl)
      (imageSpans_places s ld st) (imageSpans_fails s ld st) e k
  · exact exec_dtld_misaligned issues fast a t misaligned
  · exact exec_dtst_misaligned issues a t misaligned
  · intro k
    exact ⟨fun wide gang => exec_rdr_wide issues a d n ⟨wide, gang⟩, exec_rdr_misaligned issues a d n,
      exec_rdr_scattered issues a d n, exec_rdr_impure issues a d n, exec_rdr_waits issues a d n,
      fun e fits aligned unit pure free first => exec_rdr_fails issues fast a d n fits aligned unit pure free first,
      fun fits aligned unit pure free first lies goes => exec_rdr_reads issues fast a d n fits aligned unit pure free first lies goes⟩
  · intro p goes u
    obtain ⟨traps, waits, takes⟩ := exec_dtld_takes issues fast a t aligned lies goes
    refine ⟨traps, waits, fun good free => ⟨_, takes good free, rfl, ?_⟩⟩
    have same : smGet DecTab.zero (smSet DecTab.zero u.dts (4 * caTileOf s.core + t.toNat) (DecTab.ofImage (u.readSpans l) s.rd.ten))
        (4 * caTileOf s.core + t.toNat) = DecTab.ofImage (u.readSpans l) s.rd.ten := smGet_set_same ..
    refine ⟨fun c inside => ?_, congrArg DecTab.attr same, congrArg DecTab.owner same, fun k _ other => ?_⟩
    · exact (congrArg (DecTab.ent · c) same).trans (ent_ofImage _ _ inside)
    · exact smGet_set_ne _ _ _ _ _ (by omega)
  · intro T
    refine ⟨exec_dtst_denied issues a t aligned, fun e usable => exec_dtst_fails issues a t aligned usable, fun usable lies goes => ?_⟩
    refine ⟨_, exec_dtst_stores issues a t aligned usable fast lies goes, ?_⟩
    obtain ⟨count, sizes⟩ := sizes_of_steps (f := imagePlace s false true) (run := fun ea n => s.imageSpans ea false true n) (fun _ => rfl)
      (imageSpans_places s false true) (imageSpans_fails s false true) lies
    rw [← image_eq]
    exact storesSpans_storeSpans _ l _ (by rw [sum_of_sizes sizes, count, length_image])

end Sys2Proof.Machine
end

section
/-!
The semirings of the matrix unit (R219 to R221).
-/

namespace Sys2Proof.Machine

open Claims

/-! ## The integer semiring -/

theorem stepInt_eq (old : Nat) (a b : List Int) :
    (stepInt old a b : Int) = ((old : Int) + (List.zipWith (· * ·) a b).sum) % 2 ^ 32 := by
  rw [stepInt, Int.toNat_of_nonneg (Int.emod_nonneg _ (by decide)), List.sum_eq_foldl]
  rfl

/-! ## Flags -/

theorem nv_iff (fl : FlagSet) : fl &&& flagNv = flagNv ↔ fl.getLsbD 0 = true := by
  revert fl
  decide

theorem rest_or (a b : FlagSet) : (a ||| b) &&& ~~~flagNv = (a &&& ~~~flagNv) ||| (b &&& ~~~flagNv) := by
  revert a b
  decide

theorem rest_of_or_eq {fl : FlagSet} (only : fl = 0 ∨ fl = flagNv) : fl &&& ~~~flagNv = 0 := by
  rcases only with rfl | rfl <;> rfl

theorem zero_not_nv : (0 : FlagSet).getLsbD 0 = false := by decide

theorem over_not_nv : (flagOf ||| flagNx).getLsbD 0 = false := by decide

/-- A rounding raises no invalid operation. -/
theorem Fmt.round_not_nv (f : Fmt) (rm : Rnd) (neg : Bool) (m : Nat) (e : Int) (sticky : Bool) :
    (f.round rm neg m e sticky).2.getLsbD 0 = false := by
  have clear : ∀ a b : Bool, (flagIf a flagNx ||| flagIf b flagUf).getLsbD 0 = false := by decide
  have branch {c : Prop} [Decidable c] {x y : Nat × FlagSet} (hx : x.2.getLsbD 0 = false) (hy : y.2.getLsbD 0 = false) :
      (if c then x else y).2.getLsbD 0 = false := by split <;> assumption
  exact branch zero_not_nv (branch over_not_nv (clear _ _))

theorem Fmt.deliver_not_nv (f : Fmt) (rm : Rnd) (v : FVal) : (f.deliver rm v).2.getLsbD 0 = false := by
  cases v with
  | nan b => exact zero_not_nv
  | inf n =>
    rw [Fmt.deliver, Fmt.infinite]
    split
    · exact over_not_nv
    · exact zero_not_nv
  | fin n m e => exact f.round_not_nv rm n m e false

theorem Fmt.deliver_rest (f : Fmt) (rm : Rnd) (v : FVal) : (f.deliver rm v).2 &&& ~~~flagNv = (f.deliver rm v).2 := by
  have clear := f.deliver_not_nv rm v
  revert clear
  generalize (f.deliver rm v).2 = fl
  revert fl
  decide

/-! ## One sum or product -/

/-- An operation on values whose only flag is nv, which quiet operands raise where two numbers give a NaN. -/
structure RaisesNv (op : FVal → FVal → FVal × FlagSet) : Prop where
  only : ∀ x y, (op x y).2 = 0 ∨ (op x y).2 = flagNv
  arises : ∀ x y, x.isSnan = false → y.isSnan = false →
    ((op x y).2 = flagNv ↔ x.isNan = false ∧ y.isNan = false ∧ (op x y).1.isNan = true)

theorem flagIf_cases (b : Bool) (fl : FlagSet) : flagIf b fl = 0#5 ∨ flagIf b fl = fl := by cases b <;> simp [flagIf]

theorem raisesNv_mul : RaisesNv FVal.mul where
  only x y := by
    rcases x with a | a | ⟨n, m, e⟩ <;> rcases y with b | b | ⟨k, l, f⟩ <;> simp only [FVal.mul]
    case inf.fin => split <;> simp
    case fin.inf => split <;> simp
    all_goals simp [flagIf_cases]
  arises x y qx qy := by
    have other : ¬(0#5 : FlagSet) = flagNv := by decide
    rcases x with a | a | ⟨n, m, e⟩ <;> rcases y with b | b | ⟨k, l, f⟩ <;> simp only [FVal.mul, FVal.isSnan, FVal.isNan] at qx qy ⊢
    case inf.fin => split <;> simp [other]
    case fin.inf => split <;> simp [other]
    all_goals simp [flagIf, other, qx, qy]

theorem raisesNv_add (rm : Rnd) : RaisesNv (FVal.add rm) where
  only x y := by
    rcases x with a | a | ⟨n, m, e⟩ <;> rcases y with b | b | ⟨k, l, f⟩ <;> simp only [FVal.add]
    case inf.inf => split <;> simp
    case fin.fin => split <;> simp
    all_goals simp [flagIf_cases]
  arises x y qx qy := by
    have other : ¬(0#5 : FlagSet) = flagNv := by decide
    rcases x with a | a | ⟨n, m, e⟩ <;> rcases y with b | b | ⟨k, l, f⟩ <;> simp only [FVal.add, FVal.isSnan, FVal.isNan] at qx qy ⊢
    case inf.inf => split <;> simp [other]
    case fin.fin => split <;> simp [other]
    all_goals simp [flagIf, other, qx, qy]

/-! ## A row and a column -/

section Pairs
variable {op : FVal → FVal → FVal × FlagSet} (raises : RaisesNv op) (a b : List FVal)

/-- The flags of a row of results. -/
def allFlags (l : List (FVal × FlagSet)) : FlagSet := l.foldl (fun f e => f ||| e.2) 0

theorem allFlags_cases (l : List (FVal × FlagSet)) (only : ∀ e ∈ l, e.2 = 0 ∨ e.2 = flagNv) :
    allFlags l = 0 ∧ (∀ e ∈ l, e.2 ≠ flagNv) ∨ allFlags l = flagNv ∧ ∃ e ∈ l, e.2 = flagNv := by
  have other : (0 : FlagSet) ≠ flagNv := by decide
  have either : flagNv ||| flagNv = flagNv ∧ flagNv ||| 0 = flagNv ∧ 0 ||| flagNv = flagNv ∧ (0 : FlagSet) ||| 0 = 0 := by decide
  obtain ⟨both, left, right, none_⟩ := either
  unfold allFlags
  induction l using List.reverseRecOn with
  | nil => simp
  | append_singleton l e ih =>
    rw [List.foldl_append, List.foldl_cons, List.foldl_nil]
    have tail := only e (by simp)
    rcases ih fun e h => only e (by simp [h]) with ⟨zero, clear⟩ | ⟨raised, e', inside, is⟩
    · rcases tail with tail | tail
      · refine .inl ⟨by rw [zero, tail, none_], fun e' h => ?_⟩
        rcases List.mem_append.mp h with h | h
        · exact clear e' h
        · rw [List.mem_singleton.mp h, tail]
          exact other
      · exact .inr ⟨by rw [zero, tail, right], e, by simp, tail⟩
    · refine .inr ⟨?_, e', by simp [inside], is⟩
      rcases tail with tail | tail
      · rw [raised, tail, left]
      · rw [raised, tail, both]

include raises in
/-- The flags of a row of quiet operands tell whether a NaN arises from numbers. -/
theorem allFlags_zipWith_iff (quiet : ∀ x ∈ a ++ b, x.isSnan = false) : allFlags (List.zipWith op a b) = flagNv ↔
    ∃ (k : Nat) (x y z : FVal), a[k]? = some x ∧ b[k]? = some y ∧ ((List.zipWith op a b).map Prod.fst)[k]? = some z ∧
      x.isNan = false ∧ y.isNan = false ∧ z.isNan = true := by
  have other : (0 : FlagSet) ≠ flagNv := by decide
  have only : ∀ e ∈ List.zipWith op a b, e.2 = 0 ∨ e.2 = flagNv := by
    intro e inside
    obtain ⟨k, is⟩ := List.getElem?_of_mem inside
    obtain ⟨x, y, -, -, rfl⟩ := List.getElem?_zipWith_eq_some.mp is
    exact raises.only x y
  have quietA {k : Nat} {x : FVal} (at_ : a[k]? = some x) : x.isSnan = false :=
    quiet x (List.mem_append_left b (List.mem_of_getElem? at_))
  have quietB {k : Nat} {y : FVal} (at_ : b[k]? = some y) : y.isSnan = false :=
    quiet y (List.mem_append_right a (List.mem_of_getElem? at_))
  have one : (∃ e ∈ List.zipWith op a b, e.2 = flagNv) ↔
      ∃ (k : Nat) (x y z : FVal), a[k]? = some x ∧ b[k]? = some y ∧ ((List.zipWith op a b).map Prod.fst)[k]? = some z ∧
        x.isNan = false ∧ y.isNan = false ∧ z.isNan = true := by
    constructor
    · rintro ⟨e, inside, is⟩
      obtain ⟨k, at_⟩ := List.getElem?_of_mem inside
      obtain ⟨x, y, atA, atB, rfl⟩ := List.getElem?_zipWith_eq_some.mp at_
      exact ⟨k, x, y, _, atA, atB, by rw [List.getElem?_map, at_]; rfl, (raises.arises x y (quietA atA) (quietB atB)).mp is⟩
    · rintro ⟨k, x, y, z, atA, atB, at_, numbers⟩
      have here : (List.zipWith op a b)[k]? = some (op x y) := List.getElem?_zipWith_eq_some.mpr ⟨x, y, atA, atB, rfl⟩
      rw [List.getElem?_map, here] at at_
      cases at_
      exact ⟨_, List.mem_of_getElem? here, (raises.arises x y (quietA atA) (quietB atB)).mpr numbers⟩
  rw [← one]
  rcases allFlags_cases _ only with ⟨zero, clear⟩ | ⟨raised, some_⟩
  · exact iff_of_false (by rw [zero]; exact other) fun ⟨e, inside, is⟩ => clear e inside is
  · exact iff_of_true raised some_

end Pairs

/-! ## The exact sum of a step -/

/-- R219, R220: r is the exact sum of values none of which is a NaN, with the flags of an invalid operation. -/
structure TotalOf (p : List FVal) (r : FVal × FlagSet) : Prop where
  both : .inf true ∈ p → .inf false ∈ p → r = (.nan false, flagNv)
  one : ∀ n, .inf n ∈ p → .inf (!n) ∉ p → r = (.inf n, 0)
  none_ : (∀ n, .inf n ∉ p) → isFin r.1 = true ∧ ratOf r.1 = (p.map ratOf).sum ∧ r.2 = 0

theorem totalOf_nil : TotalOf [] (.fin false 0 0, 0) where
  both h := absurd h List.not_mem_nil
  one _ h := absurd h List.not_mem_nil
  none_ _ := ⟨rfl, by simp [ratOf], rfl⟩

theorem TotalOf.snoc {p : List FVal} {r : FVal × FlagSet} (total : TotalOf p r) {z : FVal} (num : z.isNan = false) :
    TotalOf (p ++ [z]) ((r.1.add .rne z).1, r.2 ||| (r.1.add .rne z).2) := by
  obtain ⟨both, one, none_⟩ := total
  have infs {n : Bool} : .inf n ∈ p ++ [z] ↔ .inf n ∈ p ∨ z = .inf n := by
    rw [List.mem_append, List.mem_singleton, eq_comm (a := FVal.inf n)]
  rcases z with a | a | ⟨n, m, e⟩
  · cases num
  · have mine : .inf a ∈ p ++ [.inf a] := infs.mpr (.inr rfl)
    by_cases other : .inf (!a) ∈ p
    · have is : ((r.1.add .rne (.inf a)).1, r.2 ||| (r.1.add .rne (.inf a)).2) = (.nan false, flagNv) := by
        by_cases same : .inf a ∈ p
        · rw [show r = (.nan false, flagNv) by cases a; exacts [both other same, both same other]]
          simp [FVal.add, flagIf]
        · rw [one (!a) other (by rwa [Bool.not_not])]
          simp [FVal.add]
      have two : .inf (!a) ∈ p ++ [.inf a] := infs.mpr (.inl other)
      rw [is]
      refine ⟨fun _ _ => rfl, fun n h alone => absurd ?_ alone, fun finite => absurd mine (finite a)⟩
      rcases Bool.eq_or_eq_not n a with rfl | rfl
      · exact two
      · rwa [Bool.not_not]
    · have is : ((r.1.add .rne (.inf a)).1, r.2 ||| (r.1.add .rne (.inf a)).2) = (.inf a, 0) := by
        by_cases same : .inf a ∈ p
        · rw [one a same other]
          simp [FVal.add]
        · obtain ⟨fin, -, flags⟩ := none_ fun k => by
            rcases Bool.eq_or_eq_not k a with rfl | rfl
            exacts [same, other]
          obtain ⟨n, m, e, number⟩ := exists_of_isFin fin
          simp [number, flags, FVal.add]
      have alone : .inf (!a) ∉ p ++ [.inf a] := mt infs.mp fun h => h.elim other (by simp)
      rw [is]
      refine ⟨fun h k => absurd ?_ alone, fun n h _ => ?_, fun finite => absurd mine (finite a)⟩
      · cases a
        exacts [h, k]
      · rcases Bool.eq_or_eq_not n a with rfl | rfl
        · rfl
        · exact absurd h alone
  · have old {k : Bool} : .inf k ∈ p ++ [.fin n m e] ↔ .inf k ∈ p := by rw [infs, or_iff_left FVal.noConfusion]
    constructor
    · intro h k
      rw [both (old.mp h) (old.mp k)]
      simp [FVal.add, flagIf]
    · intro k h other
      rw [one k (old.mp h) (mt old.mpr other)]
      simp [FVal.add]
    · intro finite
      obtain ⟨fin, sum, flags⟩ := none_ fun k h => finite k (old.mpr h)
      obtain ⟨-, -, -, -, added⟩ := isSum_add .rne r.1 (.fin n m e)
      obtain ⟨fin', sum', flags', -⟩ := added fin rfl
      exact ⟨fin', by rw [sum', sum, List.map_append, List.sum_append, List.map_singleton, List.sum_singleton],
        by simp only [flags, flags', BitVec.or_self]⟩

theorem totalOf_stepSum {p : List FVal} (num : ∀ z ∈ p, z.isNan = false) : TotalOf p (stepSum p) := by
  have whole : p.any FVal.isNan = false := by simpa using num
  rw [stepSum, if_neg (by simp [whole])]
  clear whole
  induction p using List.reverseRecOn with
  | nil => exact totalOf_nil
  | append_singleton p z ih =>
    rw [List.foldl_append, List.foldl_cons, List.foldl_nil]
    exact (ih fun z h => num z (by simp [h])).snoc (num z (by simp))

theorem stepSum_nan {p : List FVal} (nan : ∃ z ∈ p, z.isNan = true) : stepSum p = (.nan false, 0) := if_pos (List.any_eq_true.mpr nan)

/-! ## The least and the greatest value of a step -/

theorem below_iff_precedes {x y : FVal} (numX : x.isNan = false) (numY : y.isNan = false) : x.below y = true ↔ Precedes x y := by
  rcases x with a | a | ⟨n, m, e⟩ <;> rcases y with b | b | ⟨k, l, f⟩
  case fin.fin =>
    have zero (n : Bool) (m : Nat) (e : Int) : m = 0 ↔ ratOf (.fin n m e) = 0 := by
      rw [ratOf_fin, signed_eq_mul]
      cases n <;> simp [zpow_ne_zero]
    rw [FVal.below, Bool.or_eq_true, FVal.lt_fin]
    simp only [FVal.isZero, FVal.sign, Precedes, Bool.and_eq_true, beq_iff_eq, Bool.not_eq_true', and_assoc]
    refine or_congr_right ⟨fun ⟨left, right, neg, pos⟩ => ⟨?_, left, neg, pos⟩, fun ⟨same, left, neg, pos⟩ => ⟨left, ?_, neg, pos⟩⟩
    · rw [(zero n m e).mp left, (zero k l f).mp right]
    · rw [zero k l f, ← same, ← zero n m e]
      exact left
  all_goals simp_all [FVal.below, FVal.lt, Precedes, FVal.isNan, FVal.isZero]

theorem precedes_irrefl (x : FVal) : ¬Precedes x x := by
  rcases x with a | a | ⟨n, m, e⟩ <;> simp [Precedes]

theorem precedes_trans {x y z : FVal} (h : Precedes x y) (k : Precedes y z) : Precedes x z := by
  rcases x with a | a | ⟨n, m, e⟩ <;> rcases y with b | b | ⟨n', m', e'⟩ <;> rcases z with c | c | ⟨n'', m'', e''⟩ <;>
    simp only [Precedes] at h k ⊢
  case fin.fin.fin =>
    rcases h with h | ⟨h, m0, neg, pos⟩ <;> rcases k with k | ⟨k, m0', neg', pos'⟩
    · exact .inl (h.trans k)
    · exact .inl (h.trans_eq k)
    · exact .inl (h.trans_lt k)
    · rw [pos] at neg'
      cases neg'
  all_goals simp_all

/-- A run that keeps the first of the values than which none is better finds one. -/
theorem foldl_best (better : FVal → FVal → Bool) (irrefl : ∀ x, x.isNan = false → better x x = false)
    (trans_ : ∀ x y z, x.isNan = false → y.isNan = false → z.isNan = false → better x y = true → better y z = true → better x z = true)
    (v : FVal) (l : List FVal) (num : ∀ z ∈ v :: l, z.isNan = false) :
    l.foldl (fun a x => if better x a then x else a) v ∈ v :: l ∧
      ∀ z ∈ v :: l, better z (l.foldl (fun a x => if better x a then x else a) v) = false := by
  induction l using List.reverseRecOn with
  | nil => simpa using irrefl v (num v (by simp))
  | append_singleton l x ih =>
    obtain ⟨found, best⟩ := ih fun z h => num z (by rw [← List.cons_append]; exact List.mem_append_left _ h)
    have numX : x.isNan = false := num x (by simp)
    have numS := num _ (by rw [← List.cons_append]; exact List.mem_append_left [x] found)
    rw [List.foldl_append, List.foldl_cons, List.foldl_nil, ← List.cons_append]
    split
    next wins =>
      refine ⟨by simp, fun z inside => ?_⟩
      rcases List.mem_append.mp inside with h | h
      · refine Bool.eq_false_iff.mpr fun beats => ?_
        have numZ := num z (by rw [← List.cons_append]; exact inside)
        exact Bool.eq_false_iff.mp (best z h) (trans_ z x _ numZ numX numS beats wins)
      · rw [List.mem_singleton.mp h]
        exact irrefl x numX
    next loses =>
      refine ⟨List.mem_append_left _ found, fun z inside => ?_⟩
      rcases List.mem_append.mp inside with h | h
      · exact best z h
      · rw [List.mem_singleton.mp h]
        exact Bool.eq_false_iff.mpr loses

end Sys2Proof.Machine
end

section
/-!
The new element of a floating-point K-step (R219 to R221).
-/

namespace Sys2Proof.Machine

open Claims

theorem isNan_quiet (v : FVal) : v.quiet.isNan = v.isNan := by cases v <;> rfl

theorem quiet_of_num {v : FVal} (num : v.isNan = false) : v.quiet = v := by
  cases v with
  | nan b => cases num
  | inf n => rfl
  | fin n m e => rfl

theorem nv_or_iff {f g : FlagSet} (only : f = 0 ∨ f = flagNv) (clear : g.getLsbD 0 = false) : (f ||| g) &&& flagNv = flagNv ↔ f = flagNv := by
  revert f g
  decide

theorem rest_or_eq {f g : FlagSet} (only : f = 0 ∨ f = flagNv) (clear : g.getLsbD 0 = false) : (f ||| g) &&& ~~~flagNv = g := by
  revert f g
  decide

/-! ## The least and the greatest -/

/-- pick gives the best of values, in the order of `Precedes` or the other way, and a NaN where one of them is. -/
structure Picks (least : Bool) (pick : List FVal → FVal) : Prop where
  nan : ∀ p, (∃ z ∈ p, z.isNan = true) → pick p = .nan false
  best : ∀ p, p ≠ [] → (∀ z ∈ p, z.isNan = false) → pick p ∈ p ∧
    ∀ z ∈ p, ¬if least then Precedes z (pick p) else Precedes (pick p) z

theorem picks_stepLeast : Picks true stepLeast where
  nan p nan := by
    cases p with
    | nil => simp at nan
    | cons v t => exact if_pos (List.any_eq_true.mpr nan)
  best p some_ num := by
    cases p with
    | nil => exact absurd rfl some_
    | cons v t =>
      have whole : (v :: t).any FVal.isNan = false := by simpa using num
      rw [stepLeast, if_neg (by simp only [whole, Bool.false_eq_true, not_false_eq_true])]
      obtain ⟨found, best⟩ := foldl_best (fun x y => x.below y)
        (fun x n => Bool.eq_false_iff.mpr fun h => precedes_irrefl x ((below_iff_precedes n n).mp h))
        (fun x y z nx ny nz h k => (below_iff_precedes nx nz).mpr
          (precedes_trans ((below_iff_precedes nx ny).mp h) ((below_iff_precedes ny nz).mp k))) v t num
      exact ⟨found, fun z inside h => Bool.eq_false_iff.mp (best z inside) ((below_iff_precedes (num z inside) (num _ found)).mpr h)⟩

theorem picks_stepGreatest : Picks false stepGreatest where
  nan p nan := by
    cases p with
    | nil => simp at nan
    | cons v t => exact if_pos (List.any_eq_true.mpr nan)
  best p some_ num := by
    cases p with
    | nil => exact absurd rfl some_
    | cons v t =>
      have whole : (v :: t).any FVal.isNan = false := by simpa using num
      rw [stepGreatest, if_neg (by simp only [whole, Bool.false_eq_true, not_false_eq_true])]
      obtain ⟨found, best⟩ := foldl_best (fun x y => y.below x)
        (fun x n => Bool.eq_false_iff.mpr fun h => precedes_irrefl x ((below_iff_precedes n n).mp h))
        (fun x y z nx ny nz h k => (below_iff_precedes nz nx).mpr
          (precedes_trans ((below_iff_precedes nz ny).mp k) ((below_iff_precedes ny nx).mp h))) v t num
      exact ⟨found, fun z inside h => Bool.eq_false_iff.mp (best z inside) ((below_iff_precedes (num _ found) (num z inside)).mpr h)⟩

/-! ## Semirings that choose -/

section Chosen
variable (rm : Rnd) (old : Nat) (v : FVal) (less : Bool)

theorem chooseElem_nan (nan : (fmt32.value old).isNan = true ∨ v.isNan = true) : chooseElem rm old v less = (0x7FC00000, 0) := by
  refine (if_pos ?_).trans (congrArg (·, 0) (by decide))
  rwa [Bool.or_eq_true, isNan_quiet]

variable (numC : (fmt32.value old).isNan = false) (numV : v.isNan = false)
include numC numV

theorem chooseElem_num : (chooseElem rm old v less = fmt32.deliver rm v ∧
      (if less then Precedes v (fmt32.value old) else Precedes (fmt32.value old) v)) ∨
    chooseElem rm old v less = (old, 0) ∧ ¬if less then Precedes v (fmt32.value old) else Precedes (fmt32.value old) v := by
  have order : (if less then v.below (fmt32.value old) else (fmt32.value old).below v) = true ↔
      if less then Precedes v (fmt32.value old) else Precedes (fmt32.value old) v := by
    cases less
    · exact below_iff_precedes numC numV
    · exact below_iff_precedes numV numC
  rw [← order]
  unfold chooseElem
  rw [quiet_of_num numC, if_neg (by simp [numC, numV])]
  by_cases wins : (if less then v.below (fmt32.value old) else (fmt32.value old).below v) = true
  · exact .inl ⟨if_pos wins, wins⟩
  · exact .inr ⟨if_neg wins, wins⟩

end Chosen

theorem chooseElem_clear (rm : Rnd) (old : Nat) (v : FVal) (less : Bool) : (chooseElem rm old v less).2.getLsbD 0 = false := by
  by_cases nan : (fmt32.value old).isNan = true ∨ v.isNan = true
  · rw [chooseElem_nan rm old v less nan]
    exact zero_not_nv
  · rw [not_or, Bool.not_eq_true, Bool.not_eq_true] at nan
    rcases chooseElem_num rm old v less nan.1 nan.2 with ⟨is, -⟩ | ⟨is, -⟩ <;> rw [is]
    · exact fmt32.deliver_not_nv rm v
    · exact zero_not_nv

/-! ## The results of a row and a column -/

section Rows
variable (op : FVal → FVal → FVal × FlagSet) (a b : List FVal)

/-- The values that a row and a column give. -/
def results : List FVal := (List.zipWith op a b).map Prod.fst

theorem length_results (same : a.length = b.length) : (results op a b).length = a.length := by simp [results, same]

theorem results_ne_nil (same : a.length = b.length) (some_ : a ≠ []) : results op a b ≠ [] := by
  rw [← List.length_pos_iff, length_results op a b same, List.length_pos_iff]
  exact some_

variable {op a b} in
theorem getElem?_results {k : Nat} {x y z : FVal} (atA : a[k]? = some x) (atB : b[k]? = some y) (at_ : (results op a b)[k]? = some z) :
    z = (op x y).1 := by
  have here : (List.zipWith op a b)[k]? = some (op x y) := List.getElem?_zipWith_eq_some.mpr ⟨x, y, atA, atB, rfl⟩
  rw [results, List.getElem?_map, here] at at_
  exact (Option.some.inj at_).symm

variable {op} in
theorem allFlags_only (raises : RaisesNv op) : allFlags (List.zipWith op a b) = 0 ∨ allFlags (List.zipWith op a b) = flagNv := by
  refine (allFlags_cases (List.zipWith op a b) fun e inside => ?_).imp And.left And.left
  obtain ⟨k, is⟩ := List.getElem?_of_mem inside
  obtain ⟨x, y, -, -, rfl⟩ := List.getElem?_zipWith_eq_some.mp is
  exact raises.only x y

end Rows

/-- R219 to R221: the new element of a semiring that chooses the least or the greatest of sums or products. -/
theorem combines_chooseElem {op : FVal → FVal → FVal × FlagSet} (raises : RaisesNv op) {sr : Nat} (choice : sr ≠ 0) {rm : Rnd} (old : Nat)
    {a b : List FVal} (same : a.length = b.length) (some_ : a ≠ [])
    (exact_ : ∀ x y, if sr = 0 ∨ sr = 4 then IsProduct x y (op x y).1 (op x y).2 else IsSum rm x y (op x y).1 (op x y).2)
    {pick : List FVal → FVal} (picks : Picks (sr == 2) pick) :
    Combines sr rm old a b
      ((chooseElem rm old (pick (results op a b)) (sr == 2)).1,
        allFlags (List.zipWith op a b) ||| (chooseElem rm old (pick (results op a b)) (sr == 2)).2) := by
  have only := allFlags_only a b raises
  have clear := chooseElem_clear rm old (pick (results op a b)) (sr == 2)
  have rest := rest_or_eq only clear
  refine ⟨results op a b, length_results op a b same, fun k x y z atA atB at_ => ⟨(op x y).2, ?_⟩, ?_⟩
  · rw [getElem?_results atA atB at_]
    exact exact_ x y
  intro c whole lost raised arises
  refine ⟨fun quiet => ?_, fun gone => ?_, fun _ zero => absurd zero choice, fun kept _ => ?_⟩
  · rw [nv_or_iff only clear, allFlags_zipWith_iff raises a b quiet]
    exact (or_iff_left fun h => choice h.1).symm
  · have nan : c.isNan = true ∨ (pick (results op a b)).isNan = true := by
      rcases gone with h | h | h
      · exact .inl h
      · rw [picks.nan _ h]
        exact .inr rfl
      · exact absurd h.1 choice
    have is := chooseElem_nan rm old (pick (results op a b)) (sr == 2) nan
    exact ⟨congrArg Prod.fst is, rest.trans (congrArg Prod.snd is)⟩
  · have numC : c.isNan = false := Bool.eq_false_iff.mpr fun h => kept (.inl h)
    have num : ∀ z ∈ results op a b, z.isNan = false := fun z inside => Bool.eq_false_iff.mpr fun h => kept (.inr (.inl ⟨z, inside, h⟩))
    obtain ⟨found, best⟩ := picks.best _ (results_ne_nil op a b same some_) num
    have order (x y : FVal) : (if (sr == 2) = true then Precedes x y else Precedes y x) ↔ (if sr = 2 then Precedes x y else Precedes y x) := by
      simp only [beq_iff_eq]
    have is := chooseElem_num rm old (pick (results op a b)) (sr == 2) numC (num _ found)
    refine ⟨_, found, fun z inside h => best z inside ((order _ _).mpr h), fun first => ?_, fun last => ?_⟩
    · rcases is with ⟨is, -⟩ | ⟨-, other⟩
      · exact ⟨(congrArg Prod.fst is :), rest.trans (congrArg Prod.snd is)⟩
      · exact absurd ((order _ _).mpr first) other
    · rcases is with ⟨-, other⟩ | ⟨is, -⟩
      · exact absurd ((order _ _).mp other) last
      · exact ⟨(congrArg Prod.fst is :), rest.trans (congrArg Prod.snd is)⟩

/-! ## The semiring of sums of products -/

theorem isZero_of_ratOf {v : FVal} (fin : isFin v = true) (zero : ratOf v = 0) : v.isZero = true := by
  by_contra nonzero
  have pos := (ratOf_of_nonzero fin (Bool.eq_false_iff.mpr nonzero)).1
  rw [zero, abs_zero] at pos
  exact lt_irrefl _ pos

theorem fmt32_sum_eq (rm : Rnd) (x y : FVal) : fmt32.sum rm x y =
    ((fmt32.deliver rm (x.add rm y).1).1, (x.add rm y).2 ||| (fmt32.deliver rm (x.add rm y).1).2) := rfl

theorem sum_nan (rm : Rnd) {x y : FVal} (nan : x.isNan = true ∨ y.isNan = true) (quietX : x.isSnan = false) (quietY : y.isSnan = false) :
    fmt32.sum rm x y = (0x7FC00000, 0) := by
  obtain ⟨is, -⟩ := isSum_add rm x y
  obtain ⟨value, flags⟩ := is nan
  rw [quietX, quietY] at flags
  rw [fmt32_sum_eq, value, flags]
  exact Prod.ext (show fmt32.nan = _ by decide) (by decide : flagIf (false || false) flagNv ||| 0 = 0)

theorem sum_nv (rm : Rnd) {x y : FVal} (quietX : x.isSnan = false) (quietY : y.isSnan = false) :
    (fmt32.sum rm x y).2.getLsbD 0 = true ↔ x.isNan = false ∧ y.isNan = false ∧ (x.add rm y).1.isNan = true := by
  have raises := raisesNv_add rm
  rw [← raises.arises x y quietX quietY, fmt32_sum_eq, ← nv_iff]
  exact nv_or_iff (raises.only x y) (fmt32.deliver_not_nv rm _)

theorem isSnan_quiet (v : FVal) : v.quiet.isSnan = false := by cases v <;> rfl

/-- R219: what the exact sum of a step does to an element, with the flags but for those of the products. -/
def afterSum (rm : Rnd) (old : Nat) (S : FVal × FlagSet) : Nat × FlagSet :=
  if S.1.isZero && !(fmt32.value old).isNan then (old, S.2)
  else ((fmt32.sum rm (fmt32.value old).quiet S.1).1, S.2 ||| (fmt32.sum rm (fmt32.value old).quiet S.1).2)

theorem stepElem_zero (rm : Rnd) (old : Nat) (a b : List FVal) : stepElem 0 rm old a b =
    ((afterSum rm old (stepSum (results FVal.mul a b))).1,
      allFlags (List.zipWith FVal.mul a b) ||| (afterSum rm old (stepSum (results FVal.mul a b))).2) := by
  have is : stepElem 0 rm old a b =
      if (stepSum (results FVal.mul a b)).1.isZero && !(fmt32.value old).quiet.isNan then
        (old, allFlags (List.zipWith FVal.mul a b) ||| (stepSum (results FVal.mul a b)).2)
      else ((fmt32.sum rm (fmt32.value old).quiet (stepSum (results FVal.mul a b)).1).1,
        allFlags (List.zipWith FVal.mul a b) ||| (stepSum (results FVal.mul a b)).2 |||
          (fmt32.sum rm (fmt32.value old).quiet (stepSum (results FVal.mul a b)).1).2) := rfl
  rw [is, isNan_quiet, afterSum]
  split
  · rfl
  · rw [BitVec.or_assoc]

/-- The four cases of the exact sum of a step. -/
theorem stepSum_cases (p : List FVal) :
    (∃ z ∈ p, z.isNan = true) ∧ stepSum p = (.nan false, 0) ∨
    (∀ z ∈ p, z.isNan = false) ∧ (.inf true ∈ p ∧ .inf false ∈ p) ∧ stepSum p = (.nan false, flagNv) ∨
    (∀ z ∈ p, z.isNan = false) ∧ (∃ n, .inf n ∈ p ∧ .inf (!n) ∉ p ∧ stepSum p = (.inf n, 0)) ∨
    (∀ z ∈ p, z.isNan = false) ∧ (∀ n, .inf n ∉ p) ∧ isFin (stepSum p).1 = true ∧ ratOf (stepSum p).1 = (p.map ratOf).sum ∧
      (stepSum p).2 = 0 := by
  by_cases nan : ∃ z ∈ p, z.isNan = true
  · exact .inl ⟨nan, stepSum_nan nan⟩
  have num : ∀ z ∈ p, z.isNan = false := fun z inside => Bool.eq_false_iff.mpr fun h => nan ⟨z, inside, h⟩
  obtain ⟨both, one, none_⟩ := totalOf_stepSum num
  by_cases neg : .inf true ∈ p <;> by_cases pos : .inf false ∈ p
  · exact .inr (.inl ⟨num, ⟨neg, pos⟩, both neg pos⟩)
  · exact .inr (.inr (.inl ⟨num, true, neg, pos, one true neg pos⟩))
  · exact .inr (.inr (.inl ⟨num, false, pos, neg, one false pos neg⟩))
  · have finite : ∀ n, .inf n ∉ p := by
      intro n
      cases n
      exacts [pos, neg]
    exact .inr (.inr (.inr ⟨num, finite, none_ finite⟩))

section AfterSum
variable (rm : Rnd) (old : Nat)

theorem afterSum_sum {S : FVal × FlagSet} (some_ : (S.1.isZero && !(fmt32.value old).isNan) = false) : afterSum rm old S =
    ((fmt32.sum rm (fmt32.value old).quiet S.1).1, S.2 ||| (fmt32.sum rm (fmt32.value old).quiet S.1).2) := by
  rw [afterSum, some_]
  rfl

theorem afterSum_lost {S : FVal × FlagSet} (quiet : S.1.isSnan = false) (nan : (fmt32.value old).isNan = true ∨ S.1.isNan = true) :
    afterSum rm old S = (0x7FC00000, S.2) := by
  have sum : fmt32.sum rm (fmt32.value old).quiet S.1 = (0x7FC00000, 0) :=
    sum_nan rm (by rwa [isNan_quiet]) (isSnan_quiet _) quiet
  rw [afterSum_sum rm old, sum]
  · exact Prod.ext rfl BitVec.or_zero
  · rcases nan with h | h
    · simp [h]
    · obtain ⟨b, is⟩ := exists_of_isNan h
      simp [is, FVal.isZero]

/-- R220: the flags of the exact sum tell whether infinities of both signs meet. -/
theorem afterSum_nv (p : List FVal) : (afterSum rm old (stepSum p)).2.getLsbD 0 = true ↔
    (∀ z ∈ p, z.isNan = false) ∧ (.inf true ∈ p ∧ .inf false ∈ p ∨ .inf true ∈ p ∧ fmt32.value old = .inf false ∨
      .inf false ∈ p ∧ fmt32.value old = .inf true) := by
  have sum {S : FVal} (quiet : S.isSnan = false) := sum_nv rm (isSnan_quiet (fmt32.value old)) quiet
  rcases stepSum_cases p with ⟨⟨z, inside, nan⟩, is⟩ | ⟨num, both, is⟩ | ⟨num, n, inside, other, is⟩ | ⟨num, finite, fin, -, flags⟩
  · rw [is, afterSum_lost rm old rfl (.inr rfl)]
    refine iff_of_false (by rw [zero_not_nv]; exact Bool.false_ne_true) fun h => ?_
    rw [h.1 z inside] at nan
    cases nan
  · rw [is, afterSum_lost rm old rfl (.inr rfl)]
    exact iff_of_true (by decide) ⟨num, .inl both⟩
  · have met : (.inf true ∈ p ∧ .inf false ∈ p ∨ .inf true ∈ p ∧ fmt32.value old = .inf false ∨
        .inf false ∈ p ∧ fmt32.value old = .inf true) ↔ fmt32.value old = .inf (!n) := by
      cases n <;> simp_all
    rw [is, afterSum_sum rm old rfl, show ((0 : FlagSet) ||| _) = _ from BitVec.zero_or, sum rfl, isNan_quiet, and_iff_right num, met]
    rcases fmt32.value old with b | b | ⟨k, m, e⟩
    · simp [FVal.isNan]
    · cases b <;> cases n <;> simp [FVal.quiet, FVal.add, FVal.isNan]
    · simp [FVal.quiet, FVal.add, FVal.isNan]
  · refine iff_of_false ?_ fun h => ?_
    · obtain ⟨k, m, e, number⟩ := exists_of_isFin fin
      by_cases zero : ((stepSum p).1.isZero && !(fmt32.value old).isNan) = true
      · rw [afterSum, if_pos zero, flags, zero_not_nv]
        exact Bool.false_ne_true
      · rw [afterSum_sum rm old (Bool.eq_false_iff.mpr zero), flags, show ((0 : FlagSet) ||| _) = _ from BitVec.zero_or,
          number, sum rfl, isNan_quiet]
        rcases fmt32.value old with b | b | ⟨k', m', e'⟩
        · simp [FVal.isNan]
        · simp [FVal.quiet, FVal.add, FVal.isNan]
        · rw [quiet_of_num rfl]
          obtain ⟨-, -, -, -, added⟩ := isSum_add rm (.fin k' m' e') (.fin k m e)
          obtain ⟨n', m'', e'', is⟩ := exists_of_isFin (added rfl rfl).1
          simp [is, FVal.isNan]
    · rcases h.2 with h | h | h
      exacts [finite true h.1, finite true h.1, finite false h.1]

end AfterSum

theorem combines_stepElem_zero (rm : Rnd) (old : Nat) {a b : List FVal} (same : a.length = b.length) :
    Combines 0 rm old a b (stepElem 0 rm old a b) := by
  have only := allFlags_only a b raisesNv_mul
  rw [stepElem_zero]
  refine ⟨results FVal.mul a b, length_results _ a b same, fun k x y z atA atB at_ => ⟨(x.mul y).2, ?_⟩, ?_⟩
  · rw [getElem?_results atA atB at_]
    exact isProduct_mul x y
  intro c whole lost raised arises
  have rest (g : FlagSet) : (allFlags (List.zipWith FVal.mul a b) ||| g) &&& ~~~flagNv = g &&& ~~~flagNv := by
    rw [rest_or, rest_of_or_eq only]
    exact BitVec.zero_or
  have none_ : (0 : FlagSet) &&& ~~~flagNv = 0 := rest_of_or_eq (.inl rfl)
  have nv (g : FlagSet) : (allFlags (List.zipWith FVal.mul a b) ||| g) &&& flagNv = flagNv ↔
      allFlags (List.zipWith FVal.mul a b) = flagNv ∨ g.getLsbD 0 = true := by
    rw [nv_iff, BitVec.getLsbD_or, Bool.or_eq_true, ← nv_iff (allFlags _)]
    refine or_congr_left ?_
    rcases only with h | h <;> rw [h] <;> decide
  refine ⟨fun quiet => ?_, fun gone => ?_, fun kept _ => ?_, fun _ other => absurd rfl other⟩
  · rw [nv, allFlags_zipWith_iff raisesNv_mul a b quiet, afterSum_nv]
    exact or_congr_right (and_iff_right rfl).symm
  · have after : afterSum rm old (stepSum (results FVal.mul a b)) = (0x7FC00000, (stepSum (results FVal.mul a b)).2) ∧
        (stepSum (results FVal.mul a b)).2 &&& ~~~flagNv = 0 := by
      rcases stepSum_cases (results FVal.mul a b) with ⟨-, is⟩ | ⟨-, -, is⟩ | ⟨num, n, inside, other, is⟩ | ⟨num, finite, fin, -, flags⟩
      · rw [is]
        exact ⟨afterSum_lost rm old rfl (.inr rfl), none_⟩
      · rw [is]
        exact ⟨afterSum_lost rm old rfl (.inr rfl), rest_of_or_eq (.inr rfl)⟩
      · have nan : c.isNan = true := by
          rcases gone with h | ⟨z, inside, h⟩ | ⟨-, neg, pos⟩
          · exact h
          · rw [num z inside] at h
            cases h
          · cases n
            exacts [absurd neg other, absurd pos other]
        rw [is]
        exact ⟨afterSum_lost rm old rfl (.inl nan), none_⟩
      · have nan : c.isNan = true := by
          rcases gone with h | ⟨z, inside, h⟩ | ⟨-, neg, pos⟩
          · exact h
          · rw [num z inside] at h
            cases h
          · exact absurd neg (finite true)
        obtain ⟨k, m, e, number⟩ := exists_of_isFin fin
        rw [flags]
        exact ⟨(afterSum_lost rm old (by rw [number]; rfl) (.inl nan)).trans (by rw [flags]), none_⟩
    refine ⟨congrArg Prod.fst after.1, (rest _).trans ?_⟩
    rw [after.1]
    exact after.2
  · have numC : c.isNan = false := Bool.eq_false_iff.mpr fun h => kept (.inl h)
    have some_ (S : FVal × FlagSet) (flags : S.2 = 0) (nonzero : S.1.isZero = false) :
        ∃ fl, Sums fmt32 rm c S.1 ((afterSum rm old S).1, fl) ∧ (afterSum rm old S).2 &&& ~~~flagNv = fl &&& ~~~flagNv := by
      have is := afterSum_sum rm old (S := S) (by rw [nonzero]; rfl)
      rw [quiet_of_num numC, flags, show ((0 : FlagSet) ||| _) = _ from BitVec.zero_or] at is
      rw [is]
      exact ⟨_, sums_sum fmt32 rm c S.1, rfl⟩
    rcases stepSum_cases (results FVal.mul a b) with ⟨nan, -⟩ | ⟨-, both, -⟩ | ⟨num, n, inside, other, is⟩ | ⟨num, finite, fin, sum, flags⟩
    · exact absurd (.inr (.inl nan)) kept
    · exact absurd (.inr (.inr ⟨rfl, both⟩)) kept
    · rw [is]
      refine ⟨.inf n, fun k h => ?_, fun all => ?_, fun zero => Bool.noConfusion zero, fun _ => ?_⟩
      · rcases Bool.eq_or_eq_not k n with rfl | rfl
        · rfl
        · exact absurd h other
      · exact Bool.noConfusion (all _ inside)
      · obtain ⟨fl, sums, same_⟩ := some_ (.inf n, 0) rfl rfl
        exact ⟨fl, sums, (rest _).trans (by rw [is]; exact same_)⟩
    · refine ⟨(stepSum (results FVal.mul a b)).1, fun k h => absurd h (finite k), fun _ => ⟨fin, sum⟩, fun zero => ?_, fun nonzero => ?_⟩
      · have is : afterSum rm old (stepSum (results FVal.mul a b)) = (old, 0) := by
          rw [afterSum, if_pos (by rw [zero, numC]; rfl), flags]
        exact ⟨congrArg Prod.fst is, (rest _).trans (by rw [is]; exact none_)⟩
      · obtain ⟨fl, sums, same_⟩ := some_ _ flags nonzero
        exact ⟨fl, sums, (rest _).trans same_⟩

/-! ## The semirings -/

/-- R219 to R221: the floating-point semirings but for the one of tests. -/
theorem combines_stepElem {sr : Nat} (kind : sr = 0 ∨ sr = 2 ∨ sr = 3 ∨ sr = 4) (rm : Rnd) (old : Nat) {a b : List FVal}
    (same : a.length = b.length) (some_ : a ≠ []) : Combines sr rm old a b (stepElem sr rm old a b) := by
  rcases kind with rfl | rfl | rfl | rfl
  · exact combines_stepElem_zero rm old same
  · exact combines_chooseElem (raisesNv_add rm) (sr := 2) (by decide) old same some_ (fun x y => isSum_add rm x y) picks_stepLeast
  · exact combines_chooseElem (raisesNv_add rm) (sr := 3) (by decide) old same some_ (fun x y => isSum_add rm x y) picks_stepGreatest
  · exact combines_chooseElem raisesNv_mul (sr := 4) (by decide) old same some_ (fun x y => isProduct_mul x y) picks_stepGreatest

theorem any_nonzero_iff (a b : List FVal) : (List.zipWith (fun x y => !FVal.isZero x && !FVal.isZero y) a b).any id = true ↔
    ∃ (k : Nat) (x y : FVal), a[k]? = some x ∧ b[k]? = some y ∧ x.isZero = false ∧ y.isZero = false := by
  rw [List.any_eq_true]
  constructor
  · rintro ⟨e, inside, is⟩
    obtain ⟨k, at_⟩ := List.getElem?_of_mem inside
    obtain ⟨x, y, atA, atB, rfl⟩ := List.getElem?_zipWith_eq_some.mp at_
    exact ⟨k, x, y, atA, atB, by simpa using is⟩
  · rintro ⟨k, x, y, atA, atB, nonzero⟩
    exact ⟨_, List.mem_of_getElem? (List.getElem?_zipWith_eq_some.mpr ⟨x, y, atA, atB, rfl⟩), by simpa using nonzero⟩

/-- R219: the semiring of tests. -/
theorem stepElem_five (rm : Rnd) (old : Nat) (a b : List FVal) :
    (stepElem 5 rm old a b).2 = 0 ∧
    let some_ : Prop := old % 2 ^ 31 ≠ 0 ∨ ∃ (k : Nat) (x y : FVal),
      a[k]? = some x ∧ b[k]? = some y ∧ x.isZero = false ∧ y.isZero = false
    (some_ → (stepElem 5 rm old a b).1 = 0x3F800000) ∧ (¬some_ → (stepElem 5 rm old a b).1 = 0) := by
  refine ⟨rfl, ?_⟩
  intro some_
  have test : (old % 2 ^ 31 != 0 || (List.zipWith (fun x y => !FVal.isZero x && !FVal.isZero y) a b).any id) = true ↔ some_ := by
    rw [Bool.or_eq_true, bne_iff_ne, any_nonzero_iff]
  exact ⟨fun h => if_pos (test.mpr h), fun h => if_neg (mt test.mp h)⟩

theorem ratOf_results {a b : List FVal} (finA : ∀ x ∈ a, isFin x = true) (finB : ∀ x ∈ b, isFin x = true) :
    (∀ z ∈ results FVal.mul a b, isFin z = true) ∧ ((results FVal.mul a b).map ratOf).sum = dotOf a b := by
  induction a generalizing b with
  | nil => exact ⟨fun z h => absurd h List.not_mem_nil, rfl⟩
  | cons x a ih =>
    cases b with
    | nil => exact ⟨fun z h => absurd h List.not_mem_nil, rfl⟩
    | cons y b =>
      obtain ⟨fin, sum⟩ := ih (b := b) (fun z h => finA z (List.mem_cons_of_mem x h)) (fun z h => finB z (List.mem_cons_of_mem y h))
      obtain ⟨-, -, -, product⟩ := isProduct_mul x y
      obtain ⟨fin', value, -⟩ := product (finA x (by simp)) (finB y (by simp))
      refine ⟨List.forall_mem_cons.mpr ⟨fin', fin⟩, ?_⟩
      exact (List.sum_cons ..).trans (congrArg₂ (· + ·) value sum)

/-- R219: an element keeps its pattern where the exact sum is 0. -/
theorem stepElem_of_dot_zero (rm : Rnd) (old : Nat) {a b : List FVal} (finA : ∀ x ∈ a, isFin x = true) (finB : ∀ x ∈ b, isFin x = true)
    (num : (fmt32.value old).isNan = false) (zero : dotOf a b = 0) : (stepElem 0 rm old a b).1 = old := by
  obtain ⟨fin, sum⟩ := ratOf_results finA finB
  have whole : ∀ z ∈ results FVal.mul a b, z.isNan = false := by
    intro z inside
    obtain ⟨n, m, e, rfl⟩ := exists_of_isFin (fin z inside)
    rfl
  obtain ⟨fin', sum', -⟩ := (totalOf_stepSum whole).none_ fun n inside => Bool.noConfusion (fin _ inside)
  rw [stepElem_zero, afterSum, if_pos]
  rw [isZero_of_ratOf fin' (sum'.trans (sum.trans zero)), num]
  rfl

end Sys2Proof.Machine
end

section
/-!
PROOF. The K-step of `mmac` (R213, R217 to R219, R223): the elements that the bytes of an operand hold, the words that a step reads
and what strikes them, and the new elements of the tile.
-/

namespace Sys2Proof.Machine
open Claims

/-! ## Numbers within bytes -/

theorem leNat_lt (l : List Byte) : leNat l < 256 ^ l.length := by
  induction l with
  | nil => exact Nat.one_pos
  | cons b l ih =>
    have byte := b.isLt
    rw [leNat, List.length_cons, pow_succ]
    omega

theorem leNat_drop (l : List Byte) (n : Nat) : leNat (l.drop n) = leNat l / 256 ^ n := by
  induction l generalizing n with
  | nil => simp [leNat]
  | cons b l ih =>
    cases n with
    | zero => simp
    | succ n =>
      have byte := b.isLt
      rw [List.drop_succ_cons, ih, leNat, pow_succ', ← Nat.div_div_eq_div_mul, show (b.toNat + 256 * leNat l) / 256 = leNat l by omega]

theorem leNat_take (l : List Byte) (n : Nat) : leNat (l.take n) = leNat l % 256 ^ n := by
  induction l generalizing n with
  | nil => simp [leNat]
  | cons b l ih =>
    cases n with
    | zero => simp [leNat, Nat.mod_one]
    | succ n =>
      have byte := b.isLt
      rw [List.take_succ_cons, leNat, leNat, ih, pow_succ', Nat.mod_mul, show (b.toNat + 256 * leNat l) / 256 = leNat l by omega,
        show (b.toNat + 256 * leNat l) % 256 = b.toNat by omega]

/-- A field of some of the bytes is a field of all. -/
theorem leNat_field (l : List Byte) (a : Nat) {n x w : Nat} (fits : x + w ≤ 8 * n) :
    leNat ((l.drop a).take n) / 2 ^ x % 2 ^ w = leNat l / 2 ^ (8 * a + x) % 2 ^ w := by
  have split : 256 ^ n = 2 ^ x * 2 ^ (8 * n - x) := by rw [← pow_add, Nat.add_sub_cancel' (by omega), pow_mul]; rfl
  rw [leNat_take, leNat_drop, split, Nat.mod_mul_right_div_self, Nat.mod_mod_of_dvd _ (Nat.pow_dvd_pow 2 (by omega)), Nat.div_div_eq_div_mul,
    pow_add, pow_mul]
  rfl

theorem dword_flatMap {f : Nat → List Byte} (size : ∀ x, (f x).length = 8) {l : List Nat} {k x : Nat} (at_ : l[k]? = some x) :
    ((l.flatMap f).drop (8 * k)).take 8 = f x := by
  induction l generalizing k with
  | nil => exact absurd at_ (by simp)
  | cons y l ih =>
    cases k with
    | zero =>
      obtain rfl : y = x := by simpa using at_
      rw [Nat.mul_zero, List.drop_zero, List.flatMap_cons, List.take_append_of_le_length (size y).ge, List.take_of_length_le (size y).le]
    | succ k =>
      rw [List.flatMap_cons, Nat.mul_succ, Nat.add_comm, ← List.drop_drop, List.drop_append_of_le_length (size y).ge,
        List.drop_of_length_le (size y).le, List.nil_append]
      exact ih (by simpa using at_)

/-! ## The elements of an operand -/

/-- Element e of row r of an operand of w-bit elements, in the operand's bytes. -/
def field (l : List Byte) (w r e : Nat) : Nat := leNat l / 2 ^ (w * (32 * r + e)) % 2 ^ w

/-- The 32 rows of 32 elements that f gives. -/
def grid {α : Type} (f : Nat → Nat → α) : List (List α) := (List.range 32).map fun r => (List.range 32).map (f r)

theorem cut_eq_grid (l : List Byte) (w : Nat) :
    ((List.range 32).map fun r => elements w 32 ((l.drop (4 * w * r)).take (4 * w))) = grid (field l w) := by
  refine List.map_congr_left fun r _ => List.map_congr_left fun e inside => ?_
  have fits := Nat.mul_le_mul_left w (Nat.succ_le_of_lt (List.mem_range.mp inside))
  rw [leNat_field l _ (by rw [Nat.mul_succ] at fits; omega), field]
  congr 3
  ring

theorem getElem?_grid {α : Type} (f : Nat → Nat → α) {r : Nat} (inside : r < 32) : (grid f)[r]? = some ((List.range 32).map (f r)) := by
  simp [grid, inside]

theorem columns_grid (f : Nat → Nat → Nat) : columns (grid f) = grid fun j k => f k j := by
  refine List.map_congr_left fun j inside => ?_
  rw [grid, List.map_map]
  refine List.map_congr_left fun k _ => ?_
  simp [List.mem_range.mp inside]

theorem fmtCode_eq (r : W64) : fmtCode r = r.toNat % 16 := bitsAt_low r 3

theorem matWidth_cases (f : Nat) : matWidth f = 8 ∨ matWidth f = 16 ∨ matWidth f = 32 := by
  unfold matWidth
  split <;> simp

theorem padsOf_eq (c : MatCmd) : padsOf c = c.pairs := by
  rw [padsOf, MatCmd.pairs, fmtCode_eq, fmtCode_eq]

theorem padOpen_iff (s : State) (core ten : Nat) :
    ownerOk ten (smGet 0 s.sowner (clusterY core * 32 + clusterX core)) = true ↔ padOpen s core ten := by
  simp [ownerOk, padOpen, clusterX, clusterY]

/-! ## Words in scratchpad -/

section
variable (s : State) (core ten : Nat)

/-- R218, R223: a dword at x of the scratchpad cannot be read, by the trap t. -/
def PadFault (x : Nat) (t : Trap) : Prop :=
  t.tval = BitVec.ofNat 64 (0x2000800000000000 + x) ∧
    (t.cause = 6 ∧ ¬padOpen s core ten ∨ t.cause = 9 ∧ padOpen s core ten ∧ s.isBad (paSpad (caX core / 4) (caY core / 4) x) = true)

theorem ownSpad_eq (x : Nat) : ownSpad x = BitVec.ofNat 64 (0x2000800000000000 + x) := (BitVec.ofNat_add _ _).symm

theorem spadDwords_cases (l : List Nat) :
    s.spadDwords core ten l = .ok (l.flatMap fun x => s.readBytes (paSpad (caX core / 4) (caY core / 4) x) 8) ∨
      ∃ t, s.spadDwords core ten l = .error t ∧ ∃ x ∈ l, PadFault s core ten x t := by
  induction l with
  | nil => exact .inl rfl
  | cons x l ih =>
    have owner := padOpen_iff s core ten
    have bad (opens : padOpen s core ten) (h : s.isBad (paSpad (caX core / 4) (caY core / 4) x) = true) :
        s.spadDwords core ten (x :: l) = .error ⟨0x09, ownSpad x⟩ := by
      rw [State.spadDwords, owner.mpr opens, if_neg (by decide)]
      exact if_pos h
    have next (opens : padOpen s core ten) (h : ¬s.isBad (paSpad (caX core / 4) (caY core / 4) x) = true) :
        s.spadDwords core ten (x :: l) =
          (s.spadDwords core ten l).map (s.readBytes (paSpad (caX core / 4) (caY core / 4) x) 8 ++ ·) := by
      rw [State.spadDwords, owner.mpr opens, if_neg (by decide)]
      refine (if_neg h).trans ?_
      cases s.spadDwords core ten l <;> rfl
    by_cases opens : padOpen s core ten
    · by_cases h : s.isBad (paSpad (caX core / 4) (caY core / 4) x) = true
      · exact .inr ⟨_, bad opens h, x, List.mem_cons_self, ownSpad_eq x, .inr ⟨rfl, opens, h⟩⟩
      · rcases ih with is | ⟨t, is, y, inside, fault⟩
        · exact .inl (by rw [next opens h, is]; rfl)
        · exact .inr ⟨t, by rw [next opens h, is]; rfl, y, List.mem_cons_of_mem x inside, fault⟩
    · refine .inr ⟨⟨0x06, ownSpad x⟩, ?_, x, List.mem_cons_self, ownSpad_eq x, .inl ⟨rfl, opens⟩⟩
      rw [State.spadDwords, Bool.eq_false_iff.mpr (mt owner.mp opens)]
      rfl

/-! ## Operands and scales -/

/-- R218: the scratchpad offset of dword q of row i of a pair of w-bit elements in step n. -/
def MatPair.place (p : MatPair) (w n i q : Nat) : Nat :=
  p.base + n * p.tpitch + i * p.rpitch + 8 * ((q + i * p.rot) % (w / 2))

theorem rowOffsets_eq (p : MatPair) {w : Nat} (some_ : 0 < w / 2) (n : Nat) :
    ((List.range 32).flatMap fun r => p.rowOffsets w n r) =
      (List.range (w / 2 * 32)).map fun k => p.place w n (k / (w / 2)) (k % (w / 2)) :=
  flatMap_rows (p.place w n) some_ 32

theorem operand_pad (p : MatPair) {w : Nat} (width : w = 8 ∨ w = 16 ∨ w = 32) (n : Nat) :
    Operand s core none p w n (field (((List.range 32).flatMap fun r => p.rowOffsets w n r).flatMap fun x =>
      s.readBytes (paSpad (caX core / 4) (caY core / 4) x) 8) w) := by
  intro r e row column
  have some_ : 0 < w / 2 := by omega
  have inside : e / (64 / w) < w / 2 := by rcases width with rfl | rfl | rfl <;> omega
  have bit : w * (32 * r + e) = 8 * (8 * (w / 2 * r + e / (64 / w))) + w * e % 64 := by rcases width with rfl | rfl | rfl <;> omega
  have fits : w * e % 64 + w ≤ 8 * 8 := by rcases width with rfl | rfl | rfl <;> omega
  have at_ : ((List.range 32).flatMap fun r => p.rowOffsets w n r)[w / 2 * r + e / (64 / w)]? = some (p.place w n r (e / (64 / w))) := by
    have := Nat.mul_le_mul_left (w / 2) (Nat.succ_le_of_lt row)
    rw [rowOffsets_eq p some_, List.getElem?_map, List.getElem?_range (by rw [Nat.mul_succ] at this; omega), Option.map_some,
      Nat.mul_add_div some_, Nat.div_eq_of_lt inside, Nat.add_zero, Nat.mul_add_mod, Nat.mod_eq_of_lt inside]
  show leNat _ / 2 ^ (w * (32 * r + e)) % 2 ^ w = _
  rw [bit, ← leNat_field _ _ fits, dword_flatMap (fun x => length_readBytes s _ 8) at_, MatPair.place,
    show w / 2 = 4 * w / 8 by omega]
  rfl

/-- R217, R218: an operand is read, or a dword of it cannot be. -/
theorem blockOf_cases (reg : Option (List Byte)) (p : MatPair) {w : Nat} (width : w = 8 ∨ w = 16 ∨ w = 32) (n : Nat) :
    (∃ A, s.blockOf core ten reg p w n = .ok (grid A) ∧ Operand s core reg p w n A ∧ ∀ r e, A r e < 2 ^ w) ∨
      ∃ t, s.blockOf core ten reg p w n = .error t ∧ reg = none ∧
        ∃ i q, i < 32 ∧ q < w / 2 ∧ PadFault s core ten (p.place w n i q) t := by
  have small (l : List Byte) (r e : Nat) : field l w r e < 2 ^ w := Nat.mod_lt _ (Nat.two_pow_pos w)
  cases reg with
  | some l => exact .inl ⟨field l w, congrArg Except.ok (cut_eq_grid l w), fun _ _ _ _ => rfl, small l⟩
  | none =>
    rw [State.blockOf]
    dsimp only
    rcases spadDwords_cases s core ten ((List.range 32).flatMap fun r => p.rowOffsets w n r) with is | ⟨t, is, x, inside, fault⟩
    · rw [is]
      exact .inl ⟨_, congrArg Except.ok (cut_eq_grid _ w), operand_pad s core p width n, small _⟩
    · have some_ : 0 < w / 2 := by omega
      rw [rowOffsets_eq p some_] at inside
      obtain ⟨k, small, rfl⟩ := List.mem_map.mp inside
      have row := Nat.div_lt_of_lt_mul (List.mem_range.mp small)
      rw [is]
      exact .inr ⟨t, rfl, rfl, k / (w / 2), k % (w / 2), row, Nat.mod_lt _ some_, fault⟩

theorem firstBad_eq_none_iff (pa : Nat) {n : Nat} (some_ : 0 < n) : s.firstBad pa n = none ↔ ∀ j, j < n → s.isBad (pa + j) = false := by
  have inWord (a b : Nat) (same : wordOf a = wordOf b) : s.isBad a = s.isBad b := congrArg (smGet false s.bad) same
  simp only [State.firstBad, Option.map_eq_none_iff, List.find?_eq_none, List.mem_range, Bool.not_eq_true, wordOf] at *
  constructor
  · intro h j inside
    rw [← h ((pa % 8 + j) / 8) (by omega)]
    exact inWord _ _ (by omega)
  · intro h k inside
    rw [← h (8 * k - pa % 8) (by omega)]
    exact inWord _ _ (by omega)

theorem getElem?_readBytes (a : Nat) {n i : Nat} (inside : i < n) : (s.readBytes a n)[i]? = some (s.readByte (a + i)) := by
  induction n generalizing a i with
  | zero => omega
  | succ n ih =>
    cases i with
    | zero => rfl
    | succ i => exact (ih (a + 1) (by omega)).trans (by rw [Nat.add_assoc, Nat.add_comm 1])

/-- R213: the scales of a step are read, or they cannot be. -/
theorem scalesOf_cases (f a : W64) (n : Nat) :
    (∃ o, s.scalesOf core ten f a n = .ok o ∧ Scales s core ten f a n fun i => o.map fun l => (l[i]?).getD 0) ∨
      ∃ t, s.scalesOf core ten f a n = .error t ∧ f.getLsbD 6 = true ∧
        (s.localAt core ten (a + BitVec.ofNat 64 (32 * n)) 32 = .error t ∨ t.cause = 9 ∧
          ∃ pa j, s.localAt core ten (a + BitVec.ofNat 64 (32 * n)) 32 = .ok pa ∧ j < 32 ∧ s.isBad (pa + j) = true) := by
  unfold State.scalesOf Scales fmtScaled bitAt
  cases f.getLsbD 6 with
  | false => exact .inl ⟨none, rfl, fun _ => rfl⟩
  | true =>
    dsimp only [w64]
    cases placed : s.localAt core ten (a + BitVec.ofNat 64 (32 * n)) 32 with
    | error t => exact .inr ⟨t, rfl, rfl, .inl rfl⟩
    | ok pa =>
      dsimp only [State.badWord]
      cases first : s.firstBad pa 32 with
      | none =>
        refine .inl ⟨_, rfl, pa, rfl, fun i inside => ?_⟩
        rw [Option.map_some, List.getElem?_map, getElem?_readBytes s pa inside]
        rfl
      | some k =>
        obtain ⟨j, inside, bad⟩ : ∃ j, j < 32 ∧ s.isBad (pa + j) = true := by
          by_contra none_
          have : s.firstBad pa 32 = none := (firstBad_eq_none_iff s pa (by decide : 0 < 32)).mpr fun j inside =>
            Bool.eq_false_iff.mpr fun bad => none_ ⟨j, inside, bad⟩
          exact absurd (first.symm.trans this) (by simp)
        exact .inr ⟨_, rfl, rfl, .inr ⟨rfl, pa, j, rfl, inside, bad⟩⟩

/-! ## What strikes a step -/

/-- R223: t strikes step n of c at a word of an operand or of a scale vector. -/
def Strikes (c : MatCmd) (n : Nat) (t : Trap) : Prop :=
  (∃ e ∈ padsOf c, ∃ i q, i < 32 ∧ q < e.2 / 2 ∧ PadFault s core ten (e.1.place e.2 n i q) t) ∨
    ∃ v ∈ scalesIn c, s.localAt core ten (v + BitVec.ofNat 64 (32 * n)) 32 = .error t ∨
      t.cause = 9 ∧ ∃ pa j, s.localAt core ten (v + BitVec.ofNat 64 (32 * n)) 32 = .ok pa ∧ j < 32 ∧ s.isBad (pa + j) = true

/-- R217, R218, R213: what step n of c reads: the elements of A and B, and the scales of both. -/
structure StepReads (c : MatCmd) (n : Nat) (A B : Nat → Nat → Nat) (oa ob : Option (List Nat)) : Prop where
  blockA : s.blockOf core ten c.ra (pairOf c.a0 c.a1) (matWidth (fmtCode c.regs.fmta)) n = .ok (grid A)
  blockB : s.blockOf core ten c.rb (pairOf c.b0 c.b1) (matWidth (fmtCode c.regs.fmtb)) n = .ok (grid B)
  operandA : Operand s core c.ra (pairOf c.a0 c.a1) (matWidth (fmtCode c.regs.fmta)) n A
  operandB : Operand s core c.rb (pairOf c.b0 c.b1) (matWidth (fmtCode c.regs.fmtb)) n B
  smallA : ∀ r e, A r e < 2 ^ matWidth (fmtCode c.regs.fmta)
  smallB : ∀ r e, B r e < 2 ^ matWidth (fmtCode c.regs.fmtb)
  readA : s.scalesOf core ten c.regs.fmta c.regs.scla n = .ok oa
  readB : s.scalesOf core ten c.regs.fmtb c.regs.sclb n = .ok ob
  scalesA : Scales s core ten c.regs.fmta c.regs.scla n fun i => oa.map fun l => (l[i]?).getD 0
  scalesB : Scales s core ten c.regs.fmtb c.regs.sclb n fun i => ob.map fun l => (l[i]?).getD 0

/-- A step reads its operands and its scales, or is struck. -/
theorem stepReads_or_strikes (c : MatCmd) (n : Nat) (old : List Nat) :
    (∃ A B oa ob, StepReads s core ten c n A B oa ob) ∨ ∃ t, s.kstep core ten c n old = .error t ∧ Strikes s core ten c n t := by
  unfold State.kstep
  dsimp only
  rcases blockOf_cases s core ten c.ra (pairOf c.a0 c.a1) (matWidth_cases (fmtCode c.regs.fmta)) n with
    ⟨A, a, opA, smallA⟩ | ⟨t, a, none_, fault⟩
  rcases blockOf_cases s core ten c.rb (pairOf c.b0 c.b1) (matWidth_cases (fmtCode c.regs.fmtb)) n with
    ⟨B, b, opB, smallB⟩ | ⟨t, b, none_, fault⟩
  rcases scalesOf_cases s core ten c.regs.fmta c.regs.scla n with ⟨oa, sa, scA⟩ | ⟨t, sa, scaled_, fault⟩
  rcases scalesOf_cases s core ten c.regs.fmtb c.regs.sclb n with ⟨ob, sb, scB⟩ | ⟨t, sb, scaled_, fault⟩
  · exact .inl ⟨A, B, oa, ob, a, b, opA, opB, smallA, smallB, sa, sb, scA, scB⟩
  · exact .inr ⟨t, by rw [a, b, sa, sb], .inr ⟨c.regs.sclb, by simp [scalesIn, scaled_], fault⟩⟩
  · exact .inr ⟨t, by rw [a, b, sa], .inr ⟨c.regs.scla, by simp [scalesIn, scaled_], fault⟩⟩
  · exact .inr ⟨t, by rw [a, b], .inl ⟨(pairOf c.b0 c.b1, matWidth (fmtCode c.regs.fmtb)),
      by simp [padsOf_eq, MatCmd.pairs, none_], fault⟩⟩
  · exact .inr ⟨t, by rw [a], .inl ⟨(pairOf c.a0 c.a1, matWidth (fmtCode c.regs.fmta)),
      by simp [padsOf_eq, MatCmd.pairs, none_], fault⟩⟩

variable {s core ten}

theorem StepReads.exists_ok {c : MatCmd} {n : Nat} {A B : Nat → Nat → Nat} {oa ob : Option (List Nat)}
    (reads : StepReads s core ten c n A B oa ob) (old : List Nat) : ∃ r, s.kstep core ten c n old = .ok r := by
  unfold State.kstep
  dsimp only
  rw [reads.blockA, reads.blockB, reads.readA, reads.readB]
  dsimp only
  split
  · exact ⟨_, rfl⟩
  · exact ⟨_, rfl⟩

/-- Every row of A with every column of B, beside the old elements of the tile. -/
theorem combine_rows {α β γ : Type} (a : Nat → α) (b : Nat → β) (g : Nat → α → β → γ) {old : List Nat} (size : old.length = 1024) :
    ((((List.range 32).map a).flatMap fun x => ((List.range 32).map b).map fun y => (x, y)).zip old).map (fun e => g e.2 e.1.1 e.1.2) =
      (List.range 1024).map fun e => g ((old[e]?).getD 0) (a (e / 32)) (b (e % 32)) := by
  have elements : old = (List.range 1024).map fun e => (old[e]?).getD 0 := by
    refine List.ext_getElem (by simp [size]) fun e inside _ => ?_
    simp [inside]
  have pairs : (((List.range 32).map a).flatMap fun x => ((List.range 32).map b).map fun y => (x, y)) =
      (List.range 1024).map fun e => (a (e / 32), b (e % 32)) := by
    simp only [List.flatMap_map, List.map_map]
    exact flatMap_rows (fun i j => (a i, b j)) (by decide) 32
  rw [pairs]
  conv_lhs => rw [elements]
  rw [List.zip_map', List.map_map]
  rfl

theorem map_grid {α β : Type} (f : Nat → Nat → α) (g : α → β) :
    ((grid f).map fun l => l.map g) = (List.range 32).map fun i => (List.range 32).map fun k => g (f i k) := by
  simp [grid, Function.comp_def]

/-- R219, R129: the value of element x of row or column i of an operand, with its scale. -/
def elemOf (f : W64) (finite : Bool) (T : DecTab) (o : Option (List Nat)) (i x : Nat) : FVal :=
  match o with
  | some l => scaled ((l[i]?).getD 0) (matVal (fmtCode f) finite T x)
  | none => matVal (fmtCode f) finite T x

section
variable {c : MatCmd} {n : Nat} {A B : Nat → Nat → Nat} {oa ob : Option (List Nat)} (reads : StepReads s core ten c n A B oa ob)
  {old : List Nat} (size : old.length = 1024)
include reads size

/-- R219: the new elements of the integer semiring. -/
theorem StepReads.kstep_int (int : c.sr = 1) :
    s.kstep core ten c n old = .ok ((List.range 1024).map fun e => stepInt ((old[e]?).getD 0)
      ((List.range 32).map fun k => matInt (fmtCode c.regs.fmta) (A (e / 32) k))
      ((List.range 32).map fun k => matInt (fmtCode c.regs.fmtb) (B k (e % 32))), 0) := by
  unfold State.kstep
  dsimp only
  rw [reads.blockA, reads.blockB, reads.readA, reads.readB]
  dsimp only
  rw [if_pos int, columns_grid, map_grid, map_grid, combine_rows _ _ stepInt size]

/-- R219: the new elements of the floating-point semirings. -/
theorem StepReads.kstep_float (float : c.sr ≠ 1) :
    let fin := c.regs.nanrd.getLsbD 0
    let l := (List.range 1024).map fun e => stepElem c.sr (rndOf c.regs.rmode) ((old[e]?).getD 0)
      ((List.range 32).map fun k => elemOf c.regs.fmta fin c.regs.ta oa (e / 32) (A (e / 32) k))
      ((List.range 32).map fun k => elemOf c.regs.fmtb fin c.regs.tb ob (e % 32) (B k (e % 32)))
    s.kstep core ten c n old = .ok (l.map Prod.fst, orFlags l) := by
  intro fin l
  have rows (f : W64) (T : DecTab) (o : Option (List Nat)) (X : Nat → Nat → Nat) :
      ((List.range 32).map fun j => (((grid X)[j]?).getD []).map fun x => elemOf f fin T o j x) =
        (List.range 32).map fun j => (List.range 32).map fun k => elemOf f fin T o j (X j k) := by
    refine List.map_congr_left fun j inside => ?_
    rw [getElem?_grid X (List.mem_range.mp inside), Option.getD_some, List.map_map]
    rfl
  unfold State.kstep
  dsimp only
  rw [reads.blockA, reads.blockB, reads.readA, reads.readB]
  dsimp only
  rw [if_neg float, columns_grid]
  exact congrArg (fun l : List (Nat × FlagSet) => Except.ok (l.map Prod.fst, orFlags l))
    ((congrArg₂ (fun va vb : List (List FVal) => ((va.flatMap fun x => vb.map fun y => (x, y)).zip old).map fun e =>
      stepElem c.sr (rndOf c.regs.rmode) e.2 e.1.1 e.1.2) (rows _ _ oa A) (rows _ _ ob fun j k => B k j)).trans
      (combine_rows _ _ (stepElem c.sr (rndOf c.regs.rmode)) size))

end

/-! ## The claims about a step -/

theorem scaledBy_scaled (e : Nat) (v : FVal) : ScaledBy e v (scaled e v) := by
  unfold ScaledBy scaled
  by_cases none_ : e = 255
  · rw [if_pos none_, if_pos none_]
    rfl
  · rw [if_neg none_, if_neg none_]
    cases v with
    | nan x => rfl
    | inf x => rfl
    | fin neg m x =>
      refine ⟨rfl, ?_, rfl⟩
      rw [ratOf, ratOf, add_sub_assoc, zpow_add₀ two_ne_zero, mul_assoc _ ((2 : ℚ) ^ x)]

theorem matVal_eq (f : W64) (finite : Bool) (T : DecTab) (x : Nat) : matVal (fmtCode f) finite T x = operandValue (f.toNat % 16) finite T x := by
  rw [fmtCode_eq]
  rfl

theorem elementOf_elemOf (f : W64) (finite : Bool) (T : DecTab) (o : Option (List Nat)) (i x : Nat) :
    ElementOf f finite T (o.map fun l => (l[i]?).getD 0) x (elemOf f finite T o i x) := by
  unfold elemOf
  cases o with
  | none => exact matVal_eq f finite T x
  | some l => exact matVal_eq f finite T x ▸ scaledBy_scaled _ _

theorem matInt_eq {f : W64} {x : Nat} (small : x < 2 ^ matWidth (fmtCode f)) :
    matInt (fmtCode f) x = if f.toNat % 16 = 4 then (BitVec.ofNat 8 x).toInt else x := by
  rw [fmtCode_eq] at *
  by_cases signed_ : f.toNat % 16 = 4
  · have small : x < 2 ^ 8 := by
      rw [signed_] at small
      exact small
    rw [matInt, if_pos signed_, if_pos signed_, signedOf_eq_signedLane (by decide) small, signedLane]
  · rw [matInt, if_neg signed_, if_neg signed_]

theorem eq_of_getElem?_row {α : Type} {g : Nat → α} {k : Nat} {x : α} (at_ : ((List.range 32).map g)[k]? = some x) : x = g k := by
  obtain ⟨inside, rfl⟩ := List.getElem?_eq_some_iff.mp at_
  simp

/-- Element j of row i of a tile's elements. -/
theorem getElem?_tile {α : Type} (f : Nat → Nat → Nat → α) {i j : Nat} (row : i < 32) (column : j < 32) :
    ((List.range 1024).map fun e => f e (e / 32) (e % 32))[32 * i + j]? = some (f (32 * i + j) i j) := by
  rw [List.getElem?_map, List.getElem?_range (by omega), Option.map_some, show (32 * i + j) / 32 = i by omega,
    show (32 * i + j) % 32 = j by omega]

/-- R223: what strikes a step. -/
theorem stepFault_kstep (c : MatCmd) (n : Nat) (old : List Nat) : StepFault s core ten c n (s.kstep core ten c n old) := by
  unfold StepFault
  intro reads bad at_
  have struck : ∀ t, s.kstep core ten c n old = .error t → Strikes s core ten c n t := by
    intro t is
    rcases stepReads_or_strikes s core ten c n old with ⟨A, B, oa, ob, whole⟩ | ⟨u, isU, strikes⟩
    · obtain ⟨r, ok⟩ := whole.exists_ok old
      cases is.symm.trans ok
    · cases is.symm.trans isU
      exact strikes
  constructor
  · intro t is
    rcases struck t is with ⟨e, inside, i, q, row, column, tval, cause⟩ | scale
    · exact .inl ⟨e.1.place e.2 n i q, ⟨e, inside, i, q, row, column, rfl⟩, tval, cause⟩
    · exact .inr scale
  · intro opens good scales
    cases is : s.kstep core ten c n old with
    | ok r => exact ⟨r, rfl⟩
    | error t =>
      exfalso
      rcases struck t is with ⟨e, inside, i, q, row, column, -, ⟨-, shut⟩ | ⟨-, -, isBad⟩⟩ | ⟨v, inside, fails⟩
      · rcases opens with none_ | opens
        · exact absurd inside (by simp [none_])
        · exact shut opens
      · exact good _ ⟨e, inside, i, q, row, column, rfl⟩ isBad
      · obtain ⟨pa, placed, whole⟩ := scales v inside
        rcases fails with fails | ⟨-, pa', j, placed', small, isBad⟩
        · cases placed.symm.trans fails
        · cases placed.symm.trans placed'
          exact Bool.false_ne_true ((whole j small).symm.trans isBad)

section
variable {c : MatCmd} {n : Nat} {A B : Nat → Nat → Nat} {oa ob : Option (List Nat)} (reads : StepReads s core ten c n A B oa ob)
  {old : List Nat} (size : old.length = 1024) {l : List Nat} {fl : FlagSet} (is : s.kstep core ten c n old = .ok (l, fl))
include reads size is

/-- R219: a step of the integer semiring. -/
theorem StepReads.int_step (int : c.sr = 1) :
    let z (f : W64) (x : Nat) : Int := if f.toNat % 16 = 4 then (BitVec.ofNat 8 x).toInt else x
    l.length = 1024 ∧ fl = 0 ∧ ∀ i j, i < 32 → j < 32 → l[32 * i + j]? = some (stepInt ((old[32 * i + j]?).getD 0)
      ((List.range 32).map fun k => z c.regs.fmta (A i k)) ((List.range 32).map fun k => z c.regs.fmtb (B k j))) := by
  intro z
  obtain ⟨list, flags⟩ := Prod.mk.inj (Except.ok.inj (is.symm.trans (reads.kstep_int size int)))
  rw [list, flags]
  refine ⟨by simp, rfl, fun i j row column => ?_⟩
  rw [getElem?_tile (fun e i j => stepInt ((old[e]?).getD 0) ((List.range 32).map fun k => matInt (fmtCode c.regs.fmta) (A i k))
    ((List.range 32).map fun k => matInt (fmtCode c.regs.fmtb) (B k j))) row column]
  simp only [matInt_eq (reads.smallA _ _), matInt_eq (reads.smallB _ _), z]

/-- R219 to R221: a step of the floating-point semirings. -/
theorem StepReads.float_step (float : c.sr ≠ 1) :
    let fin := c.regs.nanrd.getLsbD 0
    let a (i : Nat) : List FVal := (List.range 32).map fun k => elemOf c.regs.fmta fin c.regs.ta oa i (A i k)
    let b (j : Nat) : List FVal := (List.range 32).map fun k => elemOf c.regs.fmtb fin c.regs.tb ob j (B k j)
    let elem (i j : Nat) : Nat × FlagSet := stepElem c.sr (rndOf c.regs.rmode) ((old[32 * i + j]?).getD 0) (a i) (b j)
    l.length = 1024 ∧ (∀ q, fl.getLsbD q = true ↔ ∃ i j, i < 32 ∧ j < 32 ∧ (elem i j).2.getLsbD q = true) ∧
      ∀ i j, i < 32 → j < 32 → l[32 * i + j]? = some (elem i j).1 := by
  intro fin a b elem
  obtain ⟨list, flags⟩ := Prod.mk.inj (Except.ok.inj (is.symm.trans (reads.kstep_float size float)))
  rw [list, flags]
  refine ⟨by simp, fun q => (flagsOf_orFlags 1024 _ q).trans ⟨?_, ?_⟩, fun i j row column => ?_⟩
  · rintro ⟨e, inside, raised⟩
    refine ⟨e / 32, e % 32, by omega, by omega, ?_⟩
    rw [show elem (e / 32) (e % 32) = _ by simp only [elem, Nat.div_add_mod]; rfl]
    exact raised
  · rintro ⟨i, j, row, column, raised⟩
    refine ⟨32 * i + j, by omega, ?_⟩
    rw [show (32 * i + j) / 32 = i by omega, show (32 * i + j) % 32 = j by omega]
    exact raised
  · rw [List.getElem?_map, getElem?_tile (fun e i j => stepElem c.sr (rndOf c.regs.rmode) ((old[e]?).getD 0) (a i) (b j)) row column]
    rfl

theorem StepReads.length : l.length = 1024 := by
  by_cases int : c.sr = 1
  · exact (reads.int_step size is int).1
  · exact (reads.float_step size is int).1

end

end

/-- R218: the fields of a pair. -/
theorem pairOf_fields (p0 p1 : W64) :
    let p := pairOf p0 p1
    p.base = p0.toNat % 2 ^ 21 ∧ p.rot = p0.toNat / 2 ^ 21 % 8 ∧ p.rpitch = p0.toNat / 2 ^ 32 % 2 ^ 20 ∧
    p.tpitch = p1.toNat % 2 ^ 21 ∧ (p.bad = false ↔ p0 &&& 0xFFF00000FF000000#64 = 0 ∧ p1.toNat < 2 ^ 21) := by
  have high : bitsAt p1 63 21 = 0 ↔ p1.toNat < 2 ^ 21 := by
    have := p1.isLt
    rw [bitsAt]
    omega
  refine ⟨bitsAt_low p0 20, rfl, rfl, bitsAt_low p1 20, ?_⟩
  simp [pairOf, high]

end Sys2Proof.Machine
end

section
/-!
PROOF. The checks of `mmac` at issue (R208, R217 to R219, R223), in their order, and the command that it gives to its unit.
-/

namespace Sys2Proof.Machine
open Claims

/-! ## The first of several checks -/

theorem firstOf_append (l m : List (Option Trap)) : firstOf (l ++ m) = (firstOf l).or (firstOf m) := List.findSome?_append

theorem firstOf_eq_none_iff {l : List (Option Trap)} : firstOf l = none ↔ ∀ o ∈ l, o = none := List.findSome?_eq_none_iff

theorem mem_of_firstOf {l : List (Option Trap)} {t : Trap} (is : firstOf l = some t) : some t ∈ l := by
  obtain ⟨o, inside, rfl⟩ := List.exists_of_findSome?_eq_some is
  exact inside

theorem firstOf_map_none {α : Type} {f : α → Option Trap} {l : List α} (passes : ∀ p ∈ l, f p = none) : firstOf (l.map f) = none :=
  firstOf_eq_none_iff.mpr fun o inside => by
    obtain ⟨p, mem, rfl⟩ := List.mem_map.mp inside
    exact passes p mem

/-- The first that fails gives the trap. -/
theorem firstOf_map_at {α : Type} {f : α → Option Trap} {l : List α} {j : Nat} {p : α} {t : Trap} (at_ : l[j]? = some p)
    (fails : f p = some t) (before : ∀ k q, k < j → l[k]? = some q → f q = none) : firstOf (l.map f) = some t := by
  obtain ⟨inside, rfl⟩ := List.getElem?_eq_some_iff.mp at_
  have early : firstOf ((l.take j).map f) = none := firstOf_map_none fun q mem => by
    obtain ⟨k, small, rfl⟩ := List.getElem_of_mem mem
    rw [List.length_take] at small
    exact before k _ (by omega) (by rw [List.getElem_take, List.getElem?_eq_getElem (by omega)])
  rw [← List.take_append_drop j l, List.map_append, firstOf_append, early, Option.none_or, List.drop_eq_getElem_cons inside, List.map_cons]
  simp [firstOf, fails]

/-- Where every check that fails gives the same trap, the first one does. -/
theorem firstOf_of_unique {l : List (Option Trap)} {t : Trap} (fails : some t ∈ l) (unique : ∀ u, some u ∈ l → u = t) : firstOf l = some t := by
  cases is : firstOf l with
  | none => exact absurd (firstOf_eq_none_iff.mp is _ fails) (by simp)
  | some u => rw [unique u (mem_of_firstOf is)]

/-- R213, R223: the address of a scale vector, or the trap of its first step out of place. -/
theorem scaleTrap_cases (s : State) (core ten : Nat) (v : W64) (n : Nat) :
    let r := s.scaleTrap core ten v n
    let form : Prop := v.toNat / 2 ^ 60 = 0 ∨ v.toNat / 2 ^ 60 = 2 ∧ v.getLsbD 47 = true
    let at_ (j : Nat) := s.localAt core ten (v + BitVec.ofNat 64 (32 * j)) 32
    (¬form → r = some ⟨0x04, v⟩) ∧ (form → (∀ j, j < n → (at_ j).toOption.isSome = true) → r = none) ∧
      ∀ j t, form → j < n → at_ j = .error t → (∀ k, k < j → (at_ k).toOption.isSome = true) → r = some ⟨t.cause, v⟩ := by
  intro r form at_
  have formed : scaleForm v = true ↔ form := by
    simp only [scaleForm, bitsAt_space, bitAt, Bool.or_eq_true, Bool.and_eq_true, beq_iff_eq, form]
  have passes {j : Nat} (ok : (at_ j).toOption.isSome = true) : trapOf (at_ j) = none := by
    cases is : at_ j with
    | ok pa => rfl
    | error t =>
      rw [is] at ok
      exact absurd ok Bool.false_ne_true
  have steps (h : form) : r = (firstOf ((List.range n).map fun j => trapOf (at_ j))).map fun t => ⟨t.cause, v⟩ := by
    show s.scaleTrap core ten v n = _
    rw [State.scaleTrap, formed.mpr h]
    rfl
  refine ⟨fun h => ?_, fun h ok => ?_, fun j t h inside fails ok => ?_⟩
  · show s.scaleTrap core ten v n = _
    rw [State.scaleTrap, Bool.eq_false_iff.mpr (mt formed.mp h)]
    rfl
  · rw [steps h, firstOf_map_none fun j inside => passes (ok j (List.mem_range.mp inside))]
    rfl
  · rw [steps h, firstOf_map_at (j := j) (p := j) (t := t) (by simp [inside]) (by rw [fails]; rfl) fun k q small is => by
      obtain rfl : k = q := by simpa using (List.getElem?_eq_some_iff.mp is).2
      exact passes (ok k small)]
    rfl

/-! ## The command -/

/-- R217: byte m of the registers from v on. -/
theorem getElem?_regRun (x : Ctx) (v : BitVec 5) {w m : Nat} (whole : (regRun x v w).length = 128 * w) (inside : m < 128 * w) :
    (regRun x v w)[m]? = some (BitVec.ofNat 8 (lane (x.getV (BitVec.ofNat 4 (v.toNat + m / (x.vlen / 8)))) 8 (m % (x.vlen / 8)))) := by
  have some_ : 0 < x.vlen / 8 := by rcases vlen_cases x with h | h <;> omega
  have run : regRun x v w = ((List.range (x.vlen / 8 * (16 - v.toNat))).map fun k =>
      BitVec.ofNat 8 (lane (x.getV (BitVec.ofNat 4 (v.toNat + k / (x.vlen / 8)))) 8 (k % (x.vlen / 8)))).take (128 * w) := by
    rw [regRun, ← flatMap_rows (fun q r => BitVec.ofNat 8 (lane (x.getV (BitVec.ofNat 4 (v.toNat + q))) 8 r)) some_, List.range_eq_range',
      List.drop_range', Nat.zero_add, Nat.mul_one, List.range'_eq_map_range, List.flatMap_map]
    simp only [vBytes, lanesOf, List.map_map, Function.comp_def]
  rw [run] at whole ⊢
  rw [List.length_take, List.length_map, List.length_range] at whole
  rw [List.getElem?_take_of_lt inside, List.getElem?_map, List.getElem?_range (by omega)]
  rfl

section
variable {gd : Guard} {i : Instr} {s : State} {c : MatCmd} (issues : Issues gd s) (cmd : s.ownCmd i s.cur s.rd s.stamp = c)
  (kind : c.kind = 1)

/-- The checks of an operation at issue. -/
def State.checks (s : State) (c : MatCmd) : Option Trap := firstOf [c.alignTrap, s.cmdImpure c, s.cmdTrap s.core s.rd.ten s.rd c]

theorem owner_of_owns (owns : s.owns s.cur = true) : (s.unit s.core).owner = s.cur ∧ (s.unit s.core).claimed = true := by
  simp only [State.owns, Bool.and_eq_true, beq_iff_eq] at owns
  exact ⟨owns.2, owns.1.2⟩

include issues

/-- R208: the slot is not the owner. -/
theorem matOp_denied (denied : s.owns s.cur = false) :
    matOp gd i s = .next (s.takeTrap s.cur ⟨0x10, if (s.unit s.core).claimed then BitVec.ofNat 64 (s.unit s.core).owner else 0⟩) := by
  rw [matOp, half_runs gd s _ issues.1 issues.2, State.ifOwner, denied]
  rfl

variable (owns : s.owns s.cur = true)
include cmd kind owns

/-- R217, R219: the formats or the registers are refused. -/
theorem matOp_form (form : c.formsOk = false) : matOp gd i s = .next (s.takeTrap s.cur ⟨0x01, s.raw⟩) := by
  rw [matOp, half_runs gd s _ issues.1 issues.2, State.ifOwner, if_pos owns]
  dsimp only
  rw [cmd, if_neg (by simp [kind]), form]
  rfl

variable (form : c.formsOk = true)
include form

theorem matOp_checks {t : Trap} (fails : s.checks c = some t) :
    matOp gd i s = .next (s.takeTrap s.cur t) := by
  rw [matOp, half_runs gd s _ issues.1 issues.2, State.ifOwner, if_pos owns]
  dsimp only
  rw [cmd, if_neg (by simp [kind]), form, show firstOf _ = _ from fails]
  rfl

/-- R229: the unit takes the command, or has nothing to do. -/
theorem matOp_passes (passes : s.checks c = none) :
    matOp gd i s = .next (if c.steps ≤ s.rd.mkstepNo then s.upd (Ctx.setMkstep 0)
      else s.afterStores i (s.cmdWaits c) [] fun u =>
        if u.slow || (u.unit s.core).op.isSome || !(u.unit s.core).queue.isEmpty then u.parkAt u.cur .matrix i []
        else (State.unitRun s.core (c.steps + 33) ((u.parkAt u.cur .matrix i []).unitStart s.core)).finish) := by
  rw [matOp, half_runs gd s _ issues.1 issues.2, State.ifOwner, if_pos owns]
  dsimp only
  rw [cmd, if_neg (by simp [kind]), form, show firstOf _ = _ from passes]
  simp only [kind, true_and, if_true]
  rfl

end

/-! ## The checks -/

/-- The own-cluster address that names a pair in a trap. -/
def padAt (p : MatPair × Nat) : W64 := BitVec.ofNat 64 (0x2000800000000000 + p.1.base)

/-- R218: the offsets of a pair are multiples of 8. -/
def PadAligned (p : MatPair × Nat) : Prop := p.1.base % 8 = 0 ∧ p.1.rpitch % 8 = 0 ∧ p.1.tpitch % 8 = 0

theorem unaligned_iff (p : MatPair × Nat) : p.1.unaligned = true ↔ ¬PadAligned p := by
  simp only [MatPair.unaligned, PadAligned, Bool.or_eq_true, bne_iff_ne]
  tauto

/-- R218: the check of a pair's alignment. -/
def alignTrapOf (p : MatPair × Nat) : Option Trap := if p.1.unaligned then some ⟨0x03, ownSpad p.1.base⟩ else none

theorem alignTrapOf_cases (p : MatPair × Nat) :
    (PadAligned p → alignTrapOf p = none) ∧ (¬PadAligned p → alignTrapOf p = some ⟨0x03, padAt p⟩) := by
  unfold alignTrapOf
  exact ⟨fun h => if_neg (mt (unaligned_iff p).mp (not_not_intro h)),
    fun h => (if_pos ((unaligned_iff p).mpr h)).trans (by rw [ownSpad_eq]; rfl)⟩

section
variable (s : State) (core ten : Nat) (c : MatCmd)

/-- R218, R223: the dwords of n steps of a pair lie in the scratchpad of the cluster. -/
def PadRanged (n : Nat) (p : MatPair × Nat) : Prop :=
  p.1.bad = false ∧ 4 * p.2 ≤ p.1.rpitch ∧
    p.1.base + (n - 1) * p.1.tpitch + 31 * p.1.rpitch + 4 * p.2 ≤ s.spadSize (caX core / 4) (caY core / 4)

/-- R223: the check of a pair's range. -/
def rangeTrap (n : Nat) (p : MatPair × Nat) : Option Trap :=
  if p.1.bad || decide (p.1.rpitch < 4 * p.2) || decide (s.spadSize (clusterX core) (clusterY core) < p.1.extent p.2 n) then
    some ⟨0x04, ownSpad p.1.base⟩
  else none

theorem rangeTrap_cases (n : Nat) (p : MatPair × Nat) :
    (PadRanged s core n p → rangeTrap s core n p = none) ∧ (¬PadRanged s core n p → rangeTrap s core n p = some ⟨0x04, padAt p⟩) := by
  have fails : (p.1.bad || decide (p.1.rpitch < 4 * p.2) || decide (s.spadSize (clusterX core) (clusterY core) < p.1.extent p.2 n)) = true ↔
      ¬PadRanged s core n p := by
    simp only [PadRanged, MatPair.extent, clusterX, clusterY, Bool.or_eq_true, decide_eq_true_iff, not_and_or, not_le, Bool.not_eq_false,
      or_assoc]
    exact or_congr_right (or_congr_right decide_eq_true_iff)
  unfold rangeTrap
  exact ⟨fun h => if_neg (mt fails.mp (not_not_intro h)), fun h => (if_pos (fails.mpr h)).trans (by rw [ownSpad_eq]; rfl)⟩

/-- R223: the check of a pair's owner. -/
def ownTrap (p : MatPair × Nat) : Option Trap :=
  if ownerOk ten (smGet 0 s.sowner (clusterY core * 32 + clusterX core)) then none else some ⟨0x06, ownSpad p.1.base⟩

theorem ownTrap_cases (p : MatPair × Nat) :
    (padOpen s core ten → ownTrap s core ten p = none) ∧ (¬padOpen s core ten → ownTrap s core ten p = some ⟨0x06, padAt p⟩) := by
  unfold ownTrap
  exact ⟨fun h => if_pos ((padOpen_iff s core ten).mpr h),
    fun h => (if_neg (mt (padOpen_iff s core ten).mp h)).trans (by rw [ownSpad_eq]; rfl)⟩

/-- R223: the check of a decode table. -/
def tableTrap (r : W64) (x : DecTab) : Option Trap :=
  if fmtCode r = 3 ∧ !x.usable ten then some ⟨0x06, slotidOf (s.unit core).owner⟩ else none

theorem mmacTrap_eq : s.mmacTrap core ten c =
    (firstOf ((padsOf c).map (rangeTrap s core c.steps))).or
    ((firstOf ((scalesIn c).map fun v => (s.scaleTrap core ten v c.steps).filter fun t => t.cause == 0x04)).or
    ((firstOf ((padsOf c).map (ownTrap s core ten))).or
    ((firstOf ((scalesIn c).map fun v => s.scaleTrap core ten v c.steps)).or
    (firstOf [tableTrap s core ten c.regs.fmta c.regs.ta, tableTrap s core ten c.regs.fmtb c.regs.tb])))) := by
  have scales : (if fmtScaled c.regs.fmta then [s.scaleTrap core ten c.regs.scla c.steps] else []) ++
      (if fmtScaled c.regs.fmtb then [s.scaleTrap core ten c.regs.sclb c.steps] else []) =
      (scalesIn c).map fun v => s.scaleTrap core ten v c.steps := by
    rw [scalesIn, List.map_append, apply_ite (List.map _), apply_ite (List.map _)]
    rfl
  unfold State.mmacTrap
  dsimp only
  rw [scales, firstOf_append, firstOf_append, firstOf_append, firstOf_append, Option.or_assoc, Option.or_assoc, Option.or_assoc,
    List.map_map, padsOf_eq]
  rfl

variable {s core ten c}

theorem firstOf_own (opens : padsOf c = [] ∨ padOpen s core ten) : firstOf ((padsOf c).map (ownTrap s core ten)) = none := by
  rcases opens with none_ | opens
  · rw [none_]
    rfl
  · exact firstOf_map_none fun p _ => (ownTrap_cases s core ten p).1 opens

theorem mmacTrap_of_unranged {j : Nat} {p : MatPair × Nat} (at_ : (padsOf c)[j]? = some p) (fails : ¬PadRanged s core c.steps p)
    (before : ∀ k q, k < j → (padsOf c)[k]? = some q → PadRanged s core c.steps q) : s.mmacTrap core ten c = some ⟨0x04, padAt p⟩ := by
  rw [mmacTrap_eq, firstOf_map_at at_ ((rangeTrap_cases s core c.steps p).2 fails) fun k q small is =>
    (rangeTrap_cases s core c.steps q).1 (before k q small is)]
  rfl

variable (ranged : ∀ p ∈ padsOf c, PadRanged s core c.steps p)
include ranged

theorem mmacTrap_of_scaleRange {t : Trap} (fails : ∃ v ∈ scalesIn c, s.scaleTrap core ten v c.steps = some t) (cause : t.cause = 4)
    (unique : ∀ u, (∃ v ∈ scalesIn c, s.scaleTrap core ten v c.steps = some u) → u.cause = 4 → u = t) : s.mmacTrap core ten c = some t := by
  have first : firstOf ((scalesIn c).map fun v => (s.scaleTrap core ten v c.steps).filter fun t => t.cause == 0x04) = some t := by
    refine firstOf_of_unique ?_ fun u inside => ?_
    · obtain ⟨v, inside, is⟩ := fails
      exact List.mem_map.mpr ⟨v, inside, by simp [is, cause]⟩
    · obtain ⟨v, inside, is⟩ := List.mem_map.mp inside
      obtain ⟨is, four⟩ := Option.filter_eq_some_iff.mp is
      exact unique u ⟨v, inside, is⟩ (by simpa using four)
  rw [mmacTrap_eq, firstOf_map_none fun p inside => (rangeTrap_cases s core c.steps p).1 (ranged p inside), first]
  rfl

variable (fit : ∀ v ∈ scalesIn c, ∀ t, s.scaleTrap core ten v c.steps = some t → t.cause ≠ 4)
include fit

theorem mmacTrap_of_fit : s.mmacTrap core ten c = (firstOf ((padsOf c).map (ownTrap s core ten))).or
    ((firstOf ((scalesIn c).map fun v => s.scaleTrap core ten v c.steps)).or
    (firstOf [tableTrap s core ten c.regs.fmta c.regs.ta, tableTrap s core ten c.regs.fmtb c.regs.tb])) := by
  rw [mmacTrap_eq, firstOf_map_none fun p inside => (rangeTrap_cases s core c.steps p).1 (ranged p inside),
    firstOf_map_none (l := scalesIn c) fun v inside => ?_]
  · rfl
  · cases is : s.scaleTrap core ten v c.steps with
    | none => rfl
    | some t => exact (Option.filter_some ..).trans (if_neg (by simpa using fit v inside t is))

theorem mmacTrap_of_shut {j : Nat} {p : MatPair × Nat} (at_ : (padsOf c)[j]? = some p) (shut : ¬padOpen s core ten)
    (before : ∀ k q, k < j → (padsOf c)[k]? = some q → padOpen s core ten) : s.mmacTrap core ten c = some ⟨0x06, padAt p⟩ := by
  rw [mmacTrap_of_fit ranged fit, firstOf_map_at at_ ((ownTrap_cases s core ten p).2 shut) fun k q small is =>
    (ownTrap_cases s core ten q).1 (before k q small is)]
  rfl

variable (opens : padsOf c = [] ∨ padOpen s core ten)
include opens

theorem mmacTrap_of_scale {t : Trap} (fails : ∃ v ∈ scalesIn c, s.scaleTrap core ten v c.steps = some t)
    (unique : ∀ u, (∃ v ∈ scalesIn c, s.scaleTrap core ten v c.steps = some u) → u = t) : s.mmacTrap core ten c = some t := by
  rw [mmacTrap_of_fit ranged fit, firstOf_own opens, firstOf_of_unique (List.mem_map.mpr fails) fun u inside =>
    unique u (List.mem_map.mp inside)]
  rfl

theorem mmacTrap_of_table (scales : ∀ v ∈ scalesIn c, s.scaleTrap core ten v c.steps = none)
    (denied : ¬((c.regs.fmta.toNat % 16 = 3 → c.regs.ta.usable ten = true) ∧ (c.regs.fmtb.toNat % 16 = 3 → c.regs.tb.usable ten = true))) :
    s.mmacTrap core ten c = some ⟨0x06, slotidOf (s.unit core).owner⟩ := by
  have table (r : W64) (x : DecTab) : tableTrap s core ten r x =
      if ¬(r.toNat % 16 = 3 → x.usable ten = true) then some ⟨0x06, slotidOf (s.unit core).owner⟩ else none := by
    rw [tableTrap, fmtCode_eq]
    refine if_congr ?_ rfl rfl
    rw [Classical.not_imp, Bool.not_eq_true', Bool.not_eq_true]
  rw [mmacTrap_of_fit ranged fit, firstOf_own opens, firstOf_map_none scales, Option.none_or, Option.none_or, table, table]
  by_cases usable : c.regs.fmta.toNat % 16 = 3 → c.regs.ta.usable ten = true
  · rw [if_neg (not_not_intro usable), if_pos fun h => denied ⟨usable, h⟩]
    rfl
  · rw [if_pos usable]
    rfl

end

/-! ## The order of the checks -/

section
variable {s : State} {c : MatCmd} (kind : c.kind = 1)
include kind

theorem alignTrap_eq : c.alignTrap = firstOf ((padsOf c).map alignTrapOf) := by
  rw [MatCmd.alignTrap, kind, padsOf_eq]
  rfl

theorem checks_eq : s.checks c = c.alignTrap.or ((s.cmdImpure c).or (s.mmacTrap s.core s.rd.ten c)) := by
  rw [State.checks, State.cmdTrap, kind, firstOf]
  cases c.alignTrap <;> cases s.cmdImpure c <;> cases s.mmacTrap s.core s.rd.ten c <;> rfl

theorem checks_of_unaligned {j : Nat} {p : MatPair × Nat} (at_ : (padsOf c)[j]? = some p) (fails : ¬PadAligned p)
    (before : ∀ k q, k < j → (padsOf c)[k]? = some q → PadAligned q) : s.checks c = some ⟨0x03, padAt p⟩ := by
  rw [checks_eq kind, alignTrap_eq kind, firstOf_map_at at_ ((alignTrapOf_cases p).2 fails) fun k q small is =>
    (alignTrapOf_cases q).1 (before k q small is)]
  rfl

theorem cmdImpure_of_not_pure (impure : s.rd.pure = false) : s.cmdImpure c = none := by
  have never (ea : W64) (n : Nat) (st : Bool) : s.impure ea n st = false := by rw [State.impure, impure, Bool.false_and]
  simp only [State.cmdImpure, kind, never, firstOf_append, Bool.false_eq_true, if_false, ite_self]
  rw [firstOf_map_none fun p _ => rfl]
  rfl

theorem checks_of_aligned (impure : s.rd.pure = false) (aligned : ∀ p ∈ padsOf c, PadAligned p) :
    s.checks c = s.mmacTrap s.core s.rd.ten c := by
  rw [checks_eq kind, alignTrap_eq kind, cmdImpure_of_not_pure kind impure, firstOf_map_none fun p inside =>
    (alignTrapOf_cases p).1 (aligned p inside)]
  rfl

end

end Sys2Proof.Machine
end

section
/-!
PROOF. What a K-step reads does not change while a unit runs (R218, R223), and the tiles of a unit (R209).
-/

namespace Sys2Proof.Machine
open Claims

/-! ## States in which a step reads the same -/

/-- The memory of the cores and of the clusters, its marks, its sizes and its owners are the same. -/
structure SameReads (s t : State) : Prop where
  mem : t.mem = s.mem
  bad : t.bad = s.bad
  sowner : t.sowner = s.sowner
  towner : t.towner = s.towner
  spad32 : t.spad32 = s.spad32
  tbankOut : t.tbankOut = s.tbankOut

theorem SameReads.trans {s t u : State} (first : SameReads s t) (second : SameReads t u) : SameReads s u :=
  ⟨second.mem.trans first.mem, second.bad.trans first.bad, second.sowner.trans first.sowner, second.towner.trans first.towner,
    second.spad32.trans first.spad32, second.tbankOut.trans first.tbankOut⟩

theorem State.noteRow_bad (s : State) (pa : Nat) : (s.noteRow pa).bad = s.bad := by
  unfold State.noteRow State.rowFails
  split
  · rfl
  · dsimp only
    split_ifs
    · split <;> rfl
    · rfl

theorem State.correct_bad (s : State) (a n : Nat) : (s.correct a n).bad = s.bad := by
  unfold State.correct
  split
  · rfl
  · refine List.foldlRecOn _ _ (motive := fun t : State => t.bad = s.bad) rfl fun t same w _ => ?_
    unfold State.correctWord
    split
    · exact (State.noteRow_bad _ _).trans same
    · exact same

theorem sameReads_correctSpans (s : State) (l : List (Nat × Nat)) : SameReads s (s.correctSpans l) := by
  have stored := Stored.correctSpans s l
  refine ⟨List.foldlRecOn _ _ (motive := fun t : State => t.mem = s.mem) rfl fun t same e _ => (Laws.State.correct_mem t e.1 e.2).trans same,
    List.foldlRecOn _ _ (motive := fun t : State => t.bad = s.bad) rfl fun t same e _ => (State.correct_bad t e.1 e.2).trans same, ?_, ?_, ?_, ?_⟩
  all_goals
    unfold Stored at stored
    rw [stored]

section
variable {s t : State} (same : SameReads s t) (core ten : Nat)
include same

theorem SameReads.readBytes {a n : Nat} (plain : ∀ j, j < n → paIsStatus (a + j) = false) : t.readBytes a n = s.readBytes a n := by
  rw [State.readBytes_eq t a n plain, State.readBytes_eq s a n plain]
  exact List.map_congr_left fun j _ => State.byte_of_mem same.mem _

theorem SameReads.isBad (a : Nat) : t.isBad a = s.isBad a := congrArg (smGet false · (wordOf a)) same.bad

theorem SameReads.localAt (ea : W64) (n : Nat) : t.localAt core ten ea n = s.localAt core ten ea n := by
  have tcm (a : W64) : t.tcmAt core ten a = s.tcmAt core ten a := by
    unfold State.tcmAt State.tcmOk State.tcmOwner
    rw [same.tbankOut, same.towner]
  have spad (cx cy : Nat) (a : W64) : t.spadAt cx cy ten a = s.spadAt cx cy ten a := by
    unfold State.spadAt State.spadSize
    rw [same.spad32, same.sowner]
  unfold State.localAt
  simp only [tcm, spad]

end

/-! ## No status block among what a step reads -/

theorem caX_caY_lt (core : Nat) : caX core < 2 ^ 8 ∧ caY core < 2 ^ 8 := by
  unfold caX caY
  omega

theorem paIsStatus_of_lt {a : Nat} (low : a < 3 * 2 ^ 60) : paIsStatus a = false := by
  have : a / 2 ^ 60 ≠ 3 := by omega
  rw [paIsStatus, beq_eq_false_iff_ne.mpr this, Bool.false_and]

/-- A scratchpad offset of fewer than 48 bits is in no status block. -/
theorem plain_pad (core : Nat) {x j : Nat} (small : x < 2 ^ 48) (inside : j < 8) : paIsStatus (paSpad (caX core / 4) (caY core / 4) x + j) = false := by
  obtain ⟨_, _⟩ := caX_caY_lt core
  exact paIsStatus_of_lt (by unfold paSpad; omega)

theorem localAt_lt {s : State} {core ten : Nat} {ea : W64} {n pa : Nat} (placed : s.localAt core ten ea n = .ok pa) :
    pa < 2 * 2 ^ 60 + 2 ^ 50 := by
  obtain ⟨_, _⟩ := caX_caY_lt core
  have tcm (a : W64) (pa : Nat) (is : s.tcmAt core ten a = .at_ pa) : pa < 2 * 2 ^ 60 + 2 ^ 50 := by
    have := Nat.mod_lt (a.toNat / 2 ^ 0) (by decide : 0 < 2 ^ 17)
    simp only [State.tcmAt] at is
    split_ifs at is
    cases is
    simp only [paTcm, bitsAt]
    omega
  have spad (a : W64) (pa : Nat) (is : s.spadAt (clusterX core) (clusterY core) ten a = .at_ pa) : pa < 2 * 2 ^ 60 + 2 ^ 50 := by
    have := Nat.mod_lt (a.toNat / 2 ^ 0) (by decide : 0 < 2 ^ 21)
    simp only [State.spadAt] at is
    split_ifs at is
    cases is
    simp only [paSpad, bitsAt, clusterX, clusterY]
    omega
  unfold State.localAt at placed
  dsimp only at placed
  split at placed
  next x y here there =>
    cases placed
    split at here
    next x place =>
      cases here
      split at place
      · split_ifs at place
        exact tcm _ _ place
      · split_ifs at place
        exact tcm _ _ place
      · split_ifs at place
        exact spad _ _ place
      · cases place
    next => cases here
    next => cases here
  next => cases placed
  next => cases placed

/-- R218: a pair's dwords in the first 4,096 steps. -/
theorem place_lt (p0 p1 : W64) {w n i q : Nat} (width : w = 8 ∨ w = 16 ∨ w = 32) (step : n < 4096) (row : i < 32) :
    (pairOf p0 p1).place w n i q < 2 ^ 48 := by
  obtain ⟨base, -, rpitch, tpitch, -⟩ := pairOf_fields p0 p1
  have rows : i * (pairOf p0 p1).rpitch ≤ 32 * 2 ^ 20 := Nat.mul_le_mul row.le (rpitch ▸ (Nat.mod_lt _ (by decide)).le)
  have steps : n * (pairOf p0 p1).tpitch ≤ 4096 * 2 ^ 21 := Nat.mul_le_mul step.le (tpitch ▸ (Nat.mod_lt _ (by decide)).le)
  have start : (pairOf p0 p1).base < 2 ^ 21 := base ▸ Nat.mod_lt _ (by decide)
  have dword := Nat.mod_lt (q + i * (pairOf p0 p1).rot) (by omega : 0 < w / 2)
  unfold MatPair.place
  omega

section
variable {s t : State} (same : SameReads s t) (core ten : Nat)
include same

theorem SameReads.spadDwords {l : List Nat} (small : ∀ x ∈ l, x < 2 ^ 48) : t.spadDwords core ten l = s.spadDwords core ten l := by
  induction l with
  | nil => rfl
  | cons x l ih =>
    have rest := ih fun y inside => small y (List.mem_cons_of_mem x inside)
    have dword : t.readBytes (paSpad (clusterX core) (clusterY core) x) 8 = s.readBytes (paSpad (clusterX core) (clusterY core) x) 8 :=
      same.readBytes fun j inside => plain_pad core (small x List.mem_cons_self) inside
    unfold State.spadDwords
    dsimp only
    rw [rest, same.sowner, same.isBad, dword]

theorem SameReads.blockOf (reg : Option (List Byte)) (p0 p1 : W64) {w n : Nat} (width : w = 8 ∨ w = 16 ∨ w = 32) (step : n < 4096) :
    t.blockOf core ten reg (pairOf p0 p1) w n = s.blockOf core ten reg (pairOf p0 p1) w n := by
  have some_ : 0 < w / 2 := by omega
  have dwords := same.spadDwords core ten (l := (List.range 32).flatMap fun r => (pairOf p0 p1).rowOffsets w n r) fun x inside => by
    rw [rowOffsets_eq _ some_] at inside
    obtain ⟨k, small, rfl⟩ := List.mem_map.mp inside
    exact place_lt p0 p1 width step (Nat.div_lt_of_lt_mul (List.mem_range.mp small))
  unfold State.blockOf
  rw [dwords]

theorem SameReads.scalesOf (r a : W64) (n : Nat) : t.scalesOf core ten r a n = s.scalesOf core ten r a n := by
  have firstBad (pa : Nat) : t.firstBad pa 32 = s.firstBad pa 32 := by
    unfold State.firstBad
    rw [funext same.isBad]
  unfold State.scalesOf
  dsimp only
  rw [same.localAt]
  cases placed : s.localAt core ten (a + w64 (32 * n)) 32 with
  | error t => rfl
  | ok pa =>
    have bytes := same.readBytes (a := pa) (n := 32) fun j inside => paIsStatus_of_lt (by have := localAt_lt placed; omega)
    simp only [State.badWord, firstBad, bytes]

theorem SameReads.kstep (c : MatCmd) {n : Nat} (step : n < 4096) (old : List Nat) : t.kstep core ten c n old = s.kstep core ten c n old := by
  unfold State.kstep
  dsimp only
  rw [same.blockOf core ten c.ra c.a0 c.a1 (matWidth_cases _) step, same.blockOf core ten c.rb c.b0 c.b1 (matWidth_cases _) step,
    same.scalesOf, same.scalesOf]

end

/-! ## Tiles -/

theorem smGet_append {α : Type} (d : α) (l m : SMap α) (n : Nat) :
    ((∀ e ∈ l, e.1 ≠ n) → smGet d (l ++ m) n = smGet d m n) ∧ ((∀ e ∈ m, e.1 ≠ n) → smGet d (l ++ m) n = smGet d l n) := by
  induction l with
  | nil =>
    refine ⟨fun _ => rfl, fun none_ => ?_⟩
    by_contra some_
    exact none_ _ (mem_of_smGet d some_) rfl
  | cons e l ih =>
    constructor
    · intro none_
      obtain ⟨first, rest⟩ := List.forall_mem_cons.mp none_
      exact (if_neg first).trans (ih.1 rest)
    · intro none_
      show (if e.1 = n then e.2 else smGet d (l ++ m) n) = if e.1 = n then e.2 else smGet d l n
      rw [ih.2 none_]

/-- The words that are not zero, listed by place. -/
theorem smGet_nonzero {k : Nat} (f : Nat → BitVec k) (a : Nat) (l : List Nat) (j : Nat) :
    smGet 0 ((l.map fun n => (a + n, f n)).filter fun e => e.2 != 0) (a + j) = if j ∈ l then f j else 0 := by
  induction l with
  | nil => rfl
  | cons n l ih =>
    rw [List.map_cons, List.filter_cons]
    by_cases zero : f n = 0
    · rw [if_neg (by simp [zero]), ih]
      by_cases here : j = n
      · rw [here, zero, ite_self, ite_self]
      · exact if_congr (by simp [here]) rfl rfl
    · rw [if_pos (by simpa using zero)]
      show (if a + n = a + j then f n else smGet 0 _ (a + j)) = _
      by_cases here : j = n
      · rw [if_pos (by rw [here]), if_pos (by simp [here]), here]
      · rw [if_neg (by omega), ih]
        exact if_congr (by simp [here]) rfl rfl

section
variable (u : MatUnit)

theorem setTile_tiles (T : Nat) (l : List Nat) (n : Nat) : smGet 0 (u.setTile T l).tiles n =
    if T * 1024 ≤ n ∧ n < (T + 1) * 1024 then BitVec.ofNat 32 ((l[n - T * 1024]?).getD 0) else smGet 0 u.tiles n := by
  obtain ⟨M, is⟩ : ∃ M, M = ((List.range 1024).map fun n => (T * 1024 + n, BitVec.ofNat 32 ((l[n]?).getD 0))).filter fun e => e.2 != 0 :=
    ⟨_, rfl⟩
  have parts : (u.setTile T l).tiles = (u.tiles.filter fun e => decide (e.1 < T * 1024)) ++ M ++
      u.tiles.filter fun e => decide ((T + 1) * 1024 ≤ e.1) := by rw [is]; rfl
  have low : ∀ e ∈ u.tiles.filter fun e => decide (e.1 < T * 1024), e.1 < T * 1024 :=
    fun e inside => by simpa using (List.mem_filter.mp inside).2
  have high : ∀ e ∈ u.tiles.filter fun e => decide ((T + 1) * 1024 ≤ e.1), (T + 1) * 1024 ≤ e.1 :=
    fun e inside => by simpa using (List.mem_filter.mp inside).2
  have mid : ∀ e ∈ M, T * 1024 ≤ e.1 ∧ e.1 < (T + 1) * 1024 := by
    intro e inside
    rw [is] at inside
    obtain ⟨k, small, rfl⟩ := List.mem_map.mp (List.mem_filter.mp inside).1
    have := List.mem_range.mp small
    exact ⟨by omega, by dsimp only; omega⟩
  rw [parts]
  by_cases here : T * 1024 ≤ n ∧ n < (T + 1) * 1024
  · obtain ⟨j, rfl⟩ := Nat.exists_eq_add_of_le here.1
    rw [if_pos here, (smGet_append 0 _ _ _).2 fun e inside => by have := high e inside; omega,
      (smGet_append 0 _ _ _).1 fun e inside => by have := low e inside; omega, is,
      smGet_nonzero (fun n => BitVec.ofNat 32 ((l[n]?).getD 0)) (T * 1024), if_pos (List.mem_range.mpr (by omega)), Nat.add_sub_cancel_left]
  · rw [if_neg here]
    by_cases under : n < T * 1024
    · rw [(smGet_append 0 _ _ n).2 fun e inside => by have := high e inside; omega,
        (smGet_append 0 _ _ n).2 fun e inside => by have := mid e inside; omega,
        smGet_filter 0 _ (fun k => decide (k < T * 1024)), if_pos (by simpa using under)]
    · rw [(smGet_append 0 _ _ n).1 fun e inside => ?_, smGet_filter 0 _ (fun k => decide ((T + 1) * 1024 ≤ k)),
        if_pos (by rw [decide_eq_true_iff]; omega)]
      rcases List.mem_append.mp inside with inside | inside
      · have := low e inside
        omega
      · have := mid e inside
        omega

theorem length_tile (T : Nat) : (u.tile T).length = 1024 := by simp [MatUnit.tile]

theorem tile_lt (T : Nat) : ∀ x ∈ u.tile T, x < 2 ^ 32 := by
  intro x inside
  obtain ⟨n, -, rfl⟩ := List.mem_map.mp inside
  exact BitVec.isLt _

theorem getElem?_tileOf (T : Nat) {n : Nat} (inside : n < 1024) : (u.tile T)[n]? = some (smGet 0 u.tiles (T * 1024 + n)).toNat := by
  simp [MatUnit.tile, inside]

theorem tile_setTile_eq (T : Nat) (l : List Nat) {m : List Nat} (size : m.length = 1024)
    (is : ∀ n, n < 1024 → m[n]? = some (BitVec.ofNat 32 ((l[n]?).getD 0)).toNat) : (u.setTile T l).tile T = m := by
  refine List.ext_getElem? fun n => ?_
  by_cases inside : n < 1024
  · rw [getElem?_tileOf _ T inside, setTile_tiles, if_pos (by omega), Nat.add_sub_cancel_left, is n inside]
  · rw [List.getElem?_eq_none (by rw [length_tile]; omega), List.getElem?_eq_none (by omega)]

theorem tile_setTile {T : Nat} {l : List Nat} (size : l.length = 1024) (small : ∀ x ∈ l, x < 2 ^ 32) : (u.setTile T l).tile T = l :=
  tile_setTile_eq u T l size fun n inside => by
    rw [List.getElem?_eq_getElem (by omega), Option.getD_some, toNat_ofNat_of_lt (small _ (List.getElem_mem _))]

theorem tile_setTile_nil (T : Nat) : (u.setTile T []).tile T = List.replicate 1024 0 :=
  tile_setTile_eq u T [] List.length_replicate fun n inside => by
    rw [List.getElem?_replicate, if_pos inside]
    rfl

theorem tile_setTile_ne {T j : Nat} (other : j ≠ T) (l : List Nat) : (u.setTile T l).tile j = u.tile j := by
  refine List.map_congr_left fun n inside => ?_
  have := List.mem_range.mp inside
  rw [setTile_tiles, if_neg (by omega)]

end

/-! ## The new elements fit a tile -/

theorem deliver32_lt (rm : Rnd) (v : FVal) : (fmt32.deliver rm v).1 < 2 ^ 32 :=
  Fmt.deliver_lt_width_of_any (f := fmt32) (shape_etyFmt .f32 false) rm v

theorem chooseElem_lt (rm : Rnd) {old : Nat} (small : old < 2 ^ 32) (v : FVal) (less : Bool) : (chooseElem rm old v less).1 < 2 ^ 32 := by
  have picks (p : Bool) : (if p then fmt32.deliver rm v else (old, 0)).1 < 2 ^ 32 := by
    cases p with
    | false => exact small
    | true => exact deliver32_lt rm v
  have nan : fmt32.nan < 2 ^ 32 := by decide
  unfold chooseElem
  dsimp only
  generalize ((fmt32.value old).quiet.isNan || v.isNan) = lost
  cases lost with
  | false => exact picks _
  | true => exact nan

theorem stepElem_lt (sr : Nat) (rm : Rnd) {old : Nat} (small : old < 2 ^ 32) (a b : List FVal) : (stepElem sr rm old a b).1 < 2 ^ 32 := by
  unfold stepElem
  dsimp only
  split
  · split
    · exact small
    · exact deliver32_lt rm _
  · exact chooseElem_lt rm small _ _
  · exact chooseElem_lt rm small _ _
  · exact chooseElem_lt rm small _ _
  · dsimp only
    split <;> decide

theorem stepInt_lt (old : Nat) (a b : List Int) : stepInt old a b < 2 ^ 32 := by
  have := stepInt_eq old a b
  omega

theorem kstep_fits {s : State} {core ten : Nat} {c : MatCmd} {n : Nat} {old l : List Nat} {fl : FlagSet} (size : old.length = 1024)
    (small : ∀ x ∈ old, x < 2 ^ 32) (is : s.kstep core ten c n old = .ok (l, fl)) : l.length = 1024 ∧ ∀ x ∈ l, x < 2 ^ 32 := by
  have element (e : Nat) : (old[e]?).getD 0 < 2 ^ 32 := by
    cases at_ : old[e]? with
    | none => decide
    | some x => exact small x (List.mem_of_getElem? at_)
  rcases stepReads_or_strikes s core ten c n old with ⟨A, B, oa, ob, reads⟩ | ⟨t, isT, -⟩
  · by_cases int : c.sr = 1
    · rw [(Prod.mk.inj (Except.ok.inj (is.symm.trans (reads.kstep_int size int)))).1]
      refine ⟨by simp, fun x inside => ?_⟩
      obtain ⟨e, -, rfl⟩ := List.mem_map.mp inside
      exact stepInt_lt _ _ _
    · rw [(Prod.mk.inj (Except.ok.inj (is.symm.trans (reads.kstep_float size int)))).1]
      refine ⟨by simp, fun x inside => ?_⟩
      obtain ⟨y, mem, rfl⟩ := List.mem_map.mp inside
      obtain ⟨e, -, rfl⟩ := List.mem_map.mp mem
      exact stepElem_lt _ _ (element e) _ _
  · cases is.symm.trans isT

end Sys2Proof.Machine
end

section
/-!
PROOF. The run of a unit over the steps of its owner's `mmac` (R214, R223, R229): each step applies the K-step to the tile; the last
one, or a fault, ends the operation.
-/

namespace Sys2Proof.Machine
open Claims

/-! ## The unit of a core -/

@[simp] theorem State.unit_setUnit (s : State) (core : Nat) (u : MatUnit) : (s.setUnit core u).unit core = u := smGet_set_same _ _ _ _

theorem State.opOver_of_not_ending {s : State} {core : Nat} (stays : (s.unit core).ending = false) :
    s.opOver core = s.setUnit core { s.unit core with op := none } := by
  rw [State.opOver, State.settleClaim, State.unit_setUnit, stays]
  rfl

theorem Stored.unit {s t : State} (h : Stored s t) (core : Nat) : t.unit core = s.unit core := by unfold Stored at h; rw [h]; rfl

theorem Stored.slot {s t : State} (h : Stored s t) (k : Nat) : t.slot k = s.slot k := congrArg (smGet Slot.free · k) h.slots

theorem Stored.cur {s t : State} (h : Stored s t) : t.cur = s.cur := by unfold Stored at h; rw [h]

/-- An `mmac`. -/
def IsMmac (i : Instr) : Prop := ∃ gd T a b z bv av sr steps, i = .mmac gd T a b z bv av sr steps

/-! ## A unit at work -/

/-- The unit of the executing slot's core is at the given step of the slot's own command c, with the given elements in its tile and the
given flags, and the slot waits for it. -/
structure Working (s : State) (i : Instr) (c : MatCmd) (n : Nat) (tile : List Nat) (flags : FlagSet) (w : State) : Prop where
  reads : SameReads s w
  cur : w.cur = s.cur
  slot : ∃ k, w.slot s.cur = { s.me with st := .park .matrix i [] k }
  unit : w.unit s.core = { s.unit s.core with op := some ⟨c, true, n, false⟩, flags := flags, tiles := (w.unit s.core).tiles }
  tile : (w.unit s.core).tile c.tile = tile
  others : ∀ j, j ≠ c.tile → (w.unit s.core).tile j = (s.unit s.core).tile j

/-- The operation of the executing slot's unit is over, with the given reply to the slot and the slot's context x. -/
structure Ended (s : State) (i : Instr) (c : MatCmd) (reply : Option Trap) (x : Ctx) (tile : List Nat) (flags : FlagSet) (w : State) : Prop where
  reads : SameReads s w
  cur : w.cur = s.cur
  slot : ∃ k, w.slot s.cur = { s.me with ctx := x, st := .park (.reply reply) i [] k }
  unit : w.unit s.core = { s.unit s.core with op := none, flags := flags, tiles := (w.unit s.core).tiles }
  tile : (w.unit s.core).tile c.tile = tile
  others : ∀ j, j ≠ c.tile → (w.unit s.core).tile j = (s.unit s.core).tile j

section
variable {s : State} {i : Instr} {c : MatCmd} {n : Nat} {tile : List Nat} {flags : FlagSet} {w : State}
  (working : Working s i c n tile flags w)
include working

theorem Working.correctSpans (l : List (Nat × Nat)) : Working s i c n tile flags (w.correctSpans l) := by
  have stored := Stored.correctSpans w l
  have unit := stored.unit s.core
  refine ⟨working.reads.trans (sameReads_correctSpans w l), stored.cur.trans working.cur, ?_, ?_, ?_, ?_⟩
  · rw [stored.slot]
    exact working.slot
  · rw [unit]
    exact working.unit
  · rw [unit]
    exact working.tile
  · rw [unit]
    exact working.others

/-- The unit takes the elements that a step gives. -/
theorem Working.stepped {l : List Nat} (size : l.length = 1024) (small : ∀ x ∈ l, x < 2 ^ 32) (n' : Nat) (f : FlagSet) :
    Working s i c n' l (flags ||| f) (w.setUnit s.core
      { (w.unit s.core).setTile c.tile l with flags := (w.unit s.core).flags ||| f, op := some ⟨c, true, n', false⟩ }) := by
  refine ⟨working.reads.trans ⟨rfl, rfl, rfl, rfl, rfl, rfl⟩, working.cur, working.slot, ?_, ?_, fun j other => ?_⟩
  · rw [State.unit_setUnit, working.unit]
    rfl
  · rw [State.unit_setUnit]
    exact tile_setTile _ size small
  · rw [State.unit_setUnit]
    exact (tile_setTile_ne _ other l).trans (working.others j other)

variable (owner : (s.unit s.core).owner = s.cur) (stays : (s.unit s.core).ending = false)
include owner stays

theorem Working.owner_ending : (w.unit s.core).owner = s.cur ∧ (w.unit s.core).ending = false := by
  rw [working.unit]
  exact ⟨owner, stays⟩

/-- The unit is rid of its operation. -/
theorem Working.opOver {v : State} {reply : Option Trap} {x : Ctx} (reads : SameReads w v) (cur : v.cur = w.cur)
    (unit : v.unit s.core = w.unit s.core) (slot : ∃ k, v.slot s.cur = { s.me with ctx := x, st := .park (.reply reply) i [] k }) :
    Ended s i c reply x tile flags (v.opOver s.core) := by
  rw [State.opOver_of_not_ending (by rw [unit]; exact (working.owner_ending owner stays).2), unit]
  refine ⟨working.reads.trans (reads.trans ⟨rfl, rfl, rfl, rfl, rfl, rfl⟩), cur.trans working.cur, slot, ?_, ?_, fun j other => ?_⟩
  · rw [State.unit_setUnit, working.unit]
  · rw [State.unit_setUnit]
    exact working.tile
  · rw [State.unit_setUnit]
    exact working.others j other

/-- R223: a fault ends the operation at its step. -/
theorem Working.opFault (kind : c.kind = 1) (t : Trap) :
    Ended s i c (some t) (s.me.ctx.setMkstep n) tile flags (w.opFault s.core ⟨c, true, n, false⟩ t) := by
  obtain ⟨own, -⟩ := working.owner_ending owner stays
  obtain ⟨k, slot⟩ := working.slot
  have is : w.opFault s.core ⟨c, true, n, false⟩ t =
      ((w.modSlot s.cur fun x => { x with ctx := x.ctx.setMkstep n }).reply s.cur (some t)).opOver s.core := by
    rw [State.opFault]
    dsimp only
    rw [if_pos rfl, if_pos kind, own]
  rw [is]
  refine working.opOver owner stays ⟨rfl, rfl, rfl, rfl, rfl, rfl⟩ rfl rfl ⟨k, ?_⟩
  rw [State.reply, State.slot_modSlot_same, State.slot_modSlot_same, slot]

/-- R214: the last step ends the operation and clears `mkstep`. -/
theorem Working.opDone (ready : s.me.after = none) (mmac : IsMmac i) :
    Ended s i c none (s.me.ctx.setMkstep 0) tile flags (w.opDone s.core ⟨c, true, n, false⟩ 0) := by
  obtain ⟨own, -⟩ := working.owner_ending owner stays
  obtain ⟨k, slot⟩ := working.slot
  obtain ⟨gd, T, a, b, z, bv, av, sr, steps, rfl⟩ := mmac
  have is : w.opDone s.core ⟨c, true, n, false⟩ 0 = ((w.deliver s.cur (Ctx.setMkstep 0)).reply s.cur none).opOver s.core := by
    rw [State.opDone]
    dsimp only
    rw [if_pos rfl, own, slot]
  rw [is]
  refine working.opOver owner stays ⟨rfl, rfl, rfl, rfl, rfl, rfl⟩ rfl rfl ⟨k, ?_⟩
  rw [State.reply, State.deliver, State.slot_modSlot_same, State.slot_modSlot_same, slot, Slot.write]
  dsimp only
  rw [ready]

end

/-! ## The steps -/

section
variable {s : State} {i : Instr} {c : MatCmd} (owner : (s.unit s.core).owner = s.cur) (stays : (s.unit s.core).ending = false)
  (tenant : (s.unit s.core).tenant = s.rd.ten) (kind : c.kind = 1)

theorem MatUnit.with_op {u : MatUnit} {o : MatOp} (is : u.op = some o) : u = { u with op := some o } := by
  cases u
  cases is
  rfl

section
variable {n : Nat} (early : n < 4096) {tile : List Nat} {flags : FlagSet} {w : State} (working : Working s i c n tile flags w)
include tenant kind early working

theorem Working.unitStep_eq : ∃ v, Working s i c n tile flags v ∧ v.unit s.core = w.unit s.core ∧
    w.unitStep s.core = match s.kstep s.core s.rd.ten c n tile with
      | .error t => v.opFault s.core ⟨c, true, n, false⟩ t
      | .ok (l, f) =>
        let u := { (w.unit s.core).setTile c.tile l with flags := (w.unit s.core).flags ||| f }
        if c.steps ≤ n + 1 then (v.setUnit s.core u).opDone s.core ⟨c, true, n, false⟩ 0
        else if u.ending then (v.setUnit s.core u).opCut s.core ⟨c, true, n, false⟩ (n + 1)
        else v.setUnit s.core { u with op := some ⟨c, true, n + 1, false⟩ } := by
  have op : (w.unit s.core).op = some ⟨c, true, n, false⟩ := by rw [working.unit]
  have ten : (w.unit s.core).tenant = s.rd.ten := by rw [working.unit, ← tenant]
  have corrected := working.correctSpans (w.stepSpans s.core s.rd.ten c n)
  refine ⟨_, corrected, (Stored.correctSpans w _).unit s.core, ?_⟩
  rw [← corrected.reads.kstep s.core s.rd.ten c early tile, State.unitStep]
  dsimp only
  rw [op]
  dsimp only
  rw [kind, if_pos rfl, ten, working.tile]
  rfl

include owner stays

theorem Working.unitStep_fault {t : Trap} (fails : s.kstep s.core s.rd.ten c n tile = .error t) :
    Ended s i c (some t) (s.me.ctx.setMkstep n) tile flags (w.unitStep s.core) := by
  obtain ⟨v, at_, -, is⟩ := working.unitStep_eq tenant kind early
  rw [is, fails]
  exact at_.opFault owner stays kind t

variable (size : tile.length = 1024) (small : ∀ x ∈ tile, x < 2 ^ 32) {l : List Nat} {f : FlagSet}
  (ok : s.kstep s.core s.rd.ten c n tile = .ok (l, f))
include size small ok

theorem Working.unitStep_next (more : n + 1 < c.steps) : Working s i c (n + 1) l (flags ||| f) (w.unitStep s.core) := by
  obtain ⟨length, fits⟩ := kstep_fits size small ok
  obtain ⟨v, at_, unit, is⟩ := working.unitStep_eq tenant kind early
  have goesOn := (working.owner_ending owner stays).2
  rw [is, ok]
  dsimp only
  rw [if_neg (by omega), if_neg (by rw [show (MatUnit.setTile _ _ _).ending = _ from goesOn]; decide), ← unit]
  exact at_.stepped length fits (n + 1) f

theorem Working.unitStep_last (ready : s.me.after = none) (mmac : IsMmac i) (last : c.steps ≤ n + 1) :
    Ended s i c none (s.me.ctx.setMkstep 0) l (flags ||| f) (w.unitStep s.core) := by
  obtain ⟨length, fits⟩ := kstep_fits size small ok
  obtain ⟨v, at_, unit, is⟩ := working.unitStep_eq tenant kind early
  have op : (v.unit s.core).op = some ⟨c, true, n, false⟩ := by rw [at_.unit]
  rw [is, ok]
  dsimp only
  rw [if_pos last, ← unit, MatUnit.with_op (u := { (v.unit s.core).setTile c.tile l with flags := (v.unit s.core).flags ||| f }) op]
  exact (at_.stepped length fits n f).opDone owner stays ready mmac

end

/-- The flags of k steps from the first on, over those before. -/
def flagsAfter (flags : Nat → FlagSet) (first k : Nat) (before : FlagSet) : FlagSet :=
  (List.range k).foldl (fun f n => f ||| flags (first + n)) before

theorem flagsAfter_succ (flags : Nat → FlagSet) (first k : Nat) (before : FlagSet) :
    flagsAfter flags first (k + 1) before = flagsAfter flags first k before ||| flags (first + k) := by
  rw [flagsAfter, flagsAfter, List.range_succ, List.foldl_append]
  rfl

theorem Ended.unitRun {reply : Option Trap} {x : Ctx} {tile : List Nat} {flags : FlagSet} {w : State}
    (ended : Ended s i c reply x tile flags w) (fuel : Nat) : State.unitRun s.core fuel w = w := by
  cases fuel with
  | zero => rfl
  | succ fuel =>
    have op : (w.unit s.core).op = none := by rw [ended.unit]
    rw [State.unitRun, op]
    rfl

theorem Working.unitRun_succ {n : Nat} {tile : List Nat} {flags : FlagSet} {w : State} (working : Working s i c n tile flags w) (fuel : Nat) :
    State.unitRun s.core (fuel + 1) w = State.unitRun s.core fuel (w.unitStep s.core) := by
  have op : (w.unit s.core).op = some ⟨c, true, n, false⟩ := by rw [working.unit]
  rw [State.unitRun, op]
  rfl

section
variable (few : c.steps ≤ 4096) {first : Nat} {tile : Nat → List Nat} {flags : Nat → FlagSet} {before : FlagSet} {w : State}
  (working : Working s i c first (tile first) before w) (size : (tile first).length = 1024) (small : ∀ x ∈ tile first, x < 2 ^ 32)
include owner stays tenant kind few working size small

/-- R214: the unit takes the steps in order. -/
theorem Working.unitRun_steps (k : Nat) (more : first + k < c.steps)
    (ok : ∀ n, first ≤ n → n < first + k → s.kstep s.core s.rd.ten c n (tile n) = .ok (tile (n + 1), flags n)) (fuel : Nat) :
    (tile (first + k)).length = 1024 ∧ (∀ x ∈ tile (first + k), x < 2 ^ 32) ∧
      ∃ v, Working s i c (first + k) (tile (first + k)) (flagsAfter flags first k before) v ∧
        State.unitRun s.core (k + fuel) w = State.unitRun s.core fuel v := by
  induction k generalizing fuel with
  | zero => exact ⟨size, small, w, working, by rw [Nat.zero_add]⟩
  | succ k ih =>
    obtain ⟨length, fits, v, at_, is⟩ := ih (by omega) (fun n low high => ok n low (by omega)) (fuel + 1)
    have step := ok (first + k) (by omega) (by omega)
    obtain ⟨length', fits'⟩ := kstep_fits length fits step
    refine ⟨length', fits', v.unitStep s.core, ?_, ?_⟩
    · rw [flagsAfter_succ]
      exact at_.unitStep_next owner stays tenant kind (by omega) length fits step (by omega)
    · rw [← at_.unitRun_succ, ← is, Nat.add_right_comm, Nat.add_assoc]

/-- R223: the run ends at the step that a fault strikes. -/
theorem Working.unitRun_fault {m : Nat} (low : first ≤ m) (high : m < c.steps)
    (ok : ∀ n, first ≤ n → n < m → s.kstep s.core s.rd.ten c n (tile n) = .ok (tile (n + 1), flags n)) {t : Trap}
    (fails : s.kstep s.core s.rd.ten c m (tile m) = .error t) (fuel : Nat) :
    ∃ f, Ended s i c (some t) (s.me.ctx.setMkstep m) (tile m) f (State.unitRun s.core (m - first + (fuel + 1)) w) := by
  obtain ⟨k, rfl⟩ := Nat.exists_eq_add_of_le low
  obtain ⟨-, -, v, at_, is⟩ := working.unitRun_steps owner stays tenant kind few size small k high ok (fuel + 1)
  have ended := at_.unitStep_fault owner stays tenant kind (by omega) fails
  rw [Nat.add_sub_cancel_left, is, at_.unitRun_succ, ended.unitRun]
  exact ⟨_, ended⟩

/-- R229: the run ends with the last step. -/
theorem Working.unitRun_last (ready : s.me.after = none) (mmac : IsMmac i) (low : first < c.steps)
    (ok : ∀ n, first ≤ n → n < c.steps → s.kstep s.core s.rd.ten c n (tile n) = .ok (tile (n + 1), flags n)) (fuel : Nat) :
    Ended s i c none (s.me.ctx.setMkstep 0) (tile c.steps) (flagsAfter flags first (c.steps - first) before)
      (State.unitRun s.core (c.steps - first + fuel) w) := by
  obtain ⟨k, last⟩ := Nat.exists_eq_add_of_lt low
  obtain ⟨length, fits, v, at_, is⟩ := working.unitRun_steps owner stays tenant kind few size small k (by omega)
    (fun n low high => ok n low (by omega)) (fuel + 1)
  have ended := at_.unitStep_last owner stays tenant kind (by omega) length fits (ok (first + k) (by omega) (by omega)) ready mmac (by omega)
  have count : c.steps - first = k + 1 := by omega
  rw [count, Nat.add_right_comm, Nat.add_assoc, is, at_.unitRun_succ, ended.unitRun, flagsAfter_succ, last]
  exact ended

end

end

end Sys2Proof.Machine
end

section
/-!
PROOF. `mmac` (R129, R213 to R223, R229): the unit takes the command of its owner and runs it to its end within the same step.
-/

namespace Sys2Proof.Machine
open Claims

/-! ## The unit takes the command -/

section
variable {i : Instr} {c : MatCmd} {s : State} (mmac : IsMmac i) (cmd : s.ownCmd i s.cur s.rd s.stamp = c) (kind : c.kind = 1)
  (takes : UnitTakes s c)

/-- The state in which the executing slot waits for its unit. -/
def State.forUnit (s : State) (i : Instr) : State := (s.setSlot s.cur (s.slot s.cur)).parkAt s.cur .matrix i []

theorem slot_forUnit (i : Instr) : (s.forUnit i).slot s.cur = { s.me with st := .park .matrix i [] s.stamp } := by
  have parked : (s.forUnit i).slot s.cur = { (s.setSlot s.cur (s.slot s.cur)).slot s.cur with st := .park .matrix i [] s.stamp } :=
    State.slot_modSlot_same { s.setSlot s.cur (s.slot s.cur) with stamp := s.stamp + 1 } s.cur _
  rw [parked, State.slot_setSlot_same]
  rfl

theorem cmdTrap_forUnit (core ten : Nat) (x : Ctx) (c : MatCmd) (kind : c.kind = 1) :
    (s.forUnit i).cmdTrap core ten x c = s.cmdTrap core ten x c := by
  unfold State.cmdTrap
  rw [kind]
  rfl

include mmac

theorem ownCmd_forUnit (k : Nat) (x : Ctx) (stamp : Nat) : (s.forUnit i).ownCmd i k x stamp = s.ownCmd i k x stamp := by
  obtain ⟨gd, T, a, b, z, bv, av, sr, steps, rfl⟩ := mmac
  rfl

include cmd kind takes

theorem unitStart_forUnit : (s.forUnit i).unitStart s.core = (s.forUnit i).opTake s.core c true s.rd.mkstepNo := by
  obtain ⟨src, -, -, -, owns, op, queue, ending, tenant, -, -, -, passes⟩ := takes
  obtain ⟨owner, claimed⟩ := owner_of_owns owns
  have unit : (s.forUnit i).unit s.core = s.unit s.core := rfl
  have ctx : s.me.ctx = s.rd := by rw [State.rd, src]
  have slot := slot_forUnit (s := s) i
  have waits : (s.forUnit i).ownWaiting s.core = some (s.stamp, i) := by
    obtain ⟨gd, T, a, b, z, bv, av, sr, steps, rfl⟩ := mmac
    rw [State.ownWaiting, unit, owner, slot]
    dsimp only
    rw [claimed, ending]
    rfl
  rw [State.unitStart]
  dsimp only
  rw [unit, op, waits, ending, queue, owner, slot, if_neg (by decide), if_neg Bool.false_ne_true]
  dsimp only
  rw [ctx, ownCmd_forUnit mmac, cmd, tenant, cmdTrap_forUnit s.core s.rd.ten s.rd c kind, passes]
  dsimp only
  rw [if_pos kind]

/-- R214: the unit begins at the step that `mkstep` holds, over zeros where the command clears the tile first. -/
theorem working_unitStart : Working s i c s.rd.mkstepNo
    (if s.rd.mkstepNo = 0 ∧ c.z = true then List.replicate 1024 0 else (s.unit s.core).tile c.tile) (s.unit s.core).flags
    ((s.forUnit i).unitStart s.core) := by
  rw [unitStart_forUnit mmac cmd kind takes, State.opTake]
  have unit : (s.forUnit i).unit s.core = s.unit s.core := rfl
  rw [unit]
  by_cases clears : s.rd.mkstepNo = 0 ∧ c.z = true
  · rw [if_pos clears, if_pos ⟨kind, clears.2, clears.1⟩]
    refine ⟨⟨rfl, rfl, rfl, rfl, rfl, rfl⟩, rfl, ⟨s.stamp, slot_forUnit i⟩, ?_, ?_, fun j other => ?_⟩
    · rw [State.unit_setUnit]
      rfl
    · rw [State.unit_setUnit]
      exact tile_setTile_nil _ _
    · rw [State.unit_setUnit]
      exact tile_setTile_ne _ other []
  · rw [if_neg clears, if_neg fun ⟨_, zero, first⟩ => clears ⟨first, zero⟩]
    refine ⟨⟨rfl, rfl, rfl, rfl, rfl, rfl⟩, rfl, ⟨s.stamp, slot_forUnit i⟩, ?_, ?_, fun j _ => ?_⟩
    · rw [State.unit_setUnit]
    · rw [State.unit_setUnit]
      rfl
    · rw [State.unit_setUnit]
      rfl

end

/-! ## The end of the bundle -/

section
variable {s : State} {i : Instr} {c : MatCmd} {x : Ctx} {tile : List Nat} {flags : FlagSet} {w : State}

theorem Ended.finish_trap {t : Trap} (ended : Ended s i c (some t) x tile flags w) : w.finish = w.takeTrap s.cur t := by
  obtain ⟨k, slot⟩ := ended.slot
  rw [State.finish, State.me, ended.cur, slot]

theorem Ended.finish_done (ended : Ended s i c none x tile flags w) :
    w.finish = w.modSlot s.cur fun y => { y with st := .run } := by
  obtain ⟨k, slot⟩ := ended.slot
  rw [State.finish, State.me, ended.cur, slot]

end

/-! ## The instruction -/

theorem setMkstep_step (x : Ctx) {m : Nat} (small : m < 4096) : (x.setMkstep m).cr.mkstep.toNat % 4096 = m := by
  show ((x.cr.mkstep &&& ~~~0xFFF#64) ||| BitVec.ofNat 64 (m % 2 ^ 12)).toNat % 2 ^ 12 = m
  rw [BitVec.toNat_or, BitVec.toNat_and, Nat.or_mod_two_pow, Nat.and_mod_two_pow, toNat_ofNat_of_lt (by omega),
    show (~~~0xFFF#64 : W64).toNat % 2 ^ 12 = 0 by decide, Nat.and_zero, Nat.zero_or, Nat.mod_mod, Nat.mod_eq_of_lt (show m < 2 ^ 12 from small)]

theorem setMkstep_zero (x : Ctx) : x.setMkstep 0 = { x with cr := { x.cr with mkstep := x.cr.mkstep &&& ~~~0xFFF#64 } } :=
  congrArg (fun v => { x with cr := { x.cr with mkstep := v } }) (BitVec.or_zero (x := x.cr.mkstep &&& ~~~0xFFF#64))

section
variable {gd : Guard} {i : Instr} {c : MatCmd} {s : State} (kind : c.kind = 1) (takes : UnitTakes s c)
include kind takes

theorem checks_of_takes : s.checks c = none := by
  obtain ⟨-, -, -, -, -, -, -, -, -, impure, -, align, passes⟩ := takes
  rw [State.checks, align, cmdImpure_of_not_pure kind impure, passes]
  rfl

variable (issues : Issues gd s) (cmd : s.ownCmd i s.cur s.rd s.stamp = c)
include issues cmd

/-- R214: all steps are done. -/
theorem matOp_over (over_ : c.steps ≤ s.rd.mkstepNo) : matOp gd i s = .next (s.upd (Ctx.setMkstep 0)) := by
  obtain ⟨-, -, -, -, owns, -, -, -, -, -, form, -, -⟩ := id takes
  rw [matOp_passes issues cmd kind owns form (checks_of_takes kind takes), if_pos over_]

/-- R229: the unit runs the command. -/
theorem matOp_runs (more : s.rd.mkstepNo < c.steps) :
    matOp gd i s = .next (State.unitRun s.core (c.steps + 33) ((s.forUnit i).unitStart s.core)).finish := by
  obtain ⟨-, -, out, fast, owns, op, queue, -, -, -, form, -, -⟩ := id takes
  have goes : s.afterStoresWith i [] (s.cmdWaits c) [] = fun f => f (s.setSlot s.cur (s.slot s.cur)) := by
    funext f
    rw [State.afterStoresWith, out, State.flushWhere_nil s s.cur _ out]
    rfl
  rw [matOp_passes issues cmd kind owns form (checks_of_takes kind takes), if_neg (by omega), State.afterStores, goes]
  dsimp only
  rw [show (s.setSlot s.cur (s.slot s.cur)).slow = false from fast,
    show (s.setSlot s.cur (s.slot s.cur)).unit s.core = s.unit s.core from rfl, op, queue]
  rfl

variable (mmac : IsMmac i) (few : c.steps ≤ 4096) (more : s.rd.mkstepNo < c.steps) {tile : Nat → List Nat}
  (start : tile s.rd.mkstepNo = if s.rd.mkstepNo = 0 ∧ c.z = true then List.replicate 1024 0 else (s.unit s.core).tile c.tile)
include mmac few more start

omit issues few more in
theorem working_start : Working s i c s.rd.mkstepNo (tile s.rd.mkstepNo) (s.unit s.core).flags ((s.forUnit i).unitStart s.core) ∧
    (tile s.rd.mkstepNo).length = 1024 ∧ ∀ x ∈ tile s.rd.mkstepNo, x < 2 ^ 32 := by
  have working := working_unitStart mmac cmd kind takes
  rw [start]
  refine ⟨working, ?_⟩
  rw [← working.tile]
  exact ⟨length_tile _ _, tile_lt _ _⟩

/-- R223: a fault strikes step m. -/
theorem matOp_faults {m : Nat} {e : Trap} (low : s.rd.mkstepNo ≤ m) (high : m < c.steps)
    (ok : ∀ n, s.rd.mkstepNo ≤ n → n < m → ∃ fl, s.kstep s.core s.rd.ten c n (tile n) = .ok (tile (n + 1), fl))
    (fails : s.kstep s.core s.rd.ten c m (tile m) = .error e) : ∃ w : State, matOp gd i s = .next (w.takeTrap s.cur e) ∧
      (w.unit s.core).op = none ∧ (w.unit s.core).tile c.tile = tile m ∧ w.me.ctx.cr.mkstep.toNat % 4096 = m ∧
      (∀ j, j ≠ c.tile → (w.unit s.core).tile j = (s.unit s.core).tile j) ∧ ∀ x, w.byte x = s.byte x := by
  obtain ⟨-, -, -, -, owns, -, -, ending, tenant, -, -, -, -⟩ := id takes
  obtain ⟨working, size, small⟩ := working_start kind takes cmd mmac start
  choose! flags steps using ok
  obtain ⟨f, ended⟩ := working.unitRun_fault (owner_of_owns owns).1 ending tenant kind few size small low high steps fails
    (c.steps + 32 - (m - s.rd.mkstepNo))
  rw [show m - s.rd.mkstepNo + (c.steps + 32 - (m - s.rd.mkstepNo) + 1) = c.steps + 33 by omega] at ended
  obtain ⟨k, slot⟩ := ended.slot
  refine ⟨_, by rw [matOp_runs kind takes issues cmd more, ended.finish_trap], by rw [ended.unit], ended.tile, ?_, ended.others,
    State.byte_of_mem ended.reads.mem⟩
  rw [State.me, ended.cur, slot]
  exact setMkstep_step _ (by omega)

/-- R229: all steps pass. -/
theorem matOp_completes {flags : Nat → FlagSet}
    (ok : ∀ n, s.rd.mkstepNo ≤ n → n < c.steps → s.kstep s.core s.rd.ten c n (tile n) = .ok (tile (n + 1), flags n)) :
    ∃ t, matOp gd i s = .next t ∧ UnitDone s t ∧ (t.unit s.core).tile c.tile = tile c.steps ∧
      (t.unit s.core).flags = flagsAfter flags s.rd.mkstepNo (c.steps - s.rd.mkstepNo) (s.unit s.core).flags ∧
      (∀ j, j ≠ c.tile → (t.unit s.core).tile j = (s.unit s.core).tile j) ∧
      live t = (live s).setMkstep 0 ∧ ∀ x, t.byte x = s.byte x := by
  obtain ⟨-, ready, -, -, owns, -, -, ending, tenant, -, -, -, -⟩ := id takes
  obtain ⟨working, size, small⟩ := working_start kind takes cmd mmac start
  obtain ⟨owner, claimed⟩ := owner_of_owns owns
  have ended := working.unitRun_last owner ending tenant kind few size small ready mmac more ok (s.rd.mkstepNo + 33)
  rw [show c.steps - s.rd.mkstepNo + (s.rd.mkstepNo + 33) = c.steps + 33 by omega] at ended
  have is := matOp_runs kind takes issues cmd more
  generalize State.unitRun s.core (c.steps + 33) ((s.forUnit i).unitStart s.core) = w at ended is
  obtain ⟨k, slot⟩ := ended.slot
  have me : (w.modSlot s.cur fun y => { y with st := .run }).me = { s.me with ctx := s.me.ctx.setMkstep 0, st := .run } := by
    rw [State.me, show (w.modSlot s.cur _).cur = s.cur from ended.cur, State.slot_modSlot_same, slot]
  refine ⟨w.modSlot s.cur fun y => { y with st := .run }, is.trans (congrArg _ ended.finish_done), ⟨?_, ended.cur, ?_, ?_, ?_⟩, ended.tile, ?_,
    ended.others, ?_, State.byte_of_mem ended.reads.mem⟩
  · rw [me]
  · exact (congrArg MatUnit.op ended.unit).trans rfl
  · exact (congrArg MatUnit.claimed ended.unit).trans claimed
  · exact (congrArg MatUnit.owner ended.unit).trans owner
  · exact (congrArg MatUnit.flags ended.unit).trans rfl
  · rw [live, me, live, ready]
    rfl

end

end Sys2Proof.Machine
end

section
/-!
PROOF. Matrix multiplication (R129, R213 to R223, R229).
-/

namespace Sys2Proof.Machine
open Claims

/-- R217: the bytes of an operand that `mmac` takes from registers. -/
theorem getElem?_operand {x : Ctx} {f : W64} {v : BitVec 5} {inRegs : Bool} {l : List Byte} {m : Nat}
    (is : (if inRegs then some (regRun x v (matWidth (fmtCode f))) else none) = some l) (whole : l.length = 128 * matWidth (f.toNat % 16))
    (inside : m < 128 * matWidth (f.toNat % 16)) : l[m]? =
      some (BitVec.ofNat 8 (lane (x.getV (BitVec.ofNat 4 (v.toNat + m / (x.vlen / 8)))) 8 (m % (x.vlen / 8)))) := by
  rw [fmtCode_eq] at is
  cases inRegs with
  | false => cases is
  | true =>
    cases is
    exact getElem?_regRun x v whole inside

/-- Settles O39: the semirings element by element (`stepInt_eq`, `combines_stepElem`, `stepElem_five`), what a K-step reads and what
strikes it (`StepReads`, `stepFault_kstep`), the checks at issue in their order, and an induction over the steps of the unit that keeps
`Working` until the operation has `Ended`. -/
theorem matrixMultiply : Obligations.MatrixMultiply := by
  unfold Obligations.MatrixMultiply
  refine ⟨stepInt_eq, fun rm old a b same some_ => ⟨fun sr kind => combines_stepElem kind rm old same some_, (stepElem_five rm old a b).1,
    (stepElem_five rm old a b).2, fun finA finB num zero => stepElem_of_dot_zero rm old finA finB num zero⟩,
    fun s core ten c n old => stepFault_kstep c n old, ?_, pairOf_fields, ?_⟩
  · intro s core ten c n old l fl size is fa fb fin wa wb
    rcases stepReads_or_strikes s core ten c n old with ⟨A, B, oa, ob, reads⟩ | ⟨t, fails, -⟩
    · have operandA := reads.operandA
      have operandB := reads.operandB
      rw [fmtCode_eq] at operandA operandB
      refine ⟨A, B, _, _, operandA, operandB, reads.scalesA, reads.scalesB, reads.length size is, fun int => ?_, fun float => ?_⟩
      · exact (reads.int_step size is int).2
      · obtain ⟨-, flags, elements⟩ := reads.float_step size is float
        refine ⟨_, _, flags, fun i j row column => ⟨by simp, by simp, fun k x at_ => ?_, fun k x at_ => ?_, elements i j row column⟩⟩
        · rw [eq_of_getElem?_row at_]
          exact elementOf_elemOf _ _ _ _ _ _
        · rw [eq_of_getElem?_row at_]
          exact elementOf_elemOf _ _ _ _ _ _
    · cases is.symm.trans fails
  · intro gd T a b z bv av sr steps s issues i c ns s0 u
    have kind : c.kind = 1 := rfl
    have mmac : IsMmac i := ⟨gd, T, a, b, z, bv, av, sr, steps, rfl⟩
    have few : c.steps ≤ 4096 := steps.isLt
    have first : s.rd.mkstepNo = s0 := bitsAt_low s.rd.cr.mkstep 11
    have start_ {tile : Nat → List Nat} (start : tile s0 = if s0 = 0 ∧ z = true then List.replicate 1024 0 else u.tile T.toNat) :
        tile s.rd.mkstepNo = if s.rd.mkstepNo = 0 ∧ c.z = true then List.replicate 1024 0 else (s.unit s.core).tile c.tile := by
      rw [first]
      exact start
    have exec_ : exec i s = matOp gd i s := rfl
    refine ⟨⟨rfl, rfl, rfl, rfl, rfl, ?_, ?_, ?_, ?_⟩, fun denied => matOp_denied issues denied,
      fun owns form => matOp_form issues rfl kind owns form, fun owns form => ?_, fun v n _ => scaleTrap_cases s s.core s.rd.ten v n,
      fun takes done => ?_, fun takes more tile start => ⟨fun m e low high ok fails => ?_, fun flags ok => ?_⟩⟩
    · rintro r v l w (⟨rfl, rfl, rfl⟩ | ⟨rfl, rfl, rfl⟩) is whole m inside
      · exact getElem?_operand is whole inside
      · exact getElem?_operand is whole inside
    · cases av <;> cases bv <;> exact ⟨rfl, rfl⟩
    · rintro rfl
      exact ⟨rfl, rfl⟩
    · rintro rfl
      exact ⟨rfl, rfl⟩
    · intro ten traps pads at_ aligned ranged first scale fit usable
      have traps_of {t : Trap} (is : s.checks c = some t) : traps t := matOp_checks issues rfl kind owns form is
      have traps_of_mmac (impure : s.rd.pure = false) (good : ∀ p ∈ pads, aligned p) {t : Trap} (is : s.mmacTrap s.core ten c = some t) :
          traps t := traps_of ((checks_of_aligned kind impure good).trans is)
      refine ⟨fun j p at_ fails before => traps_of (checks_of_unaligned kind at_ fails before), fun impure good => ⟨?_, fun within => ⟨?_, ?_⟩⟩⟩
      · exact fun j p at_ fails before => traps_of_mmac impure good (mmacTrap_of_unranged at_ fails before)
      · exact fun t fails cause unique => traps_of_mmac impure good (mmacTrap_of_scaleRange within fails cause unique)
      · refine fun fits => ⟨fun j p at_ shut before => ?_, fun opens => ⟨fun t fails unique => ?_, fun none_ denied => ?_⟩⟩
        · exact traps_of_mmac impure good (mmacTrap_of_shut within fits at_ shut before)
        · exact traps_of_mmac impure good (mmacTrap_of_scale within fits opens fails unique)
        · have is := mmacTrap_of_table within fits opens none_ denied
          rw [(owner_of_owns owns).1] at is
          exact traps_of_mmac impure good is
    · rw [exec_, matOp_over kind takes issues rfl (done.trans first.ge), funext setMkstep_zero]
    · obtain ⟨w, is, op, elements, step, others, bytes⟩ := matOp_faults kind takes issues rfl mmac few (first.trans_lt more) (start_ start)
        (first.le.trans low) high (fun n low high => ok n (first.ge.trans low) high) fails
      exact ⟨w, is, op, elements, step, fun j _ other => others j other, bytes⟩
    · obtain ⟨t, is, done, elements, raised, others, after_, bytes⟩ := matOp_completes kind takes issues rfl mmac few (first.trans_lt more)
        (start_ start) fun n low high => ok n (first.ge.trans low) high
      rw [first] at raised
      exact ⟨t, is, done, elements, raised, fun j _ other => others j other, after_.trans (setMkstep_zero _), bytes⟩

end Sys2Proof.Machine
end
